-- ==== Sys2Proof/Word.lean ====
section
/-! DEFINITION. The word types of the AK-32: bytes, the 32-bit register word (R9), device addresses. -/

namespace Sys2Proof

/-- One byte. -/
abbrev Byte := BitVec 8

/-- One 32-bit register or doorbell word (R9). -/
abbrev Word := BitVec 32

/-- A BAR0 offset: 64 MiB (R113). -/
abbrev Bar0Addr := BitVec 26

/-- A device physical address: 40 bits (R117, R158). -/
abbrev DevAddr := BitVec 40

end Sys2Proof
end

