-- ==== Sys2Proof/Syntax.lean ====
section
/-! DEFINITION. The commands of the AK-32, one constructor per row of spec/opcode_table.json, with the operands the
rules give them. What only the outside can know (a measured value, a received frame, the result of a self-check) is
an operand of the command that reports it. -/

namespace Sys2Proof

/-- Who makes a register access: the driver over PCIe or a Hearth core (R557, R582, R124 GP requester 0 and 1). -/
inductive Requester where
  | driver | firmware
  deriving DecidableEq, Repr, Inhabited

/-- The clocks of R64 that R65 watches. -/
inductive ClockId where
  | core | hearth | dram | pix | enc | reference | eth | fio | pcie
  | lane (n : Fin 16)
  deriving DecidableEq, Repr, Inhabited

/-- The four words of an engine command (R150). -/
structure Cmd where
  w0 : Word
  w1 : Word
  w2 : Word
  w3 : Word
  deriving DecidableEq, Repr, Inhabited

/-- An SMBus transfer as the carrier makes it (R44, R62): the 7-bit address, the Packet Error Code where the carrier
sends or asks for one, the 12 V input at that moment in mV, and whether 20 ms have passed since P12V and the SMBus
contacts mated. -/
structure SmbFrame where
  addr : BitVec 7
  pec : Option (BitVec 8)
  mv : BitVec 16
  settled : Bool
  deriving DecidableEq, Repr, Inhabited

/-- What a cold-start or warm-start step reports at its end (R86, R89, R581, R591). -/
structure StartReport where
  /-- Step 4: the main link is up and error-free. -/
  mainUp : Bool
  /-- Step 4: the fallback path is up. -/
  fallbackUp : Bool
  /-- Step 4: why the main link failed, coded as FIO_PATH byte 1. -/
  mainCause : BitVec 8
  /-- Step 7: unit indexes of R580 that failed their self-check or were recorded as failed. -/
  failedUnits : List (Fin 70)
  /-- Step 7: requantisation units that failed (R164). -/
  failedRq : List (Fin 32)
  /-- Step 3: Temper accepted the flash image (R550, R554). -/
  imageValid : Bool
  deriving DecidableEq, Repr, Inhabited

/-- A warm reset's starter among those with a row of their own (R77, R83). -/
inductive WarmStarter where
  | chipRst | firmware
  deriving DecidableEq, Repr, Inhabited

/-- What the stack reports for a word that a read or the scrub visits (R243). -/
inductive Upset where
  | clean | correctable | uncorrectable
  deriving DecidableEq, Repr, Inhabited

/-- Who made a DRAM read (R246). -/
inductive DramRequester where
  | billet
  | crop (job : Fin 512)
  | engineDma (job : Fin 512)
  | programFetch (engine : Fin 36)
  | hearth | bar2 | archive
  deriving DecidableEq, Repr, Inhabited

/-- A stack temperature region (R241). -/
inductive StackTemp where
  | normal | hot | above
  deriving DecidableEq, Repr, Inhabited

/-- The facts of a billet's manifest and container that admission and running use (R274, R275, R318). The container
itself is not given by the spec. -/
structure Billet where
  /-- Device address and length of the blob (R498). -/
  addr : DevAddr
  len : BitVec 32
  /-- The manifest's format version is one the firmware supports; the versions are not given. -/
  formatKnown : Bool
  /-- Share sizes: A0-A3, W0, P0 and X0 in 4 KiB units, N4 and N5 in 64 KiB units (R235). -/
  aUnits : BitVec 8
  wUnits : BitVec 8
  pUnits : BitVec 8
  xUnits : BitVec 8
  n4Units : BitVec 5
  n5Units : BitVec 5
  /-- Program-buffer commands on every Anvil and every Tongs engine (R167). -/
  anvCmds : BitVec 11
  tngCmds : BitVec 11
  /-- Job slots (R282). -/
  quota : BitVec 10
  /-- DRAM copies' addresses in stack 0 and stack 1 are found by the firmware (R245). -/
  copy0 : DevAddr
  copy1 : DevAddr
  primCam : Fin 8
  primEn : Bool
  failsafe : Bool
  refLine : BitVec 2
  prio : BitVec 3
  specEn : Bool
  /-- Actuator map: first column, last column, group, C_off (R309). -/
  actMap : List (BitVec 16 × BitVec 16 × BitVec 5 × BitVec 31)
  /-- Declared Bellows units per period in stack 0 and 1, and prot (R257). -/
  decl0 : BitVec 24
  decl1 : BitVec 24
  prot : Bool
  /-- SATBR thresholds (R195). -/
  thresholds : List (BitVec 32)
  /-- Remote wait entries: engine, entry, destination in the context's own shares, byte count, timeout in us (R291). -/
  waits : List (Fin 32 × Fin 16 × DevAddr × BitVec 32 × BitVec 16)
  /-- An early-exit head is present (R298), and E: the lines for which a box is open before it runs (R222). -/
  earlyExit : Bool
  exitLines : BitVec 16
  /-- Where the model's output tensor lies, the output window and the tensor's length (R285). -/
  outAt : DevAddr
  outWindow : DevAddr
  outLen : BitVec 32
  /-- Billet's input length for host jobs of kind 0 (R285). -/
  inputLen : BitVec 32
  /-- DRAM windows: base and length (R285). -/
  windows : List (DevAddr × BitVec 32)
  /-- Manifest size of the tensors of each step, for regeneration (R320). -/
  stepBytes : List (BitVec 32)
  /-- The device address where a step's tensors lie (R320). -/
  stepAddrs : List DevAddr
  /-- Logical engine of each step, 32 to 35 for Tongs (R318). -/
  stepEngines : List (Fin 36)
  /-- Entries of the flow table as the billet and the farm map give them: flow, its 64 bytes (R467). -/
  flows : List (BitVec 12 × List Byte)
  deriving DecidableEq, Repr, Inhabited

/-- A box of a box list (R19). -/
structure Box where
  first : BitVec 64
  last : BitVec 64
  col0 : BitVec 16
  col1 : BitVec 16
  object : BitVec 32
  camera : Fin 8
  noVerdict : Bool
  deriving DecidableEq, Repr, Inhabited

/-- A stream packet as the lane receiver hands it on (R345, R350). -/
structure StreamPacket where
  streamId : BitVec 8
  tag : BitVec 8
  codeViolations : BitVec 16
  disparityErrors : BitVec 16
  chars : BitVec 16
  crcOk : Bool
  deriving DecidableEq, Repr, Inhabited

/-- Why a binding timed out (R348 steps 3 and 4). -/
inductive BindPhase where
  | discovery | speed
  deriving DecidableEq, Repr, Inhabited

/-- Why a line overflows (R382), coded as LPL_OVF byte 1. -/
inductive OvfCause where
  | inputQueue | stagingRing | refusedWrite | instanceFault
  deriving DecidableEq, Repr, Inhabited

/-- Why the main isolation path is lost (R431), coded as FIO_PATH byte 1. -/
inductive PathCause where
  | alignment | slotErrors | fioclk | converter
  deriving DecidableEq, Repr, Inhabited

/-- The output diagnostics of R437. -/
inductive DiagKind where
  | ovl | therm | openOn | openOff | shortLp
  deriving DecidableEq, Repr, Inhabited

/-- Where a transmitted frame comes from (R453). -/
inductive TxSource where
  | slot (s : Fin 32)
  | ring (frame : List Byte) (wantStamp : Bool) (id : BitVec 16)
  deriving DecidableEq, Repr, Inhabited

/-- A Brynade packet's header fields and payload (R466). -/
structure BryPacket where
  src : BitVec 16
  dst : BitVec 16
  flow : BitVec 16
  flags : BitVec 8
  op : BitVec 8
  pseq : BitVec 32
  jseq : BitVec 32
  offset : BitVec 32
  payload : List Byte
  /-- Magic, version and reserved bytes are as R466 gives. -/
  wellFormed : Bool
  deriving DecidableEq, Repr, Inhabited

/-- A mailbox request's tag and reply area (R497). -/
structure MbxReq where
  tag : BitVec 32
  reply : BitVec 64
  deriving DecidableEq, Repr, Inhabited

/-- A decoded sample as the decoder's bitstream engine reports it (R512 to R517): its declared content and what the
bitstream yields. -/
structure SampleHeader where
  width : BitVec 17
  height : BitVec 17
  precision : BitVec 5
  comps : BitVec 3
  /-- Blocks (baseline), samples (lossless) or luma samples (H.265) declared. -/
  content : BitVec 48
  /-- Bytes of entropy-coded data L. -/
  dataBytes : BitVec 32
  syntaxOk : Bool
  supported : Bool
  /-- The entropy-coded data decodes, EOI is present (cause 5), and no H.265 error (cause 7). -/
  dataOk : Bool
  readOk : Bool
  deriving DecidableEq, Repr, Inhabited

/-- A fault as the collector receives it (R559, R560). -/
structure FaultReport where
  /-- Source ID of the block that records it (R488). -/
  src : BitVec 12
  /-- Page offset within the block. -/
  page : BitVec 7
  cause : BitVec 8
  /-- A residue error of a requantisation unit (cause 0xF0). -/
  residue : Bool
  /-- A second fault of the same page in the same cycle (R98). -/
  also : Option (BitVec 8)
  deriving DecidableEq, Repr, Inhabited

/-- The commands, in the order of spec/opcode_table.json. An operand with a default, left out, is the row as the table words
it. An RWAIT's row says nothing beside its words: whether it is first in its step is the state's own (R292). -/
inductive Instr where
  | stageMate (stage : Fin 4) (mating : Bool)
  | hotSwapOn
  | powerGood
  | presenceLost
  | undervoltageStop
  | overvoltageStop
  | breakerLatch
  | undervoltageHoldClear
  | modState (f : SmbFrame := default)
  | vin (f : SmbFrame)
  | iin (ma : BitVec 16) (f : SmbFrame := default)
  | tBase (t : BitVec 16) (f : SmbFrame := default)
  | tJmax (t : BitVec 16) (f : SmbFrame := default)
  | alertSrc (f : SmbFrame := default)
  | alertResponseRead (f : SmbFrame := default)
  | hold (f : SmbFrame := default) (v : Byte := 1)
  | holdRelease (f : SmbFrame := default) (v : Byte := 0)
  | coldReset (f : SmbFrame := default) (v : Byte := 0xa5)
  | breakerClear (f : SmbFrame := default) (v : Byte := 0xa5)
  | permitSwitchTest (short0 short1 : Bool)
  | permitDriveStop
  | thermalWarningEnter (base junction : Bool) (tb tj : BitVec 16)
  | thermalWarningLeave (base junction : Bool) (tb tj : BitVec 16)
  | thermalShutdown
  | thermalRecovery
  | clockLoss (clk : ClockId) (within600 : BitVec 8)
  | engineClockGate (e : Fin 36)
  | bankedRequest (v : Word)
  | shutdownRequest (v : Word)
  | shutdownProceed (results : List (Fin 70 × Fin 4))
  | wakeLatchSet (src : Fin 10)
  | bankedWake
  | stoppedPageAccess (addr : Bar0Addr) (isRead : Bool)
  | bankClearDone (b : Fin 202)
  | hostSessionReset
  | contextReset (c : Fin 8)
  | engineReset (e : Fin 36)
  | engineResetDone (e : Fin 36) (pass : Bool)
  | warmReset (by_ : WarmStarter)
  | chipRstCold
  | chipRstInvalid (v : Word)
  | warmResetEnd
  | railsOn
  | coldStartStepDone (step : Fin 11) (rep : StartReport)
  | warmStart
  | configParityScan (addr : Bar0Addr)
  | faultClr (page : BitVec 14) (causesGone : Bool)
  | parityInject (page : BitVec 14)
  | blkSnap (page : BitVec 14) (within256 : Bool := false)
  | chipSnap (within256 : Bool)
  | snapCapture (page : BitVec 14)
  | counterLowRead (addr : Bar0Addr)
  | registerAccessInvalid (addr : Bar0Addr) (isRead : Bool)
  | registerWrite (addr : Bar0Addr) (v : Word) (who : Requester)
  | claim (addr : Bar0Addr) (v : Word)
  | release (addr : Bar0Addr) (v : Word)
  | bar2Write (off : BitVec 36) (data : List (Option Byte))
  | bar2Read (off : BitVec 36) (len : Nat) (up : Upset := .clean)
  | nop (e : Fin 36) (c : Fin 8) (j : Fin 512) (w : Cmd)
  | load (e : Fin 32) (c : Fin 8) (j : Fin 512) (w : Cmd)
  | pass (e : Fin 32) (c : Fin 8) (j : Fin 512) (w : Cmd) (starved : Bool)
  | vec (e : Fin 36) (c : Fin 8) (j : Fin 512) (w : Cmd)
  | pool (e : Fin 36) (c : Fin 8) (j : Fin 512) (w : Cmd)
  | dma (e : Fin 36) (c : Fin 8) (j : Fin 512) (w : Cmd)
  | barrier (e : Fin 36) (c : Fin 8) (j : Fin 512) (w : Cmd)
  | barrierRelease (id : Fin 16) (mask : Word)
  | rwait (e : Fin 32) (c : Fin 8) (j : Fin 512) (w : Cmd) (u : Unit)
  | satbr (e : Fin 32) (c : Fin 8) (j : Fin 512) (w : Cmd)
  | stepEnd (e : Fin 36) (c : Fin 8) (j : Fin 512) (k : BitVec 16) (w : Cmd)
  | commandComplete (e : Fin 36) (c : Fin 8) (w : Cmd) (up : Upset := .clean)
  | stepWatchdog (e : Fin 36)
  | crop (t : Fin 4) (c : Fin 8) (j : Fin 512) (w : Cmd)
  | expand (t : Fin 4) (c : Fin 8) (j : Fin 512) (w : Cmd)
  | tpass (t : Fin 4) (c : Fin 8) (j : Fin 512) (w : Cmd)
  | softmax (t : Fin 4) (c : Fin 8) (j : Fin 512) (w : Cmd)
  | verdictFinal (t : Fin 4) (c : Fin 8) (j : Fin 512) (w : Cmd)
  | verdictEarlyExit (t : Fin 4) (c : Fin 8) (object : BitVec 32) (camera : Fin 8) (w : Cmd)
  | boxes (t : Fin 4) (c : Fin 8) (w : Cmd)
  | bankHandover (b : Fin 202) (v : Word)
  | bankHandoverDone (b : Fin 202)
  | bankPower (b : Fin 202) (v : Word)
  | bellowsPeriodBoundary
  | bellowsGrant (stack : Fin 2) (waiting : List (Fin 16 × BitVec 24)) (cycles : BitVec 32 := 1)
  | bellowsAdmission (entry : Fin 16) (reg : Fin 4) (v : Word)
  | periodChange (v : Word)
  | fieldBudgetReload
  | dramRead (addr : DevAddr) (who : DramRequester) (up : Upset)
  | dramRefresh (stack : Fin 2) (pc : Fin 32)
  | patrolScrub (stack : Fin 2) (up : Upset)
  | stackTemperatureChange (stack : Fin 2) (t : StackTemp)
  | admitContext (r : MbxReq) (c : Fin 8) (b : Billet)
  | contextAdmitted (c : Fin 8)
  | start (c : Fin 8) (standby : Bool)
  | stop (c : Fin 8)
  | swap (c c2 : Fin 8)
  | evict (c : Fin 8)
  | cancelSwap (c : Fin 8)
  | schCmdInvalid (v : Word)
  | evictionDone (c : Fin 8)
  | swapEffective (c : Fin 8)
  | contextDrained (c : Fin 8)
  | boxAdmit (c : Fin 8) (b : Box)
  | jobAdmit (c : Fin 8)
  | hostJobDoorbell (c : Fin 8) (v : Word)
  | jobComplete (j : Fin 512)
  | verdictLanding (j : Fin 512)
  | remoteWaitComplete (e : Fin 32) (c : Fin 8) (ent : Fin 16)
  | remoteWaitTimeout (e : Fin 32) (c : Fin 8) (ent : Fin 16) (j : Fin 512)
  | probeStart (c : Fin 8) (object : BitVec 32) (camera : Fin 8)
  | regenRequest (c : Fin 8)
  | xcheckCompare (slot : Fin 4)
  | xcheckArbitrationDone (slot : Fin 4)
  | laneLoss (n : Fin 16)
  | laneLocked (n : Fin 16) (ctle : BitVec 4) (dfe : BitVec 30 := 0) (eye : BitVec 10 := 0)
  | streamPacket (n : Fin 16) (p : StreamPacket)
  | packetSkewTimeout (k : Fin 8)
  | controlEventPacket (n : Fin 16) (data : List Byte)
  | imageHeader (k : Fin 8) (xsize : BitVec 24) (fmt : BitVec 3)
  | lineComplete (k : Fin 8) (pixels : List (BitVec 16))
  | triggerWindowExpiry (k : Fin 8)
  | cameraBind (k : Fin 8) (v : Word) (rmax : BitVec 32)
  | discoveryAnswer (n : Fin 16) (device : BitVec 16) (conn : BitVec 3) (fastUplink : Bool)
  | bindTimeout (k : Fin 8) (ph : BindPhase)
  | cameraUnbind (k : Fin 8) (v : Word)
  | cameraLossTimeout (k : Fin 8) (n : Fin 16)
  | gpTrigger (v : Word) (who : Requester)
  | prbsInjectOne (n : Fin 16)
  | prbsInjectPeriodic (n : Fin 16)
  | prbsLock (n : Fin 16)
  | prbsLockLost (n : Fin 16)
  | lplLine (k : Fin 8) (ovf : Option OvfCause)
  | lineStage (k : Fin 8)
  | lineReadback (n : Fin 4)
  | statsRecord (k : Fin 8)
  | lplPloadGo (k : Fin 8) (v : Word)
  | paramArm (k : Fin 8) (readOk : Bool)
  | encoderCount (e : Fin 4) (a b : Bool) (interval : BitVec 40) (illInWindow : BitVec 8)
  | cableCheckTimeout (e : Fin 4) (pair : Fin 3)
  | indexEdge (e : Fin 4)
  | encoderStop (e : Fin 4)
  | clrFlt (e : Fin 4) (pairAgrees : Bool) (illInWindow : BitVec 8)
  | encCntWrite (e : Fin 4) (v : Word)
  | encZrouteWrite (v : Word)
  | ltgArm (l : Fin 4)
  | ltgDisarm (l : Fin 4)
  | ltgHit (l : Fin 4)
  | ltgPulseEnd (l : Fin 4)
  | eventTimerExpiry (t : Fin 8)
  | rtuDeadline (ent : Fin 4096)
  | commitPoint (ent : Fin 4096)
  | launch (ent : Fin 4096)
  | targetCompare (ent : Fin 4096)
  | actuatorOff (ch : Fin 16)
  | maxOnCutoff (ch : Fin 16)
  | rtuOvfClear (v : Word)
  | rtuGroupArm (g : Fin 32)
  | rtuGroupDisarm (g : Fin 32)
  | groupClaimRelease (g : Fin 32)
  | isolationMainLoss (cause : PathCause)
  | fieldSlotTimeout
  | mainReq (linkGood : Bool)
  | pickPhaseEnd (ch : Fin 16)
  | outputDiagnostic (ch : Fin 16) (kind : DiagKind) (arose : Bool)
  | outputRetry (ch : Fin 16)
  | outputClr (ch : Fin 16)
  | gpOutputChange (ch : Fin 16) (lvl : Bool) (who : Requester)
  | measureRequest (v : Word)
  | measureResult (ch : Fin 16) (value : BitVec 16)
  | mirrorEnable (v : Word)
  | mirrorDisable (v : Word)
  | inputEdge (ch : Fin 16) (level : Bool) (age : BitVec 32) (count : BitVec 32) (nearSwitch restart : Bool) (errored : BitVec 8 := 0)
  | wireBreak (ch : Fin 16)
  | supplyMeasurement (vin : BitVec 12) (iin : BitVec 12)
  | sensorSupplyOverload (k : Fin 8)
  | sensorSupplyRetry (k : Fin 8)
  | frameReceive (p : Fin 2) (frame : List Byte) (fcsOk : Bool)
  | sfpOvercurrent (p : Fin 2)
  | sfpRst (p : Fin 2) (v : Word)
  | plugInModuleChange (p : Fin 2) (inserted : Bool)
  | linkStateChange (p : Fin 2) (up : Bool)
  | ptpRateWrite (v : Word)
  | ptpStep (v : Word)
  | ptpKick (v : Word)
  | ptpHoldoverExpiry
  | ppsInEdge
  | ppsOutPulse
  | tsqPop (p : Fin 2)
  | lslotGo (p : Fin 2) (s : Fin 32) (v : Word) (who : Requester)
  | lslotCopyDone (p : Fin 2) (s : Fin 32) (readOk : Bool)
  | lslotCancel (p : Fin 2) (s : Fin 32) (v : Word) (who : Requester)
  | launchFetch (p : Fin 2) (s : Fin 32)
  | frameTransmit (p : Fin 2) (src : TxSource)
  | sendTransfer (c : Fin 8)
  | brynadeData (p : Fin 2) (pkt : BryPacket)
  | brynadeAck (p : Fin 2) (pkt : BryPacket)
  | brynadeNak (p : Fin 2) (pkt : BryPacket)
  | ackTimer (flow : BitVec 12)
  | retransmitTimeout (flow : BitVec 13)
  | brynadeColl (p : Fin 2) (pkt : BryPacket)
  | barrierJoin (id : BitVec 8)
  | broadcast (id : BitVec 8) (payload : List Byte)
  | collReset (id : BitVec 8) (arg : BitVec 16)
  | eventRecordWrite
  | erqConsumerDoorbell (q : Fin 16) (v : Word)
  | msixUnmask (q : Fin 16)
  | erqEnable (q : Fin 16) (v : Word)
  | targetWrite (v : Word)
  | mailboxEnable (v : Word)
  | mailboxDoorbell (v : Word)
  | getInfo (r : MbxReq)
  | bindCam (r : MbxReq) (k : Fin 8) (regs : List Word) (rmax : BitVec 32)
  | unbindCam (r : MbxReq) (k : Fin 8)
  | paramLoad (r : MbxReq) (k : Fin 8) (addr : DevAddr) (line : BitVec 64)
  | netCfg (r : MbxReq) (p : Fin 2) (cfg : Word) (macLo macHi corr ip : Word)
  | startupSet (r : MbxReq) (addr : DevAddr) (len : BitVec 32) (valid : Bool)
  | perstAssert
  | perstDeassert
  | functionLevelReset
  | linkDown
  | hostSessionResetDone
  | pcieReplay (aer : Option Bool := none)
  | arcStart (s : Fin 64) (v : Word)
  | arcStop (s : Fin 64) (v : Word)
  | arcAbort (s : Fin 64) (v : Word)
  | orderTableDone (s : Fin 64)
  | sampleDecoded (s : Fin 64) (pos : BitVec 25) (h : SampleHeader)
  | batchClose (s : Fin 64)
  | fwStage (r : MbxReq) (addr : DevAddr) (len : BitVec 32)
  | fwHandover (r : MbxReq) (timeout : BitVec 32)
  | quietPoint
  | handoverTimeout
  | temperHandover
  | tmpAlive (who : Requester) (pauseUs : BitVec 32)
  | handoverFallback (pauseUs : BitVec 32)
  | fwCommit (r : MbxReq)
  | svnCommit (r : MbxReq)
  | attest (r : MbxReq) (nonce : List Byte) (addr : DevAddr)
  | ownerKey (r : MbxReq) (addr : DevAddr) (len : BitVec 32) (slot : Fin 4) (key : List Byte)
  | lcAdvance (r : MbxReq) (addr : DevAddr) (len : BitVec 32) (addr2 : DevAddr) (len2 : BitVec 32)
  | identity (r : MbxReq) (addr : DevAddr) (cert : Option (DevAddr × BitVec 32))
  | testOpen (r : MbxReq) (addr : DevAddr) (len : BitVec 32)
  | rootRevoke (r : MbxReq) (addr : DevAddr) (len : BitVec 32)
  | recoveryGo (v : Word)
  | faultReceived (f : FaultReport)
  | placementReloadDone
  | unfence (v : Word) (linkGood : Bool)
  | hearthKick (cores : BitVec 4) (who : Requester)
  | hearthWatchdogExpiry (within600 : BitVec 8)
  | hearthException (within600 : BitVec 8)
  | hearthRestart (pauseUs : BitVec 32)
  | quenchWaveStart (group wave : BitVec 8) (units : List (Fin 70)) (powerOk : Bool)
  | quenchWaveSkip (units : List (Fin 70))
  | quenchPowerAbort (units : List (Fin 70))
  | quenchWaveEnd (results : List (Fin 70 × Fin 4))
  | fallbackPathLoss
  | wireBreakClear (ch : Fin 16)
  | totalFieldCurrentHigh
  | laneRetrainFail (n : Fin 16)
  | pcieLinkUp (speed : BitVec 3) (width : BitVec 5)
  | configurationSpaceWrite (bme msixEn funcMask pmeEn : Bool) (bar : Option (Fin 6 × Word) := none)
  | standbySectionPowerLoss
  | pllBRelockTimeout
  | arcBconsWrite (s : Fin 64) (v : Word)
  | arcManConsWrite (s : Fin 64) (v : Word)
  deriving DecidableEq, Repr

end Sys2Proof
end

