-- ==== Sys2Proof/Decode.lean ====
section
/-! DEFINITION. The table gives no row any bits: the AK-32's commands come from pins, protocols and software, not from
words. So no word spells a command. -/

namespace Sys2Proof

/-- The command a word of nbits bits spells by the table: none, since no row has bits. [DESIGN CHOICE: log entry 2.] -/
def decodeTableWord (_nbits _w : Nat) : Option Instr := none

end Sys2Proof
end

