-- ==== Sys2Proof/Config.lean ====
section
/-! DEFINITION. What the spec leaves to an implementation or leaves free: constants without a body, so that nothing
can be proved of their values. -/

namespace Sys2Proof

/-- Which of the cycles of each 25 that are not yet chosen is the next short one (R455 fixes how many are short, not
which). [DESIGN CHOICE: log entry 5.] -/
opaque Config.ptpShortPick : Nat → Nat

/-- The i-th draw of a free value. [DESIGN CHOICE: log entry 7.] -/
opaque Config.freeNat : Nat → Nat

/-- The data of a GET_INFO reply for the running image's version bytes and the module serial (R498); its layout and the
manifest format versions supported are not given. [DESIGN CHOICE: log entry 42.] -/
opaque Config.infoData : List Byte → Nat → List Byte

/-- ETH_TS_CORR_INT of a port by speed and FEC setting, and whether it is the receive term (R458, R476).
[DESIGN CHOICE: log entry 89.] -/
opaque Config.tsCorrInt : Nat → Nat → Bool → Nat

/-- The resident weights and parameters that a billet blob holds for a placement on h engines (R275 step 4): logical
bank, offset in the context's share, bytes. The container's layout is not given. [DESIGN CHOICE: log entry 108.] -/
opaque Config.residentImage : List Byte → Nat → List (Nat × Nat × List Byte)

/-- Where in a billet the layer program of a logical engine lies, for a placement on h engines: h, engine (R166, R275
step 3). [DESIGN CHOICE: log entry 108.] -/
opaque Config.programAt : List Byte → Nat → Nat → Nat

/-- Where the folded variant of a logical engine's layer program begins, from the program's base: billet hash, h, engine
(R147, R199). [DESIGN CHOICE: log entry 161.] -/
opaque Config.foldedAt : List Byte → Nat → Nat → Nat

/-- Bytes of a pixel of a kind-1 host job's image, by billet hash (R285); 0 acts as 1. [DESIGN CHOICE: log entry 57.] -/
opaque Config.pixelBytes : List Byte → Nat

/-- The digest of the shutdown Quench plan inside a running image, by the image's own digest (R576, R580).
[DESIGN CHOICE: log entry 126.] -/
opaque Config.planDigest : List Byte → Nat

/-- What a bitstream of a format with so many pictures before it decodes to (R512 to R515): component, column and line of
its own plane to sample; how many pixels a chroma sample covers across and down; whether its APP14 marker states
transform 0. [DESIGN CHOICE: log entry 103.] -/
opaque Config.archPlane : List Byte → Nat → Nat → Nat → Nat → Nat → Nat
/-- [DESIGN CHOICE: log entry 103.] -/
opaque Config.archSub : List Byte → Nat × Nat
/-- [DESIGN CHOICE: log entry 103.] -/
opaque Config.archRaw : List Byte → Bool

/-- What the start-up set of flash says (R86, R89, R252, R440): ctx_req and permit_en, "start untested", what the arming
step arms, the DRAM set aside for rings, and the ring depth in us that R34 asks for, by camera. -/
structure StartupSet where
  ctxReq : BitVec 8
  permitEn : Bool
  startUntested : Bool
  mirror : Option (Fin 16)
  groups : List (Fin 32)
  ltgs : List (Fin 4)
  rings : List (DevAddr × BitVec 36)
  depths : List (BitVec 32)
  deriving DecidableEq, Repr, Inhabited

/-- The start-up set that the bytes of its flash region hold, by offset in the region; its layout is not given.
[DESIGN CHOICE: log entry 45.] -/
opaque Config.startupSet : List (Nat × Byte) → StartupSet

/-! ### Layouts that the spec names and does not give -/

/-- What a 64-byte vector descriptor says (R145, R146, R183 to R187, R194, R200, R205, R223). A format is coded 0 INT8,
1 UINT8, 2 INT16, 3 INT32, 4 E4M3, 5 E5M2, 6 FP16, 7 BF16, 8 FP32; banks 0 to 3 are A0 to A3. Places are byte offsets. -/
structure VecDesc where
  floating : Bool
  /-- The tile: its width and height, and its first channel. -/
  tw : BitVec 16
  th : BitVec 16
  ch0 : BitVec 16
  /-- IN reads the context's P0 share, else an A bank. -/
  inP0 : Bool
  inBank : Fin 4
  inFmt : Fin 9
  inBase : BitVec 20
  inCh : BitVec 20
  inRow : BitVec 20
  inCol : BitVec 20
  biasOn : Bool
  scaleOn : Bool
  recBank : Fin 4
  recBase : BitVec 20
  chans : BitVec 16
  /-- 0 none, 1 ReLU, 2 clip, 3 leaky ReLU, 4 table. -/
  actKind : Fin 5
  lo : Word
  hi : Word
  alpha : Word
  x0 : Word
  exp : BitVec 9
  tabBank : Fin 4
  tabAt : BitVec 20
  /-- 0 none, 1 add, 2 multiply, 3 max, 4 min; the requantisation of its operand. -/
  eltKind : Fin 5
  eltScale : Bool
  eltBank : Fin 4
  eltFmt : Fin 9
  eltBase : BitVec 20
  eltCh : BitVec 20
  eltRow : BitVec 20
  eltCol : BitVec 20
  zE : BitVec 16
  qE : BitVec 31
  shE : BitVec 6
  shM : BitVec 6
  eScale : Word
  zY : BitVec 16
  /-- Output: bank, place, the output row and column of the tile's first element, phase planes down and across minus 1,
  the replication of an upsample as a power of two. -/
  outBank : Fin 4
  outFmt : Fin 9
  outBase : BitVec 20
  outCh : BitVec 20
  outRow : BitVec 20
  outCol : BitVec 20
  outPhase : BitVec 20
  oy0 : BitVec 16
  ox0 : BitVec 16
  phY : Fin 8
  phX : Fin 8
  up : Fin 3
  outSh : BitVec 5
  /-- Count index (R194). -/
  count : Option (BitVec 8)
  /-- The window of a POOL: height and width minus 1, strides minus 1, max or average with its divisor. -/
  kh : Fin 8
  kw : Fin 8
  stepY : Fin 8
  stepX : Fin 8
  poolMax : Bool
  poolN : BitVec 16
  deriving DecidableEq, Repr, Inhabited

/-- What a crop descriptor says (R218). in* describe a kind-1 host job's image, whose pixel format the spec does not
place. -/
structure CropDesc where
  wo : BitVec 11
  ho : BitVec 11
  bilinear : Bool
  margin : BitVec 8
  out16 : Bool
  /-- Output layout: a sample's place from the row, the column, the channel and, in phase planes, the plane (R205). -/
  outBase : BitVec 20
  outRow : BitVec 20
  outCol : BitVec 20
  outCh : BitVec 20
  outPhase : BitVec 20
  phY : Fin 8
  phX : Fin 8
  inChans : BitVec 2
  inWide : Bool
  inDepth : BitVec 5
  deriving DecidableEq, Repr, Inhabited

/-- What a head descriptor says (R221). -/
structure HeadDesc where
  classes : BitVec 9
  floating : Bool
  logitsAt : BitVec 20
  tableAt : BitVec 20
  x0 : Word
  exp : BitVec 9
  mask : BitVec 256
  confMin : BitVec 16
  lowReject : Bool
  probsAt : BitVec 20
  deriving DecidableEq, Repr, Inhabited

/-- What a box descriptor says (R216). aspect: none, or height and width of the ratio. -/
structure BoxDesc where
  mapAt : BitVec 20
  threshold : Byte
  gy : BitVec 7
  gx : BitVec 7
  camera : Fin 8
  aspect : Option (BitVec 16 × BitVec 16)
  deriving DecidableEq, Repr, Inhabited

/-- [DESIGN CHOICE: log entry 106.] -/
opaque Config.vecDesc : List Byte → VecDesc
/-- [DESIGN CHOICE: log entry 106.] -/
opaque Config.cropDesc : List Byte → CropDesc
/-- [DESIGN CHOICE: log entry 106.] -/
opaque Config.headDesc : List Byte → HeadDesc
/-- [DESIGN CHOICE: log entry 106.] -/
opaque Config.boxDesc : List Byte → BoxDesc

/-- The order of a row's weights of a pass in its sub-bank of W0: pair, M, vector, row to place (R133, R135).
[DESIGN CHOICE: log entry 107.] -/
opaque Config.w0Slot : Nat → Nat → Nat → Nat → Nat
/-- The order of a TPASS's 32 x 32 weights: row, column to element (R212). [DESIGN CHOICE: log entry 107.] -/
opaque Config.tpassIndex : Nat → Nat → Nat
/-- X0 byte offset of the 32-element k-tile that vector i of a TPASS streams, by the last EXPAND's ring and the
command's words (R215). [DESIGN CHOICE: log entry 107.] -/
opaque Config.tpassAt : List Nat → Nat → Nat

end Sys2Proof
end

