-- ==== Sys2Proof/Machine/State.lean ====
section
/-! DEFINITION. The state of the AK-32 as plain data: the register file, the counters, the memories and everything
the blocks hold beside their registers. A register field has one home, the sparse map `regs`; a finite-state machine
that a register shows (SCH_CTX_STAT.state, CFE_CAM_STAT.state, RTU_STAT.used and so on) lives in that register. -/

namespace Sys2Proof.Machine

/-- A sparse map: keys strictly rising, no entry equal to the default. -/
abbrev SMap (α : Type) := List (Nat × α)

/-- One byte memory: addresses strictly rising, no entry equal to what an unlisted address reads as (0). -/
abbrev Memory := List Host.Cell

/-- Why a run stops with a fault. No command of this block raises one: every fault of the spec is a state of the
device (R96, R104), and no access of the spec reaches an address without a stated effect (R9, R120). -/
inductive Fault where
  /-- Raised by no command; safe. -/
  | unreachable
  deriving DecidableEq, Repr

/-- Why a command is refused. -/
inductive Refusal where
  /-- A row that has no meaning yet, by its mnemonic; raised by no arm of a finished model; safe. -/
  | notModelled (mnemonic : String)
  /-- A command whose operands no command of the spec can carry (WellFormed.lean); raised by exec's arms that check
  an operand; safe. -/
  | illFormed
  deriving DecidableEq, Repr

/-! ### Board, power and start -/

/-- The hot-swap switch (R49, R52). -/
inductive Switch where
  | off | ramping | on
  deriving DecidableEq, Repr, Inhabited

/-- The 12 V input against the thresholds of R46 and R49: absent, below the undervoltage stop, from there to the start
threshold, in the start window, above the overvoltage stop. -/
inductive P12 where
  | absent | under | low | window | above
  deriving DecidableEq, Repr, Inhabited

/-- The chip power states of R69; IDLE is ACTIVE with every engine gated (R70). -/
inductive ChipPower where
  | active | banked | off
  deriving DecidableEq, Repr, Inhabited

/-- Where a reset or a start stands (R77, R86, R88, R590). -/
inductive StartPhase where
  /-- No power-good yet, or the module is off. -/
  | none
  /-- A warm reset clears its state (R590). -/
  | warmClearing
  /-- A warm reset has ended and HOLD keeps its start from beginning (R63). -/
  | warmHeld
  /-- A cold reset has the main rails off (R590). -/
  | railsOff
  /-- The steps of a cold start run (R86). -/
  | coldSteps
  /-- The steps of a warm start run (R88). -/
  | warmSteps
  /-- Step 11 has ended (R86). -/
  | started
  deriving DecidableEq, Repr, Inhabited

/-- Board management, insertion and thermal state (R43 to R63). -/
structure Board where
  /-- Contact stages mated, 0 to 4 (R43). -/
  mated : Nat
  seated : Bool
  p12 : P12
  switch : Switch
  breaker : Bool
  shutdownHold : Bool
  smbHold : Bool
  standby : Bool
  powerGood : Bool
  warnRegion : Bool
  thermShutdown : Bool
  /-- ALERT_SRC (R62). -/
  alertSrc : BitVec 4
  /-- SMB_ALERT_N asserted (R62). -/
  smbAlert : Bool
  /-- The alert condition of the warning, the shutdown, the breaker and the 12 V stop is in force (R62). -/
  alertHeld : BitVec 4
  /-- The straps MOD_ADDR[2:0] as read: 1 where the carrier leaves a contact open (R44). -/
  modAddr : BitVec 3
  /-- The last byte or word the module returned on SMBus, and its Packet Error Code where one was asked for (R62); the
  model's own fields. -/
  smbReply : Nat
  smbPec : Option (BitVec 8)
  deriving DecidableEq, Repr, Inhabited

/-- The reset and start sequencer (R77 to R89, R590) and the permit output (R55, R56). -/
structure Seq where
  phase : StartPhase
  power : ChipPower
  /-- Cold-start steps begun and ended, bit n - 1 for step n (R86). -/
  begun : Nat
  ended : Nat
  /-- LINE_PERMIT conducts (R55). -/
  permit : Bool
  /-- The module is inspection-ready (R80), as last settled. -/
  ready : Bool
  /-- It has been inspection-ready since the last reset (R52). -/
  wasReady : Bool
  /-- A permit switch has been found shorted since the last cold reset (R55). -/
  permitShort : Bool
  /-- The permit drive runs (R56). -/
  driveRuns : Bool
  /-- A shutdown has been requested (R74). -/
  shutdownAsked : Bool
  /-- Step 7 has run for the units; unit indexes of R580 that passed (R84 m_check). -/
  checked : List Nat
  /-- Unit indexes started untested (R89). -/
  untested : List Nat
  /-- Clocks found lost and not yet good again (R65), coded as ClockId order. -/
  clkLost : List ClockId
  /-- Engines whose engine reset is in progress (R77, R78). -/
  engResets : List Nat
  /-- The shutdown has stopped the contexts (R74). -/
  ctxsStopped : Bool
  deriving DecidableEq, Repr, Inhabited

/-! ### Records and the host side -/

/-- An event record as its source raises it (R485); the queue adds sequence and phase. -/
structure EventRec where
  src : BitVec 12
  typ : BitVec 8
  /-- Flags without phase and lost (R486). -/
  flags : BitVec 8
  time : BitVec 64
  payload : List Byte
  deriving DecidableEq, Repr, Inhabited

/-- What is produced together (R487): one record, or a verdict pair, with the target it had when produced (R489). -/
structure RecUnit where
  target : BitVec 8
  recs : List EventRec
  deriving DecidableEq, Repr, Inhabited

/-- Host interface state beside its registers (R482 to R511). -/
structure HostSide where
  /-- Target of each source; unlisted: none (R489). -/
  targets : SMap Nat
  /-- Records produced and not yet written (R483). -/
  produced : List RecUnit
  /-- Records held while BANKED (R495), at most 64. -/
  held : List RecUnit
  /-- Hearth event queues 0 to 3 (R491), at most 256 records each. -/
  hearthQ : SMap (List EventRec)
  /-- Targets whose next record carries the lost flag (R486, R491, R493, R495). -/
  lost : List Nat
  /-- MSI-X messages sent, newest last (R494). -/
  msix : List Nat
  /-- Function Mask (R494). -/
  funcMask : Bool
  /-- PME_En, and its value when PERST_N was last asserted with the targets of that time (R503). -/
  pmeEn : Bool
  pmeLatched : Bool
  wakeTargets : SMap Nat
  /-- BAR4 writes kept while BANKED (R495). -/
  keptDoorbells : List (Nat × Word)
  /-- The sources of the last read completion: data bytes and the poisoned bit EP (R121). -/
  readData : List Byte
  readPoisoned : Bool
  /-- By page number: the BAR0 offset and the latched value of an upper word (R108). -/
  upperLatch : SMap (Nat × Nat)
  /-- What the host has written to the address bits of BAR0 to BAR5, by number (R113). -/
  bars : SMap Nat
  /-- Mailbox requests taken and not yet answered, with their operation (R499, R500). -/
  mbxTaken : List (MbxReq × Nat)
  /-- Sequence of the next record of each Hearth queue (R485). -/
  hearthSeq : SMap Nat
  deriving DecidableEq, Repr, Inhabited

/-! ### Engines -/

/-- The stationary values of an Anvil array: one set of its PEs' registers (R131, R136). After reset every one holds zero
and no LOAD has filled it. [DEDUCED: log entry 111.] -/
structure Tile where
  /-- A LOAD has filled it. -/
  loaded : Bool
  /-- K_t rows and P_t columns valid (R139, R140). -/
  rows : Nat
  cols : Nat
  wide : Bool
  /-- Row-major raw stored values. -/
  vals : List Nat
  deriving DecidableEq, Repr, Inhabited

/-- A context's program on an engine (R149, R166, R195): where its next step begins, counted from the program's base; the
commands of that step once the whole step is in the program buffer, and the descriptors they name by their offset; how
many of the commands have been issued to the unit queues. -/
structure Prog where
  start : Nat
  cmds : List Cmd
  descs : List (Nat × List Byte)
  pos : Nat
  deriving DecidableEq, Repr, Inhabited

/-- A command that waits in its unit queue (R154): its context and job slot, and what its row says beside the words (the
step number of a STEP_END, a PASS whose feeders run empty). -/
structure Waiting where
  ctx : Nat
  job : Nat
  cmd : Cmd
  arg : Nat
  deriving DecidableEq, Repr, Inhabited

/-- One engine, Anvil 0 to 31 or Tongs 32 to 35 (R131, R210). -/
structure Engine where
  /-- The PEs' active and shadow stationary values (R131, R136). -/
  active : Tile
  shadow : Tile
  /-- A LOAD was skipped and its PASS is to be skipped (R207). -/
  skipNext : Bool
  /-- Token counts, keyed 16 × context + token (R153). -/
  tokens : SMap Nat
  /-- BX4 group phase and the M, pair and group fields of the group (R188, R190). -/
  phase : Nat
  groupKey : Nat
  /-- Group registers, keyed 64 × m + column (R188). -/
  groupRegs : SMap Int
  /-- P0 word ranges marked pending-initialise: base, words (R207). -/
  pendInit : List (Nat × Nat)
  /-- Barrier waited at: ID and mask (R156). -/
  barrier : Option (Nat × Nat)
  /-- Contexts in RWAIT here, each with its remote wait entry (R292). -/
  rwait : List (Nat × Nat)
  /-- The job whose steps run here for each context: tag + 1 (R153). -/
  jobOf : SMap Nat
  /-- SATBR taken for the next step: byte offset (R195). -/
  branch : Option Nat
  /-- The context named, and the context last named (R287). -/
  cur : Option Nat
  lastNamed : Nat
  /-- A pre-emption request is raised for this context (R288). -/
  preReq : Option Nat
  /-- What the last PASS of the step sampled of the request (R155). -/
  sample : Option (Option Nat)
  gated : Bool
  /-- Its retest since it was fenced: none yet, or its result (R563). -/
  retest : Option Bool
  /-- Under test (R577). -/
  underTest : Bool
  /-- Commands issued and not complete: context, command (R151). -/
  inflight : List (Nat × Cmd)
  /-- Commands that wait in the unit queues, in program order (R142, R154). -/
  queued : List Waiting
  /-- The program of each context here. -/
  progs : SMap Prog
  /-- Tags of open jobs whose program has begun here (R284). -/
  begun : List Nat
  /-- The context whose next step is chained to the one that has ended (R155). -/
  chain : Option Nat
  /-- P0 words, by byte offset in the bank, whose sum has saturated since it was begun (R179, R194). -/
  satWords : List Nat
  /-- Ring base and length, vector bytes, first pixel and count of the last EXPAND (R213). -/
  ring : List Nat
  /-- CRC-64 of the elements written at OUT in the step that runs (R327). -/
  crc : Nat
  deriving DecidableEq, Repr, Inhabited

/-! ### Jobs and contexts -/

/-- A verdict handed to the scheduler (R221). -/
structure Verdict where
  noVerdict : Bool
  cls : Nat
  conf : Nat
  reject : Bool
  digest : List Byte
  deriving DecidableEq, Repr, Inhabited

/-- How a job came in (R282, R325, R320). -/
inductive JobKind where
  | box | host | copy | arbitration | regen
  deriving DecidableEq, Repr, Inhabited

/-- A host job descriptor's fields (R285). -/
structure HostJob where
  input : Nat
  width : Nat
  height : Nat
  c0 : Nat
  c1 : Nat
  l0 : Nat
  l1 : Nat
  len : Nat
  result : Nat
  userTag : Nat
  kind : Nat
  flags : Nat
  identity : List Byte
  deriving DecidableEq, Repr, Inhabited

/-- A job in a slot (R282). -/
structure Job where
  ctx : Nat
  kind : JobKind
  tag : Nat
  /-- SCH_JOB_STAT.phase (R310). -/
  phase : Nat
  box : Option Box
  desc : Option HostJob
  identity : List Byte
  /-- Step base B (R318). -/
  base : Nat
  folded : Bool
  fallback : Bool
  restarts : Nat
  /-- Assigned Tongs engine (R278). -/
  tongs : Nat
  /-- Rotation of R326. -/
  rotation : Nat
  /-- Its transfer sequence on every flow of its context (R291, R468). -/
  jseq : Nat
  /-- Layer count table (R194). -/
  counts : SMap Nat
  verdict : Option Verdict
  /-- Status at its end (R286), none while it runs. -/
  ended : Option Nat
  /-- First RTU entry (R310) and the last line of the block its box was issued in (R593). -/
  rtuFirst : Nat
  lastLine : Nat
  /-- The key that links it to its RTU entries; 0 for a job without any. -/
  key : Nat
  /-- Chosen by the cross-check unit (R324). -/
  xcheck : Bool
  /-- The slot of the check it is a run of (R327). -/
  check : Option Nat
  /-- Logical engine and step at which an engine fault last made it restart (R567). -/
  faultAt : Option (Nat × Nat)
  /-- It has met an uncorrectable read of its own data (R246). -/
  dataErr : Bool
  /-- Count indexes whose fallback it has taken (R198). -/
  taken : List Nat
  deriving DecidableEq, Repr, Inhabited

/-- A box in an admission queue (R283): its first RTU entry, the last line of the block it was issued in (R593), and
the key that links it to its entries. -/
structure QBox where
  box : Box
  rtuFirst : Nat
  lastLine : Nat
  key : Nat
  deriving DecidableEq, Repr, Inhabited

/-- A host job waiting: the next announced descriptor of the ring, a copy or an arbitration run of a check (R325,
R328), or a regeneration (R320). -/
inductive HostItem where
  | ring
  | copy (check : Nat)
  | arbitrate (check : Nat)
  | regen (d : HostJob)
  deriving DecidableEq, Repr, Inhabited

/-- What a context holds beside its page (R274 to R303). -/
structure Ctx where
  billet : Option Billet
  hash : List Byte
  /-- Owner slot that signed the billet, none if certified (R555). -/
  signer : Option Nat
  /-- Base of its shares in the banks, 4 KiB units, and in N4 and N5 (R235). -/
  aBase : Nat
  wBase : Nat
  pBase : Nat
  xBase : Nat
  n4Base : Nat
  n5Base : Nat
  /-- Base of its share of the program buffers, in commands (R149, R167). -/
  anvBuf : Nat
  tngBuf : Nat
  /-- Admission queue of boxes, at most 1,024 (R283). -/
  boxQ : List QBox
  /-- Host jobs waiting in their order of arrival (R282). -/
  hostQ : List HostItem
  hostProd : Nat
  /-- Swap pending: incoming context and L (R295, R296). -/
  swapTo : Option (Nat × Nat)
  /-- The swap has taken effect and the context finishes its open boxes. -/
  swapped : Bool
  /-- Boxes whose first line lies below belong to another context (R296). -/
  since : Nat
  /-- Probes in flight: object and camera (R298). -/
  probes : List (Nat × Nat)
  /-- Remote wait bytes landed, keyed 16 × engine + entry, and the completed ones (R291). -/
  landed : SMap Nat
  waitsDone : List Nat
  /-- Transfer sequence of the next job to be admitted (R291). -/
  jseqNext : Nat
  /-- Evicting state reached from here; the mailbox request being served. -/
  req : Option MbxReq
  deriving DecidableEq, Repr, Inhabited

/-- A tentative table entry (R298). -/
structure Tent where
  valid : Bool
  object : Nat
  camera : Nat
  ctx : Nat
  reject : Bool
  cls : Nat
  conf : Nat
  gen : Nat
  deriving DecidableEq, Repr, Inhabited

/-- A check of the cross-check unit (R324 to R328). -/
structure Check where
  /-- The original as it was admitted. -/
  proto : Job
  /-- Result digests of the runs that have completed. -/
  origDigest : Option (List Byte)
  copyDigest : Option (List Byte)
  /-- Tongs engine of the copy (R326). -/
  copyTongs : Nat
  /-- An arbitration run is on its way, for this step; the trace it left, and whether it has ended. -/
  arb : Option Nat
  arbTrace : Option Nat
  arbEnded : Bool
  deriving DecidableEq, Repr, Inhabited

/-- A regeneration in progress (R320). -/
structure Regen where
  job : Nat
  ctx : Nat
  step : Nat
  out : Nat
  captured : Bool
  deriving DecidableEq, Repr, Inhabited

/-- Scheduler-wide state. -/
structure Sched where
  jobs : SMap Job
  /-- Generation of each slot (R282). -/
  slotGen : SMap Nat
  /-- Admission order of the jobs in flight, and restarted jobs in order (R284, R562). -/
  order : List Nat
  restartQ : List Nat
  tents : SMap Tent
  checks : SMap Check
  regen : Option Regen
  deriving DecidableEq, Repr, Inhabited

/-! ### Cameras -/

/-- A trigger log entry (R356). -/
structure Trig where
  count : Nat
  time : Nat
  software : Bool
  notSent : Bool
  deriving DecidableEq, Repr, Inhabited

/-- A line handed from the CFE to the line pipeline, or a missing line (R358, R359). -/
structure Line where
  number : Nat
  count : Nat
  dropped : Bool
  time : Nat
  pixels : List Nat
  /-- It met an overflow on its way to the instance (R382). -/
  ovf : Option OvfCause
  deriving DecidableEq, Repr, Inhabited

/-- A parameter set in force or standing by (R378). -/
structure ParamSet where
  enables : Nat
  a : List Nat
  g : List Nat
  defects : List (Nat × Nat)
  black : List Nat
  flat : List Nat
  tone : List Nat
  deriving DecidableEq, Repr, Inhabited

/-- Camera state beside the CFE and line pipeline pages (R341 to R384). -/
structure Cam where
  /-- Unpaired triggers, oldest first (R356). -/
  log : List Trig
  lastTrig : Option Nat
  nextLine : Nat
  mismatch : Bool
  /-- Lanes of the group now lost (R346) and answers to discovery: lane, device, connection (R348). -/
  lostLanes : List Nat
  answers : List (Nat × Nat × Nat)
  fastUplink : Bool
  /-- Next packet tag awaited, and later tags waiting for it (R350). -/
  nextTag : Nat
  tagsHeld : List Nat
  lineBroken : Bool
  /-- Lines handed over and not yet processed, through-memory lines staged, and those read back (R372). -/
  inbox : List Line
  staged : List Line
  fetched : List Line
  /-- Highest line rate of the binding, lines/s, and its declared units: CAMW and LPLT in stacks 0 and 1 (R348). -/
  rmax : Nat
  declared : List Nat
  /-- The camera was LOST when this binding was asked for. -/
  wasLost : Bool
  /-- Mailbox request of a BIND_CAM being served. -/
  req : Option MbxReq
  deriving DecidableEq, Repr, Inhabited

/-- The statistics of one line block (R381). -/
structure Stat where
  first : Nat
  stamp : Nat
  lines : Nat
  counted : Nat
  short : Bool
  mark : Bool
  /-- A new set came into force within the block. -/
  newSet : Bool
  block : Nat
  time : Nat
  gen : Nat
  /-- Per channel: raw words at 2^d - 1, and pixels clipped. -/
  tops : List Nat
  clip : List Nat
  /-- Keyed 256 × channel + bin, and 65536 × channel + bin. -/
  histo : SMap Nat
  colSum : SMap Nat
  deriving DecidableEq, Repr, Inhabited

/-- A block waiting for detection; with a mark, a dropped range to be issued as one marked box (R383), or, of no lines, the
end of the binding, at which the boxes still open are issued (R19, R20). -/
structure DoneBlk where
  first : Nat
  lines : Nat
  mark : Bool
  /-- Contexts whose detection program has run on it (R296). -/
  took : List Nat := []
  deriving DecidableEq, Repr, Inhabited

/-- A line pipeline's work on one camera (R375 to R383). -/
structure Pipe where
  /-- The block being written: whether there is one, its first line, lines in it, stamp, no-verdict mark, time. -/
  open_ : Bool
  blkFirst : Nat
  blkLines : Nat
  stamp : Nat
  mark : Bool
  blkTime : Nat
  /-- Lines below this number are dropped by an overflow (R383). -/
  dropTo : Nat
  inForce : Option ParamSet
  standby : Option ParamSet
  /-- v3 of the last 16 lines, newest first: number, dropped, values with whether stage 3 limited them (R377). -/
  hist : List (Nat × Bool × List (Nat × Bool))
  /-- Statistics of the block being written, and of blocks whose record is not yet written. -/
  stat : Stat
  statsDone : List Stat
  /-- Blocks and dropped ranges that detection has yet to take. -/
  done : List DoneBlk
  /-- First line and stamp count of the blocks begun, newest first, as many as the replay index holds (R249). -/
  stamps : List (Nat × Nat)
  /-- Dropped lines of this binding (R359). -/
  dropped : List Nat
  deriving DecidableEq, Repr, Inhabited

/-- A box that has been issued: the last line of the block at whose end it was (R593), the contexts that it was issued to
and that have not taken it yet (R281, R296), and the blocks that hold its lines: first line and stamp count, newest first
(R24). -/
structure Issued where
  box : Box
  last : Nat
  dest : List Nat
  stamps : List (Nat × Nat) := []
  deriving DecidableEq, Repr, Inhabited

/-- Detection state of a camera (R216, R445). -/
structure Detect where
  nextObj : Nat
  /-- Open boxes, each with the context whose detection program opened it. -/
  openBoxes : List (Nat × Box)
  /-- Boxes issued and not yet taken by the scheduler. -/
  issued : List Issued
  /-- Foreground cells of the last row of the last block: context, cell column, object. -/
  lastRow : List (Nat × Nat × Nat)
  /-- Photo-eye: the object under the eye, the count of its leading edge, its no-verdict mark (R445). -/
  eyeOpen : Option (Nat × Nat × Bool)
  /-- Eye pulses closed: object, lead, trail, no-verdict mark. -/
  eyeDone : List (Nat × Nat × Nat × Bool)
  deriving DecidableEq, Repr, Inhabited

/-- A lane beside its page (R343 to R363). -/
structure Lane where
  lost : Bool
  failedRetrains : Nat
  underTest : Bool
  rx : List Byte
  /-- PRBS bits to invert by one-shot injection. -/
  injected : Nat
  deriving DecidableEq, Repr, Inhabited

/-! ### Encoders, LTG, RTU -/

/-- An encoder beside its registers (R393 to R400). -/
structure Enc where
  a : Bool
  b : Bool
  /-- Intervals between the last counts, newest first, in ENCCLK cycles (R399). -/
  intervals : List Nat
  /-- Time of the last count, ns of the PTP clock (R410). -/
  last : Nat
  deriving DecidableEq, Repr, Inhabited

/-- An RTU entry (R408). -/
structure RtuEntry where
  target : Nat
  group : Nat
  actFirst : Nat
  actLast : Nat
  lenCt : Nat
  failPass : Bool
  nv : Bool
  ctx : Nat
  object : Nat
  camera : Nat
  /-- 1 awaiting deadline, 2 resolved reject, 3 resolved pass, 4 launched (R426). -/
  state : Nat
  decision : Option Bool
  job : Option Nat
  multi : Bool
  staged : Bool
  tentValid : Bool
  tentDec : Bool
  confirmed : Bool
  /-- The action carried out (R487 byte 14). -/
  acted : Bool
  /-- Launch time set for a remote entry, PTP ns (R411), and its slot. -/
  launchAt : Option Nat
  verdict : Option Verdict
  vflags : Nat
  /-- The commit point is past (R301). -/
  committed : Bool
  /-- The key that links the entries of one box to its job. -/
  key : Nat
  deriving DecidableEq, Repr, Inhabited

/-- A verdict on its way into ENCCLK (R26, R408): its job's slot and tag, its context, its record flags (R31). -/
structure Crossing where
  slot : Nat
  tag : Nat
  ctx : Nat
  verdict : Verdict
  flags : Nat
  deriving DecidableEq, Repr, Inhabited

/-- What the audit entry of a box-list job needs until the last of its RTU entries has written its record (R331). -/
structure Audit where
  /-- RTU entries still to write their record, and whether the job has been admitted. -/
  left : Nat
  admitted : Bool
  identity : List Byte
  digest : List Byte
  base : Nat
  object : Nat
  ctx : Nat
  flags : Nat
  hash : List Byte
  deriving DecidableEq, Repr, Inhabited

/-- The RTU beside its pages (R408 to R419). -/
structure Rtu where
  entries : SMap RtuEntry
  /-- gen of each entry place (R408) and tentative_gen (R300). -/
  gens : SMap Nat
  tentGens : SMap Nat
  /-- Pulses that hold a channel on: the count at which each ends in object mode (R415). -/
  pulses : SMap (List Nat)
  /-- Next launch slot of each group, and launch times given to slots: group -> (time, slot) (R416). -/
  slotNext : SMap Nat
  slotTimes : SMap (List (Nat × Nat))
  /-- Groups disarmed with claims still pending (R419). -/
  releasing : List Nat
  crossing : List Crossing
  audits : SMap Audit
  /-- The last key given to a box (the model's own counter). -/
  keys : Nat
  deriving DecidableEq, Repr, Inhabited

/-! ### Field I/O -/

/-- A field channel beside its registers (R429 to R445). -/
structure Chan where
  /-- The switch is on. -/
  on : Bool
  /-- In the pick phase (R436). -/
  pick : Bool
  /-- The owner's demand (R439). -/
  demand : Bool
  /-- Off by protection (R437). -/
  prot : Bool
  /-- A filtered input edge was counted. -/
  lastCount : Nat
  deriving DecidableEq, Repr, Inhabited

/-- Field I/O beside its page (R429 to R451). -/
structure Field where
  chans : SMap Chan
  fallbackUp : Bool
  /-- Measurements below 18.0 V in a row, and at 19.0 V or above in a row (R446). -/
  lowRun : Nat
  highRun : Nat
  /-- Field side switched its outputs off (R431). -/
  sideOff : Bool
  /-- GP commands left in the period, and waiting ones (R260): channel and level, or 16 + channel and kind. -/
  gpLeft : Nat
  gpWait : List (Nat × Nat)
  /-- The measurement asked for: channel and kind (R447). -/
  measPending : Option (Nat × Nat)
  deriving DecidableEq, Repr, Inhabited

/-! ### Network -/

/-- A transmit timestamp entry (R460). -/
structure TsEntry where
  id : Nat
  isSlot : Bool
  slot : Nat
  late : Bool
  time : Nat
  deriving DecidableEq, Repr, Inhabited

/-- A port beside its page (R452 to R465). -/
structure Port where
  tsq : List TsEntry
  /-- Launch slot buffers (R462). -/
  buf : SMap (List Byte)
  fetched : List Nat
  /-- Frames sent and frames passed to the firmware, newest last. -/
  sent : List (List Byte)
  rx : List (List Byte × Nat)
  deriving DecidableEq, Repr, Inhabited

/-- The PTP clock (R455): ns and the 32-bit fraction, and the cycle within the pattern of 25. -/
structure Ptp where
  ns : Nat
  frac : Nat
  cycle : Nat
  running : Bool
  pps : Bool
  deriving DecidableEq, Repr, Inhabited

/-- A Brynade flow (R467 to R471). -/
structure Flow where
  /-- Sender: next pseq and jseq, the latest credit limit, resends in a row without an advance, packets sent and not
  acknowledged, and packets that wait for credit, oldest first. -/
  txPseq : Nat
  txJseq : Nat
  credit : Option Nat
  retries : Nat
  unacked : List BryPacket
  unsent : List BryPacket
  faulted : Bool
  /-- Receiver: next pseq expected, packets accepted since the last ACK, the landing buffer, the time of the last NAK. -/
  rxPseq : Nat
  sinceAck : Nat
  landing : List BryPacket
  nakAt : Option Nat
  deriving DecidableEq, Repr, Inhabited

/-- A collective ID (R473). -/
structure Coll where
  /-- The instance that is open, and how far this module has come in it: joined, its up message sent. -/
  instance_ : Nat
  joined : Bool
  upSent : Bool
  /-- Up messages held: child neighbour, instance. -/
  ups : List (Nat × Nat)
  /-- A broadcast joined here and not yet completed. -/
  busy : Bool
  deriving DecidableEq, Repr, Inhabited

/-- Brynade beside its page. -/
structure Bry where
  flows : SMap Flow
  colls : SMap Coll
  /-- Frames handed to the receive path by FRAME_RECEIVE and not yet taken from it (R453). -/
  rx : List (List Byte)
  /-- Packets sent, newest last: port, type, packet. -/
  sent : List (Nat × Nat × BryPacket)
  /-- Tree edges by neighbour: next pseq to send and to receive, messages not acknowledged, resends in a row, and
  edges that have given up (R472). -/
  edgePseq : SMap Nat
  edgeRx : SMap Nat
  edgeUnacked : SMap (List BryPacket)
  edgeRetries : SMap Nat
  edgeFaulted : List Nat
  deriving DecidableEq, Repr, Inhabited

/-! ### Archive, Temper, faults, Quench -/

/-- A resolved position of a stream (R523): its sample, its corrupt cause or 0 (R517), what was decoded. -/
structure Position where
  sample : Nat
  cause : Nat
  width : Nat
  height : Nat
  comps : Nat
  prec : Nat
  deriving DecidableEq, Repr, Inhabited

/-- An archive stream beside its page (R519 to R528). -/
structure Stream where
  /-- The samples of the positions this module takes, in order, and the first of these positions (R521, R522). -/
  order : List Nat
  first : Nat
  /-- How many positions are walked, and positions resolved and not yet walked. -/
  next : Nat
  resolved : SMap Position
  /-- Positions walked of the batch being filled. -/
  walked : List (Nat × Position)
  /-- Corrupt samples of the epoch. -/
  corrupt : Nat
  /-- Batches closed in this run, and the ring position of each that the driver has not consumed (R524). -/
  total : Nat
  closed : List (Nat × Nat)
  stopAsked : Bool
  /-- Epochs to run after this one. -/
  epochs : Nat
  deriving DecidableEq, Repr, Inhabited

/-- A copy of the Temper record in flash: owner keys by slot, revoked slots, and the counter value it is signed for (R545). -/
structure RecCopy where
  keys : SMap (List Byte)
  revoked : List Nat
  counter : Nat
  deriving DecidableEq, Repr, Inhabited

/-- Temper beside its page (R532 to R558). -/
structure Temper where
  /-- Owner keys of slots 0 to 3, empty where none, and revoked slots, as Temper has read them (R545). -/
  ownerKeys : SMap (List Byte)
  revokedSlots : List Nat
  /-- The two copies of the record; none where a copy's signature does not hold (R545). -/
  copyA : Option RecCopy
  copyB : Option RecCopy
  /-- The identity certificate stored (R537). -/
  cert : List Byte
  /-- Digest of the running, the staged and the flash image; empty where none (R549). -/
  running : List Byte
  staged : List Byte
  flashImage : List Byte
  /-- Security versions and version bytes of the three (R541, R548). -/
  runSvn : Nat
  stagedSvn : Nat
  flashSvn : Nat
  version : List Byte
  stagedVersion : List Byte
  flashVersion : List Byte
  /-- Attestation reports since cold reset (R555); test engine opened since cold reset. -/
  reports : Nat
  testSeen : Bool
  /-- A handover waits for its quiet point, or its pause runs (R551). -/
  handover : Option MbxReq
  pauseRuns : Bool
  /-- The halves have been swapped and the new image has not yet written TMP_ALIVE (R551, R553). -/
  swapped : Bool
  /-- The hashes of the root keys in ROM, slots 0 to 3 (R534). -/
  roots : List (List Byte)
  /-- The device secret in fuses (R537). -/
  secret : List Byte
  deriving DecidableEq, Repr, Inhabited

/-- The fault collector and Hearth complex beside their pages (R559 to R572). [DESIGN CHOICE: log entry 143.] -/
structure Collector where
  /-- Jobs of the restart in progress that have not landed (R562, R565). -/
  pendingJobs : List Nat
  startNs : Nat
  /-- The reload of a placement change runs (R563). -/
  reloading : Bool
  /-- Retest results held: unit code, result (R563). -/
  retests : SMap Bool
  hearthHalted : Bool
  hearthCause : Nat
  /-- The unit fenced last, coded as FLT_UNFENCE.unit (R582). -/
  lastUnit : Option Nat
  /-- Unit indexes that failed their start-up self-check and cannot be fenced (R573). -/
  failedUnits : List Nat
  /-- Cores that have kicked since the last watchdog period (R571). -/
  kicked : Nat
  deriving DecidableEq, Repr, Inhabited

/-- A Quench record entry (R580). -/
structure QuenchEntry where
  result : Nat
  coverage : Nat
  time : Nat
  lastPass : Nat
  deriving DecidableEq, Repr, Inhabited

/-- The Quench engine (R576 to R581). -/
structure Quench where
  entries : SMap QuenchEntry
  /-- The record being made (R580). -/
  making : SMap QuenchEntry
  /-- 0 complete, 1 incomplete, 2 none valid (R584). -/
  outcome : Nat
  startNs : Nat
  endNs : Nat
  waveUnits : List Nat
  deriving DecidableEq, Repr, Inhabited

/-! ### Memory system -/

/-- The fields of an entry of a camera's replay index (R249); its 32 bytes stand in N0. -/
structure ReplayEntry where
  first : Nat
  stamp : Nat
  lines : Nat
  flags : Nat
  camera : Nat
  time : Nat
  gen : Nat
  deriving DecidableEq, Repr, Inhabited

/-- Banks, DRAM and Bellows beside their pages (R229 to R272). -/
structure MemSys where
  /-- Handover in progress: bank, new owner (R233). -/
  handovers : SMap Nat
  /-- 64-bit words that are uncorrectable, by device address / 8 (R244). -/
  poison : List Nat
  /-- Budget counters left, keyed 2 × entry + stack (R255). -/
  left : SMap Int
  /-- Entries already overrun in this period (R256), keyed as above. -/
  overrun : List Nat
  /-- Values held until the next boundary: register address, value (R258). -/
  pendingRegs : List (Nat × Nat)
  /-- First entry of the rotation (R255). -/
  rot : Nat
  /-- Entries granted in the last BELLOWS_GRANT, in order; the model's own field. -/
  lastGrant : List Nat
  /-- The next word of the patrol scrub in each stack (R247). -/
  scrubAt : SMap Nat
  /-- Requests held until the next boundary: entry, stack, units (R255). -/
  owed : List (Nat × Nat × Nat)
  deriving DecidableEq, Repr, Inhabited

/-! ### The state -/

/-- The whole state of the module. -/
structure State where
  /-- Register fields, keyed 32 × BAR0 offset + least bit; unlisted: the field's reset value. -/
  regs : SMap Nat
  /-- Live counters by BAR0 offset, and their snapshots by the same offset (R107, R109). -/
  ctrs : SMap Nat
  snaps : SMap Nat
  /-- Live counters the spec gives no offset, keyed 64 × page number + reason. -/
  openCtrs : SMap Nat
  /-- Registers whose parity mismatches, and pages with an armed injection (R100, R103). -/
  parityBad : List Nat
  injectArmed : List Nat
  /-- Pages that have yet to capture the last broadcast (R95, R110). -/
  snapWait : List Nat
  /-- Writes stored for when the block next leaves active: BAR0 offset, word (R106). -/
  deferred : List (Nat × Nat)
  board : Board
  seq : Seq
  host : HostSide
  /-- Device memory by device physical address, host memory by host bus address, flash by flash offset. -/
  mem : Memory
  hostMem : Memory
  flash : Memory
  engines : SMap Engine
  ctxs : SMap Ctx
  sched : Sched
  cams : SMap Cam
  pipes : SMap Pipe
  detect : SMap Detect
  lanes : SMap Lane
  encs : SMap Enc
  rtu : Rtu
  field : Field
  ports : SMap Port
  ptp : Ptp
  bry : Bry
  streams : SMap Stream
  /-- Decoded-sample cache, most recently used first, by dataset ID × 2^32 + sample (R526). -/
  cache : List (Nat × Position)
  temper : Temper
  coll : Collector
  quench : Quench
  msys : MemSys
  /-- Draws of the free values so far: a counter each draw advances; the model's own field. -/
  draws : Nat
  /-- Commands waiting, first in first out. -/
  pending : List Instr
  deriving DecidableEq, Repr, Inhabited

/-! ### Reset -/

/-- Register fields whose value after reset is not the same for all instances of the field, or stands in fuses: the
service owners of the Nimbus regions and X0 (R229), the SCHED budget and declaration, prot and borrow of the Bellows
entries (R257, R259, R268), and TMP_LC (log entry 3: the fuses of a module in service). The keys
are those of `regs`. -/
def resetRegs : SMap Nat := [
    (134244352, 2), (134244480, 2), (134244608, 2), (134244736, 5), (134244864, 1), (134244992, 1),
    (134245120, 4), (134245248, 4), (134245376, 4), (134245504, 4), (134746136, 1), (134746137, 1),
    (134746648, 1), (134746649, 1), (134747136, 64), (134747160, 1), (134747161, 1), (134747264, 64),
    (134747392, 64), (134747520, 64), (134747673, 1), (134748185, 1), (134748697, 1), (134749209, 1),
    (134749721, 1), (436209664, 3), (436209672, 3)
]

/-- Everything but the register fields as a power-good cold reset leaves it (R49, R77, R86): step 1 of the cold start
has begun, no queue holds anything, every memory is clear.
[DESIGN CHOICE: log entry 3.] [DEDUCED: log entry 13.] [DESIGN CHOICE: log entry 14.] -/
def State.reset : State where
  regs := resetRegs
  ctrs := []
  snaps := []
  openCtrs := []
  parityBad := []
  injectArmed := []
  snapWait := []
  deferred := []
  board := { (default : Board) with
    mated := 4, seated := true, p12 := .window, switch := .on, standby := true, powerGood := true, modAddr := 7 }
  seq := { (default : Seq) with phase := .coldSteps, power := .active, begun := 1, driveRuns := true }
  host := default
  mem := []
  hostMem := []
  flash := []
  engines := []
  ctxs := []
  sched := default
  cams := []
  pipes := []
  detect := []
  lanes := []
  encs := []
  rtu := default
  field := { (default : Field) with gpLeft := 64 }
  ports := []
  ptp := default
  bry := default
  streams := []
  cache := []
  temper := { (default : Temper) with
    ownerKeys := [(0, List.replicate 32 0)], copyA := some { keys := [(0, List.replicate 32 0)], revoked := [], counter := 0 }
    roots := List.replicate 4 (List.replicate 64 0), secret := List.replicate 32 0 }
  coll := default
  quench := default
  msys := default
  draws := 0
  pending := []

end Sys2Proof.Machine
end

