-- ==== Sys2Proof/Machine/RegMap.lean ====
section
/-! DEFINITION. The register map of BAR0: one `Fld` per register field of the spec, the pages of R114, and which
fields lie at which offset. A field's name is the register's name, an underscore, and the field's name; `0` in a
register of several instances stands for the first one and `stride` leads to the others. -/

namespace Sys2Proof.Machine

/-- The access codes of R10. -/
inductive Acc where
  | ro | rw | wo | w1c | lv | rws | rc
  deriving DecidableEq, Repr, Inhabited

/-- A register field: its register's page offset, instances and their stride, its least bit, width, access code and
reset value (R10, R14). -/
structure Fld where
  off : Nat
  stride : Nat
  count : Nat
  lo : Nat
  width : Nat
  acc : Acc
  reset : Nat
  deriving DecidableEq, Repr, Inhabited

/-- The kinds of register pages (R114 and the chapters it names). -/
inductive PKind where
  | chip | clk | pwr | anv0 | anv1 | anv2 | tng0 | tng1 | bank | drc | noc | blw | replay | schG | schC | schJ | lane
  | cfe0 | cfeC | lplI | lplC | enc | ltg | rtu | rtuE | fio | eth | ptp | bry | pcie | erq | arcG | arcS | tmp | flt
  | qch | xck
  deriving DecidableEq, Repr, Inhabited

/-- A page: its kind, its block's source ID (R488), its index and the block's last index (R92), its class. -/
structure PageInfo where
  kind : PKind
  src : Nat
  index : Nat
  last : Nat
  classL : Bool
  deriving DecidableEq, Repr, Inhabited

/-! ### Fields -/

/-- R81, 03_clocks_reset_startup.md. -/
def Reg.CHIP_PWR_state : Fld := ⟨0x40, 0, 1, 0, 2, .ro, 0⟩
/-- R81, 03_clocks_reset_startup.md. -/
def Reg.CHIP_PWR_req : Fld := ⟨0x40, 0, 1, 4, 2, .wo, 0⟩
/-- R81, 03_clocks_reset_startup.md. -/
def Reg.CHIP_PWR_req_err : Fld := ⟨0x40, 0, 1, 8, 1, .w1c, 0⟩
/-- R81, 03_clocks_reset_startup.md. -/
def Reg.CHIP_PWR_n0_mode : Fld := ⟨0x40, 0, 1, 16, 2, .rw, 1⟩
/-- R81, 03_clocks_reset_startup.md. -/
def Reg.CHIP_PWR_n1_mode : Fld := ⟨0x40, 0, 1, 18, 2, .rw, 1⟩
/-- R81, 03_clocks_reset_startup.md. -/
def Reg.CHIP_PWR_idle_delay : Fld := ⟨0x40, 0, 1, 24, 8, .rw, 16⟩
/-- R82, 03_clocks_reset_startup.md. -/
def Reg.CHIP_RST_cmd : Fld := ⟨0x44, 0, 1, 0, 4, .wo, 0⟩
/-- R82, 03_clocks_reset_startup.md. -/
def Reg.CHIP_RST_target : Fld := ⟨0x44, 0, 1, 8, 6, .wo, 0⟩
/-- R82, 03_clocks_reset_startup.md. -/
def Reg.CHIP_RST_key : Fld := ⟨0x44, 0, 1, 16, 16, .wo, 0⟩
/-- R83, 03_clocks_reset_startup.md. -/
def Reg.CHIP_RST_CAUSE_cause : Fld := ⟨0x48, 0, 1, 0, 4, .ro, 1⟩
/-- R83, 03_clocks_reset_startup.md. -/
def Reg.CHIP_RST_CAUSE_untested : Fld := ⟨0x48, 0, 1, 4, 1, .ro, 0⟩
/-- R83, 03_clocks_reset_startup.md. -/
def Reg.CHIP_RST_CAUSE_clk_lost : Fld := ⟨0x48, 0, 1, 8, 5, .ro, 0⟩
/-- R83, 03_clocks_reset_startup.md. -/
def Reg.CHIP_RST_CAUSE_warm_count : Fld := ⟨0x48, 0, 1, 16, 16, .ro, 0⟩
/-- R84, 03_clocks_reset_startup.md. -/
def Reg.CHIP_READY_permit_en : Fld := ⟨0x50, 0, 1, 0, 1, .rw, 0⟩
/-- R84, 03_clocks_reset_startup.md. -/
def Reg.CHIP_READY_ctx_req : Fld := ⟨0x50, 0, 1, 8, 8, .rw, 0⟩
/-- R84, 03_clocks_reset_startup.md. -/
def Reg.CHIP_READY_ready : Fld := ⟨0x50, 0, 1, 16, 1, .lv, 0⟩
/-- R84, 03_clocks_reset_startup.md. -/
def Reg.CHIP_READY_m_start : Fld := ⟨0x50, 0, 1, 17, 1, .lv, 1⟩
/-- R84, 03_clocks_reset_startup.md. -/
def Reg.CHIP_READY_m_ctx : Fld := ⟨0x50, 0, 1, 18, 1, .lv, 1⟩
/-- R84, 03_clocks_reset_startup.md. -/
def Reg.CHIP_READY_m_enc : Fld := ⟨0x50, 0, 1, 19, 1, .lv, 1⟩
/-- R84, 03_clocks_reset_startup.md. -/
def Reg.CHIP_READY_m_rtu : Fld := ⟨0x50, 0, 1, 20, 1, .lv, 0⟩
/-- R84, 03_clocks_reset_startup.md. -/
def Reg.CHIP_READY_m_field : Fld := ⟨0x50, 0, 1, 21, 1, .lv, 1⟩
/-- R84, 03_clocks_reset_startup.md. -/
def Reg.CHIP_READY_m_net : Fld := ⟨0x50, 0, 1, 22, 1, .lv, 1⟩
/-- R84, 03_clocks_reset_startup.md. -/
def Reg.CHIP_READY_m_check : Fld := ⟨0x50, 0, 1, 23, 1, .lv, 1⟩
/-- R84, 03_clocks_reset_startup.md. -/
def Reg.CHIP_READY_m_fault : Fld := ⟨0x50, 0, 1, 24, 1, .lv, 0⟩
/-- R85, 03_clocks_reset_startup.md. -/
def Reg.CHIP_WAKE_latch : Fld := ⟨0x60, 0, 1, 0, 10, .w1c, 0⟩
/-- R85, 03_clocks_reset_startup.md. -/
def Reg.CHIP_WAKE_en : Fld := ⟨0x60, 0, 1, 16, 10, .rw, 1023⟩
/-- R94, 04_registers_address_map.md. -/
def Reg.BLK_CTRL_en : Fld := ⟨0x8, 0, 1, 0, 1, .rw, 0⟩
/-- R94, 04_registers_address_map.md. -/
def Reg.BLK_CTRL_cfg_lock : Fld := ⟨0x8, 0, 1, 1, 1, .rw, 0⟩
/-- R94, 04_registers_address_map.md. -/
def Reg.BLK_CTRL_evt_en : Fld := ⟨0x8, 0, 1, 2, 1, .rw, 1⟩
/-- R94, 04_registers_address_map.md. -/
def Reg.BLK_CTRL_fault_clr : Fld := ⟨0x8, 0, 1, 8, 1, .wo, 0⟩
/-- R95, 04_registers_address_map.md. -/
def Reg.BLK_STAT_state : Fld := ⟨0xc, 0, 1, 0, 3, .lv, 0⟩
/-- R95, 04_registers_address_map.md. -/
def Reg.BLK_STAT_blk : Fld := ⟨0xc, 0, 1, 8, 8, .w1c, 0⟩
/-- R95, 04_registers_address_map.md. -/
def Reg.BLK_STAT_snap_busy : Fld := ⟨0xc, 0, 1, 16, 1, .lv, 0⟩
/-- R96, 04_registers_address_map.md. -/
def Reg.BLK_ERR_cause : Fld := ⟨0x10, 0, 1, 0, 8, .ro, 0⟩
/-- R96, 04_registers_address_map.md. -/
def Reg.BLK_ERR_more : Fld := ⟨0x10, 0, 1, 8, 1, .ro, 0⟩
/-- R96, 04_registers_address_map.md. -/
def Reg.BLK_ERR_count : Fld := ⟨0x10, 0, 1, 16, 8, .ro, 0⟩
/-- R97, 04_registers_address_map.md. -/
def Reg.BLK_ERR_MASK_parity : Fld := ⟨0x14, 0, 1, 0, 1, .ro, 0⟩
/-- R97, 04_registers_address_map.md. -/
def Reg.BLK_ERR_MASK_common : Fld := ⟨0x14, 0, 1, 1, 3, .rw, 0⟩
/-- R97, 04_registers_address_map.md. -/
def Reg.BLK_ERR_MASK_blk : Fld := ⟨0x14, 0, 1, 16, 16, .rw, 0⟩
/-- R99, 04_registers_address_map.md. -/
def Reg.BLK_SNAP_take : Fld := ⟨0x18, 0, 1, 0, 1, .wo, 0⟩
/-- R99, 04_registers_address_map.md. -/
def Reg.BLK_SNAP_seq : Fld := ⟨0x18, 0, 1, 16, 16, .ro, 0⟩
/-- R100, 04_registers_address_map.md. -/
def Reg.BLK_PARITY_first_off : Fld := ⟨0x1c, 0, 1, 2, 10, .ro, 0⟩
/-- R100, 04_registers_address_map.md. -/
def Reg.BLK_PARITY_count : Fld := ⟨0x1c, 0, 1, 16, 8, .ro, 0⟩
/-- R100, 04_registers_address_map.md. -/
def Reg.BLK_PARITY_inject : Fld := ⟨0x1c, 0, 1, 30, 1, .wo, 0⟩
/-- R100, 04_registers_address_map.md. -/
def Reg.BLK_PARITY_err : Fld := ⟨0x1c, 0, 1, 31, 1, .lv, 0⟩
/-- R129, 04_registers_address_map.md. -/
def Reg.CLAIM_ERR_code : Fld := ⟨0x3c, 0, 1, 0, 4, .w1c, 0⟩
/-- R129, 04_registers_address_map.md. -/
def Reg.CLAIM_ERR_resource : Fld := ⟨0x3c, 0, 1, 4, 8, .ro, 0⟩
/-- R129, 04_registers_address_map.md. -/
def Reg.CLAIM_ERR_req : Fld := ⟨0x3c, 0, 1, 16, 3, .ro, 0⟩
/-- R164, 05_anvil_engine.md. -/
def Reg.ANV_CFG_ctx_en : Fld := ⟨0x40, 0, 1, 0, 8, .rw, 0⟩
/-- R164, 05_anvil_engine.md. -/
def Reg.ANV_CFG_rq_excl : Fld := ⟨0x40, 0, 1, 8, 1, .ro, 1⟩
/-- R164, 05_anvil_engine.md. -/
def Reg.ANV_CFG_stall_cnt_only : Fld := ⟨0x40, 0, 1, 9, 1, .rw, 0⟩
/-- R167, 05_anvil_engine.md. -/
def Reg.ANV_CTX_BUF_base : Fld := ⟨0x48, 16, 8, 0, 11, .rw, 0⟩
/-- R167, 05_anvil_engine.md. -/
def Reg.ANV_CTX_BUF_size : Fld := ⟨0x48, 16, 8, 12, 11, .rw, 0⟩
/-- R168, 05_anvil_engine.md. -/
def Reg.ANV_CTX_STAT_pc : Fld := ⟨0x4c, 16, 8, 0, 11, .lv, 0⟩
/-- R168, 05_anvil_engine.md. -/
def Reg.ANV_CTX_STAT_state : Fld := ⟨0x4c, 16, 8, 12, 3, .lv, 0⟩
/-- R168, 05_anvil_engine.md. -/
def Reg.ANV_CTX_STAT_step : Fld := ⟨0x4c, 16, 8, 16, 16, .lv, 0⟩
/-- R169, 05_anvil_engine.md. -/
def Reg.ANV_DMA_STAT_inflight : Fld := ⟨0x40, 0, 1, 0, 4, .lv, 0⟩
/-- R169, 05_anvil_engine.md. -/
def Reg.ANV_DMA_STAT_last_bad : Fld := ⟨0x40, 0, 1, 8, 24, .lv, 0⟩
/-- R227, 07_convolution_tongs.md. -/
def Reg.TNG_CFG_ctx_en : Fld := ⟨0x40, 0, 1, 0, 8, .rw, 0⟩
/-- R227, 07_convolution_tongs.md. -/
def Reg.TNG_CFG_cams : Fld := ⟨0x40, 0, 1, 8, 8, .rw, 0⟩
/-- R261, 08_memory_bellows.md. -/
def Reg.BANK_CTL_owner : Fld := ⟨0x40, 4, 202, 0, 3, .rw, 0⟩
/-- R261, 08_memory_bellows.md. -/
def Reg.BANK_CTL_unit : Fld := ⟨0x40, 4, 202, 4, 2, .rw, 0⟩
/-- R261, 08_memory_bellows.md. -/
def Reg.BANK_CTL_pwr : Fld := ⟨0x40, 4, 202, 12, 2, .rw, 2⟩
/-- R261, 08_memory_bellows.md. -/
def Reg.BANK_CTL_pend : Fld := ⟨0x40, 4, 202, 16, 1, .lv, 0⟩
/-- R261, 08_memory_bellows.md. -/
def Reg.BANK_CTL_clearing : Fld := ⟨0x40, 4, 202, 17, 1, .lv, 0⟩
/-- R261, 08_memory_bellows.md. -/
def Reg.BANK_CTL_shares : Fld := ⟨0x40, 4, 202, 18, 1, .lv, 0⟩
/-- R261, 08_memory_bellows.md. -/
def Reg.BANK_CTL_refused : Fld := ⟨0x40, 4, 202, 20, 2, .ro, 0⟩
/-- R263, 08_memory_bellows.md. -/
def Reg.DRC_CFG_scrub_en : Fld := ⟨0x40, 0, 1, 0, 1, .rw, 1⟩
/-- R263, 08_memory_bellows.md. -/
def Reg.DRC_CFG_scrub_h : Fld := ⟨0x40, 0, 1, 8, 5, .rw, 4⟩
/-- R263, 08_memory_bellows.md. -/
def Reg.DRC_CFG_hot : Fld := ⟨0x40, 0, 1, 16, 1, .lv, 0⟩
/-- R267, 08_memory_bellows.md. -/
def Reg.BLW_CFG_period : Fld := ⟨0x40, 0, 1, 0, 10, .rw, 100⟩
/-- R269, 08_memory_bellows.md. -/
def Reg.BLW_FIELD_budget : Fld := ⟨0x180, 0, 1, 0, 16, .rw, 64⟩
/-- R270, 08_memory_bellows.md. -/
def Reg.BLW_ADMIT_code : Fld := ⟨0x184, 0, 1, 0, 4, .ro, 0⟩
/-- R270, 08_memory_bellows.md. -/
def Reg.BLW_ADMIT_entry : Fld := ⟨0x184, 0, 1, 4, 8, .ro, 0⟩
/-- R270, 08_memory_bellows.md. -/
def Reg.BLW_ADMIT_stack : Fld := ⟨0x184, 0, 1, 12, 1, .ro, 0⟩
/-- R272, 08_memory_bellows.md. -/
def Reg.REPLAY_GEOM_slots : Fld := ⟨0x48, 16, 8, 0, 14, .rw, 0⟩
/-- R272, 08_memory_bellows.md. -/
def Reg.REPLAY_GEOM_idx_base : Fld := ⟨0x48, 16, 8, 14, 14, .rw, 0⟩
/-- R304, 09_contexts_scheduling.md. -/
def Reg.SCH_CMD_op : Fld := ⟨0x50, 0, 1, 0, 4, .wo, 0⟩
/-- R304, 09_contexts_scheduling.md. -/
def Reg.SCH_CMD_ctx : Fld := ⟨0x50, 0, 1, 4, 3, .wo, 0⟩
/-- R304, 09_contexts_scheduling.md. -/
def Reg.SCH_CMD_ctx2 : Fld := ⟨0x50, 0, 1, 8, 3, .wo, 0⟩
/-- R304, 09_contexts_scheduling.md. -/
def Reg.SCH_CMD_standby : Fld := ⟨0x50, 0, 1, 12, 1, .wo, 0⟩
/-- R304, 09_contexts_scheduling.md. -/
def Reg.SCH_CMD_key : Fld := ⟨0x50, 0, 1, 16, 16, .wo, 0⟩
/-- R305, 09_contexts_scheduling.md. -/
def Reg.SCH_CMD_RES_code : Fld := ⟨0x5c, 0, 1, 0, 4, .ro, 0⟩
/-- R305, 09_contexts_scheduling.md. -/
def Reg.SCH_CMD_RES_op : Fld := ⟨0x5c, 0, 1, 4, 4, .ro, 0⟩
/-- R305, 09_contexts_scheduling.md. -/
def Reg.SCH_CMD_RES_ctx : Fld := ⟨0x5c, 0, 1, 8, 3, .ro, 0⟩
/-- R305, 09_contexts_scheduling.md. -/
def Reg.SCH_CMD_RES_seq : Fld := ⟨0x5c, 0, 1, 16, 16, .ro, 0⟩
/-- R306, 09_contexts_scheduling.md. -/
def Reg.SCH_PLACE_h : Fld := ⟨0x60, 0, 1, 0, 6, .lv, 32⟩
/-- R306, 09_contexts_scheduling.md. -/
def Reg.SCH_PLACE_tongs_fenced : Fld := ⟨0x60, 0, 1, 8, 4, .lv, 0⟩
/-- R306, 09_contexts_scheduling.md. -/
def Reg.SCH_PLACE_slots_used : Fld := ⟨0x60, 0, 1, 16, 10, .lv, 0⟩
/-- R307, 09_contexts_scheduling.md. -/
def Reg.SCH_CTX_CFG_prio : Fld := ⟨0x40, 0, 1, 0, 3, .rw, 0⟩
/-- R307, 09_contexts_scheduling.md. -/
def Reg.SCH_CTX_CFG_spec_en : Fld := ⟨0x40, 0, 1, 4, 1, .rw, 0⟩
/-- R307, 09_contexts_scheduling.md. -/
def Reg.SCH_CTX_CFG_failsafe : Fld := ⟨0x40, 0, 1, 5, 1, .rw, 0⟩
/-- R307, 09_contexts_scheduling.md. -/
def Reg.SCH_CTX_CFG_ref : Fld := ⟨0x40, 0, 1, 6, 2, .rw, 0⟩
/-- R307, 09_contexts_scheduling.md. -/
def Reg.SCH_CTX_CFG_prim_cam : Fld := ⟨0x40, 0, 1, 8, 3, .rw, 0⟩
/-- R307, 09_contexts_scheduling.md. -/
def Reg.SCH_CTX_CFG_prim_en : Fld := ⟨0x40, 0, 1, 11, 1, .rw, 0⟩
/-- R307, 09_contexts_scheduling.md. -/
def Reg.SCH_CTX_CFG_quota : Fld := ⟨0x40, 0, 1, 16, 10, .rw, 0⟩
/-- R308, 09_contexts_scheduling.md. -/
def Reg.SCH_CTX_STAT_state : Fld := ⟨0x44, 0, 1, 0, 3, .lv, 0⟩
/-- R308, 09_contexts_scheduling.md. -/
def Reg.SCH_CTX_STAT_placement : Fld := ⟨0x44, 0, 1, 4, 2, .lv, 0⟩
/-- R308, 09_contexts_scheduling.md. -/
def Reg.SCH_CTX_STAT_swap_pend : Fld := ⟨0x44, 0, 1, 6, 1, .lv, 0⟩
/-- R308, 09_contexts_scheduling.md. -/
def Reg.SCH_CTX_STAT_jobs : Fld := ⟨0x44, 0, 1, 8, 10, .lv, 0⟩
/-- R308, 09_contexts_scheduling.md. -/
def Reg.SCH_CTX_STAT_fcause : Fld := ⟨0x44, 0, 1, 20, 4, .lv, 0⟩
/-- R308, 09_contexts_scheduling.md. -/
def Reg.SCH_CTX_STAT_probes : Fld := ⟨0x44, 0, 1, 24, 7, .lv, 0⟩
/-- R334, 10_determinism_replay.md. -/
def Reg.XCK_CFG_en : Fld := ⟨0x40, 0, 1, 0, 1, .rw, 0⟩
/-- R334, 10_determinism_replay.md. -/
def Reg.XCK_CFG_fence_en : Fld := ⟨0x40, 0, 1, 1, 1, .rw, 1⟩
/-- R334, 10_determinism_replay.md. -/
def Reg.XCK_CFG_unres_act : Fld := ⟨0x40, 0, 1, 2, 1, .rw, 1⟩
/-- R334, 10_determinism_replay.md. -/
def Reg.XCK_CFG_ctx_mask : Fld := ⟨0x40, 0, 1, 8, 8, .rw, 0⟩
/-- R336, 10_determinism_replay.md. -/
def Reg.XCK_LAST_INFO_outcome : Fld := ⟨0x70, 0, 1, 0, 2, .ro, 0⟩
/-- R336, 10_determinism_replay.md. -/
def Reg.XCK_LAST_INFO_ctx : Fld := ⟨0x70, 0, 1, 4, 3, .ro, 0⟩
/-- R336, 10_determinism_replay.md. -/
def Reg.XCK_LAST_INFO_suspect : Fld := ⟨0x70, 0, 1, 8, 6, .ro, 0⟩
/-- R336, 10_determinism_replay.md. -/
def Reg.XCK_LAST_INFO_step : Fld := ⟨0x70, 0, 1, 16, 16, .ro, 0⟩
/-- R337, 10_determinism_replay.md. -/
def Reg.XCK_REGEN_CTL_go : Fld := ⟨0x88, 0, 1, 0, 1, .wo, 0⟩
/-- R337, 10_determinism_replay.md. -/
def Reg.XCK_REGEN_CTL_ctx : Fld := ⟨0x88, 0, 1, 4, 3, .rw, 0⟩
/-- R337, 10_determinism_replay.md. -/
def Reg.XCK_REGEN_CTL_busy : Fld := ⟨0x88, 0, 1, 8, 1, .lv, 0⟩
/-- R337, 10_determinism_replay.md. -/
def Reg.XCK_REGEN_CTL_status : Fld := ⟨0x88, 0, 1, 16, 4, .ro, 0⟩
/-- R364, 11_camera_lanes.md. -/
def Reg.CXP_LANE_CFG_rate : Fld := ⟨0x40, 0, 1, 0, 3, .rw, 0⟩
/-- R364, 11_camera_lanes.md. -/
def Reg.CXP_LANE_CFG_ctle_fix : Fld := ⟨0x40, 0, 1, 4, 1, .rw, 0⟩
/-- R364, 11_camera_lanes.md. -/
def Reg.CXP_LANE_CFG_ctle : Fld := ⟨0x40, 0, 1, 5, 4, .rw, 0⟩
/-- R364, 11_camera_lanes.md. -/
def Reg.CXP_LANE_CFG_dfe_hold : Fld := ⟨0x40, 0, 1, 9, 1, .rw, 0⟩
/-- R365, 11_camera_lanes.md. -/
def Reg.CXP_LANE_STAT_sig : Fld := ⟨0x44, 0, 1, 0, 1, .lv, 0⟩
/-- R365, 11_camera_lanes.md. -/
def Reg.CXP_LANE_STAT_lock : Fld := ⟨0x44, 0, 1, 1, 1, .lv, 0⟩
/-- R365, 11_camera_lanes.md. -/
def Reg.CXP_LANE_STAT_bound : Fld := ⟨0x44, 0, 1, 2, 1, .lv, 0⟩
/-- R365, 11_camera_lanes.md. -/
def Reg.CXP_LANE_STAT_cam : Fld := ⟨0x44, 0, 1, 4, 3, .lv, 0⟩
/-- R365, 11_camera_lanes.md. -/
def Reg.CXP_LANE_STAT_conn : Fld := ⟨0x44, 0, 1, 8, 3, .lv, 0⟩
/-- R365, 11_camera_lanes.md. -/
def Reg.CXP_LANE_STAT_ctle_act : Fld := ⟨0x44, 0, 1, 12, 4, .lv, 0⟩
/-- R367, 11_camera_lanes.md. -/
def Reg.CXP_PRBS_CFG_poly : Fld := ⟨0x50, 0, 1, 0, 2, .rw, 0⟩
/-- R367, 11_camera_lanes.md. -/
def Reg.CXP_PRBS_CFG_gen_en : Fld := ⟨0x50, 0, 1, 4, 1, .rw, 0⟩
/-- R367, 11_camera_lanes.md. -/
def Reg.CXP_PRBS_CFG_gen_dst : Fld := ⟨0x50, 0, 1, 5, 1, .rw, 0⟩
/-- R367, 11_camera_lanes.md. -/
def Reg.CXP_PRBS_CFG_chk_en : Fld := ⟨0x50, 0, 1, 8, 1, .rw, 0⟩
/-- R367, 11_camera_lanes.md. -/
def Reg.CXP_PRBS_CFG_chk_lock : Fld := ⟨0x50, 0, 1, 9, 1, .lv, 0⟩
/-- R367, 11_camera_lanes.md. -/
def Reg.CXP_PRBS_CFG_inj_rate : Fld := ⟨0x50, 0, 1, 16, 4, .rw, 0⟩
/-- R367, 11_camera_lanes.md. -/
def Reg.CXP_PRBS_CFG_inj_one : Fld := ⟨0x50, 0, 1, 24, 1, .wo, 0⟩
/-- R385, 12_line_pipeline.md. -/
def Reg.LPL_INST_STAT_inline_cam : Fld := ⟨0x40, 0, 1, 0, 3, .lv, 0⟩
/-- R385, 12_line_pipeline.md. -/
def Reg.LPL_INST_STAT_inline_en : Fld := ⟨0x40, 0, 1, 3, 1, .lv, 0⟩
/-- R385, 12_line_pipeline.md. -/
def Reg.LPL_INST_STAT_tm_mask : Fld := ⟨0x40, 0, 1, 8, 8, .lv, 0⟩
/-- R386, 12_line_pipeline.md. -/
def Reg.LPL_CAM_CFG_inst : Fld := ⟨0x40, 0, 1, 0, 2, .rw, 0⟩
/-- R386, 12_line_pipeline.md. -/
def Reg.LPL_CAM_CFG_mode : Fld := ⟨0x40, 0, 1, 4, 1, .rw, 0⟩
/-- R386, 12_line_pipeline.md. -/
def Reg.LPL_CAM_CFG_out16 : Fld := ⟨0x40, 0, 1, 8, 1, .rw, 0⟩
/-- R386, 12_line_pipeline.md. -/
def Reg.LPL_CAM_CFG_stat_pt : Fld := ⟨0x40, 0, 1, 12, 2, .rw, 1⟩
/-- R386, 12_line_pipeline.md. -/
def Reg.LPL_CAM_CFG_cb : Fld := ⟨0x40, 0, 1, 16, 3, .rw, 0⟩
/-- R386, 12_line_pipeline.md. -/
def Reg.LPL_CAM_CFG_stat_en : Fld := ⟨0x40, 0, 1, 20, 1, .rw, 0⟩
/-- R386, 12_line_pipeline.md. -/
def Reg.LPL_CAM_CFG_stat_evt : Fld := ⟨0x40, 0, 1, 21, 1, .rw, 0⟩
/-- R386, 12_line_pipeline.md. -/
def Reg.LPL_CAM_CFG_tm_depth : Fld := ⟨0x40, 0, 1, 24, 4, .rw, 6⟩
/-- R388, 12_line_pipeline.md. -/
def Reg.LPL_PLOAD_CTL_go : Fld := ⟨0x70, 0, 1, 0, 1, .wo, 0⟩
/-- R388, 12_line_pipeline.md. -/
def Reg.LPL_PLOAD_CTL_key : Fld := ⟨0x70, 0, 1, 16, 16, .wo, 0⟩
/-- R389, 12_line_pipeline.md. -/
def Reg.LPL_PLOAD_STAT_state : Fld := ⟨0x74, 0, 1, 0, 2, .lv, 0⟩
/-- R389, 12_line_pipeline.md. -/
def Reg.LPL_PLOAD_STAT_res : Fld := ⟨0x74, 0, 1, 4, 4, .ro, 0⟩
/-- R389, 12_line_pipeline.md. -/
def Reg.LPL_PLOAD_STAT_gen : Fld := ⟨0x74, 0, 1, 16, 16, .lv, 0⟩
/-- R506, 16_host_interface.md. -/
def Reg.PCIE_STAT_link_up : Fld := ⟨0x40, 0, 1, 0, 1, .lv, 0⟩
/-- R506, 16_host_interface.md. -/
def Reg.PCIE_STAT_speed : Fld := ⟨0x40, 0, 1, 1, 3, .lv, 0⟩
/-- R506, 16_host_interface.md. -/
def Reg.PCIE_STAT_width : Fld := ⟨0x40, 0, 1, 4, 5, .lv, 0⟩
/-- R506, 16_host_interface.md. -/
def Reg.PCIE_STAT_bme : Fld := ⟨0x40, 0, 1, 9, 1, .lv, 0⟩
/-- R506, 16_host_interface.md. -/
def Reg.PCIE_STAT_perst : Fld := ⟨0x40, 0, 1, 10, 1, .lv, 0⟩
/-- R506, 16_host_interface.md. -/
def Reg.PCIE_STAT_msix_en : Fld := ⟨0x40, 0, 1, 11, 1, .lv, 0⟩
/-- R506, 16_host_interface.md. -/
def Reg.PCIE_STAT_wake : Fld := ⟨0x40, 0, 1, 12, 1, .lv, 0⟩
/-- R124, 04_registers_address_map.md. -/
def Reg.CLAIM_FIO_owner : Fld := ⟨0x40, 4, 16, 0, 3, .ro, 0⟩
/-- R124, 04_registers_address_map.md. -/
def Reg.CLAIM_FIO_unit : Fld := ⟨0x40, 4, 16, 4, 8, .ro, 0⟩
/-- R124, 04_registers_address_map.md. -/
def Reg.CLAIM_ETH_owner : Fld := ⟨0x40, 4, 32, 0, 3, .ro, 0⟩
/-- R124, 04_registers_address_map.md. -/
def Reg.CLAIM_ETH_unit : Fld := ⟨0x40, 4, 32, 4, 8, .ro, 0⟩
/-- R124, 04_registers_address_map.md. -/
def Reg.CLAIM_CFE0_owner : Fld := ⟨0x40, 4, 8, 0, 3, .ro, 0⟩
/-- R124, 04_registers_address_map.md. -/
def Reg.CLAIM_CFE0_unit : Fld := ⟨0x40, 4, 8, 4, 8, .ro, 0⟩
/-- R124, 04_registers_address_map.md. -/
def Reg.CLAIM_ENC_owner : Fld := ⟨0x100, 4, 8, 0, 3, .ro, 0⟩
/-- R124, 04_registers_address_map.md. -/
def Reg.CLAIM_ENC_unit : Fld := ⟨0x100, 4, 8, 4, 8, .ro, 0⟩
/-- R268, 08_memory_bellows.md. -/
def Reg.BLW_CLS_BUD0_budget : Fld := ⟨0x80, 16, 16, 0, 24, .rw, 0⟩
/-- R268, 08_memory_bellows.md. -/
def Reg.BLW_CLS_BUD0_prot : Fld := ⟨0x80, 16, 16, 24, 1, .rw, 0⟩
/-- R268, 08_memory_bellows.md. -/
def Reg.BLW_CLS_BUD0_borrow : Fld := ⟨0x80, 16, 16, 25, 1, .rw, 0⟩
/-- R268, 08_memory_bellows.md. -/
def Reg.BLW_CLS_BUD1_budget : Fld := ⟨0x84, 16, 16, 0, 24, .rw, 0⟩
/-- R268, 08_memory_bellows.md. -/
def Reg.BLW_CLS_DECL0_rate : Fld := ⟨0x88, 16, 16, 0, 24, .rw, 0⟩
/-- R268, 08_memory_bellows.md. -/
def Reg.BLW_CLS_DECL1_rate : Fld := ⟨0x8c, 16, 16, 0, 24, .rw, 0⟩
/-- R310, 09_contexts_scheduling.md. -/
def Reg.SCH_JOB_STAT_valid : Fld := ⟨0x44, 0, 1, 0, 1, .lv, 0⟩
/-- R310, 09_contexts_scheduling.md. -/
def Reg.SCH_JOB_STAT_ctx : Fld := ⟨0x44, 0, 1, 1, 3, .lv, 0⟩
/-- R310, 09_contexts_scheduling.md. -/
def Reg.SCH_JOB_STAT_phase : Fld := ⟨0x44, 0, 1, 4, 3, .lv, 0⟩
/-- R310, 09_contexts_scheduling.md. -/
def Reg.SCH_JOB_STAT_tag : Fld := ⟨0x44, 0, 1, 16, 16, .lv, 0⟩
/-- R310, 09_contexts_scheduling.md. -/
def Reg.SCH_JOB_OBJ_object : Fld := ⟨0x48, 0, 1, 0, 32, .lv, 0⟩
/-- R310, 09_contexts_scheduling.md. -/
def Reg.SCH_JOB_RTU_entry : Fld := ⟨0x4c, 0, 1, 0, 12, .lv, 0⟩
/-- R310, 09_contexts_scheduling.md. -/
def Reg.SCH_JOB_TENT_tentative_valid : Fld := ⟨0x54, 0, 1, 0, 1, .lv, 0⟩
/-- R310, 09_contexts_scheduling.md. -/
def Reg.SCH_JOB_TENT_tentative_dec : Fld := ⟨0x54, 0, 1, 1, 1, .lv, 0⟩
/-- R310, 09_contexts_scheduling.md. -/
def Reg.SCH_JOB_TENT_tentative_cls : Fld := ⟨0x54, 0, 1, 8, 8, .lv, 0⟩
/-- R310, 09_contexts_scheduling.md. -/
def Reg.SCH_JOB_TENT_tentative_gen : Fld := ⟨0x54, 0, 1, 16, 16, .lv, 0⟩
/-- R310, 09_contexts_scheduling.md. -/
def Reg.SCH_JOB_TCONF_tentative_conf : Fld := ⟨0x58, 0, 1, 0, 16, .lv, 0⟩
/-- R310, 09_contexts_scheduling.md. -/
def Reg.SCH_JOB_TCONF_tentative_obj_ctx : Fld := ⟨0x58, 0, 1, 16, 3, .lv, 0⟩
/-- R310, 09_contexts_scheduling.md. -/
def Reg.SCH_JOB_TOBJ_tentative_obj : Fld := ⟨0x5c, 0, 1, 0, 32, .lv, 0⟩
/-- R369, 11_camera_lanes.md. -/
def Reg.CFE_CAM_BIND_lanes : Fld := ⟨0x40, 0, 1, 0, 16, .rw, 0⟩
/-- R369, 11_camera_lanes.md. -/
def Reg.CFE_CAM_BIND_rate : Fld := ⟨0x40, 0, 1, 16, 3, .rw, 0⟩
/-- R369, 11_camera_lanes.md. -/
def Reg.CFE_CAM_FMT_width : Fld := ⟨0x44, 0, 1, 0, 16, .rw, 0⟩
/-- R369, 11_camera_lanes.md. -/
def Reg.CFE_CAM_FMT_fmt : Fld := ⟨0x44, 0, 1, 16, 3, .rw, 0⟩
/-- R369, 11_camera_lanes.md. -/
def Reg.CFE_CAM_FMT_stream_id : Fld := ⟨0x44, 0, 1, 24, 8, .rw, 0⟩
/-- R369, 11_camera_lanes.md. -/
def Reg.CFE_CAM_BLK_h : Fld := ⟨0x48, 0, 1, 0, 14, .rw, 64⟩
/-- R369, 11_camera_lanes.md. -/
def Reg.CFE_CAM_BLK_trig_src : Fld := ⟨0x48, 0, 1, 16, 2, .rw, 0⟩
/-- R369, 11_camera_lanes.md. -/
def Reg.CFE_CAM_WIN_lat_min : Fld := ⟨0x4c, 0, 1, 0, 16, .rw, 0⟩
/-- R369, 11_camera_lanes.md. -/
def Reg.CFE_CAM_WIN_lat_max : Fld := ⟨0x4c, 0, 1, 16, 16, .rw, 0⟩
/-- R369, 11_camera_lanes.md. -/
def Reg.CFE_CAM_LOSS_ms : Fld := ⟨0x50, 0, 1, 0, 10, .rw, 20⟩
/-- R369, 11_camera_lanes.md. -/
def Reg.CFE_CAM_STAT_state : Fld := ⟨0x54, 0, 1, 0, 3, .lv, 0⟩
/-- R369, 11_camera_lanes.md. -/
def Reg.CFE_CAM_STAT_log : Fld := ⟨0x54, 0, 1, 8, 7, .lv, 0⟩
/-- R369, 11_camera_lanes.md. -/
def Reg.CFE_CAM_STAT_res : Fld := ⟨0x54, 0, 1, 16, 4, .ro, 0⟩
/-- R369, 11_camera_lanes.md. -/
def Reg.CFE_CAM_CMD_op : Fld := ⟨0x58, 0, 1, 0, 2, .wo, 0⟩
/-- R369, 11_camera_lanes.md. -/
def Reg.CFE_CAM_CMD_key : Fld := ⟨0x58, 0, 1, 16, 16, .wo, 0⟩
/-- R421, 13_encoders_rtu.md. -/
def Reg.ENC_CFG_mode : Fld := ⟨0x40, 32, 4, 0, 2, .rw, 0⟩
/-- R421, 13_encoders_rtu.md. -/
def Reg.ENC_CFG_dir_inv : Fld := ⟨0x40, 32, 4, 2, 1, .rw, 0⟩
/-- R421, 13_encoders_rtu.md. -/
def Reg.ENC_CFG_term : Fld := ⟨0x40, 32, 4, 3, 1, .rw, 1⟩
/-- R421, 13_encoders_rtu.md. -/
def Reg.ENC_CFG_filt : Fld := ⟨0x40, 32, 4, 4, 5, .rw, 2⟩
/-- R421, 13_encoders_rtu.md. -/
def Reg.ENC_CFG_avg : Fld := ⟨0x40, 32, 4, 9, 4, .rw, 4⟩
/-- R421, 13_encoders_rtu.md. -/
def Reg.ENC_CFG_ill_lim : Fld := ⟨0x40, 32, 4, 16, 8, .rw, 1⟩
/-- R421, 13_encoders_rtu.md. -/
def Reg.ENC_CTRL_clr_flt : Fld := ⟨0x44, 32, 4, 0, 1, .wo, 0⟩
/-- R421, 13_encoders_rtu.md. -/
def Reg.ENC_STAT_ill : Fld := ⟨0x48, 32, 4, 0, 1, .w1c, 0⟩
/-- R421, 13_encoders_rtu.md. -/
def Reg.ENC_STAT_cab : Fld := ⟨0x48, 32, 4, 1, 3, .lv, 0⟩
/-- R421, 13_encoders_rtu.md. -/
def Reg.ENC_STAT_flt : Fld := ⟨0x48, 32, 4, 4, 1, .ro, 0⟩
/-- R421, 13_encoders_rtu.md. -/
def Reg.ENC_STAT_flt_cause : Fld := ⟨0x48, 32, 4, 5, 2, .ro, 0⟩
/-- R421, 13_encoders_rtu.md. -/
def Reg.ENC_STAT_stopped : Fld := ⟨0x48, 32, 4, 8, 1, .lv, 1⟩
/-- R421, 13_encoders_rtu.md. -/
def Reg.ENC_STAT_dir : Fld := ⟨0x48, 32, 4, 9, 1, .lv, 0⟩
/-- R421, 13_encoders_rtu.md. -/
def Reg.ENC_STAT_idx : Fld := ⟨0x48, 32, 4, 10, 1, .w1c, 0⟩
/-- R421, 13_encoders_rtu.md. -/
def Reg.ENC_CNT_count : Fld := ⟨0x4c, 32, 4, 0, 32, .rw, 0⟩
/-- R421, 13_encoders_rtu.md. -/
def Reg.ENC_IDX_count : Fld := ⟨0x50, 32, 4, 0, 32, .ro, 0⟩
/-- R421, 13_encoders_rtu.md. -/
def Reg.ENC_PER_per : Fld := ⟨0x54, 32, 4, 0, 32, .lv, 0⟩
/-- R421, 13_encoders_rtu.md. -/
def Reg.ENC_TIME_cab_t : Fld := ⟨0x58, 32, 4, 0, 8, .rw, 20⟩
/-- R421, 13_encoders_rtu.md. -/
def Reg.ENC_TIME_stop_ms : Fld := ⟨0x58, 32, 4, 8, 8, .rw, 10⟩
/-- R422, 13_encoders_rtu.md. -/
def Reg.ENC_ZROUTE_z0_en : Fld := ⟨0xc0, 0, 1, 0, 1, .rw, 1⟩
/-- R422, 13_encoders_rtu.md. -/
def Reg.ENC_ZROUTE_z0_to : Fld := ⟨0xc0, 0, 1, 1, 1, .rw, 0⟩
/-- R422, 13_encoders_rtu.md. -/
def Reg.ENC_ZROUTE_z1_en : Fld := ⟨0xc0, 0, 1, 2, 1, .rw, 1⟩
/-- R422, 13_encoders_rtu.md. -/
def Reg.ENC_ZROUTE_z1_to : Fld := ⟨0xc0, 0, 1, 3, 1, .rw, 0⟩
/-- R422, 13_encoders_rtu.md. -/
def Reg.TMR_PER_period : Fld := ⟨0x140, 8, 8, 0, 32, .rw, 2⟩
/-- R422, 13_encoders_rtu.md. -/
def Reg.TMR_CTL_en : Fld := ⟨0x144, 8, 8, 0, 1, .rw, 0⟩
/-- R422, 13_encoders_rtu.md. -/
def Reg.TMR_CTL_evt : Fld := ⟨0x144, 8, 8, 1, 1, .rw, 0⟩
/-- R422, 13_encoders_rtu.md. -/
def Reg.TMR_CTL_run : Fld := ⟨0x144, 8, 8, 8, 1, .lv, 0⟩
/-- R423, 13_encoders_rtu.md. -/
def Reg.LTG_CFG_enc : Fld := ⟨0x40, 64, 4, 0, 2, .rw, 0⟩
/-- R423, 13_encoders_rtu.md. -/
def Reg.LTG_CFG_start : Fld := ⟨0x40, 64, 4, 2, 2, .rw, 0⟩
/-- R423, 13_encoders_rtu.md. -/
def Reg.LTG_CFG_src : Fld := ⟨0x40, 64, 4, 4, 1, .rw, 0⟩
/-- R423, 13_encoders_rtu.md. -/
def Reg.LTG_CFG_tmr : Fld := ⟨0x40, 64, 4, 5, 3, .rw, 0⟩
/-- R423, 13_encoders_rtu.md. -/
def Reg.LTG_CFG_cams : Fld := ⟨0x40, 64, 4, 8, 8, .rw, 0⟩
/-- R423, 13_encoders_rtu.md. -/
def Reg.LTG_CFG_fo_en : Fld := ⟨0x40, 64, 4, 16, 1, .rw, 0⟩
/-- R423, 13_encoders_rtu.md. -/
def Reg.LTG_CFG_fo_ch : Fld := ⟨0x40, 64, 4, 20, 4, .rw, 0⟩
/-- R423, 13_encoders_rtu.md. -/
def Reg.LTG_SPC_S_lo : Fld := ⟨0x44, 64, 4, 0, 32, .rw, 0⟩
/-- R423, 13_encoders_rtu.md. -/
def Reg.LTG_SPC_S_hi : Fld := ⟨0x48, 64, 4, 0, 16, .rw, 0⟩
/-- R423, 13_encoders_rtu.md. -/
def Reg.LTG_START_start : Fld := ⟨0x4c, 64, 4, 0, 32, .rw, 0⟩
/-- R423, 13_encoders_rtu.md. -/
def Reg.LTG_PW_pw : Fld := ⟨0x50, 64, 4, 0, 16, .rw, 100⟩
/-- R423, 13_encoders_rtu.md. -/
def Reg.LTG_CTRL_arm : Fld := ⟨0x54, 64, 4, 0, 1, .rw, 0⟩
/-- R423, 13_encoders_rtu.md. -/
def Reg.LTG_STAT_state : Fld := ⟨0x58, 64, 4, 0, 2, .lv, 0⟩
/-- R423, 13_encoders_rtu.md. -/
def Reg.LTG_STAT_res : Fld := ⟨0x58, 64, 4, 4, 4, .ro, 0⟩
/-- R423, 13_encoders_rtu.md. -/
def Reg.LTG_CMP_cmp_lo : Fld := ⟨0x5c, 64, 4, 0, 32, .ro, 0⟩
/-- R423, 13_encoders_rtu.md. -/
def Reg.LTG_CMP_cmp_hi : Fld := ⟨0x60, 64, 4, 0, 16, .ro, 0⟩
/-- R423, 13_encoders_rtu.md. -/
def Reg.LTG_LAST_count : Fld := ⟨0x64, 64, 4, 0, 32, .ro, 0⟩
/-- R424, 13_encoders_rtu.md. -/
def Reg.RTU_CTRL_ovf_clr : Fld := ⟨0x40, 0, 1, 0, 1, .wo, 0⟩
/-- R424, 13_encoders_rtu.md. -/
def Reg.RTU_CTRL_key : Fld := ⟨0x40, 0, 1, 16, 16, .wo, 0⟩
/-- R424, 13_encoders_rtu.md. -/
def Reg.RTU_STAT_used : Fld := ⟨0x44, 0, 1, 0, 13, .lv, 0⟩
/-- R424, 13_encoders_rtu.md. -/
def Reg.RTU_STAT_ovf : Fld := ⟨0x44, 0, 1, 16, 1, .ro, 0⟩
/-- R425, 13_encoders_rtu.md. -/
def Reg.RTU_GRP_CFG_kind : Fld := ⟨0x100, 32, 32, 0, 1, .rw, 0⟩
/-- R425, 13_encoders_rtu.md. -/
def Reg.RTU_GRP_CFG_enc : Fld := ⟨0x100, 32, 32, 1, 2, .rw, 0⟩
/-- R425, 13_encoders_rtu.md. -/
def Reg.RTU_GRP_CFG_on_mode : Fld := ⟨0x100, 32, 32, 3, 1, .rw, 0⟩
/-- R425, 13_encoders_rtu.md. -/
def Reg.RTU_GRP_CFG_arm : Fld := ⟨0x100, 32, 32, 4, 1, .rw, 0⟩
/-- R425, 13_encoders_rtu.md. -/
def Reg.RTU_GRP_CFG_armed : Fld := ⟨0x100, 32, 32, 5, 1, .lv, 0⟩
/-- R425, 13_encoders_rtu.md. -/
def Reg.RTU_GRP_CFG_port : Fld := ⟨0x100, 32, 32, 6, 1, .rw, 0⟩
/-- R425, 13_encoders_rtu.md. -/
def Reg.RTU_GRP_CFG_res : Fld := ⟨0x100, 32, 32, 8, 4, .ro, 0⟩
/-- R425, 13_encoders_rtu.md. -/
def Reg.RTU_GRP_CFG_ch0 : Fld := ⟨0x100, 32, 32, 12, 4, .rw, 0⟩
/-- R425, 13_encoders_rtu.md. -/
def Reg.RTU_GRP_MAP_col0 : Fld := ⟨0x104, 32, 32, 0, 16, .rw, 0⟩
/-- R425, 13_encoders_rtu.md. -/
def Reg.RTU_GRP_MAP_pitch : Fld := ⟨0x104, 32, 32, 16, 16, .rw, 1⟩
/-- R425, 13_encoders_rtu.md. -/
def Reg.RTU_GRP_ACT_act0 : Fld := ⟨0x108, 32, 32, 0, 10, .rw, 0⟩
/-- R425, 13_encoders_rtu.md. -/
def Reg.RTU_GRP_ACT_n_act : Fld := ⟨0x108, 32, 32, 16, 11, .rw, 1⟩
/-- R425, 13_encoders_rtu.md. -/
def Reg.RTU_GRP_ADV_adv : Fld := ⟨0x10c, 32, 32, 0, 20, .rw, 0⟩
/-- R425, 13_encoders_rtu.md. -/
def Reg.RTU_GRP_ON_on_t : Fld := ⟨0x110, 32, 32, 0, 16, .rw, 1000⟩
/-- R425, 13_encoders_rtu.md. -/
def Reg.RTU_GRP_ON_max_on : Fld := ⟨0x110, 32, 32, 16, 16, .rw, 10000⟩
/-- R425, 13_encoders_rtu.md. -/
def Reg.RTU_GRP_EXT_ext_ct : Fld := ⟨0x114, 32, 32, 0, 24, .rw, 0⟩
/-- R425, 13_encoders_rtu.md. -/
def Reg.RTU_GRP_REM_slot0 : Fld := ⟨0x118, 32, 32, 0, 5, .rw, 0⟩
/-- R425, 13_encoders_rtu.md. -/
def Reg.RTU_GRP_REM_nslot : Fld := ⟨0x118, 32, 32, 5, 6, .rw, 1⟩
/-- R425, 13_encoders_rtu.md. -/
def Reg.RTU_GRP_REM_grid : Fld := ⟨0x118, 32, 32, 16, 10, .rw, 20⟩
/-- R425, 13_encoders_rtu.md. -/
def Reg.RTU_GRP_FRM_bmp_off : Fld := ⟨0x11c, 32, 32, 0, 11, .rw, 0⟩
/-- R426, 13_encoders_rtu.md. -/
def Reg.RTU_E_TGT_target : Fld := ⟨0x44, 0, 1, 0, 32, .lv, 0⟩
/-- R426, 13_encoders_rtu.md. -/
def Reg.RTU_E_INFO_state : Fld := ⟨0x48, 0, 1, 0, 3, .lv, 0⟩
/-- R426, 13_encoders_rtu.md. -/
def Reg.RTU_E_INFO_group : Fld := ⟨0x48, 0, 1, 4, 5, .lv, 0⟩
/-- R426, 13_encoders_rtu.md. -/
def Reg.RTU_E_INFO_failsafe : Fld := ⟨0x48, 0, 1, 9, 1, .lv, 0⟩
/-- R426, 13_encoders_rtu.md. -/
def Reg.RTU_E_INFO_nv : Fld := ⟨0x48, 0, 1, 10, 1, .lv, 0⟩
/-- R426, 13_encoders_rtu.md. -/
def Reg.RTU_E_INFO_ctx : Fld := ⟨0x48, 0, 1, 12, 3, .lv, 0⟩
/-- R426, 13_encoders_rtu.md. -/
def Reg.RTU_E_INFO_gen : Fld := ⟨0x48, 0, 1, 16, 8, .lv, 0⟩
/-- R426, 13_encoders_rtu.md. -/
def Reg.RTU_E_ACT_act_first : Fld := ⟨0x4c, 0, 1, 0, 10, .lv, 0⟩
/-- R426, 13_encoders_rtu.md. -/
def Reg.RTU_E_ACT_act_last : Fld := ⟨0x4c, 0, 1, 16, 10, .lv, 0⟩
/-- R426, 13_encoders_rtu.md. -/
def Reg.RTU_E_OBJ_object : Fld := ⟨0x50, 0, 1, 0, 32, .lv, 0⟩
/-- R426, 13_encoders_rtu.md. -/
def Reg.RTU_E_TENT_tentative_valid : Fld := ⟨0x54, 0, 1, 0, 1, .lv, 0⟩
/-- R426, 13_encoders_rtu.md. -/
def Reg.RTU_E_TENT_tentative_dec : Fld := ⟨0x54, 0, 1, 1, 1, .lv, 0⟩
/-- R426, 13_encoders_rtu.md. -/
def Reg.RTU_E_TENT_tentative_staged : Fld := ⟨0x54, 0, 1, 2, 1, .lv, 0⟩
/-- R426, 13_encoders_rtu.md. -/
def Reg.RTU_E_TENT_tentative_gen : Fld := ⟨0x54, 0, 1, 16, 16, .lv, 0⟩
/-- R447, 14_field_io.md. -/
def Reg.FIO_GLB_path : Fld := ⟨0x80, 0, 1, 0, 2, .lv, 2⟩
/-- R447, 14_field_io.md. -/
def Reg.FIO_GLB_main_req : Fld := ⟨0x80, 0, 1, 4, 1, .wo, 0⟩
/-- R447, 14_field_io.md. -/
def Reg.FIO_GLB_mirror_en : Fld := ⟨0x80, 0, 1, 8, 1, .rw, 0⟩
/-- R447, 14_field_io.md. -/
def Reg.FIO_GLB_mirror_ch : Fld := ⟨0x80, 0, 1, 12, 4, .rw, 0⟩
/-- R447, 14_field_io.md. -/
def Reg.FIO_SUP_vin : Fld := ⟨0x84, 0, 1, 0, 12, .lv, 0⟩
/-- R447, 14_field_io.md. -/
def Reg.FIO_SUP_iin : Fld := ⟨0x84, 0, 1, 16, 12, .lv, 0⟩
/-- R447, 14_field_io.md. -/
def Reg.FIO_SUP_uv : Fld := ⟨0x84, 0, 1, 28, 1, .lv, 1⟩
/-- R447, 14_field_io.md. -/
def Reg.FIO_SUP_ihigh : Fld := ⟨0x84, 0, 1, 29, 1, .lv, 0⟩
/-- R447, 14_field_io.md. -/
def Reg.FIO_SUP_pgood : Fld := ⟨0x84, 0, 1, 30, 1, .lv, 0⟩
/-- R447, 14_field_io.md. -/
def Reg.FIO_LS_en : Fld := ⟨0x88, 0, 1, 0, 8, .rw, 0⟩
/-- R447, 14_field_io.md. -/
def Reg.FIO_LS_ovl : Fld := ⟨0x88, 0, 1, 8, 8, .lv, 0⟩
/-- R447, 14_field_io.md. -/
def Reg.FIO_MEAS_REQ_ch : Fld := ⟨0x8c, 0, 1, 0, 4, .wo, 0⟩
/-- R447, 14_field_io.md. -/
def Reg.FIO_MEAS_REQ_kind : Fld := ⟨0x8c, 0, 1, 4, 1, .wo, 0⟩
/-- R447, 14_field_io.md. -/
def Reg.FIO_MEAS_REQ_go : Fld := ⟨0x8c, 0, 1, 8, 1, .wo, 0⟩
/-- R447, 14_field_io.md. -/
def Reg.FIO_MEAS_value : Fld := ⟨0x90, 0, 1, 0, 16, .ro, 0⟩
/-- R447, 14_field_io.md. -/
def Reg.FIO_MEAS_ch : Fld := ⟨0x90, 0, 1, 16, 4, .ro, 0⟩
/-- R447, 14_field_io.md. -/
def Reg.FIO_MEAS_valid : Fld := ⟨0x90, 0, 1, 24, 1, .lv, 0⟩
/-- R448, 14_field_io.md. -/
def Reg.FIO_CH_CFG_dir : Fld := ⟨0x100, 32, 16, 0, 1, .rw, 0⟩
/-- R448, 14_field_io.md. -/
def Reg.FIO_CH_CFG_diag_act : Fld := ⟨0x100, 32, 16, 1, 1, .rw, 1⟩
/-- R448, 14_field_io.md. -/
def Reg.FIO_CH_CFG_retry : Fld := ⟨0x100, 32, 16, 2, 1, .rw, 0⟩
/-- R448, 14_field_io.md. -/
def Reg.FIO_CH_CFG_oloff_en : Fld := ⟨0x100, 32, 16, 3, 1, .rw, 0⟩
/-- R448, 14_field_io.md. -/
def Reg.FIO_CH_CFG_evt : Fld := ⟨0x100, 32, 16, 4, 1, .rw, 0⟩
/-- R448, 14_field_io.md. -/
def Reg.FIO_CH_IN_smode : Fld := ⟨0x104, 32, 16, 0, 1, .rw, 0⟩
/-- R448, 14_field_io.md. -/
def Reg.FIO_CH_IN_enc : Fld := ⟨0x104, 32, 16, 1, 2, .rw, 0⟩
/-- R448, 14_field_io.md. -/
def Reg.FIO_CH_IN_filt_n : Fld := ⟨0x104, 32, 16, 8, 8, .rw, 3⟩
/-- R448, 14_field_io.md. -/
def Reg.FIO_CH_IN_ts : Fld := ⟨0x104, 32, 16, 16, 8, .rw, 10⟩
/-- R448, 14_field_io.md. -/
def Reg.FIO_CH_IN_wb_en : Fld := ⟨0x104, 32, 16, 24, 1, .rw, 0⟩
/-- R448, 14_field_io.md. -/
def Reg.FIO_CH_IN_wb_t : Fld := ⟨0x104, 32, 16, 28, 3, .rw, 1⟩
/-- R448, 14_field_io.md. -/
def Reg.FIO_CH_OUTCFG_pick_t : Fld := ⟨0x108, 32, 16, 0, 8, .rw, 0⟩
/-- R448, 14_field_io.md. -/
def Reg.FIO_CH_OUTCFG_hold_duty : Fld := ⟨0x108, 32, 16, 8, 6, .rw, 32⟩
/-- R448, 14_field_io.md. -/
def Reg.FIO_CH_OUT_lvl : Fld := ⟨0x10c, 32, 16, 0, 1, .rw, 0⟩
/-- R448, 14_field_io.md. -/
def Reg.FIO_CH_STAT_level : Fld := ⟨0x110, 32, 16, 0, 1, .lv, 0⟩
/-- R448, 14_field_io.md. -/
def Reg.FIO_CH_STAT_ovl : Fld := ⟨0x110, 32, 16, 1, 1, .lv, 0⟩
/-- R448, 14_field_io.md. -/
def Reg.FIO_CH_STAT_therm : Fld := ⟨0x110, 32, 16, 2, 1, .lv, 0⟩
/-- R448, 14_field_io.md. -/
def Reg.FIO_CH_STAT_open_on : Fld := ⟨0x110, 32, 16, 3, 1, .lv, 0⟩
/-- R448, 14_field_io.md. -/
def Reg.FIO_CH_STAT_open_off : Fld := ⟨0x110, 32, 16, 4, 1, .lv, 0⟩
/-- R448, 14_field_io.md. -/
def Reg.FIO_CH_STAT_short_lp : Fld := ⟨0x110, 32, 16, 5, 1, .lv, 0⟩
/-- R448, 14_field_io.md. -/
def Reg.FIO_CH_STAT_wb : Fld := ⟨0x110, 32, 16, 6, 1, .lv, 0⟩
/-- R448, 14_field_io.md. -/
def Reg.FIO_CH_STAT_off_latched : Fld := ⟨0x110, 32, 16, 7, 1, .lv, 0⟩
/-- R448, 14_field_io.md. -/
def Reg.FIO_CH_STAT_ovl_seen : Fld := ⟨0x110, 32, 16, 16, 1, .w1c, 0⟩
/-- R448, 14_field_io.md. -/
def Reg.FIO_CH_STAT_therm_seen : Fld := ⟨0x110, 32, 16, 17, 1, .w1c, 0⟩
/-- R448, 14_field_io.md. -/
def Reg.FIO_CH_STAT_wb_seen : Fld := ⟨0x110, 32, 16, 18, 1, .w1c, 0⟩
/-- R448, 14_field_io.md. -/
def Reg.FIO_CH_STAT_open_seen : Fld := ⟨0x110, 32, 16, 19, 1, .w1c, 0⟩
/-- R448, 14_field_io.md. -/
def Reg.FIO_CH_CTRL_clr : Fld := ⟨0x114, 32, 16, 0, 1, .wo, 0⟩
/-- R448, 14_field_io.md. -/
def Reg.FIO_CH_EDGE_t_e_lo : Fld := ⟨0x118, 32, 16, 0, 32, .ro, 0⟩
/-- R448, 14_field_io.md. -/
def Reg.FIO_CH_EDGE_t_e_hi : Fld := ⟨0x11c, 32, 16, 0, 32, .ro, 0⟩
/-- R449, 14_field_io.md. -/
def Reg.FIO_EYE_en : Fld := ⟨0x300, 16, 8, 0, 1, .rw, 0⟩
/-- R449, 14_field_io.md. -/
def Reg.FIO_EYE_ch : Fld := ⟨0x300, 16, 8, 4, 4, .rw, 0⟩
/-- R449, 14_field_io.md. -/
def Reg.FIO_EYE_pol : Fld := ⟨0x300, 16, 8, 8, 1, .rw, 0⟩
/-- R449, 14_field_io.md. -/
def Reg.FIO_EYE_OFF_off_ct : Fld := ⟨0x304, 16, 8, 0, 31, .rw, 0⟩
/-- R449, 14_field_io.md. -/
def Reg.FIO_EYE_LEAD_count : Fld := ⟨0x308, 16, 8, 0, 32, .ro, 0⟩
/-- R449, 14_field_io.md. -/
def Reg.FIO_EYE_TRAIL_count : Fld := ⟨0x30c, 16, 8, 0, 32, .ro, 0⟩
/-- R476, 15_network_time.md. -/
def Reg.ETH_PORT_CFG_en : Fld := ⟨0xc0, 0, 1, 0, 1, .rw, 0⟩
/-- R476, 15_network_time.md. -/
def Reg.ETH_PORT_CFG_speed : Fld := ⟨0xc0, 0, 1, 1, 1, .rw, 0⟩
/-- R476, 15_network_time.md. -/
def Reg.ETH_PORT_CFG_fec : Fld := ⟨0xc0, 0, 1, 2, 2, .rw, 0⟩
/-- R476, 15_network_time.md. -/
def Reg.ETH_PORT_CFG_sfp_rst : Fld := ⟨0xc0, 0, 1, 8, 1, .wo, 0⟩
/-- R476, 15_network_time.md. -/
def Reg.ETH_PORT_STAT_link : Fld := ⟨0xc4, 0, 1, 0, 1, .lv, 0⟩
/-- R476, 15_network_time.md. -/
def Reg.ETH_PORT_STAT_present : Fld := ⟨0xc4, 0, 1, 1, 1, .lv, 0⟩
/-- R476, 15_network_time.md. -/
def Reg.ETH_PORT_STAT_los : Fld := ⟨0xc4, 0, 1, 2, 1, .lv, 0⟩
/-- R476, 15_network_time.md. -/
def Reg.ETH_PORT_STAT_sfp_pwr : Fld := ⟨0xc4, 0, 1, 3, 1, .lv, 0⟩
/-- R476, 15_network_time.md. -/
def Reg.ETH_PORT_STAT_ocp : Fld := ⟨0xc4, 0, 1, 4, 1, .lv, 0⟩
/-- R476, 15_network_time.md. -/
def Reg.ETH_PORT_STAT_tx_dis : Fld := ⟨0xc4, 0, 1, 5, 1, .lv, 1⟩
/-- R476, 15_network_time.md. -/
def Reg.ETH_MAC_addr_lo : Fld := ⟨0xc8, 0, 1, 0, 32, .rw, 0⟩
/-- R476, 15_network_time.md. -/
def Reg.ETH_MAC_addr_hi : Fld := ⟨0xcc, 0, 1, 0, 16, .rw, 0⟩
/-- R476, 15_network_time.md. -/
def Reg.ETH_TS_CORR_tx_ext : Fld := ⟨0xd0, 0, 1, 0, 16, .rw, 0⟩
/-- R476, 15_network_time.md. -/
def Reg.ETH_TS_CORR_rx_ext : Fld := ⟨0xd0, 0, 1, 16, 16, .rw, 0⟩
/-- R476, 15_network_time.md. -/
def Reg.ETH_TS_CORR_INT_tx_int : Fld := ⟨0xd4, 0, 1, 0, 16, .ro, 0⟩
/-- R476, 15_network_time.md. -/
def Reg.ETH_TS_CORR_INT_rx_int : Fld := ⟨0xd4, 0, 1, 16, 16, .ro, 0⟩
/-- R476, 15_network_time.md. -/
def Reg.ETH_TSQ_HEAD0_time : Fld := ⟨0xe0, 0, 1, 0, 32, .ro, 0⟩
/-- R476, 15_network_time.md. -/
def Reg.ETH_TSQ_HEAD1_time : Fld := ⟨0xe4, 0, 1, 0, 32, .ro, 0⟩
/-- R476, 15_network_time.md. -/
def Reg.ETH_TSQ_HEAD2_id : Fld := ⟨0xe8, 0, 1, 0, 16, .ro, 0⟩
/-- R476, 15_network_time.md. -/
def Reg.ETH_TSQ_HEAD2_valid : Fld := ⟨0xe8, 0, 1, 16, 1, .lv, 0⟩
/-- R476, 15_network_time.md. -/
def Reg.ETH_TSQ_HEAD2_late : Fld := ⟨0xe8, 0, 1, 17, 1, .ro, 0⟩
/-- R476, 15_network_time.md. -/
def Reg.ETH_TSQ_HEAD2_src : Fld := ⟨0xe8, 0, 1, 18, 1, .ro, 0⟩
/-- R476, 15_network_time.md. -/
def Reg.ETH_TSQ_HEAD2_slot : Fld := ⟨0xe8, 0, 1, 19, 5, .ro, 0⟩
/-- R476, 15_network_time.md. -/
def Reg.ETH_TSQ_HEAD2_count : Fld := ⟨0xe8, 0, 1, 24, 7, .lv, 0⟩
/-- R476, 15_network_time.md. -/
def Reg.ETH_TSQ_POP_pop : Fld := ⟨0xec, 0, 1, 0, 1, .wo, 0⟩
/-- R476, 15_network_time.md. -/
def Reg.ETH_TSQ_LOST_id : Fld := ⟨0xf0, 0, 1, 0, 16, .ro, 0⟩
/-- R477, 15_network_time.md. -/
def Reg.LSLOT_TIME_time_lo : Fld := ⟨0x200, 32, 32, 0, 32, .rw, 0⟩
/-- R477, 15_network_time.md. -/
def Reg.LSLOT_TIME_time_hi : Fld := ⟨0x204, 32, 32, 0, 32, .rw, 0⟩
/-- R477, 15_network_time.md. -/
def Reg.LSLOT_CFG_len : Fld := ⟨0x208, 32, 32, 0, 11, .rw, 60⟩
/-- R477, 15_network_time.md. -/
def Reg.LSLOT_CFG_ts_en : Fld := ⟨0x208, 32, 32, 12, 1, .rw, 0⟩
/-- R477, 15_network_time.md. -/
def Reg.LSLOT_CFG_time_en : Fld := ⟨0x208, 32, 32, 13, 1, .rw, 0⟩
/-- R477, 15_network_time.md. -/
def Reg.LSLOT_CFG_ip_csum : Fld := ⟨0x208, 32, 32, 14, 1, .rw, 0⟩
/-- R477, 15_network_time.md. -/
def Reg.LSLOT_CFG_udp_csum : Fld := ⟨0x208, 32, 32, 15, 1, .rw, 0⟩
/-- R477, 15_network_time.md. -/
def Reg.LSLOT_CFG_time_off : Fld := ⟨0x208, 32, 32, 16, 11, .rw, 0⟩
/-- R477, 15_network_time.md. -/
def Reg.LSLOT_CTRL_go : Fld := ⟨0x20c, 32, 32, 0, 1, .wo, 0⟩
/-- R477, 15_network_time.md. -/
def Reg.LSLOT_CTRL_cancel : Fld := ⟨0x20c, 32, 32, 1, 1, .wo, 0⟩
/-- R477, 15_network_time.md. -/
def Reg.LSLOT_CTRL_state : Fld := ⟨0x20c, 32, 32, 4, 2, .lv, 0⟩
/-- R477, 15_network_time.md. -/
def Reg.LSLOT_CTRL_res : Fld := ⟨0x20c, 32, 32, 8, 4, .ro, 0⟩
/-- R477, 15_network_time.md. -/
def Reg.LSLOT_CTRL_ts_id : Fld := ⟨0x20c, 32, 32, 16, 16, .rw, 0⟩
/-- R477, 15_network_time.md. -/
def Reg.LSLOT_SRC_addr_lo : Fld := ⟨0x210, 32, 32, 0, 32, .rw, 0⟩
/-- R477, 15_network_time.md. -/
def Reg.LSLOT_SRC_addr_hi : Fld := ⟨0x214, 32, 32, 0, 8, .rw, 0⟩
/-- R478, 15_network_time.md. -/
def Reg.PTP_TIME_time_lo : Fld := ⟨0x40, 0, 1, 0, 32, .ro, 0⟩
/-- R478, 15_network_time.md. -/
def Reg.PTP_TIME_time_hi : Fld := ⟨0x44, 0, 1, 0, 32, .ro, 0⟩
/-- R478, 15_network_time.md. -/
def Reg.PTP_ADJ_offset_lo : Fld := ⟨0x48, 0, 1, 0, 32, .rw, 0⟩
/-- R478, 15_network_time.md. -/
def Reg.PTP_ADJ_offset_hi : Fld := ⟨0x4c, 0, 1, 0, 32, .rw, 0⟩
/-- R478, 15_network_time.md. -/
def Reg.PTP_RATE_rate : Fld := ⟨0x50, 0, 1, 0, 32, .rw, 0⟩
/-- R478, 15_network_time.md. -/
def Reg.PTP_CTL_step : Fld := ⟨0x54, 0, 1, 0, 1, .wo, 0⟩
/-- R478, 15_network_time.md. -/
def Reg.PTP_CTL_valid : Fld := ⟨0x54, 0, 1, 1, 1, .rw, 0⟩
/-- R478, 15_network_time.md. -/
def Reg.PTP_CTL_kick : Fld := ⟨0x54, 0, 1, 2, 1, .wo, 0⟩
/-- R478, 15_network_time.md. -/
def Reg.PTP_CTL_holdover_s : Fld := ⟨0x54, 0, 1, 8, 8, .rw, 2⟩
/-- R478, 15_network_time.md. -/
def Reg.PTP_CTL_step_lim : Fld := ⟨0x54, 0, 1, 16, 16, .rw, 1000⟩
/-- R478, 15_network_time.md. -/
def Reg.PTP_PPS_out_en : Fld := ⟨0x58, 0, 1, 0, 1, .rw, 1⟩
/-- R478, 15_network_time.md. -/
def Reg.PTP_PPS_pw : Fld := ⟨0x58, 0, 1, 8, 8, .rw, 100⟩
/-- R478, 15_network_time.md. -/
def Reg.PTP_PPS_IN_time_lo : Fld := ⟨0x5c, 0, 1, 0, 32, .ro, 0⟩
/-- R478, 15_network_time.md. -/
def Reg.PTP_PPS_IN_time_hi : Fld := ⟨0x60, 0, 1, 0, 32, .ro, 0⟩
/-- R479, 15_network_time.md. -/
def Reg.BRY_CFG_module_id : Fld := ⟨0x40, 0, 1, 0, 16, .rw, 0⟩
/-- R479, 15_network_time.md. -/
def Reg.BRY_CFG_en : Fld := ⟨0x40, 0, 1, 16, 1, .rw, 0⟩
/-- R479, 15_network_time.md. -/
def Reg.BRY_CFG_coll_reset_en : Fld := ⟨0x40, 0, 1, 17, 1, .rw, 0⟩
/-- R479, 15_network_time.md. -/
def Reg.BRY_FARM_n : Fld := ⟨0x44, 0, 1, 0, 17, .rw, 1⟩
/-- R479, 15_network_time.md. -/
def Reg.BRY_UDP_port : Fld := ⟨0x48, 0, 1, 0, 16, .rw, 47200⟩
/-- R479, 15_network_time.md. -/
def Reg.BRY_UDP_rto : Fld := ⟨0x48, 0, 1, 16, 8, .rw, 20⟩
/-- R479, 15_network_time.md. -/
def Reg.BRY_UDP_max_retry : Fld := ⟨0x48, 0, 1, 24, 4, .rw, 8⟩
/-- R479, 15_network_time.md. -/
def Reg.BRY_IP_addr : Fld := ⟨0x4c, 0, 1, 0, 32, .rw, 0⟩
/-- R479, 15_network_time.md. -/
def Reg.BRY_FLOW_BASE_addr_lo : Fld := ⟨0x50, 0, 1, 0, 32, .rw, 0⟩
/-- R479, 15_network_time.md. -/
def Reg.BRY_FLOW_BASE_addr_hi : Fld := ⟨0x54, 0, 1, 0, 8, .rw, 0⟩
/-- R479, 15_network_time.md. -/
def Reg.BRY_FLOW_N_n : Fld := ⟨0x58, 0, 1, 0, 13, .rw, 0⟩
/-- R479, 15_network_time.md. -/
def Reg.BRY_SQ_addr : Fld := ⟨0x60, 4, 8, 0, 23, .rw, 0⟩
/-- R479, 15_network_time.md. -/
def Reg.BRY_SQ_size_log2 : Fld := ⟨0x60, 4, 8, 24, 4, .rw, 4⟩
/-- R479, 15_network_time.md. -/
def Reg.BRY_SQ_en : Fld := ⟨0x60, 4, 8, 31, 1, .rw, 0⟩
/-- R479, 15_network_time.md. -/
def Reg.BRY_NBR_ip : Fld := ⟨0xc0, 16, 3, 0, 32, .rw, 0⟩
/-- R479, 15_network_time.md. -/
def Reg.BRY_NBR_mac_lo : Fld := ⟨0xc4, 16, 3, 0, 32, .rw, 0⟩
/-- R479, 15_network_time.md. -/
def Reg.BRY_NBR_mac_hi : Fld := ⟨0xc8, 16, 3, 0, 16, .rw, 0⟩
/-- R479, 15_network_time.md. -/
def Reg.BRY_NBR_port : Fld := ⟨0xc8, 16, 3, 16, 1, .rw, 0⟩
/-- R479, 15_network_time.md. -/
def Reg.BRY_NBR_valid : Fld := ⟨0xc8, 16, 3, 17, 1, .rw, 0⟩
/-- R479, 15_network_time.md. -/
def Reg.BRY_COLL_id : Fld := ⟨0xf0, 0, 1, 0, 8, .wo, 0⟩
/-- R479, 15_network_time.md. -/
def Reg.BRY_COLL_op : Fld := ⟨0xf0, 0, 1, 8, 2, .wo, 0⟩
/-- R479, 15_network_time.md. -/
def Reg.BRY_COLL_go : Fld := ⟨0xf0, 0, 1, 12, 1, .wo, 0⟩
/-- R479, 15_network_time.md. -/
def Reg.BRY_COLL_ARG_arg : Fld := ⟨0xf4, 0, 1, 0, 16, .wo, 0⟩
/-- R479, 15_network_time.md. -/
def Reg.BRY_STAT_faulted : Fld := ⟨0xf8, 0, 1, 0, 13, .lv, 0⟩
/-- R479, 15_network_time.md. -/
def Reg.BRY_STAT_first : Fld := ⟨0xf8, 0, 1, 16, 13, .ro, 0⟩
/-- R507, 16_host_interface.md. -/
def Reg.ERQ_QBASE_addr_lo : Fld := ⟨0x40, 32, 16, 0, 32, .rw, 0⟩
/-- R507, 16_host_interface.md. -/
def Reg.ERQ_QBASE_addr_hi : Fld := ⟨0x44, 32, 16, 0, 32, .rw, 0⟩
/-- R507, 16_host_interface.md. -/
def Reg.ERQ_QCFG_en : Fld := ⟨0x48, 32, 16, 0, 1, .rw, 0⟩
/-- R507, 16_host_interface.md. -/
def Reg.ERQ_QCFG_size_log2 : Fld := ⟨0x48, 32, 16, 4, 4, .rw, 4⟩
/-- R507, 16_host_interface.md. -/
def Reg.ERQ_QCONS_cons : Fld := ⟨0x4c, 32, 16, 0, 15, .lv, 0⟩
/-- R507, 16_host_interface.md. -/
def Reg.ERQ_QPROD_prod : Fld := ⟨0x50, 32, 16, 0, 15, .lv, 0⟩
/-- R507, 16_host_interface.md. -/
def Reg.ERQ_QPROD_phase : Fld := ⟨0x50, 32, 16, 15, 1, .lv, 1⟩
/-- R507, 16_host_interface.md. -/
def Reg.ERQ_QSEQ_seq : Fld := ⟨0x54, 32, 16, 0, 32, .lv, 0⟩
/-- R508, 16_host_interface.md. -/
def Reg.MBX_BASE_addr_lo : Fld := ⟨0x240, 0, 1, 0, 32, .rw, 0⟩
/-- R508, 16_host_interface.md. -/
def Reg.MBX_BASE_addr_hi : Fld := ⟨0x244, 0, 1, 0, 32, .rw, 0⟩
/-- R508, 16_host_interface.md. -/
def Reg.MBX_CFG_en : Fld := ⟨0x248, 0, 1, 0, 1, .rw, 0⟩
/-- R508, 16_host_interface.md. -/
def Reg.MBX_CFG_size_log2 : Fld := ⟨0x248, 0, 1, 4, 4, .rw, 4⟩
/-- R508, 16_host_interface.md. -/
def Reg.MBX_STAT_prod : Fld := ⟨0x24c, 0, 1, 0, 6, .lv, 0⟩
/-- R508, 16_host_interface.md. -/
def Reg.MBX_STAT_cons : Fld := ⟨0x24c, 0, 1, 16, 6, .lv, 0⟩
/-- R508, 16_host_interface.md. -/
def Reg.MBX_STAT_busy : Fld := ⟨0x24c, 0, 1, 24, 1, .lv, 0⟩
/-- R508, 16_host_interface.md. -/
def Reg.ERQ_TSEL_src : Fld := ⟨0x260, 0, 1, 0, 12, .rw, 0⟩
/-- R508, 16_host_interface.md. -/
def Reg.ERQ_TGT_tgt : Fld := ⟨0x264, 0, 1, 0, 8, .rw, 0⟩
/-- R508, 16_host_interface.md. -/
def Reg.ERQ_TGT_refused : Fld := ⟨0x264, 0, 1, 8, 1, .w1c, 0⟩
/-- R508, 16_host_interface.md. -/
def Reg.ERQ_HSR_busy : Fld := ⟨0x270, 0, 1, 0, 1, .lv, 0⟩
/-- R508, 16_host_interface.md. -/
def Reg.ERQ_HSR_cause : Fld := ⟨0x270, 0, 1, 1, 3, .ro, 0⟩
/-- R530, 17_archive_decode.md. -/
def Reg.ARC_DS_BASE_addr_lo : Fld := ⟨0x40, 0, 1, 0, 32, .rw, 0⟩
/-- R530, 17_archive_decode.md. -/
def Reg.ARC_DS_BASE_addr_hi : Fld := ⟨0x44, 0, 1, 0, 8, .rw, 0⟩
/-- R530, 17_archive_decode.md. -/
def Reg.ARC_DS_N_n : Fld := ⟨0x48, 0, 1, 0, 25, .rw, 0⟩
/-- R530, 17_archive_decode.md. -/
def Reg.ARC_DS_ID_id : Fld := ⟨0x4c, 0, 1, 0, 32, .rw, 0⟩
/-- R530, 17_archive_decode.md. -/
def Reg.ARC_OUT_BASE_addr_lo : Fld := ⟨0x50, 0, 1, 0, 32, .rw, 0⟩
/-- R530, 17_archive_decode.md. -/
def Reg.ARC_OUT_BASE_addr_hi : Fld := ⟨0x54, 0, 1, 0, 8, .rw, 0⟩
/-- R530, 17_archive_decode.md. -/
def Reg.ARC_GEOM_wmax : Fld := ⟨0x58, 0, 1, 0, 16, .rw, 0⟩
/-- R530, 17_archive_decode.md. -/
def Reg.ARC_GEOM_hmax : Fld := ⟨0x58, 0, 1, 16, 16, .rw, 0⟩
/-- R530, 17_archive_decode.md. -/
def Reg.ARC_SCFG_ctx : Fld := ⟨0x5c, 0, 1, 0, 3, .rw, 0⟩
/-- R530, 17_archive_decode.md. -/
def Reg.ARC_SCFG_fmt : Fld := ⟨0x5c, 0, 1, 4, 2, .rw, 0⟩
/-- R530, 17_archive_decode.md. -/
def Reg.ARC_SCFG_shuffle : Fld := ⟨0x5c, 0, 1, 6, 1, .rw, 1⟩
/-- R530, 17_archive_decode.md. -/
def Reg.ARC_SCFG_shard : Fld := ⟨0x5c, 0, 1, 7, 1, .rw, 0⟩
/-- R530, 17_archive_decode.md. -/
def Reg.ARC_SCFG_b_m1 : Fld := ⟨0x5c, 0, 1, 8, 10, .rw, 0⟩
/-- R530, 17_archive_decode.md. -/
def Reg.ARC_SCFG_nbat_log2 : Fld := ⟨0x5c, 0, 1, 20, 3, .rw, 1⟩
/-- R530, 17_archive_decode.md. -/
def Reg.ARC_SCFG_done_evt : Fld := ⟨0x5c, 0, 1, 24, 1, .rw, 0⟩
/-- R530, 17_archive_decode.md. -/
def Reg.ARC_EP0_epoch : Fld := ⟨0x60, 0, 1, 0, 32, .rw, 0⟩
/-- R530, 17_archive_decode.md. -/
def Reg.ARC_EPN_count : Fld := ⟨0x64, 0, 1, 0, 32, .rw, 1⟩
/-- R530, 17_archive_decode.md. -/
def Reg.ARC_MAN_BASE_addr_lo : Fld := ⟨0x68, 0, 1, 0, 32, .rw, 0⟩
/-- R530, 17_archive_decode.md. -/
def Reg.ARC_MAN_BASE_addr_hi : Fld := ⟨0x6c, 0, 1, 0, 8, .rw, 0⟩
/-- R530, 17_archive_decode.md. -/
def Reg.ARC_MAN_CFG_size_log2 : Fld := ⟨0x70, 0, 1, 0, 5, .rw, 12⟩
/-- R530, 17_archive_decode.md. -/
def Reg.ARC_MAN_CFG_prod : Fld := ⟨0x70, 0, 1, 16, 16, .lv, 0⟩
/-- R530, 17_archive_decode.md. -/
def Reg.ARC_MAN_CONS_cons : Fld := ⟨0x74, 0, 1, 0, 16, .rw, 0⟩
/-- R530, 17_archive_decode.md. -/
def Reg.ARC_BCONS_batches : Fld := ⟨0x78, 0, 1, 0, 32, .rw, 0⟩
/-- R530, 17_archive_decode.md. -/
def Reg.ARC_SCTL_op : Fld := ⟨0x7c, 0, 1, 0, 2, .wo, 0⟩
/-- R530, 17_archive_decode.md. -/
def Reg.ARC_SCTL_key : Fld := ⟨0x7c, 0, 1, 16, 16, .wo, 0⟩
/-- R530, 17_archive_decode.md. -/
def Reg.ARC_SSTAT_state : Fld := ⟨0x80, 0, 1, 0, 3, .lv, 0⟩
/-- R530, 17_archive_decode.md. -/
def Reg.ARC_SSTAT_res : Fld := ⟨0x80, 0, 1, 4, 4, .ro, 0⟩
/-- R530, 17_archive_decode.md. -/
def Reg.ARC_EPOCH_CUR_epoch : Fld := ⟨0x84, 0, 1, 0, 32, .lv, 0⟩
/-- R530, 17_archive_decode.md. -/
def Reg.ARC_BATCH_CUR_batch : Fld := ⟨0x88, 0, 1, 0, 32, .lv, 0⟩
/-- R530, 17_archive_decode.md. -/
def Reg.ARC_RES_BASE_addr_lo : Fld := ⟨0x90, 0, 1, 0, 32, .rw, 0⟩
/-- R530, 17_archive_decode.md. -/
def Reg.ARC_RES_BASE_addr_hi : Fld := ⟨0x94, 0, 1, 0, 8, .rw, 0⟩
/-- R557, 18_security_firmware.md. -/
def Reg.TMP_LC_state : Fld := ⟨0x40, 0, 1, 0, 3, .ro, 0⟩
/-- R557, 18_security_firmware.md. -/
def Reg.TMP_LC_count : Fld := ⟨0x40, 0, 1, 8, 4, .ro, 0⟩
/-- R557, 18_security_firmware.md. -/
def Reg.TMP_LC_floor : Fld := ⟨0x40, 0, 1, 16, 7, .ro, 0⟩
/-- R557, 18_security_firmware.md. -/
def Reg.TMP_LC_roots_revoked : Fld := ⟨0x40, 0, 1, 24, 4, .ro, 0⟩
/-- R557, 18_security_firmware.md. -/
def Reg.TMP_SERIAL_serial_lo : Fld := ⟨0x44, 0, 1, 0, 32, .ro, 0⟩
/-- R557, 18_security_firmware.md. -/
def Reg.TMP_SERIAL_serial_hi : Fld := ⟨0x48, 0, 1, 0, 32, .ro, 0⟩
/-- R557, 18_security_firmware.md. -/
def Reg.TMP_STAT_busy : Fld := ⟨0x4c, 0, 1, 0, 1, .lv, 0⟩
/-- R557, 18_security_firmware.md. -/
def Reg.TMP_STAT_recovery : Fld := ⟨0x4c, 0, 1, 1, 1, .lv, 0⟩
/-- R557, 18_security_firmware.md. -/
def Reg.TMP_STAT_staged : Fld := ⟨0x4c, 0, 1, 2, 1, .lv, 0⟩
/-- R557, 18_security_firmware.md. -/
def Reg.TMP_STAT_test_open : Fld := ⟨0x4c, 0, 1, 3, 1, .lv, 0⟩
/-- R557, 18_security_firmware.md. -/
def Reg.TMP_STAT_slots : Fld := ⟨0x4c, 0, 1, 4, 4, .lv, 0⟩
/-- R557, 18_security_firmware.md. -/
def Reg.TMP_STAT_rec_bad : Fld := ⟨0x4c, 0, 1, 8, 1, .lv, 0⟩
/-- R557, 18_security_firmware.md. -/
def Reg.TMP_STAT_handover : Fld := ⟨0x4c, 0, 1, 9, 1, .lv, 0⟩
/-- R557, 18_security_firmware.md. -/
def Reg.TMP_STAT_half : Fld := ⟨0x4c, 0, 1, 10, 1, .lv, 0⟩
/-- R557, 18_security_firmware.md. -/
def Reg.TMP_STAT_res : Fld := ⟨0x4c, 0, 1, 16, 8, .ro, 0⟩
/-- R557, 18_security_firmware.md. -/
def Reg.TMP_AUTH_CTR_count : Fld := ⟨0x50, 0, 1, 0, 13, .ro, 0⟩
/-- R557, 18_security_firmware.md. -/
def Reg.TMP_RCV_ADDR_addr_lo : Fld := ⟨0x58, 0, 1, 0, 32, .rw, 0⟩
/-- R557, 18_security_firmware.md. -/
def Reg.TMP_RCV_ADDR_addr_hi : Fld := ⟨0x5c, 0, 1, 0, 8, .rw, 0⟩
/-- R557, 18_security_firmware.md. -/
def Reg.TMP_RCV_LEN_len : Fld := ⟨0x60, 0, 1, 0, 26, .rw, 0⟩
/-- R557, 18_security_firmware.md. -/
def Reg.TMP_RCV_CTL_go : Fld := ⟨0x64, 0, 1, 0, 1, .wo, 0⟩
/-- R557, 18_security_firmware.md. -/
def Reg.TMP_RCV_CTL_key : Fld := ⟨0x64, 0, 1, 16, 16, .wo, 0⟩
/-- R557, 18_security_firmware.md. -/
def Reg.TMP_ALIVE_alive : Fld := ⟨0x68, 0, 1, 0, 1, .wo, 0⟩
/-- R582, 19_faults_availability.md. -/
def Reg.FLT_FENCE_rq : Fld := ⟨0x40, 0, 1, 0, 32, .lv, 0⟩
/-- R582, 19_faults_availability.md. -/
def Reg.FLT_FENCE2_iso_main : Fld := ⟨0x44, 0, 1, 0, 1, .lv, 0⟩
/-- R582, 19_faults_availability.md. -/
def Reg.FLT_STAT_busy : Fld := ⟨0x48, 0, 1, 0, 1, .lv, 0⟩
/-- R582, 19_faults_availability.md. -/
def Reg.FLT_STAT_jobs : Fld := ⟨0x48, 0, 1, 4, 10, .lv, 0⟩
/-- R582, 19_faults_availability.md. -/
def Reg.FLT_STAT_retest : Fld := ⟨0x48, 0, 1, 16, 1, .lv, 0⟩
/-- R582, 19_faults_availability.md. -/
def Reg.FLT_LAST_src : Fld := ⟨0x4c, 0, 1, 0, 12, .ro, 0⟩
/-- R582, 19_faults_availability.md. -/
def Reg.FLT_LAST_cause : Fld := ⟨0x4c, 0, 1, 16, 8, .ro, 0⟩
/-- R582, 19_faults_availability.md. -/
def Reg.FLT_LAST_action : Fld := ⟨0x4c, 0, 1, 24, 4, .ro, 0⟩
/-- R582, 19_faults_availability.md. -/
def Reg.FLT_UNFENCE_unit : Fld := ⟨0x50, 0, 1, 0, 7, .wo, 0⟩
/-- R582, 19_faults_availability.md. -/
def Reg.FLT_UNFENCE_key : Fld := ⟨0x50, 0, 1, 16, 16, .wo, 0⟩
/-- R582, 19_faults_availability.md. -/
def Reg.FLT_HWDG_ms : Fld := ⟨0x54, 0, 1, 0, 10, .rw, 100⟩
/-- R582, 19_faults_availability.md. -/
def Reg.FLT_HWDG_held : Fld := ⟨0x54, 0, 1, 12, 1, .lv, 0⟩
/-- R582, 19_faults_availability.md. -/
def Reg.FLT_HWDG_kick : Fld := ⟨0x54, 0, 1, 16, 4, .wo, 0⟩
/-- R582, 19_faults_availability.md. -/
def Reg.FLT_HWDG_restarts : Fld := ⟨0x54, 0, 1, 24, 8, .ro, 0⟩
/-- R584, 19_faults_availability.md. -/
def Reg.QCH_STAT_state : Fld := ⟨0x40, 0, 1, 0, 2, .lv, 0⟩
/-- R584, 19_faults_availability.md. -/
def Reg.QCH_STAT_group : Fld := ⟨0x40, 0, 1, 4, 4, .lv, 0⟩
/-- R584, 19_faults_availability.md. -/
def Reg.QCH_STAT_wave : Fld := ⟨0x40, 0, 1, 8, 5, .lv, 0⟩
/-- R584, 19_faults_availability.md. -/
def Reg.QCH_STAT_rec : Fld := ⟨0x40, 0, 1, 16, 2, .ro, 0⟩
/-- R584, 19_faults_availability.md. -/
def Reg.QCH_ENT_result : Fld := ⟨0x48, 0, 1, 0, 3, .ro, 0⟩
/-- R584, 19_faults_availability.md. -/
def Reg.QCH_ENT_untested : Fld := ⟨0x48, 0, 1, 3, 1, .ro, 0⟩
/-- R584, 19_faults_availability.md. -/
def Reg.QCH_ENT_coverage : Fld := ⟨0x48, 0, 1, 16, 16, .ro, 0⟩
/-- R584, 19_faults_availability.md. -/
def Reg.QCH_ENT_T_time_lo : Fld := ⟨0x4c, 0, 1, 0, 32, .ro, 0⟩
/-- R584, 19_faults_availability.md. -/
def Reg.QCH_ENT_T_time_hi : Fld := ⟨0x50, 0, 1, 0, 32, .ro, 0⟩
/-- R112, 04_registers_address_map.md. -/
def Reg.CHIP_SNAP_TIME_lo : Fld := ⟨0x68, 0, 1, 0, 32, .ro, 0⟩
/-- R112, 04_registers_address_map.md. -/
def Reg.CHIP_SNAP_TIME_hi : Fld := ⟨0x6c, 0, 1, 0, 32, .ro, 0⟩
/-- R166, 05_anvil_engine.md. -/
def Reg.ANV_CTX_PROG_lo : Fld := ⟨0x40, 16, 8, 0, 32, .rw, 0⟩
/-- R166, 05_anvil_engine.md. -/
def Reg.ANV_CTX_PROG_hi : Fld := ⟨0x44, 16, 8, 0, 8, .rw, 0⟩
/-- R167, 05_anvil_engine.md. -/
def Reg.TNG_CTX_BUF_base : Fld := ⟨0x48, 16, 8, 0, 11, .rw, 0⟩
/-- R167, 05_anvil_engine.md. -/
def Reg.TNG_CTX_BUF_size : Fld := ⟨0x48, 16, 8, 12, 11, .rw, 0⟩
/-- R168, 05_anvil_engine.md. -/
def Reg.TNG_CTX_STAT_pc : Fld := ⟨0x4c, 16, 8, 0, 11, .lv, 0⟩
/-- R168, 05_anvil_engine.md. -/
def Reg.TNG_CTX_STAT_state : Fld := ⟨0x4c, 16, 8, 12, 3, .lv, 0⟩
/-- R168, 05_anvil_engine.md. -/
def Reg.TNG_CTX_STAT_step : Fld := ⟨0x4c, 16, 8, 16, 16, .lv, 0⟩
/-- R166, 05_anvil_engine.md. -/
def Reg.TNG_CTX_PROG_lo : Fld := ⟨0x40, 16, 8, 0, 32, .rw, 0⟩
/-- R166, 05_anvil_engine.md. -/
def Reg.TNG_CTX_PROG_hi : Fld := ⟨0x44, 16, 8, 0, 8, .rw, 0⟩
/-- R264, 08_memory_bellows.md. -/
def Reg.DRC_ERR_ADDR_lo : Fld := ⟨0x48, 0, 1, 0, 32, .ro, 0⟩
/-- R264, 08_memory_bellows.md. -/
def Reg.DRC_ERR_ADDR_hi : Fld := ⟨0x4c, 0, 1, 0, 8, .ro, 0⟩
/-- R264, 08_memory_bellows.md. -/
def Reg.DRC_ERR_ADDR_held : Fld := ⟨0x4c, 0, 1, 31, 1, .ro, 0⟩
/-- R272, 08_memory_bellows.md. -/
def Reg.REPLAY_BASE_lo : Fld := ⟨0x40, 16, 8, 0, 32, .rw, 0⟩
/-- R272, 08_memory_bellows.md. -/
def Reg.REPLAY_BASE_hi : Fld := ⟨0x44, 16, 8, 0, 8, .rw, 0⟩
/-- R272, 08_memory_bellows.md. -/
def Reg.REPLAY_SLOT_z : Fld := ⟨0x4c, 16, 8, 0, 20, .rw, 0⟩
/-- R304, 09_contexts_scheduling.md. -/
def Reg.SCH_CMD_ARG_lo : Fld := ⟨0x54, 0, 1, 0, 32, .rw, 0⟩
/-- R304, 09_contexts_scheduling.md. -/
def Reg.SCH_CMD_ARG_hi : Fld := ⟨0x58, 0, 1, 0, 32, .rw, 0⟩
/-- R306, 09_contexts_scheduling.md. -/
def Reg.SCH_FENCE_mask : Fld := ⟨0x64, 0, 1, 0, 32, .ro, 0⟩
/-- R309, 09_contexts_scheduling.md. -/
def Reg.SCH_CTX_HQ_BASE_lo : Fld := ⟨0x48, 0, 1, 0, 32, .rw, 0⟩
/-- R309, 09_contexts_scheduling.md. -/
def Reg.SCH_CTX_HQ_BASE_hi : Fld := ⟨0x4c, 0, 1, 0, 8, .rw, 0⟩
/-- R309, 09_contexts_scheduling.md. -/
def Reg.SCH_CTX_HQ_size_log2 : Fld := ⟨0x50, 0, 1, 0, 4, .rw, 0⟩
/-- R309, 09_contexts_scheduling.md. -/
def Reg.SCH_CTX_HQ_cons : Fld := ⟨0x50, 0, 1, 16, 12, .lv, 0⟩
/-- R309, 09_contexts_scheduling.md. -/
def Reg.SCH_CTX_STEPS_lo : Fld := ⟨0x58, 0, 1, 0, 32, .ro, 0⟩
/-- R309, 09_contexts_scheduling.md. -/
def Reg.SCH_CTX_STEPS_hi : Fld := ⟨0x5c, 0, 1, 0, 32, .ro, 0⟩
/-- R309, 09_contexts_scheduling.md. -/
def Reg.SCH_CTX_SEED_word : Fld := ⟨0x60, 4, 4, 0, 32, .rw, 0⟩
/-- R309, 09_contexts_scheduling.md. -/
def Reg.SCH_CTX_ACT_COLS_first : Fld := ⟨0x80, 16, 8, 0, 16, .rw, 0⟩
/-- R309, 09_contexts_scheduling.md. -/
def Reg.SCH_CTX_ACT_COLS_last : Fld := ⟨0x80, 16, 8, 16, 16, .rw, 0⟩
/-- R309, 09_contexts_scheduling.md. -/
def Reg.SCH_CTX_ACT_GRP_grp : Fld := ⟨0x84, 16, 8, 0, 5, .rw, 0⟩
/-- R309, 09_contexts_scheduling.md. -/
def Reg.SCH_CTX_ACT_GRP_valid : Fld := ⟨0x84, 16, 8, 31, 1, .rw, 0⟩
/-- R309, 09_contexts_scheduling.md. -/
def Reg.SCH_CTX_ACT_OFF_c_off : Fld := ⟨0x88, 16, 8, 0, 31, .rw, 0⟩
/-- R310, 09_contexts_scheduling.md. -/
def Reg.SCH_JOB_SEL_slot : Fld := ⟨0x40, 0, 1, 0, 9, .rw, 0⟩
/-- R310, 09_contexts_scheduling.md. -/
def Reg.SCH_TENT_SEL_entry : Fld := ⟨0x50, 0, 1, 0, 10, .rw, 0⟩
/-- R335, 10_determinism_replay.md. -/
def Reg.XCK_N_n : Fld := ⟨0x44, 0, 1, 0, 17, .rw, 256⟩
/-- R335, 10_determinism_replay.md. -/
def Reg.XCK_TRACE_BASE_lo : Fld := ⟨0x48, 0, 1, 0, 32, .rw, 0⟩
/-- R335, 10_determinism_replay.md. -/
def Reg.XCK_TRACE_BASE_hi : Fld := ⟨0x4c, 0, 1, 0, 8, .rw, 0⟩
/-- R336, 10_determinism_replay.md. -/
def Reg.XCK_LAST_ORIG_word : Fld := ⟨0x50, 4, 4, 0, 32, .ro, 0⟩
/-- R336, 10_determinism_replay.md. -/
def Reg.XCK_LAST_COPY_word : Fld := ⟨0x60, 4, 4, 0, 32, .ro, 0⟩
/-- R337, 10_determinism_replay.md. -/
def Reg.XCK_REGEN_ADDR_lo : Fld := ⟨0x80, 0, 1, 0, 32, .rw, 0⟩
/-- R337, 10_determinism_replay.md. -/
def Reg.XCK_REGEN_ADDR_hi : Fld := ⟨0x84, 0, 1, 0, 8, .rw, 0⟩
/-- R338, 10_determinism_replay.md. -/
def Reg.XCK_AUD_BASE_lo : Fld := ⟨0x90, 0, 1, 0, 32, .rw, 0⟩
/-- R338, 10_determinism_replay.md. -/
def Reg.XCK_AUD_BASE_hi : Fld := ⟨0x94, 0, 1, 0, 8, .rw, 0⟩
/-- R338, 10_determinism_replay.md. -/
def Reg.XCK_AUD_CFG_en : Fld := ⟨0x98, 0, 1, 0, 1, .rw, 0⟩
/-- R338, 10_determinism_replay.md. -/
def Reg.XCK_AUD_CFG_size_log2 : Fld := ⟨0x98, 0, 1, 4, 4, .rw, 10⟩
/-- R338, 10_determinism_replay.md. -/
def Reg.XCK_AUD_CFG_force_fold : Fld := ⟨0x98, 0, 1, 8, 8, .rw, 0⟩
/-- R338, 10_determinism_replay.md. -/
def Reg.XCK_AUD_PROD_prod : Fld := ⟨0x9c, 0, 1, 0, 16, .lv, 0⟩
/-- R338, 10_determinism_replay.md. -/
def Reg.XCK_AUD_CONS_cons : Fld := ⟨0xa0, 0, 1, 0, 16, .rw, 0⟩
/-- R366, 11_camera_lanes.md. -/
def Reg.CXP_LANE_DFE_tap1 : Fld := ⟨0x48, 0, 1, 0, 6, .ro, 0⟩
/-- R366, 11_camera_lanes.md. -/
def Reg.CXP_LANE_DFE_tap2 : Fld := ⟨0x48, 0, 1, 6, 6, .ro, 0⟩
/-- R366, 11_camera_lanes.md. -/
def Reg.CXP_LANE_DFE_tap3 : Fld := ⟨0x48, 0, 1, 12, 6, .ro, 0⟩
/-- R366, 11_camera_lanes.md. -/
def Reg.CXP_LANE_DFE_tap4 : Fld := ⟨0x48, 0, 1, 18, 6, .ro, 0⟩
/-- R366, 11_camera_lanes.md. -/
def Reg.CXP_LANE_DFE_tap5 : Fld := ⟨0x48, 0, 1, 24, 6, .ro, 0⟩
/-- R366, 11_camera_lanes.md. -/
def Reg.CXP_LANE_EYE_margin : Fld := ⟨0x4c, 0, 1, 0, 10, .ro, 0⟩
/-- R368, 11_camera_lanes.md. -/
def Reg.CFE_GP_TRIG_k : Fld := ⟨0x60, 0, 1, 0, 8, .wo, 0⟩
/-- R387, 12_line_pipeline.md. -/
def Reg.LPL_TM_BASE_lo : Fld := ⟨0x44, 0, 1, 0, 32, .rw, 0⟩
/-- R387, 12_line_pipeline.md. -/
def Reg.LPL_TM_BASE_hi : Fld := ⟨0x48, 0, 1, 0, 8, .rw, 0⟩
/-- R387, 12_line_pipeline.md. -/
def Reg.LPL_STAT_BASE_lo : Fld := ⟨0x50, 0, 1, 0, 32, .rw, 0⟩
/-- R387, 12_line_pipeline.md. -/
def Reg.LPL_STAT_BASE_hi : Fld := ⟨0x54, 0, 1, 0, 8, .rw, 0⟩
/-- R387, 12_line_pipeline.md. -/
def Reg.LPL_STAT_RING_size_log2 : Fld := ⟨0x58, 0, 1, 0, 4, .rw, 4⟩
/-- R387, 12_line_pipeline.md. -/
def Reg.LPL_STAT_RING_prod : Fld := ⟨0x58, 0, 1, 16, 12, .lv, 0⟩
/-- R387, 12_line_pipeline.md. -/
def Reg.LPL_STAT_CONS_cons : Fld := ⟨0x5c, 0, 1, 0, 12, .rw, 0⟩
/-- R387, 12_line_pipeline.md. -/
def Reg.LPL_PLOAD_SRC_lo : Fld := ⟨0x60, 0, 1, 0, 32, .rw, 0⟩
/-- R387, 12_line_pipeline.md. -/
def Reg.LPL_PLOAD_SRC_hi : Fld := ⟨0x64, 0, 1, 0, 8, .rw, 0⟩
/-- R387, 12_line_pipeline.md. -/
def Reg.LPL_PLOAD_LINE_lo : Fld := ⟨0x68, 0, 1, 0, 32, .rw, 0⟩
/-- R387, 12_line_pipeline.md. -/
def Reg.LPL_PLOAD_LINE_hi : Fld := ⟨0x6c, 0, 1, 0, 32, .rw, 0⟩
/-- R387, 12_line_pipeline.md. -/
def Reg.LPL_PARAM_LINE_lo : Fld := ⟨0x78, 0, 1, 0, 32, .ro, 0⟩
/-- R387, 12_line_pipeline.md. -/
def Reg.LPL_PARAM_LINE_hi : Fld := ⟨0x7c, 0, 1, 0, 32, .ro, 0⟩
/-- R426, 13_encoders_rtu.md. -/
def Reg.RTU_ESEL_entry : Fld := ⟨0x40, 0, 1, 0, 12, .rw, 0⟩
/-- R584, 19_faults_availability.md. -/
def Reg.QCH_SEL_entry : Fld := ⟨0x44, 0, 1, 0, 7, .rw, 0⟩
/-- R529, 17_archive_decode.md. -/
def Reg.ARC_CACHE_BASE_lo : Fld := ⟨0x40, 0, 1, 0, 32, .rw, 0⟩
/-- R529, 17_archive_decode.md. -/
def Reg.ARC_CACHE_BASE_hi : Fld := ⟨0x44, 0, 1, 0, 8, .rw, 0⟩
/-- R529, 17_archive_decode.md. -/
def Reg.ARC_CACHE_SIZE_size : Fld := ⟨0x48, 0, 1, 0, 16, .rw, 0⟩
/-- R509, 16_host_interface.md. -/
def Reg.MSIX_TABLE_addr_lo : Fld := ⟨0x400, 16, 16, 0, 32, .rw, 0⟩
/-- R509, 16_host_interface.md. -/
def Reg.MSIX_TABLE_addr_hi : Fld := ⟨0x404, 16, 16, 0, 32, .rw, 0⟩
/-- R509, 16_host_interface.md. -/
def Reg.MSIX_TABLE_data : Fld := ⟨0x408, 16, 16, 0, 32, .rw, 0⟩
/-- R509, 16_host_interface.md. -/
def Reg.MSIX_TABLE_mask : Fld := ⟨0x40c, 16, 16, 0, 1, .rw, 1⟩
/-- R509, 16_host_interface.md. -/
def Reg.MSIX_PBA_pend : Fld := ⟨0x500, 0, 1, 0, 16, .ro, 0⟩

/-! ### Fields by page -/

/-- Fields of the chip page. -/
def Reg.fields_chip : List Fld :=
  [Reg.CHIP_PWR_state, Reg.CHIP_PWR_req, Reg.CHIP_PWR_req_err, Reg.CHIP_PWR_n0_mode,
   Reg.CHIP_PWR_n1_mode, Reg.CHIP_PWR_idle_delay, Reg.CHIP_RST_cmd, Reg.CHIP_RST_target,
   Reg.CHIP_RST_key, Reg.CHIP_RST_CAUSE_cause, Reg.CHIP_RST_CAUSE_untested, Reg.CHIP_RST_CAUSE_clk_lost,
   Reg.CHIP_RST_CAUSE_warm_count, Reg.CHIP_READY_permit_en, Reg.CHIP_READY_ctx_req, Reg.CHIP_READY_ready,
   Reg.CHIP_READY_m_start, Reg.CHIP_READY_m_ctx, Reg.CHIP_READY_m_enc, Reg.CHIP_READY_m_rtu,
   Reg.CHIP_READY_m_field, Reg.CHIP_READY_m_net, Reg.CHIP_READY_m_check, Reg.CHIP_READY_m_fault,
   Reg.CHIP_WAKE_latch]
/-- Fields of the chip page, continued. -/
def Reg.fields_chip1 : List Fld :=
  [Reg.CHIP_WAKE_en, Reg.CHIP_SNAP_TIME_lo, Reg.CHIP_SNAP_TIME_hi]
/-- Fields of the hdr page. -/
def Reg.fields_hdr : List Fld :=
  [Reg.BLK_CTRL_en, Reg.BLK_CTRL_cfg_lock, Reg.BLK_CTRL_evt_en, Reg.BLK_CTRL_fault_clr,
   Reg.BLK_STAT_state, Reg.BLK_STAT_blk, Reg.BLK_STAT_snap_busy, Reg.BLK_ERR_cause,
   Reg.BLK_ERR_more, Reg.BLK_ERR_count, Reg.BLK_ERR_MASK_parity, Reg.BLK_ERR_MASK_common,
   Reg.BLK_ERR_MASK_blk, Reg.BLK_SNAP_take, Reg.BLK_SNAP_seq, Reg.BLK_PARITY_first_off,
   Reg.BLK_PARITY_count, Reg.BLK_PARITY_inject, Reg.BLK_PARITY_err]
/-- Fields of the hdrc page. -/
def Reg.fields_hdrc : List Fld :=
  [Reg.CLAIM_ERR_code, Reg.CLAIM_ERR_resource, Reg.CLAIM_ERR_req]
/-- Fields of the anv0 page. -/
def Reg.fields_anv0 : List Fld :=
  [Reg.ANV_CFG_ctx_en, Reg.ANV_CFG_rq_excl, Reg.ANV_CFG_stall_cnt_only]
/-- Fields of the anv1 page. -/
def Reg.fields_anv1 : List Fld :=
  [Reg.ANV_CTX_BUF_base, Reg.ANV_CTX_BUF_size, Reg.ANV_CTX_STAT_pc, Reg.ANV_CTX_STAT_state,
   Reg.ANV_CTX_STAT_step, Reg.ANV_CTX_PROG_lo, Reg.ANV_CTX_PROG_hi]
/-- Fields of the anv2 page. -/
def Reg.fields_anv2 : List Fld :=
  [Reg.ANV_DMA_STAT_inflight, Reg.ANV_DMA_STAT_last_bad]
/-- Fields of the tng0 page. -/
def Reg.fields_tng0 : List Fld :=
  [Reg.TNG_CFG_ctx_en, Reg.TNG_CFG_cams]
/-- Fields of the bank page. -/
def Reg.fields_bank : List Fld :=
  [Reg.BANK_CTL_owner, Reg.BANK_CTL_unit, Reg.BANK_CTL_pwr, Reg.BANK_CTL_pend,
   Reg.BANK_CTL_clearing, Reg.BANK_CTL_shares, Reg.BANK_CTL_refused]
/-- Fields of the drc page. -/
def Reg.fields_drc : List Fld :=
  [Reg.DRC_CFG_scrub_en, Reg.DRC_CFG_scrub_h, Reg.DRC_CFG_hot, Reg.DRC_ERR_ADDR_lo,
   Reg.DRC_ERR_ADDR_hi, Reg.DRC_ERR_ADDR_held]
/-- Fields of the blw page. -/
def Reg.fields_blw : List Fld :=
  [Reg.BLW_CFG_period, Reg.BLW_FIELD_budget, Reg.BLW_ADMIT_code, Reg.BLW_ADMIT_entry,
   Reg.BLW_ADMIT_stack, Reg.BLW_CLS_BUD0_budget, Reg.BLW_CLS_BUD0_prot, Reg.BLW_CLS_BUD0_borrow,
   Reg.BLW_CLS_BUD1_budget, Reg.BLW_CLS_DECL0_rate, Reg.BLW_CLS_DECL1_rate]
/-- Fields of the replay page. -/
def Reg.fields_replay : List Fld :=
  [Reg.REPLAY_GEOM_slots, Reg.REPLAY_GEOM_idx_base, Reg.REPLAY_BASE_lo, Reg.REPLAY_BASE_hi,
   Reg.REPLAY_SLOT_z]
/-- Fields of the schG page. -/
def Reg.fields_schG : List Fld :=
  [Reg.SCH_CMD_op, Reg.SCH_CMD_ctx, Reg.SCH_CMD_ctx2, Reg.SCH_CMD_standby,
   Reg.SCH_CMD_key, Reg.SCH_CMD_RES_code, Reg.SCH_CMD_RES_op, Reg.SCH_CMD_RES_ctx,
   Reg.SCH_CMD_RES_seq, Reg.SCH_PLACE_h, Reg.SCH_PLACE_tongs_fenced, Reg.SCH_PLACE_slots_used,
   Reg.SCH_CMD_ARG_lo, Reg.SCH_CMD_ARG_hi, Reg.SCH_FENCE_mask]
/-- Fields of the schC page. -/
def Reg.fields_schC : List Fld :=
  [Reg.SCH_CTX_CFG_prio, Reg.SCH_CTX_CFG_spec_en, Reg.SCH_CTX_CFG_failsafe, Reg.SCH_CTX_CFG_ref,
   Reg.SCH_CTX_CFG_prim_cam, Reg.SCH_CTX_CFG_prim_en, Reg.SCH_CTX_CFG_quota, Reg.SCH_CTX_STAT_state,
   Reg.SCH_CTX_STAT_placement, Reg.SCH_CTX_STAT_swap_pend, Reg.SCH_CTX_STAT_jobs, Reg.SCH_CTX_STAT_fcause,
   Reg.SCH_CTX_STAT_probes, Reg.SCH_CTX_HQ_BASE_lo, Reg.SCH_CTX_HQ_BASE_hi, Reg.SCH_CTX_HQ_size_log2,
   Reg.SCH_CTX_HQ_cons, Reg.SCH_CTX_STEPS_lo, Reg.SCH_CTX_STEPS_hi, Reg.SCH_CTX_SEED_word,
   Reg.SCH_CTX_ACT_COLS_first, Reg.SCH_CTX_ACT_COLS_last, Reg.SCH_CTX_ACT_GRP_grp, Reg.SCH_CTX_ACT_GRP_valid,
   Reg.SCH_CTX_ACT_OFF_c_off]
/-- Fields of the xck page. -/
def Reg.fields_xck : List Fld :=
  [Reg.XCK_CFG_en, Reg.XCK_CFG_fence_en, Reg.XCK_CFG_unres_act, Reg.XCK_CFG_ctx_mask,
   Reg.XCK_LAST_INFO_outcome, Reg.XCK_LAST_INFO_ctx, Reg.XCK_LAST_INFO_suspect, Reg.XCK_LAST_INFO_step,
   Reg.XCK_REGEN_CTL_go, Reg.XCK_REGEN_CTL_ctx, Reg.XCK_REGEN_CTL_busy, Reg.XCK_REGEN_CTL_status,
   Reg.XCK_N_n, Reg.XCK_TRACE_BASE_lo, Reg.XCK_TRACE_BASE_hi, Reg.XCK_LAST_ORIG_word,
   Reg.XCK_LAST_COPY_word, Reg.XCK_REGEN_ADDR_lo, Reg.XCK_REGEN_ADDR_hi, Reg.XCK_AUD_BASE_lo,
   Reg.XCK_AUD_BASE_hi, Reg.XCK_AUD_CFG_en, Reg.XCK_AUD_CFG_size_log2, Reg.XCK_AUD_CFG_force_fold,
   Reg.XCK_AUD_PROD_prod]
/-- Fields of the xck page, continued. -/
def Reg.fields_xck1 : List Fld :=
  [Reg.XCK_AUD_CONS_cons]
/-- Fields of the lane page. -/
def Reg.fields_lane : List Fld :=
  [Reg.CXP_LANE_CFG_rate, Reg.CXP_LANE_CFG_ctle_fix, Reg.CXP_LANE_CFG_ctle, Reg.CXP_LANE_CFG_dfe_hold,
   Reg.CXP_LANE_STAT_sig, Reg.CXP_LANE_STAT_lock, Reg.CXP_LANE_STAT_bound, Reg.CXP_LANE_STAT_cam,
   Reg.CXP_LANE_STAT_conn, Reg.CXP_LANE_STAT_ctle_act, Reg.CXP_PRBS_CFG_poly, Reg.CXP_PRBS_CFG_gen_en,
   Reg.CXP_PRBS_CFG_gen_dst, Reg.CXP_PRBS_CFG_chk_en, Reg.CXP_PRBS_CFG_chk_lock, Reg.CXP_PRBS_CFG_inj_rate,
   Reg.CXP_PRBS_CFG_inj_one, Reg.CXP_LANE_DFE_tap1, Reg.CXP_LANE_DFE_tap2, Reg.CXP_LANE_DFE_tap3,
   Reg.CXP_LANE_DFE_tap4, Reg.CXP_LANE_DFE_tap5, Reg.CXP_LANE_EYE_margin]
/-- Fields of the lplI page. -/
def Reg.fields_lplI : List Fld :=
  [Reg.LPL_INST_STAT_inline_cam, Reg.LPL_INST_STAT_inline_en, Reg.LPL_INST_STAT_tm_mask]
/-- Fields of the lplC page. -/
def Reg.fields_lplC : List Fld :=
  [Reg.LPL_CAM_CFG_inst, Reg.LPL_CAM_CFG_mode, Reg.LPL_CAM_CFG_out16, Reg.LPL_CAM_CFG_stat_pt,
   Reg.LPL_CAM_CFG_cb, Reg.LPL_CAM_CFG_stat_en, Reg.LPL_CAM_CFG_stat_evt, Reg.LPL_CAM_CFG_tm_depth,
   Reg.LPL_PLOAD_CTL_go, Reg.LPL_PLOAD_CTL_key, Reg.LPL_PLOAD_STAT_state, Reg.LPL_PLOAD_STAT_res,
   Reg.LPL_PLOAD_STAT_gen, Reg.LPL_TM_BASE_lo, Reg.LPL_TM_BASE_hi, Reg.LPL_STAT_BASE_lo,
   Reg.LPL_STAT_BASE_hi, Reg.LPL_STAT_RING_size_log2, Reg.LPL_STAT_RING_prod, Reg.LPL_STAT_CONS_cons,
   Reg.LPL_PLOAD_SRC_lo, Reg.LPL_PLOAD_SRC_hi, Reg.LPL_PLOAD_LINE_lo, Reg.LPL_PLOAD_LINE_hi,
   Reg.LPL_PARAM_LINE_lo]
/-- Fields of the lplC page, continued. -/
def Reg.fields_lplC1 : List Fld :=
  [Reg.LPL_PARAM_LINE_hi]
/-- Fields of the pcie page. -/
def Reg.fields_pcie : List Fld :=
  [Reg.PCIE_STAT_link_up, Reg.PCIE_STAT_speed, Reg.PCIE_STAT_width, Reg.PCIE_STAT_bme,
   Reg.PCIE_STAT_perst, Reg.PCIE_STAT_msix_en, Reg.PCIE_STAT_wake]
/-- Fields of the fio page. -/
def Reg.fields_fio : List Fld :=
  [Reg.CLAIM_FIO_owner, Reg.CLAIM_FIO_unit, Reg.FIO_GLB_path, Reg.FIO_GLB_main_req,
   Reg.FIO_GLB_mirror_en, Reg.FIO_GLB_mirror_ch, Reg.FIO_SUP_vin, Reg.FIO_SUP_iin,
   Reg.FIO_SUP_uv, Reg.FIO_SUP_ihigh, Reg.FIO_SUP_pgood, Reg.FIO_LS_en,
   Reg.FIO_LS_ovl, Reg.FIO_MEAS_REQ_ch, Reg.FIO_MEAS_REQ_kind, Reg.FIO_MEAS_REQ_go,
   Reg.FIO_MEAS_value, Reg.FIO_MEAS_ch, Reg.FIO_MEAS_valid, Reg.FIO_CH_CFG_dir,
   Reg.FIO_CH_CFG_diag_act, Reg.FIO_CH_CFG_retry, Reg.FIO_CH_CFG_oloff_en, Reg.FIO_CH_CFG_evt,
   Reg.FIO_CH_IN_smode]
/-- Fields of the fio page, continued. -/
def Reg.fields_fio1 : List Fld :=
  [Reg.FIO_CH_IN_enc, Reg.FIO_CH_IN_filt_n, Reg.FIO_CH_IN_ts, Reg.FIO_CH_IN_wb_en,
   Reg.FIO_CH_IN_wb_t, Reg.FIO_CH_OUTCFG_pick_t, Reg.FIO_CH_OUTCFG_hold_duty, Reg.FIO_CH_OUT_lvl,
   Reg.FIO_CH_STAT_level, Reg.FIO_CH_STAT_ovl, Reg.FIO_CH_STAT_therm, Reg.FIO_CH_STAT_open_on,
   Reg.FIO_CH_STAT_open_off, Reg.FIO_CH_STAT_short_lp, Reg.FIO_CH_STAT_wb, Reg.FIO_CH_STAT_off_latched,
   Reg.FIO_CH_STAT_ovl_seen, Reg.FIO_CH_STAT_therm_seen, Reg.FIO_CH_STAT_wb_seen, Reg.FIO_CH_STAT_open_seen,
   Reg.FIO_CH_CTRL_clr, Reg.FIO_CH_EDGE_t_e_lo, Reg.FIO_CH_EDGE_t_e_hi, Reg.FIO_EYE_en,
   Reg.FIO_EYE_ch]
/-- Fields of the fio page, continued. -/
def Reg.fields_fio2 : List Fld :=
  [Reg.FIO_EYE_pol, Reg.FIO_EYE_OFF_off_ct, Reg.FIO_EYE_LEAD_count, Reg.FIO_EYE_TRAIL_count]
/-- Fields of the eth page. -/
def Reg.fields_eth : List Fld :=
  [Reg.CLAIM_ETH_owner, Reg.CLAIM_ETH_unit, Reg.ETH_PORT_CFG_en, Reg.ETH_PORT_CFG_speed,
   Reg.ETH_PORT_CFG_fec, Reg.ETH_PORT_CFG_sfp_rst, Reg.ETH_PORT_STAT_link, Reg.ETH_PORT_STAT_present,
   Reg.ETH_PORT_STAT_los, Reg.ETH_PORT_STAT_sfp_pwr, Reg.ETH_PORT_STAT_ocp, Reg.ETH_PORT_STAT_tx_dis,
   Reg.ETH_MAC_addr_lo, Reg.ETH_MAC_addr_hi, Reg.ETH_TS_CORR_tx_ext, Reg.ETH_TS_CORR_rx_ext,
   Reg.ETH_TS_CORR_INT_tx_int, Reg.ETH_TS_CORR_INT_rx_int, Reg.ETH_TSQ_HEAD0_time, Reg.ETH_TSQ_HEAD1_time,
   Reg.ETH_TSQ_HEAD2_id, Reg.ETH_TSQ_HEAD2_valid, Reg.ETH_TSQ_HEAD2_late, Reg.ETH_TSQ_HEAD2_src,
   Reg.ETH_TSQ_HEAD2_slot]
/-- Fields of the eth page, continued. -/
def Reg.fields_eth1 : List Fld :=
  [Reg.ETH_TSQ_HEAD2_count, Reg.ETH_TSQ_POP_pop, Reg.ETH_TSQ_LOST_id, Reg.LSLOT_TIME_time_lo,
   Reg.LSLOT_TIME_time_hi, Reg.LSLOT_CFG_len, Reg.LSLOT_CFG_ts_en, Reg.LSLOT_CFG_time_en,
   Reg.LSLOT_CFG_ip_csum, Reg.LSLOT_CFG_udp_csum, Reg.LSLOT_CFG_time_off, Reg.LSLOT_CTRL_go,
   Reg.LSLOT_CTRL_cancel, Reg.LSLOT_CTRL_state, Reg.LSLOT_CTRL_res, Reg.LSLOT_CTRL_ts_id,
   Reg.LSLOT_SRC_addr_lo, Reg.LSLOT_SRC_addr_hi]
/-- Fields of the cfe0 page. -/
def Reg.fields_cfe0 : List Fld :=
  [Reg.CLAIM_CFE0_owner, Reg.CLAIM_CFE0_unit, Reg.CFE_GP_TRIG_k]
/-- Fields of the enc page. -/
def Reg.fields_enc : List Fld :=
  [Reg.CLAIM_ENC_owner, Reg.CLAIM_ENC_unit, Reg.ENC_CFG_mode, Reg.ENC_CFG_dir_inv,
   Reg.ENC_CFG_term, Reg.ENC_CFG_filt, Reg.ENC_CFG_avg, Reg.ENC_CFG_ill_lim,
   Reg.ENC_CTRL_clr_flt, Reg.ENC_STAT_ill, Reg.ENC_STAT_cab, Reg.ENC_STAT_flt,
   Reg.ENC_STAT_flt_cause, Reg.ENC_STAT_stopped, Reg.ENC_STAT_dir, Reg.ENC_STAT_idx,
   Reg.ENC_CNT_count, Reg.ENC_IDX_count, Reg.ENC_PER_per, Reg.ENC_TIME_cab_t,
   Reg.ENC_TIME_stop_ms, Reg.ENC_ZROUTE_z0_en, Reg.ENC_ZROUTE_z0_to, Reg.ENC_ZROUTE_z1_en,
   Reg.ENC_ZROUTE_z1_to]
/-- Fields of the enc page, continued. -/
def Reg.fields_enc1 : List Fld :=
  [Reg.TMR_PER_period, Reg.TMR_CTL_en, Reg.TMR_CTL_evt, Reg.TMR_CTL_run]
/-- Fields of the schJ page. -/
def Reg.fields_schJ : List Fld :=
  [Reg.SCH_JOB_STAT_valid, Reg.SCH_JOB_STAT_ctx, Reg.SCH_JOB_STAT_phase, Reg.SCH_JOB_STAT_tag,
   Reg.SCH_JOB_OBJ_object, Reg.SCH_JOB_RTU_entry, Reg.SCH_JOB_TENT_tentative_valid, Reg.SCH_JOB_TENT_tentative_dec,
   Reg.SCH_JOB_TENT_tentative_cls, Reg.SCH_JOB_TENT_tentative_gen, Reg.SCH_JOB_TCONF_tentative_conf, Reg.SCH_JOB_TCONF_tentative_obj_ctx,
   Reg.SCH_JOB_TOBJ_tentative_obj, Reg.SCH_JOB_SEL_slot, Reg.SCH_TENT_SEL_entry]
/-- Fields of the cfeC page. -/
def Reg.fields_cfeC : List Fld :=
  [Reg.CFE_CAM_BIND_lanes, Reg.CFE_CAM_BIND_rate, Reg.CFE_CAM_FMT_width, Reg.CFE_CAM_FMT_fmt,
   Reg.CFE_CAM_FMT_stream_id, Reg.CFE_CAM_BLK_h, Reg.CFE_CAM_BLK_trig_src, Reg.CFE_CAM_WIN_lat_min,
   Reg.CFE_CAM_WIN_lat_max, Reg.CFE_CAM_LOSS_ms, Reg.CFE_CAM_STAT_state, Reg.CFE_CAM_STAT_log,
   Reg.CFE_CAM_STAT_res, Reg.CFE_CAM_CMD_op, Reg.CFE_CAM_CMD_key]
/-- Fields of the ltg page. -/
def Reg.fields_ltg : List Fld :=
  [Reg.LTG_CFG_enc, Reg.LTG_CFG_start, Reg.LTG_CFG_src, Reg.LTG_CFG_tmr,
   Reg.LTG_CFG_cams, Reg.LTG_CFG_fo_en, Reg.LTG_CFG_fo_ch, Reg.LTG_SPC_S_lo,
   Reg.LTG_SPC_S_hi, Reg.LTG_START_start, Reg.LTG_PW_pw, Reg.LTG_CTRL_arm,
   Reg.LTG_STAT_state, Reg.LTG_STAT_res, Reg.LTG_CMP_cmp_lo, Reg.LTG_CMP_cmp_hi,
   Reg.LTG_LAST_count]
/-- Fields of the rtu page. -/
def Reg.fields_rtu : List Fld :=
  [Reg.RTU_CTRL_ovf_clr, Reg.RTU_CTRL_key, Reg.RTU_STAT_used, Reg.RTU_STAT_ovf,
   Reg.RTU_GRP_CFG_kind, Reg.RTU_GRP_CFG_enc, Reg.RTU_GRP_CFG_on_mode, Reg.RTU_GRP_CFG_arm,
   Reg.RTU_GRP_CFG_armed, Reg.RTU_GRP_CFG_port, Reg.RTU_GRP_CFG_res, Reg.RTU_GRP_CFG_ch0,
   Reg.RTU_GRP_MAP_col0, Reg.RTU_GRP_MAP_pitch, Reg.RTU_GRP_ACT_act0, Reg.RTU_GRP_ACT_n_act,
   Reg.RTU_GRP_ADV_adv, Reg.RTU_GRP_ON_on_t, Reg.RTU_GRP_ON_max_on, Reg.RTU_GRP_EXT_ext_ct,
   Reg.RTU_GRP_REM_slot0, Reg.RTU_GRP_REM_nslot, Reg.RTU_GRP_REM_grid, Reg.RTU_GRP_FRM_bmp_off]
/-- Fields of the rtuE page. -/
def Reg.fields_rtuE : List Fld :=
  [Reg.RTU_E_TGT_target, Reg.RTU_E_INFO_state, Reg.RTU_E_INFO_group, Reg.RTU_E_INFO_failsafe,
   Reg.RTU_E_INFO_nv, Reg.RTU_E_INFO_ctx, Reg.RTU_E_INFO_gen, Reg.RTU_E_ACT_act_first,
   Reg.RTU_E_ACT_act_last, Reg.RTU_E_OBJ_object, Reg.RTU_E_TENT_tentative_valid, Reg.RTU_E_TENT_tentative_dec,
   Reg.RTU_E_TENT_tentative_staged, Reg.RTU_E_TENT_tentative_gen, Reg.RTU_ESEL_entry]
/-- Fields of the ptp page. -/
def Reg.fields_ptp : List Fld :=
  [Reg.PTP_TIME_time_lo, Reg.PTP_TIME_time_hi, Reg.PTP_ADJ_offset_lo, Reg.PTP_ADJ_offset_hi,
   Reg.PTP_RATE_rate, Reg.PTP_CTL_step, Reg.PTP_CTL_valid, Reg.PTP_CTL_kick,
   Reg.PTP_CTL_holdover_s, Reg.PTP_CTL_step_lim, Reg.PTP_PPS_out_en, Reg.PTP_PPS_pw,
   Reg.PTP_PPS_IN_time_lo, Reg.PTP_PPS_IN_time_hi]
/-- Fields of the bry page. -/
def Reg.fields_bry : List Fld :=
  [Reg.BRY_CFG_module_id, Reg.BRY_CFG_en, Reg.BRY_CFG_coll_reset_en, Reg.BRY_FARM_n,
   Reg.BRY_UDP_port, Reg.BRY_UDP_rto, Reg.BRY_UDP_max_retry, Reg.BRY_IP_addr,
   Reg.BRY_FLOW_BASE_addr_lo, Reg.BRY_FLOW_BASE_addr_hi, Reg.BRY_FLOW_N_n, Reg.BRY_SQ_addr,
   Reg.BRY_SQ_size_log2, Reg.BRY_SQ_en, Reg.BRY_NBR_ip, Reg.BRY_NBR_mac_lo,
   Reg.BRY_NBR_mac_hi, Reg.BRY_NBR_port, Reg.BRY_NBR_valid, Reg.BRY_COLL_id,
   Reg.BRY_COLL_op, Reg.BRY_COLL_go, Reg.BRY_COLL_ARG_arg, Reg.BRY_STAT_faulted,
   Reg.BRY_STAT_first]
/-- Fields of the erq page. -/
def Reg.fields_erq : List Fld :=
  [Reg.ERQ_QBASE_addr_lo, Reg.ERQ_QBASE_addr_hi, Reg.ERQ_QCFG_en, Reg.ERQ_QCFG_size_log2,
   Reg.ERQ_QCONS_cons, Reg.ERQ_QPROD_prod, Reg.ERQ_QPROD_phase, Reg.ERQ_QSEQ_seq,
   Reg.MBX_BASE_addr_lo, Reg.MBX_BASE_addr_hi, Reg.MBX_CFG_en, Reg.MBX_CFG_size_log2,
   Reg.MBX_STAT_prod, Reg.MBX_STAT_cons, Reg.MBX_STAT_busy, Reg.ERQ_TSEL_src,
   Reg.ERQ_TGT_tgt, Reg.ERQ_TGT_refused, Reg.ERQ_HSR_busy, Reg.ERQ_HSR_cause,
   Reg.MSIX_TABLE_addr_lo, Reg.MSIX_TABLE_addr_hi, Reg.MSIX_TABLE_data, Reg.MSIX_TABLE_mask,
   Reg.MSIX_PBA_pend]
/-- Fields of the arcS page. -/
def Reg.fields_arcS : List Fld :=
  [Reg.ARC_DS_BASE_addr_lo, Reg.ARC_DS_BASE_addr_hi, Reg.ARC_DS_N_n, Reg.ARC_DS_ID_id,
   Reg.ARC_OUT_BASE_addr_lo, Reg.ARC_OUT_BASE_addr_hi, Reg.ARC_GEOM_wmax, Reg.ARC_GEOM_hmax,
   Reg.ARC_SCFG_ctx, Reg.ARC_SCFG_fmt, Reg.ARC_SCFG_shuffle, Reg.ARC_SCFG_shard,
   Reg.ARC_SCFG_b_m1, Reg.ARC_SCFG_nbat_log2, Reg.ARC_SCFG_done_evt, Reg.ARC_EP0_epoch,
   Reg.ARC_EPN_count, Reg.ARC_MAN_BASE_addr_lo, Reg.ARC_MAN_BASE_addr_hi, Reg.ARC_MAN_CFG_size_log2,
   Reg.ARC_MAN_CFG_prod, Reg.ARC_MAN_CONS_cons, Reg.ARC_BCONS_batches, Reg.ARC_SCTL_op,
   Reg.ARC_SCTL_key]
/-- Fields of the arcS page, continued. -/
def Reg.fields_arcS1 : List Fld :=
  [Reg.ARC_SSTAT_state, Reg.ARC_SSTAT_res, Reg.ARC_EPOCH_CUR_epoch, Reg.ARC_BATCH_CUR_batch,
   Reg.ARC_RES_BASE_addr_lo, Reg.ARC_RES_BASE_addr_hi]
/-- Fields of the tmp page. -/
def Reg.fields_tmp : List Fld :=
  [Reg.TMP_LC_state, Reg.TMP_LC_count, Reg.TMP_LC_floor, Reg.TMP_LC_roots_revoked,
   Reg.TMP_SERIAL_serial_lo, Reg.TMP_SERIAL_serial_hi, Reg.TMP_STAT_busy, Reg.TMP_STAT_recovery,
   Reg.TMP_STAT_staged, Reg.TMP_STAT_test_open, Reg.TMP_STAT_slots, Reg.TMP_STAT_rec_bad,
   Reg.TMP_STAT_handover, Reg.TMP_STAT_half, Reg.TMP_STAT_res, Reg.TMP_AUTH_CTR_count,
   Reg.TMP_RCV_ADDR_addr_lo, Reg.TMP_RCV_ADDR_addr_hi, Reg.TMP_RCV_LEN_len, Reg.TMP_RCV_CTL_go,
   Reg.TMP_RCV_CTL_key, Reg.TMP_ALIVE_alive]
/-- Fields of the flt page. -/
def Reg.fields_flt : List Fld :=
  [Reg.FLT_FENCE_rq, Reg.FLT_FENCE2_iso_main, Reg.FLT_STAT_busy, Reg.FLT_STAT_jobs,
   Reg.FLT_STAT_retest, Reg.FLT_LAST_src, Reg.FLT_LAST_cause, Reg.FLT_LAST_action,
   Reg.FLT_UNFENCE_unit, Reg.FLT_UNFENCE_key, Reg.FLT_HWDG_ms, Reg.FLT_HWDG_held,
   Reg.FLT_HWDG_kick, Reg.FLT_HWDG_restarts]
/-- Fields of the qch page. -/
def Reg.fields_qch : List Fld :=
  [Reg.QCH_STAT_state, Reg.QCH_STAT_group, Reg.QCH_STAT_wave, Reg.QCH_STAT_rec,
   Reg.QCH_ENT_result, Reg.QCH_ENT_untested, Reg.QCH_ENT_coverage, Reg.QCH_ENT_T_time_lo,
   Reg.QCH_ENT_T_time_hi, Reg.QCH_SEL_entry]
/-- Fields of the tng1 page. -/
def Reg.fields_tng1 : List Fld :=
  [Reg.TNG_CTX_BUF_base, Reg.TNG_CTX_BUF_size, Reg.TNG_CTX_STAT_pc, Reg.TNG_CTX_STAT_state,
   Reg.TNG_CTX_STAT_step, Reg.TNG_CTX_PROG_lo, Reg.TNG_CTX_PROG_hi]
/-- Fields of the arcG page. -/
def Reg.fields_arcG : List Fld :=
  [Reg.ARC_CACHE_BASE_lo, Reg.ARC_CACHE_BASE_hi, Reg.ARC_CACHE_SIZE_size]

/-- The fields of a page's own registers, beside the header (R90). -/
def Reg.fieldsOf : PKind → List Fld
  | .chip => Reg.fields_chip ++ Reg.fields_chip1
  | .clk => []
  | .pwr => []
  | .anv0 => Reg.fields_anv0
  | .anv1 => Reg.fields_anv1
  | .anv2 => Reg.fields_anv2
  | .tng0 => Reg.fields_tng0
  | .tng1 => Reg.fields_tng1
  | .bank => Reg.fields_bank
  | .drc => Reg.fields_drc
  | .noc => []
  | .blw => Reg.fields_blw
  | .replay => Reg.fields_replay
  | .schG => Reg.fields_schG
  | .schC => Reg.fields_schC
  | .schJ => Reg.fields_schJ
  | .lane => Reg.fields_lane
  | .cfe0 => Reg.fields_hdrc ++ Reg.fields_cfe0
  | .cfeC => Reg.fields_cfeC
  | .lplI => Reg.fields_lplI
  | .lplC => Reg.fields_lplC ++ Reg.fields_lplC1
  | .enc => Reg.fields_hdrc ++ Reg.fields_enc ++ Reg.fields_enc1
  | .ltg => Reg.fields_ltg
  | .rtu => Reg.fields_rtu
  | .rtuE => Reg.fields_rtuE
  | .fio => Reg.fields_hdrc ++ Reg.fields_fio ++ Reg.fields_fio1 ++ Reg.fields_fio2
  | .eth => Reg.fields_hdrc ++ Reg.fields_eth ++ Reg.fields_eth1
  | .ptp => Reg.fields_ptp
  | .bry => Reg.fields_bry
  | .pcie => Reg.fields_pcie
  | .erq => Reg.fields_erq
  | .arcG => Reg.fields_arcG
  | .arcS => Reg.fields_arcS ++ Reg.fields_arcS1
  | .tmp => Reg.fields_tmp
  | .flt => Reg.fields_flt
  | .qch => Reg.fields_qch
  | .xck => Reg.fields_xck ++ Reg.fields_xck1

/-! ### Pages -/

/-- The pages of R114 by page number, that is BAR0 offset / 4096; none where no page stands. -/
def pageInfo (n : Nat) : Option PageInfo :=
  if n = 0x000 then some ⟨.chip, 0x000, 0, 0, false⟩
  else if n = 0x001 then some ⟨.clk, 0x001, 0, 0, false⟩
  else if n = 0x002 then some ⟨.pwr, 0x002, 0, 0, false⟩
  else if 0x100 ≤ n ∧ n < 0x300 then
    match n % 16 with
    | 0 => some ⟨.anv0, n, 0, 2, true⟩
    | 1 => some ⟨.anv1, n - 1, 1, 2, true⟩
    | 2 => some ⟨.anv2, n - 2, 2, 2, true⟩
    | _ => none
  else if 0x300 ≤ n ∧ n < 0x340 then
    match n % 16 with
    | 0 => some ⟨.tng0, n, 0, 1, true⟩
    | 1 => some ⟨.tng1, n - 1, 1, 1, true⟩
    | _ => none
  else if n = 0x400 then some ⟨.bank, n, 0, 0, true⟩
  else if n = 0x401 ∨ n = 0x402 then some ⟨.drc, n, 0, 0, true⟩
  else if n = 0x403 then some ⟨.noc, n, 0, 0, true⟩
  else if n = 0x404 then some ⟨.blw, n, 0, 0, true⟩
  else if n = 0x405 then some ⟨.replay, n, 0, 0, true⟩
  else if n = 0x500 then some ⟨.schG, 0x500, 0, 9, true⟩
  else if 0x501 ≤ n ∧ n < 0x509 then some ⟨.schC, 0x500, n - 0x500, 9, true⟩
  else if n = 0x509 then some ⟨.schJ, 0x500, 9, 9, true⟩
  else if 0x600 ≤ n ∧ n < 0x610 then some ⟨.lane, n, 0, 0, false⟩
  else if n = 0x610 then some ⟨.cfe0, 0x610, 0, 8, false⟩
  else if 0x611 ≤ n ∧ n < 0x619 then some ⟨.cfeC, 0x610, n - 0x610, 8, true⟩
  else if 0x700 ≤ n ∧ n < 0x704 then some ⟨.lplI, 0x700, n - 0x700, 11, true⟩
  else if 0x704 ≤ n ∧ n < 0x70c then some ⟨.lplC, 0x700, n - 0x700, 11, true⟩
  else if n = 0x800 then some ⟨.enc, 0x800, 0, 3, false⟩
  else if n = 0x801 then some ⟨.ltg, 0x800, 1, 3, false⟩
  else if n = 0x802 then some ⟨.rtu, 0x800, 2, 3, false⟩
  else if n = 0x803 then some ⟨.rtuE, 0x800, 3, 3, false⟩
  else if n = 0x900 then some ⟨.fio, 0x900, 0, 0, false⟩
  else if n = 0xa00 ∨ n = 0xa01 then some ⟨.eth, n, 0, 0, false⟩
  else if n = 0xa02 then some ⟨.ptp, n, 0, 0, false⟩
  else if n = 0xa03 then some ⟨.bry, n, 0, 0, true⟩
  else if n = 0xb00 then some ⟨.pcie, n, 0, 0, false⟩
  else if n = 0xb01 then some ⟨.erq, n, 0, 0, false⟩
  else if n = 0xc00 then some ⟨.arcG, 0xc00, 0, 64, true⟩
  else if 0xc01 ≤ n ∧ n < 0xc41 then some ⟨.arcS, 0xc00, n - 0xc00, 64, true⟩
  else if n = 0xd00 then some ⟨.tmp, n, 0, 0, false⟩
  else if n = 0xe00 then some ⟨.flt, n, 0, 0, false⟩
  else if n = 0xe01 then some ⟨.qch, n, 0, 0, false⟩
  else if n = 0xe02 then some ⟨.xck, n, 0, 0, false⟩
  else none

/-! ### Page bases (R114) -/

abbrev P.chip : Nat := 0
abbrev P.clk : Nat := 0x1000
abbrev P.pwr : Nat := 0x2000
/-- Anvil engine e's page p. -/
abbrev P.anv (e p : Nat) : Nat := 0x100000 + e * 0x10000 + p * 0x1000
/-- Tongs engine t's page p. -/
abbrev P.tng (t p : Nat) : Nat := 0x300000 + t * 0x10000 + p * 0x1000
/-- Page 0 of engine e, Anvil below 32, Tongs from 32. -/
def P.eng (e : Nat) : Nat := if e < 32 then P.anv e 0 else P.tng (e - 32) 0
abbrev P.bank : Nat := 0x400000
abbrev P.drc (k : Nat) : Nat := 0x401000 + k * 0x1000
abbrev P.noc : Nat := 0x403000
abbrev P.blw : Nat := 0x404000
abbrev P.replay : Nat := 0x405000
abbrev P.schG : Nat := 0x500000
abbrev P.schC (c : Nat) : Nat := 0x501000 + c * 0x1000
abbrev P.schJ : Nat := 0x509000
abbrev P.lane (n : Nat) : Nat := 0x600000 + n * 0x1000
abbrev P.cfe0 : Nat := 0x610000
abbrev P.cfeC (k : Nat) : Nat := 0x611000 + k * 0x1000
abbrev P.lplI (i : Nat) : Nat := 0x700000 + i * 0x1000
abbrev P.lplC (k : Nat) : Nat := 0x704000 + k * 0x1000
abbrev P.enc : Nat := 0x800000
abbrev P.ltg : Nat := 0x801000
abbrev P.rtu : Nat := 0x802000
abbrev P.rtuE : Nat := 0x803000
abbrev P.fio : Nat := 0x900000
abbrev P.eth (p : Nat) : Nat := 0xa00000 + p * 0x1000
abbrev P.ptp : Nat := 0xa02000
abbrev P.bry : Nat := 0xa03000
abbrev P.pcie : Nat := 0xb00000
abbrev P.erq : Nat := 0xb01000
abbrev P.arcG : Nat := 0xc00000
abbrev P.arcS (s : Nat) : Nat := 0xc01000 + s * 0x1000
abbrev P.tmp : Nat := 0xd00000
abbrev P.flt : Nat := 0xe00000
abbrev P.qch : Nat := 0xe01000
abbrev P.xck : Nat := 0xe02000

end Sys2Proof.Machine
end

