-- ==== Sys2Proof/Machine/Ops.lean ====
section
/-! DEFINITION. The named operations over State: the sparse maps, the byte memories, register fields, counters, event
records (R485 to R495), fault recording (R96 to R104) and the small arithmetic the families share. -/

namespace Sys2Proof.Machine

/-! ### Sparse maps -/

/-- What key k holds, d where it is not listed. -/
def SMap.get {α : Type} : SMap α → Nat → α → α
  | [], _, d => d
  | (k', v) :: m, k, d => if k' = k then v else SMap.get m k d

/-- What key k holds, none where it is not listed. -/
def SMap.find? {α : Type} : SMap α → Nat → Option α
  | [], _ => none
  | (k', v) :: m, k => if k' = k then some v else SMap.find? m k

/-- Put v at k, keeping the keys rising. -/
def SMap.insert {α : Type} : SMap α → Nat → α → SMap α
  | [], k, v => [(k, v)]
  | (k', v') :: m, k, v =>
    if k < k' then (k, v) :: (k', v') :: m
    else if k' = k then (k, v) :: m
    else (k', v') :: SMap.insert m k v

/-- Remove k. -/
def SMap.erase {α : Type} (m : SMap α) (k : Nat) : SMap α := m.filter (fun p => p.1 ≠ k)

/-- Put v at k; the default d is never listed. -/
def SMap.set {α : Type} [DecidableEq α] (m : SMap α) (k : Nat) (v d : α) : SMap α :=
  if v = d then SMap.erase m k else SMap.insert m k v

/-- The keys listed. -/
def SMap.keys {α : Type} (m : SMap α) : List Nat := m.map Prod.fst

/-! ### Byte memories -/

/-- The byte at address a; an unlisted address reads 0 (R76, R86). [DEDUCED: log entry 13.] -/
def Memory.read (m : Memory) (a : Nat) : Byte := SMap.get m a 0

/-- Store b at a, keeping the canonical form. -/
def Memory.write (m : Memory) (a : Nat) (b : Byte) : Memory := SMap.set m a b 0

/-- Addresses strictly rising. -/
def Memory.rising : Memory → Bool
  | [] => true
  | [_] => true
  | (a, _) :: (b, v) :: m => decide (a < b) && Memory.rising ((b, v) :: m)

/-- The canonical form: addresses strictly rising, no listed byte equal to what an unlisted address reads as. -/
def Memory.wf (m : Memory) : Bool := Memory.rising m && m.all (fun c => c.2 ≠ 0)

/-- n bytes from address a, lowest first. -/
def Memory.readBytes (m : Memory) (a : Nat) : Nat → List Byte
  | 0 => []
  | n + 1 => Memory.read m a :: Memory.readBytes m (a + 1) n

/-- Store bytes from address a on, lowest first. -/
def Memory.writeBytes (m : Memory) (a : Nat) : List Byte → Memory
  | [] => m
  | b :: bs => Memory.writeBytes (Memory.write m a b) (a + 1) bs

/-- Store the bytes that are present (a byte-enable pattern, R120). -/
def Memory.writeMasked (m : Memory) (a : Nat) : List (Option Byte) → Memory
  | [] => m
  | none :: bs => Memory.writeMasked m (a + 1) bs
  | some b :: bs => Memory.writeMasked (Memory.write m a b) (a + 1) bs

/-- Clear every byte from a up to a + n (R76). -/
def Memory.clear (m : Memory) (a n : Nat) : Memory := m.filter (fun c => !(decide (a ≤ c.1) && decide (c.1 < a + n)))

/-! ### Bytes and bit fields -/

/-- v as n bytes, little-endian (R5). -/
def le : Nat → Nat → List Byte
  | 0, _ => []
  | n + 1, v => BitVec.ofNat 8 v :: le n (v / 256)

/-- The number that little-endian bytes stand for (R5). -/
def unle : List Byte → Nat
  | [] => 0
  | b :: bs => b.toNat + 256 * unle bs

/-- Bits lo to lo + w - 1 of v. -/
def bits (v lo w : Nat) : Nat := v / 2 ^ lo % 2 ^ w

/-- Bit i of v. -/
def bit (v i : Nat) : Bool := v / 2 ^ i % 2 = 1

/-- v as a w-bit two's-complement number. -/
def sext (w v : Nat) : Int := if v % 2 ^ w < 2 ^ (w - 1) then (v % 2 ^ w : Nat) else (v % 2 ^ w : Nat) - (2 ^ w : Nat)

/-- An integer as a w-bit two's-complement pattern. -/
def wrap (w : Nat) (x : Int) : Nat := (x % (2 ^ w : Nat)).toNat

def b2n (b : Bool) : Nat := if b then 1 else 0

/-- Exactly n bytes: the list cut or filled with zeros. -/
def padTo (n : Nat) (l : List Byte) : List Byte := (l ++ List.replicate n 0).take n

/-- v with bit i set. -/
def setBit (v i : Nat) : Nat := if bit v i then v else v + 2 ^ i

/-- v with bit i cleared. -/
def clrBit (v i : Nat) : Nat := if bit v i then v - 2 ^ i else v

/-- v with bit i as b. -/
def putBit (v i : Nat) (b : Bool) : Nat := if b then setBit v i else clrBit v i

/-- The bits set in v among the first n. -/
def bitsOf (n v : Nat) : List Nat := (List.range n).filter (fun i => bit v i)

/-- Set the element at place i, growing with d as needed. -/
def setAt {α : Type} (d : α) : List α → Nat → α → List α
  | [], 0, v => [v]
  | _ :: l, 0, v => v :: l
  | [], i + 1, v => d :: setAt d [] i v
  | x :: l, i + 1, v => x :: setAt d l i v

/-- Round a quotient of integers to nearest, ties away from zero (R24, R174). -/
def roundDiv (a : Int) (b : Nat) : Int :=
  if 0 ≤ a then (2 * a + b) / (2 * b) else -((2 * (-a) + b) / (2 * b))

/-! ### Register fields -/

/-- The key of a field of instance i on the page at base. -/
@[irreducible] def Fld.key (f : Fld) (base i : Nat) : Nat := 32 * (base + f.off + f.stride * i) + f.lo

/-- The value of a register field. -/
def State.rd (s : State) (base : Nat) (f : Fld) (i : Nat := 0) : Nat := SMap.get s.regs (f.key base i) f.reset

/-- A one-bit field as a Bool. -/
def State.rdb (s : State) (base : Nat) (f : Fld) (i : Nat := 0) : Bool := s.rd base f i = 1

/-- Set a register field; the value is cut to the field's width. -/
def State.wr (s : State) (base : Nat) (f : Fld) (v : Nat) (i : Nat := 0) : State :=
  { s with regs := SMap.set s.regs (f.key base i) (v % 2 ^ f.width) f.reset }

/-- Set a one-bit field. -/
def State.wrb (s : State) (base : Nat) (f : Fld) (b : Bool) (i : Nat := 0) : State := s.wr base f (b2n b) i

/-- A 64-bit or 40-bit value in two consecutive registers (R9). -/
def State.rd2 (s : State) (base : Nat) (lo hi : Fld) (i : Nat := 0) : Nat := s.rd base lo i + 2 ^ 32 * s.rd base hi i

def State.wr2 (s : State) (base : Nat) (lo hi : Fld) (v : Nat) (i : Nat := 0) : State :=
  (s.wr base lo v i).wr base hi (v / 2 ^ 32) i

/-! ### Counters (R107) -/

/-- Add n to the live counter at BAR0 offset a; it wraps modulo 2^64. -/
def State.bump (s : State) (a : Nat) (n : Nat := 1) : State :=
  { s with ctrs := SMap.set s.ctrs a ((SMap.get s.ctrs a 0 + n) % 2 ^ 64) 0 }

def State.ctr (s : State) (a : Nat) : Nat := SMap.get s.ctrs a 0

/-- What is counted in a page's live counters at no offset the spec gives. [DESIGN CHOICE: log entry 18.] -/
inductive Why where
  | ignoredWrite | deferredWrite | maskedFault | reservedAccess | invalidAccess | claimFailed | clrRefused | badReset
  | snapIgnored | inactiveSource | discarded | refusedAccess | other
  deriving DecidableEq, Repr

def Why.code : Why → Nat
  | .ignoredWrite => 0 | .deferredWrite => 1 | .maskedFault => 2 | .reservedAccess => 3 | .invalidAccess => 4
  | .claimFailed => 5 | .clrRefused => 6 | .badReset => 7 | .snapIgnored => 8 | .inactiveSource => 9
  | .discarded => 10 | .refusedAccess => 11 | .other => 12

/-- Where a page has a live counter of its own for writes ignored or stored for later: page 0 of an engine, the fault
collector, Temper (R165, R228, R557, R583). -/
def ignoredCtr (base : Nat) : Option Nat :=
  match pageInfo (base / 4096) with
  | some p => match p.kind with
    | .anv0 | .anv1 | .anv2 => some (base / 0x10000 * 0x10000 + 0x850)
    | .tng0 | .tng1 => some (base / 0x10000 * 0x10000 + 0x868)
    | .flt => some (base + 0x838)
    | .tmp => some (base + 0x828)
    | _ => none
  | none => none

/-- Count an event in the page at base. [DESIGN CHOICE: log entry 18.] -/
def State.note (s : State) (base : Nat) (w : Why) (n : Nat := 1) : State :=
  let k := 64 * (base / 4096) + w.code
  let s := { s with openCtrs := SMap.set s.openCtrs k ((SMap.get s.openCtrs k 0 + n) % 2 ^ 64) 0 }
  if w = .ignoredWrite ∨ w = .deferredWrite then
    match ignoredCtr base with
    | some a => s.bump a n
    | none => s
  else s

/-! ### Page header -/

/-- Set bit b, 8 to 15, of BLK_STAT.blk of the page at base (R95). -/
def State.setBlk (s : State) (base b : Nat) : State :=
  s.wr base Reg.BLK_STAT_blk (setBit (s.rd base Reg.BLK_STAT_blk) (b - 8))

def State.clrBlk (s : State) (base b : Nat) : State :=
  s.wr base Reg.BLK_STAT_blk (clrBit (s.rd base Reg.BLK_STAT_blk) (b - 8))

def State.putBlk (s : State) (base b : Nat) (v : Bool) : State := if v then s.setBlk base b else s.clrBlk base b

/-- The page is in its fault state (R96, R104). -/
def State.inFault (s : State) (base : Nat) : Bool := s.rd base Reg.BLK_STAT_state = 3

/-- The stored state of a page that has left its fault state and waits, idle, for its enabling sequence (R105). -/
abbrev idleHeld : Nat := 1

/-- The page acts on its configuration: it is not in its fault state, fenced, under test, or held idle after a fault
(R104, R105, R568, R577). -/
def State.works (s : State) (base : Nat) : Bool := s.rd base Reg.BLK_STAT_state = 0

/-- The enabling sequence of a page that was held idle after a fault (R105). [DESIGN CHOICE: log entry 148.] -/
def State.resume (s : State) (base : Nat) : State :=
  if s.rd base Reg.BLK_STAT_state = idleHeld then s.wr base Reg.BLK_STAT_state 0 else s

def State.isFenced (s : State) (base : Nat) : Bool := s.rd base Reg.BLK_STAT_state = 4

def State.underTest (s : State) (base : Nat) : Bool := s.rd base Reg.BLK_STAT_state = 5

/-- The source ID of the block that owns the page at base (R488). -/
def srcOf (base : Nat) : Nat := match pageInfo (base / 4096) with | some p => p.src | none => 0

def pageIndexOf (base : Nat) : Nat := match pageInfo (base / 4096) with | some p => p.index | none => 0

/-! ### Event records -/

/-- PTP time is marked invalid (R457, R486). -/
def State.timeInvalid (s : State) : Bool := !s.rdb P.ptp Reg.PTP_CTL_valid

/-- The PTP time in ns (R455). -/
def State.now (s : State) : Nat := s.ptp.ns

/-- The target of a source (R489). -/
def State.target (s : State) (src : Nat) : Nat := SMap.get s.host.targets src 0

def isHostErq (t : Nat) : Bool := decide (0x10 ≤ t) && decide (t < 0x20)

def isHearthQ (t : Nat) : Bool := decide (0x20 ≤ t) && decide (t < 0x24)

/-- An event record as raised at time t (R485). -/
def mkRec (s : State) (src typ : Nat) (payload : List Byte) (t : Nat) : EventRec :=
  { src := BitVec.ofNat 12 src, typ := BitVec.ofNat 8 typ, flags := if s.timeInvalid then 2 else 0,
    time := BitVec.ofNat 64 t, payload := padTo 16 payload }

/-- WAKE_N is asserted by a record of a source that had a host queue when PERST_N was asserted (R503). -/
def State.wakeN (s : State) (src : Nat) : State :=
  if s.host.pmeLatched && s.rdb P.pcie Reg.PCIE_STAT_perst && isHostErq (SMap.get s.host.wakeTargets src 0) then
    s.wrb P.pcie Reg.PCIE_STAT_wake true
  else s

/-- Records held for the wake (R495). -/
def heldCount (l : List RecUnit) : Nat := (l.map (fun u => u.recs.length)).foldl (· + ·) 0

/-- Records that are produced together, for their source's target of this moment (R487, R489, R495). -/
def State.produce (s : State) (src : Nat) (recs : List EventRec) : State :=
  let s := s.wakeN src
  let t := s.target src
  if s.seq.power = .banked then
    if heldCount s.host.held + recs.length ≤ 64 then
      let held := recs.map (fun r => { r with flags := r.flags ||| 8 })
      { s with host := { s.host with held := s.host.held ++ [{ target := BitVec.ofNat 8 t, recs := held }] } }
    else
      let s := (s.bump (P.erq + 0x918) recs.length).setBlk P.erq 11
      { s with host := { s.host with lost := if s.host.lost.contains t then s.host.lost else t :: s.host.lost } }
  else
    { s with host := { s.host with produced := s.host.produced ++ [{ target := BitVec.ofNat 8 t, recs := recs }] } }

/-- One record, stamped with the time at which it is raised (R486). -/
def State.raise (s : State) (src typ : Nat) (payload : List Byte) : State :=
  s.produce src [mkRec s src typ payload s.now]

/-- One record stamped with another instant its chapter names (R486). [DEDUCED: log entry 37.] -/
def State.raiseAt (s : State) (src typ : Nat) (payload : List Byte) (t : Nat) : State :=
  s.produce src [mkRec s src typ payload t]

/-! ### Faults (R96 to R104) -/

/-- The bit of BLK_ERR_MASK.blk that masks a block-specific cause, as the block's chapter assigns (R97, R161, R265). -/
def maskGroup (k : PKind) (cause : Nat) : Option Nat :=
  match k with
  | .anv0 => if cause = 0x17 then some 0 else none
  | .drc => if cause = 0x10 ∨ cause = 0x11 then some 0 else if cause = 0x15 then some 1 else none
  | _ => none

/-- Whether BLK_ERR_MASK of the page masks a cause (R97). -/
def State.masked (s : State) (base cause : Nat) : Bool :=
  if cause = 1 then false
  else if cause < 5 then bit (s.rd base Reg.BLK_ERR_MASK_common) (cause - 2)
  else match pageInfo (base / 4096) with
    | some p => match maskGroup p.kind cause with
      | some g => bit (s.rd base Reg.BLK_ERR_MASK_blk) g
      | none => false
    | none => false

/-- BLK_ERR as read. -/
def State.blkErr (s : State) (base : Nat) : Nat :=
  s.rd base Reg.BLK_ERR_cause + 256 * s.rd base Reg.BLK_ERR_more + 65536 * s.rd base Reg.BLK_ERR_count

/-- The BLK_FAULT record of R587. -/
def State.raiseBlkFault (s : State) (base : Nat) : State :=
  if s.rdb base Reg.BLK_CTRL_evt_en then
    let c := s.rd base Reg.BLK_ERR_cause
    s.raise (srcOf base) 0x01
      (le 1 c ++ le 1 (s.rd base Reg.BLK_STAT_state) ++ le 1 (pageIndexOf base) ++ le 1 0 ++ le 4 (s.blkErr base)
        ++ le 2 (if c = 1 then s.rd base Reg.BLK_PARITY_first_off else 0))
  else s

/-- BLK_ERR takes the unmasked faults of one cycle, of which the cause shows the lowest code: the first cause stays,
faults that arrive after it set more, and all count (R96, R98). [DEDUCED: log entry 144.] -/
def State.holdCauses (s : State) (base : Nat) (causes : List Nat) : State :=
  let s := if s.rd base Reg.BLK_ERR_cause = 0 then s.wr base Reg.BLK_ERR_cause (causes.foldl min 255)
    else s.wr base Reg.BLK_ERR_more 1
  s.wr base Reg.BLK_ERR_count (min 255 (s.rd base Reg.BLK_ERR_count + causes.length))

/-- A masked fault is counted, in its page and by the collector (R98, R583). [DEDUCED: log entry 20.] -/
def State.countMasked (s : State) (base n : Nat) : State :=
  if n = 0 then s else (s.note base .maskedFault n).bump (P.flt + 0x808) n

/-- Engine e. -/
def State.eng (s : State) (e : Nat) : Engine := SMap.get s.engines e default

def State.setEng (s : State) (e : Nat) (x : Engine) : State := { s with engines := SMap.set s.engines e x default }

/-! ### Command words (R150, R151, R212) -/

def cmdOp (w : Cmd) : Nat := bits w.w0.toNat 0 8
def cmdWaits (w : Cmd) : Bool := bit w.w0.toNat 12
def cmdWaitTok (w : Cmd) : Nat := bits w.w0.toNat 8 4
def cmdSignals (w : Cmd) : Bool := bit w.w0.toNat 20
def cmdSigTok (w : Cmd) : Nat := bits w.w0.toNat 16 4

/-- The unit queue of an opcode: 0 sequencer, 1 array, 2 vector, 3 DMA, 4 a Tongs engine's crop and expansion units. The
queues of a Tongs engine's own opcodes are not given. [DESIGN CHOICE: log entry 109.] -/
def cmdUnit (op : Nat) : Nat :=
  match op with
  | 1 | 2 | 0x22 => 1
  | 3 | 4 | 0x23 | 0x24 => 2
  | 5 => 3
  | 0x20 | 0x21 => 4
  | _ => 0

/-- The engine that owns page number n. -/
def engineOfPage (n : Nat) : Option Nat :=
  if 0x100 ≤ n ∧ n < 0x300 then some ((n - 0x100) / 16)
  else if 0x300 ≤ n ∧ n < 0x340 then some (32 + (n - 0x300) / 16)
  else none

/-- An engine one of whose pages enters its fault state abandons what is in flight and what waits in its queues
(R162, R225). -/
def State.engineHalt (s : State) (base : Nat) : State :=
  match engineOfPage (base / 4096) with
  | some e => s.setEng e { s.eng e with inflight := [], queued := [] }
  | none => s

/-- The faults of one cycle on a page: an unmasked one puts the page in its fault state and writes one BLK_FAULT record
per entry; a masked one is counted only (R98, R104). A fenced page goes on reading state 4 (R568).
[DEDUCED: log entry 20.] [DEDUCED: log entry 21.] -/
def State.blockFaults (s : State) (base : Nat) (causes : List Nat) : State :=
  let open_ := causes.filter (fun c => !s.masked base c)
  let s := s.countMasked base (causes.length - open_.length)
  if open_.isEmpty then s
  else
    let was := s.inFault base || s.isFenced base
    let s := s.holdCauses base open_
    if was then s else ((s.wr base Reg.BLK_STAT_state 3).engineHalt base).raiseBlkFault base

/-- One fault of a page. -/
def State.blockFault (s : State) (base cause : Nat) : State := s.blockFaults base [cause]

/-- Causes of one cycle recorded in BLK_ERR without entering the fault state (R96, R55).
[DEDUCED: log entry 20.] [DEDUCED: log entry 21.] -/
def State.noteCauses (s : State) (base : Nat) (causes : List Nat) : State :=
  let open_ := causes.filter (fun c => !s.masked base c)
  let s := s.countMasked base (causes.length - open_.length)
  if open_.isEmpty then s
  else
    let had := s.rd base Reg.BLK_ERR_cause
    let s := s.holdCauses base open_
    if had = 0 then s.raiseBlkFault base else s

def State.noteCause (s : State) (base cause : Nat) : State := s.noteCauses base [cause]

/-- What else is held until BLK_ERR is cleared: a stack's first bad address (R264), an engine's bad descriptor (R169).
[DEDUCED: log entry 19.] -/
def State.clearHeld (s : State) (base : Nat) : State :=
  match pageInfo (base / 4096) with
  | some p => match p.kind with
    | .drc => (s.wr2 base Reg.DRC_ERR_ADDR_lo Reg.DRC_ERR_ADDR_hi 0).wrb base Reg.DRC_ERR_ADDR_held false
    | .anv0 => s.wr (base + 0x2000) Reg.ANV_DMA_STAT_last_bad 0
    | _ => s
  | none => s

/-- BLK_ERR and the parity record cleared, as on leaving the fault state (R96, R100). [DEDUCED: log entry 19.] -/
def State.clearErr (s : State) (base : Nat) : State :=
  (((((s.clearHeld base).wr base Reg.BLK_ERR_cause 0).wr base Reg.BLK_ERR_more 0).wr base Reg.BLK_ERR_count 0).wr base
    Reg.BLK_PARITY_first_off 0).wr base Reg.BLK_PARITY_count 0

/-- The page's state becomes st; BLK_ERR is cleared where that leaves the fault state (R96). [DEDUCED: log entry 19.] -/
def State.leaveTo (s : State) (base st : Nat) : State :=
  (if s.inFault base then s.clearErr base else s).wr base Reg.BLK_STAT_state st

/-- A mismatching register is found, by its block's use or by the scan (R103). -/
def State.parityFound (s : State) (addr : Nat) : State :=
  let base := addr / 4096 * 4096
  let s := if s.rd base Reg.BLK_PARITY_count = 0 then s.wr base Reg.BLK_PARITY_first_off (addr % 4096 / 4) else s
  let s := s.wr base Reg.BLK_PARITY_count (min 255 (s.rd base Reg.BLK_PARITY_count + 1))
  s.blockFault base 1

/-! ### Device memory -/

/-- Byte x is among those that a write of data at a replaces. -/
def covers (a : Nat) (data : List (Option Byte)) (x : Nat) : Bool :=
  decide (a ≤ x) && ((data.getD (x - a) none).isSome)

/-- Write the bytes present at device address a; a word written whole is good again (R244). -/
def State.storeMasked (s : State) (a : Nat) (data : List (Option Byte)) : State :=
  { s with mem := Memory.writeMasked s.mem a data,
           msys := { s.msys with poison := s.msys.poison.filter (fun w =>
             !(List.range 8).all (fun i => covers a data (w * 8 + i))) } }

/-- Write bytes at device address a. -/
def State.store (s : State) (a : Nat) (bs : List Byte) : State := s.storeMasked a (bs.map some)

/-- The n bytes at device address a. -/
def State.load (s : State) (a n : Nat) : List Byte := Memory.readBytes s.mem a n

/-! ### The start-up set (R86, R547) -/

/-- The start-up set's region of flash (R547). -/
abbrev startupAt : Nat := 0x200000
abbrev startupSize : Nat := 0xe00000

/-- The bytes of the start-up set's region. -/
def State.startBytes (s : State) : Memory :=
  s.flash.filter (fun c => decide (startupAt ≤ c.1) && decide (c.1 < startupAt + startupSize))

/-- There is a start-up set: an empty region holds none. [DESIGN CHOICE: log entry 45.] -/
def State.hasStartSet (s : State) : Bool := !s.startBytes.isEmpty

/-- The start-up set in flash. [DESIGN CHOICE: log entry 45.] -/
def State.startSet (s : State) : StartupSet :=
  if s.hasStartSet then Config.startupSet (s.startBytes.map (fun c => (c.1 - startupAt, c.2))) else default

/-! ### Free values -/

/-- The next free value. [DESIGN CHOICE: log entry 7.] -/
def State.freeVal (s : State) : Nat := Config.freeNat s.draws

/-- Advance the counter of free values. [DESIGN CHOICE: log entry 7.] -/
def State.draw (s : State) : State := { s with draws := s.draws + 1 }

/-- A record whose type the spec does not give (R256): its type is a free value, its payload names what it is about.
[DESIGN CHOICE: log entry 7.] [DESIGN CHOICE: log entry 117.] -/
def State.raiseFree (s : State) (src : Nat) (payload : List Byte) : State :=
  s.draw.raise src s.freeVal payload

end Sys2Proof.Machine
end

