-- ==== Sys2Proof/Machine/Flags.lean ====
section
/-! DEFINITION. The conditions the module computes: inspection-ready and its missing-condition bits (R80, R84, R573),
the module state (R52, R62), the level of every register field as read, which registers are in use (R106), the drive
of the field outputs, and the one way a command ends: `fin`. -/

namespace Sys2Proof.Machine

/-! ### Context states (R273) -/

abbrev ctxEmpty : Nat := 0
abbrev ctxLoading : Nat := 1
abbrev ctxStopped : Nat := 2
abbrev ctxStandby : Nat := 3
abbrev ctxRunning : Nat := 4
abbrev ctxDraining : Nat := 5
abbrev ctxFault : Nat := 6
abbrev ctxEvicting : Nat := 7

/-- SCH_CTX_STAT.state of context c. -/
def State.ctxState (s : State) (c : Nat) : Nat := s.rd (P.schC c) Reg.SCH_CTX_STAT_state

/-- RUNNING, STANDBY or DRAINING: running for the purposes of R71, R84 and R234 (R273). -/
def State.ctxRuns (s : State) (c : Nat) : Bool :=
  s.ctxState c = ctxRunning || s.ctxState c = ctxStandby || s.ctxState c = ctxDraining

/-- Resident: any state but EMPTY, LOADING and EVICTING (R273). -/
def State.ctxResident (s : State) (c : Nat) : Bool :=
  s.ctxRuns c || s.ctxState c = ctxStopped || s.ctxState c = ctxFault

/-- Context c is in CHIP_READY.ctx_req. -/
def State.required (s : State) (c : Nat) : Bool := bit (s.rd P.chip Reg.CHIP_READY_ctx_req) c

/-- The required contexts. -/
def State.requiredCtxs (s : State) : List Nat := (List.range 8).filter s.required

def State.primCam (s : State) (c : Nat) : Nat := s.rd (P.schC c) Reg.SCH_CTX_CFG_prim_cam

def State.primEn (s : State) (c : Nat) : Bool := s.rdb (P.schC c) Reg.SCH_CTX_CFG_prim_en

/-! ### Claim register values (R124) -/

abbrev ownFree : Nat := 0
abbrev ownPermit : Nat := 1
abbrev ownRtu : Nat := 2
abbrev ownLtg : Nat := 3
abbrev ownGp : Nat := 4

/-- The LTG that triggers camera k and counts for R18: it owns the camera's trigger path in encoder mode (R405), and the
camera takes its triggers (R355). -/
def State.camLtg (s : State) (k : Nat) : Option Nat :=
  if s.rd P.cfe0 Reg.CLAIM_CFE0_owner k = ownLtg && decide (s.rd (P.cfeC k) Reg.CFE_CAM_BLK_trig_src < 2) then
    let l := s.rd P.cfe0 Reg.CLAIM_CFE0_unit k
    if s.rd P.ltg Reg.LTG_CFG_src l = 0 then some l else none
  else none

abbrev ltgArmed : Nat := 2

/-- The valid actuator map entries of a context: first and last column, group and C_off (R309). -/
def State.actMap (s : State) (c : Nat) : List (Nat × Nat × Nat × Nat) :=
  (List.range 8).filterMap (fun g =>
    if s.rdb (P.schC c) Reg.SCH_CTX_ACT_GRP_valid g then
      some (s.rd (P.schC c) Reg.SCH_CTX_ACT_COLS_first g, s.rd (P.schC c) Reg.SCH_CTX_ACT_COLS_last g,
        s.rd (P.schC c) Reg.SCH_CTX_ACT_GRP_grp g, s.rd (P.schC c) Reg.SCH_CTX_ACT_OFF_c_off g)
    else none)

/-- The actuator groups a context's map names; none where the context does not drive the RTU. -/
def State.ctxGroups (s : State) (c : Nat) : List Nat :=
  if s.primEn c then (s.actMap c).map (fun m => m.2.2.1) else []

def State.firesLocally (s : State) (c : Nat) : Bool :=
  (s.ctxGroups c).any (fun g => s.rd P.rtu Reg.RTU_GRP_CFG_kind g = 0)

def State.firesRemotely (s : State) (c : Nat) : Bool :=
  (s.ctxGroups c).any (fun g => s.rd P.rtu Reg.RTU_GRP_CFG_kind g = 1)

/-- The encoders a context uses: its primary camera's LTG's and its groups' (R84). -/
def State.ctxEncoders (s : State) (c : Nat) : List Nat :=
  if s.primEn c then
    (match s.camLtg (s.primCam c) with | some l => [s.rd P.ltg Reg.LTG_CFG_enc l] | none => [])
      ++ (s.ctxGroups c).map (fun g => s.rd P.rtu Reg.RTU_GRP_CFG_enc g)
  else []

/-! ### Shares (R235) -/

/-- The number of 4 KiB or 64 KiB units that a billet asks for in bank b of R261; N0 to N3 hold no shares. -/
def shareUnits (x : Billet) (b : Nat) : Nat :=
  if b < 192 then
    (if b % 6 < 4 then x.aUnits.toNat else if b % 6 = 4 then x.wUnits.toNat else x.pUnits.toNat)
  else if b < 196 then 0
  else if b = 196 then x.n4Units.toNat
  else if b = 197 then x.n5Units.toNat
  else x.xUnits.toNat

/-- A running or pre-empted context holds a share in bank b (R234, R261). -/
def State.shareHeld (s : State) (b : Nat) : Bool :=
  (List.range 8).any (fun c => s.ctxRuns c && match (SMap.find? s.ctxs c).bind Ctx.billet with
    | some x => decide (shareUnits x b ≠ 0)
    | none => false)

/-! ### Fences -/

/-- Anvil engine e is fenced (R306). -/
def State.anvFenced (s : State) (e : Nat) : Bool := bit (s.rd P.schG Reg.SCH_FENCE_mask) e

def State.tngFenced (s : State) (t : Nat) : Bool := bit (s.rd P.schG Reg.SCH_PLACE_tongs_fenced) t

/-- Unfenced Anvil engines in ascending order (R277). -/
def State.anvFree (s : State) : List Nat := (List.range 32).filter (fun e => !s.anvFenced e)

def State.tngFree (s : State) : List Nat := (List.range 4).filter (fun t => !s.tngFenced t)

/-! ### Module state (R52) -/

/-- A warm or cold reset is in progress, or HOLD or thermal shutdown holds the module in reset (R52).
[DESIGN CHOICE: log entry 8.] [DEDUCED: log entry 34.] -/
def State.inReset (s : State) : Bool :=
  s.board.powerGood &&
    (s.board.thermShutdown || s.board.smbHold || s.seq.phase = .warmClearing || s.seq.phase = .warmHeld
      || s.seq.phase = .railsOff)

/-- Unpowered or soft start (R52). [DESIGN CHOICE: log entry 8.] -/
def State.unpowered (s : State) : Bool := !(s.board.switch = .on && s.board.powerGood)

/-! ### The missing-condition bits of CHIP_READY (R84) -/

def State.mStart (s : State) : Bool := s.seq.phase ≠ .started || s.inReset || s.unpowered

def State.ctxMissing (s : State) (c : Nat) : Bool :=
  !s.ctxRuns c
    || (s.primEn c && (s.rd (P.cfeC (s.primCam c)) Reg.CFE_CAM_STAT_state ≠ 2
      || (match s.camLtg (s.primCam c) with
          | some l => s.rd P.ltg Reg.LTG_STAT_state l ≠ ltgArmed
          | none => true)))

def State.mCtx (s : State) : Bool :=
  s.rd P.chip Reg.CHIP_READY_ctx_req = 0 || s.requiredCtxs.any s.ctxMissing

/-- The start has not ended: its encoder, path, time and self-check conditions have yet to be met, and their bits show the
Reset column of R84. [DEDUCED: log entry 145.] -/
def State.preStart (s : State) : Bool := s.seq.phase ≠ .started

def State.mEnc (s : State) : Bool :=
  s.preStart || s.requiredCtxs.any (fun c => (s.ctxEncoders c).any (fun e =>
    s.rdb P.enc Reg.ENC_STAT_flt e || s.rd P.enc Reg.ENC_STAT_cab e ≠ 0))

def State.mRtu (s : State) : Bool := s.rdb P.rtu Reg.RTU_STAT_ovf

/-- No isolation path is up, the field page's fault state included (R433). -/
def State.noPath (s : State) : Bool := s.rd P.fio Reg.FIO_GLB_path = 2 || s.inFault P.fio

def State.mField (s : State) : Bool :=
  s.preStart || s.requiredCtxs.any s.firesLocally && (s.rdb P.fio Reg.FIO_SUP_uv || s.noPath)

def State.mNet (s : State) : Bool :=
  s.preStart || s.requiredCtxs.any (fun c => s.firesRemotely c && (s.timeInvalid || (s.ctxGroups c).any (fun g =>
    s.rd P.rtu Reg.RTU_GRP_CFG_kind g = 1 && !s.rdb (P.eth (s.rd P.rtu Reg.RTU_GRP_CFG_port g)) Reg.ETH_PORT_STAT_link)))

/-- A unit of the placement, Anvil 0-31 or Tongs 32-35 in unit indexes of R580, has neither passed its self-check nor
been fenced. -/
def State.mCheck (s : State) : Bool :=
  s.preStart || !s.requiredCtxs.isEmpty &&
    (s.anvFree.any (fun e => !s.seq.checked.contains e) || s.tngFree.any (fun t => !s.seq.checked.contains (32 + t)))

/-- A required context drives the RTU from camera k through line pipeline instance i. -/
def State.instRequired (s : State) (i : Nat) : Bool :=
  s.requiredCtxs.any (fun c => s.primEn c && s.rd (P.lplC (s.primCam c)) Reg.LPL_CAM_CFG_inst = i)

/-- A diagnostic that withdraws the permit shows on channel n (R438). -/
def State.diagActs (s : State) (n : Nat) : Bool :=
  s.rdb P.fio Reg.FIO_CH_CFG_diag_act n &&
    (s.rdb P.fio Reg.FIO_CH_STAT_ovl n || s.rdb P.fio Reg.FIO_CH_STAT_therm n
      || s.rdb P.fio Reg.FIO_CH_STAT_short_lp n || s.rdb P.fio Reg.FIO_CH_STAT_off_latched n) &&
    (s.rd P.fio Reg.CLAIM_FIO_owner n = ownPermit
      || (s.rd P.fio Reg.CLAIM_FIO_owner n = ownRtu
          && s.requiredCtxs.any (fun c => (s.ctxGroups c).contains (s.rd P.fio Reg.CLAIM_FIO_unit n))))

/-- The faults of R573. -/
def State.mFault (s : State) : Bool :=
  let req := !s.requiredCtxs.isEmpty
  s.seq.permitShort
    || (req && (s.inFault (P.drc 0) || s.inFault (P.drc 1) || s.inFault P.rtu || s.inFault P.schG || s.inFault P.bank
        || s.inFault P.blw || decide (s.tngFree.length < 3) || s.inFault P.flt
        || (s.inFault P.xck && s.rdb P.xck Reg.XCK_CFG_unres_act) || !s.coll.failedUnits.isEmpty))
    || (List.range 4).any (fun i => s.inFault (P.lplI i) && s.instRequired i)
    || (List.range 2).any (fun p => s.inFault (P.eth p) && s.requiredCtxs.any (fun c => (s.ctxGroups c).any (fun g =>
        s.rd P.rtu Reg.RTU_GRP_CFG_kind g = 1 && s.rd P.rtu Reg.RTU_GRP_CFG_port g = p
          && s.rdb P.rtu Reg.RTU_GRP_CFG_armed g)))
    || (List.range 16).any s.diagActs

/-- Inspection-ready (R80). [DESIGN CHOICE: log entry 11.] -/
def State.isReady (s : State) : Bool :=
  s.rdb P.chip Reg.CHIP_READY_permit_en && !s.mStart && !s.mCtx && !s.mEnc && !s.mRtu && !s.mField && !s.mNet
    && !s.mCheck && !s.mFault

/-- MOD_STATE (R52, R62). In BANKED a module that has never been inspection-ready since its reset reads starting, as R52
gives. [DESIGN CHOICE: log entry 146.] -/
def State.modState (s : State) : Nat :=
  match s.board.switch with
  | .off => if s.board.breaker then 7 else if s.board.p12 ≠ .window then 8 else 0
  | .ramping => 1
  | .on =>
    if !s.board.powerGood then 1
    else if s.board.thermShutdown then 6
    else if s.inReset then 2
    else if s.isReady then 4
    else if s.seq.wasReady then 5
    else 3

/-! ### Registers in use (R106) -/

/-- The encoder has an armed LTG or an armed RTU group (R398). -/
def State.encUsed (s : State) (e : Nat) : Bool :=
  (List.range 4).any (fun l => s.rd P.ltg Reg.LTG_STAT_state l ≠ 0 && s.rd P.ltg Reg.LTG_CFG_enc l = e)
    || (List.range 32).any (fun g => s.rdb P.rtu Reg.RTU_GRP_CFG_armed g && s.rd P.rtu Reg.RTU_GRP_CFG_enc g = e)

/-- Camera k has a binding, or is being bound (R348). -/
def State.camUsed (s : State) (k : Nat) : Bool := s.rd (P.cfeC k) Reg.CFE_CAM_STAT_state ≠ 0

/-- Some context runs. -/
def State.anyCtxRuns (s : State) : Bool := (List.range 8).any s.ctxRuns

/-- Instance i of a page acts, its page's own state aside. [DESIGN CHOICE: log entry 15.] -/
def State.acts (s : State) (base : Nat) (k : PKind) (f : Fld) (i : Nat) : Bool :=
  match k with
  | .anv0 => (s.eng ((base - P.anv 0 0) / 0x10000)).cur.isSome
  | .anv1 => (s.eng ((base - P.anv 0 1) / 0x10000)).cur.isSome
  | .anv2 => (s.eng ((base - P.anv 0 2) / 0x10000)).cur.isSome
  | .tng0 => (s.eng (32 + (base - P.tng 0 0) / 0x10000)).cur.isSome
  | .tng1 => (s.eng (32 + (base - P.tng 0 1) / 0x10000)).cur.isSome
  | .schG => s.anyCtxRuns
  | .schJ => s.anyCtxRuns
  | .schC => s.ctxRuns ((base - P.schC 0) / 0x1000)
  | .lane => s.rdb base Reg.CXP_LANE_STAT_bound
  | .cfe0 => (List.range 8).any s.camUsed
  | .cfeC => s.rd base Reg.CFE_CAM_STAT_state ≠ 0
  | .lplI => (List.range 8).any (fun c => s.rd (P.lplC c) Reg.LPL_CAM_CFG_inst = (base - P.lplI 0) / 0x1000 && s.camUsed c)
  | .lplC => s.camUsed ((base - P.lplC 0) / 0x1000)
  | .replay => s.camUsed i
  | .enc =>
    if f.stride = 32 then decide (f.off < 0xc0) && s.encUsed i
    else decide (0x140 ≤ f.off) && decide (f.stride = 8) && s.rdb base Reg.TMR_CTL_run i
  | .ltg => s.rd base Reg.LTG_STAT_state i ≠ 0
  | .rtu => decide (0x100 ≤ f.off) && s.rdb base Reg.RTU_GRP_CFG_armed i
  | .rtuE => !s.rtu.entries.isEmpty
  | .fio => s.rdb base Reg.BLK_CTRL_en && s.rd base Reg.FIO_GLB_path ≠ 2
  | .eth => s.rdb base Reg.ETH_PORT_STAT_link
  | .ptp => s.rdb base Reg.BLK_CTRL_en && s.ptp.running
  | .bry => s.rdb base Reg.BRY_CFG_en
  | .pcie => s.rdb base Reg.PCIE_STAT_link_up
  | .erq => (List.range 16).any (fun q => s.rdb base Reg.ERQ_QCFG_en q) || s.rdb base Reg.MBX_CFG_en
  | .arcG => (List.range 64).any (fun n => s.rd (P.arcS n) Reg.ARC_SSTAT_state ≠ 0)
  | .arcS => s.rd base Reg.ARC_SSTAT_state ≠ 0
  | .xck => s.rdb base Reg.XCK_CFG_en && s.anyCtxRuns
  | .tmp => s.rdb base Reg.TMP_STAT_handover
  | .qch => s.rd base Reg.QCH_STAT_state = 1
  | .chip | .clk | .pwr | .noc | .drc | .blw | .bank | .flt => s.rdb base Reg.BLK_CTRL_en

/-- The part of a page that instance i of a field belongs to is active: it acts, and its page is in no state of its own
that keeps it from acting (R95, R104, R105, R106). [DESIGN CHOICE: log entry 15.] -/
def State.active (s : State) (base : Nat) (k : PKind) (f : Fld) (i : Nat) : Bool :=
  s.works base && s.acts base k f i

/-- How many instances a page's parts have. -/
def partCount (k : PKind) : Nat :=
  match k with
  | .replay | .enc => 8
  | .ltg => 4
  | .rtu => 32
  | _ => 1

/-- Any part of the page is active (R95). -/
def State.pageActive (s : State) (base : Nat) (k : PKind) : Bool :=
  (List.range (partCount k)).any (fun i => s.active base k
    (match k with | .enc => Reg.ENC_CFG_mode | .rtu => Reg.RTU_GRP_CFG_kind | _ => Reg.BLK_STAT_state) i)
  || (decide (k = .enc) && (List.range 8).any (fun t => s.active base k Reg.TMR_PER_period t))

/-- Fields that may be changed while their block is active, as its chapter names them, or under a rule of their own (R106,
R164, R227, R261, R263, R267, R304, R307, R364, R407, R421, R423, R425, R456, R457, R476, R479, R489, R492, R530, R557, and
the pages' own paragraphs). A chip page's fields and the entry selects are written in service, and no chapter gives them a
list. [DESIGN CHOICE: log entry 15.] -/
def freeWhileActive (k : PKind) (f : Fld) : Bool :=
  match k with
  | .chip | .schG | .schJ | .rtuE | .qch | .erq | .tmp => true
  | .ptp => f = Reg.PTP_ADJ_offset_lo || f = Reg.PTP_ADJ_offset_hi || f = Reg.PTP_RATE_rate || f = Reg.PTP_CTL_valid
  | .anv0 => f = Reg.ANV_CFG_ctx_en
  | .tng0 => f = Reg.TNG_CFG_ctx_en
  | .bank => true
  | .drc => f = Reg.DRC_CFG_scrub_en || f = Reg.DRC_CFG_scrub_h
  | .blw => true
  | .schC => f = Reg.SCH_CTX_CFG_prio || f = Reg.SCH_CTX_CFG_spec_en
  | .lane => f = Reg.CXP_LANE_CFG_ctle_fix || f = Reg.CXP_LANE_CFG_ctle || f = Reg.CXP_LANE_CFG_dfe_hold
  | .enc => f = Reg.ENC_CFG_filt || f = Reg.ENC_CFG_avg || f = Reg.ENC_CFG_ill_lim || f = Reg.ENC_TIME_cab_t
      || f = Reg.ENC_TIME_stop_ms || f = Reg.ENC_STAT_ill || f = Reg.ENC_STAT_idx || f = Reg.TMR_CTL_en
  | .ltg => f = Reg.LTG_CTRL_arm
  | .rtu => f = Reg.RTU_GRP_CFG_arm
  | .fio => f = Reg.FIO_CH_CFG_evt || f = Reg.FIO_CH_CFG_diag_act || f = Reg.FIO_CH_IN_filt_n || f = Reg.FIO_CH_IN_wb_en
      || f = Reg.FIO_CH_OUT_lvl || f = Reg.FIO_LS_en || f = Reg.FIO_GLB_mirror_en || f = Reg.FIO_GLB_mirror_ch
      || f = Reg.FIO_CH_STAT_ovl_seen || f = Reg.FIO_CH_STAT_therm_seen || f = Reg.FIO_CH_STAT_wb_seen
      || f = Reg.FIO_CH_STAT_open_seen || f = Reg.CLAIM_ERR_code
  | .eth => f = Reg.ETH_TS_CORR_tx_ext || f = Reg.ETH_TS_CORR_rx_ext || decide (0x200 ≤ f.off) || f = Reg.CLAIM_ERR_code
  | .bry => f = Reg.BRY_CFG_en || f = Reg.BRY_SQ_addr || f = Reg.BRY_SQ_size_log2 || f = Reg.BRY_SQ_en
  | .arcS => f = Reg.ARC_BCONS_batches || f = Reg.ARC_MAN_CONS_cons
  | .xck => f = Reg.XCK_CFG_ctx_mask || f = Reg.XCK_AUD_CONS_cons || f = Reg.XCK_AUD_CFG_force_fold
      || f = Reg.XCK_REGEN_CTL_ctx || f = Reg.XCK_REGEN_ADDR_lo || f = Reg.XCK_REGEN_ADDR_hi
  | .lplC => f = Reg.LPL_CAM_CFG_stat_en || f = Reg.LPL_CAM_CFG_stat_evt || f = Reg.LPL_PLOAD_SRC_lo || f = Reg.LPL_PLOAD_SRC_hi || f = Reg.LPL_PLOAD_LINE_lo
      || f = Reg.LPL_PLOAD_LINE_hi || f = Reg.LPL_STAT_CONS_cons
  | _ => false

/-! ### Registers as words -/

/-- The fields of the register at page offset o, each with its instance. -/
def fieldsAt (k : PKind) (o : Nat) : List (Fld × Nat) :=
  (Reg.fields_hdr ++ Reg.fieldsOf k).filterMap (fun f =>
    if o < f.off then none
    else if f.stride = 0 then (if o = f.off then some (f, 0) else none)
    else if (o - f.off) % f.stride = 0 ∧ (o - f.off) / f.stride < f.count then some (f, (o - f.off) / f.stride)
    else none)

/-- What a write of v does to one field: a stored field takes its bits, a W1C bit clears where 1 is written, any
other field keeps its value (R10). BLK_STAT.blk is LV on a Class L page (R101). -/
def State.writeField (s : State) (base : Nat) (classL : Bool) (v : Nat) (fi : Fld × Nat) : State :=
  let f := fi.1
  match f.acc with
  | .rw => s.wr base f (bits v f.lo f.width) fi.2
  | .rws => s.wr base f (bits v f.lo f.width) fi.2
  | .w1c =>
    if f = Reg.BLK_STAT_blk && classL then s
    else
      let old := s.rd base f fi.2
      s.wr base f (old - (old &&& bits v f.lo f.width)) fi.2
  | _ => s

/-- Write every field of a register. -/
def State.writeWord (s : State) (addr v : Nat) : State :=
  match pageInfo (addr / 4096) with
  | none => s
  | some p =>
    (fieldsAt p.kind (addr % 4096)).foldl (fun s fi => s.writeField (addr / 4096 * 4096) p.classL v fi) s

/-- R106 holds this field back while its block is active. [DESIGN CHOICE: log entry 15.] -/
def State.heldField (s : State) (base : Nat) (k : PKind) (fi : Fld × Nat) : Bool :=
  (fi.1.acc = .rw || fi.1.acc = .rws) && decide (0x40 ≤ fi.1.off) && s.active base k fi.1 fi.2
    && !freeWhileActive k fi.1

/-- Some field of the register is held back now. [DESIGN CHOICE: log entry 15.] -/
def State.heldBack (s : State) (addr : Nat) : Bool :=
  match pageInfo (addr / 4096) with
  | none => false
  | some p => (fieldsAt p.kind (addr % 4096)).any (s.heldField (addr / 4096 * 4096) p.kind)

/-- Write the fields of a register that R106 may hold back (hold = true), or the others. -/
def State.writePart (s : State) (hold : Bool) (addr v : Nat) : State :=
  match pageInfo (addr / 4096) with
  | none => s
  | some p =>
    ((fieldsAt p.kind (addr % 4096)).filter (fun fi =>
        ((fi.1.acc = .rw || fi.1.acc = .rws) && decide (0x40 ≤ fi.1.off) && !freeWhileActive p.kind fi.1) = hold)).foldl
      (fun s fi => s.writeField (addr / 4096 * 4096) p.classL v fi) s

/-- The stored writes whose block has left active, carried out in order. [DESIGN CHOICE: log entry 15.] -/
def State.applyDeferred (s : State) (l : List (Nat × Nat)) : State :=
  l.foldl (fun s p => s.writePart true p.1 p.2) s

def State.stream (s : State) (i : Nat) : Stream := SMap.get s.streams i default

def State.setStream (s : State) (i : Nat) (x : Stream) : State := { s with streams := SMap.set s.streams i x default }

/-- A stream ends in its fault state (R527, R528, R531). -/
def State.arcFail (s : State) (i res : Nat) : State :=
  let p := P.arcS i
  if s.rd p Reg.ARC_SSTAT_state = 0 ∨ s.rd p Reg.ARC_SSTAT_state = 4 then s
  else
    let x := s.stream i
    let s := (s.wr p Reg.ARC_SSTAT_state 4).wr p Reg.ARC_SSTAT_res res
    let s := ((s.clrBlk p 8).clrBlk p 9).clrBlk p 10
    (s.setStream i { x with walked := [], resolved := [], order := [] }).raise 0xc00 0x69
      (le 1 i ++ le 1 2 ++ le 2 0 ++ le 4 x.corrupt ++ le 4 (s.rd p Reg.ARC_EPOCH_CUR_epoch))

/-- Context c is reset, fails, is evicted, or changes its prim_en: the streams that feed it fail. -/
def State.arcLose (s : State) (c : Nat) : State :=
  (List.range 64).foldl (fun s i => if s.rd (P.arcS i) Reg.ARC_SCFG_ctx = c then s.arcFail i 6 else s) s

/-- The streams that feed a context whose prim_en is no longer what it was in s0 fail (R528). -/
def State.primChanged (s s0 : State) : State :=
  (List.range 8).foldl (fun s c => if s.primEn c = s0.primEn c then s else s.arcLose c) s

/-- Writes stored for when the block next leaves active take effect (R106). -/
def State.flushDeferred (s : State) : State :=
  if s.deferred.isEmpty then s
  else (State.applyDeferred { s with deferred := s.deferred.filter (fun p => s.heldBack p.1) }
    (s.deferred.filter (fun p => !s.heldBack p.1))).primChanged s

/-! ### Field outputs -/

def State.chan (s : State) (n : Nat) : Chan := SMap.get s.field.chans n default

def State.setChan (s : State) (n : Nat) (c : Chan) : State :=
  { s with field := { s.field with chans := SMap.set s.field.chans n c default } }

/-- The demand of a channel's owner (R439, R440, R415). -/
def State.demand (s : State) (n : Nat) : Bool :=
  let o := s.rd P.fio Reg.CLAIM_FIO_owner n
  if o = ownPermit then s.seq.ready
  else if o = ownRtu then s.works P.rtu && !(SMap.get s.rtu.pulses n []).isEmpty
  else if o = ownLtg ∨ o = ownGp then (s.chan n).demand
  else false

/-- Channel n's switch is to be on (R53, R54, R431, R433, R437, R439, R446). -/
def State.driveOn (s : State) (n : Nat) : Bool :=
  s.rdb P.fio Reg.FIO_CH_CFG_dir n && s.demand n && !s.inReset && !s.unpowered && s.works P.fio && !s.rdb P.fio Reg.FIO_SUP_uv
    && (s.rd P.fio Reg.FIO_GLB_path = 1
        || (s.rd P.fio Reg.FIO_GLB_path = 0 && !s.field.sideOff && !(s.chan n).prot))

/-- Bring channel n's switch to where it is to be; a switch-on begins a pick phase on the main path and is counted
(R436, R450). -/
def State.driveChan (s : State) (n : Nat) : State :=
  let c := s.chan n
  let on := s.driveOn n
  if on = c.on then s
  else if on then
    let pick := decide (s.rd P.fio Reg.FIO_GLB_path = 0) && decide (s.rd P.fio Reg.FIO_CH_OUTCFG_pick_t n ≠ 0)
    (s.setChan n { c with on := true, pick := pick }).bump (P.fio + 0x800 + 0x10 * n)
  else s.setChan n { c with on := false, pick := false }

/-- [DEDUCED: log entry 12.] -/
def State.driveAll (s : State) : State := (List.range 16).foldl State.driveChan s

/-! ### The end of a command -/

/-- LINE_PERMIT and readiness after a command: withdrawal when a condition fails, turn-on with a passing switch test
when the module becomes inspection-ready (R55, R56, R80). [DEDUCED: log entry 12.] -/
def State.settlePermit (s : State) : State :=
  if s.isReady then
    if s.seq.ready then { s with seq := { s.seq with permit := s.seq.permit && !s.underTest P.fio } }
    else { s with seq := { s.seq with ready := true, wasReady := true,
                                      permit := s.seq.driveRuns && !s.seq.permitShort && !s.underTest P.fio } }
  else { s with seq := { s.seq with ready := false, permit := false } }

/-- An active block uses its registers, and finds one that mismatches (R103). [DEDUCED: log entry 147.] -/
def State.useCheck (s : State) : State :=
  s.parityBad.foldl (fun s a =>
    match pageInfo (a / 4096) with
    | some p => if s.pageActive (a / 4096 * 4096) p.kind then s.parityFound a else s
    | none => s) s

/-- What follows from any command: mismatching registers of active blocks, deferred writes of blocks that left active, the
permit, the field outputs. [DESIGN CHOICE: log entry 8.] [DEDUCED: log entry 12.] -/
def settle (s : State) : State := (s.useCheck.flushDeferred.settlePermit).driveAll

/-- How every command ends. -/
def fin (s : State) : Host.Outcome State Fault Refusal := .next (settle s)

/-! ### Registers as read -/

/-- CHIP_PWR.state: IDLE while every engine is gated (R70, R81). -/
def State.chipIdle (s : State) : Bool := (List.range 36).all (fun e => (s.eng e).gated)

/-- BLK_STAT.state of the page at base (R95, R362, R568, R577). -/
def State.blkState (s : State) (base : Nat) (k : PKind) : Nat :=
  let st := s.rd base Reg.BLK_STAT_state
  if st = 3 ∨ st = 4 ∨ st = 5 then st
  else if k = .lane ∧ (s.rdb base Reg.CXP_PRBS_CFG_gen_en ∨ s.rdb base Reg.CXP_PRBS_CFG_chk_en) then 5
  else if !s.rdb base Reg.BLK_CTRL_en then 0
  else if s.pageActive base k then 2 else 1

/-- Stored entry and job views (R310, R426, R584). -/
def State.entry (s : State) (n : Nat) : Option RtuEntry := SMap.find? s.rtu.entries n

def State.job (s : State) (j : Nat) : Option Job := SMap.find? s.sched.jobs j

def State.viewJob (s : State) (f : Fld) : Nat :=
  let slot := s.rd P.schJ Reg.SCH_JOB_SEL_slot
  let t := SMap.find? s.sched.tents (s.rd P.schJ Reg.SCH_TENT_SEL_entry)
  let j := s.job slot
  if f = Reg.SCH_JOB_STAT_valid then b2n j.isSome
  else if f = Reg.SCH_JOB_STAT_ctx then (j.map Job.ctx).getD 0
  else if f = Reg.SCH_JOB_STAT_phase then (j.map Job.phase).getD 0
  else if f = Reg.SCH_JOB_STAT_tag then (j.map Job.tag).getD 0
  else if f = Reg.SCH_JOB_OBJ_object then ((j.bind Job.box).map (fun b => b.object.toNat)).getD 0
  else if f = Reg.SCH_JOB_RTU_entry then (j.map Job.rtuFirst).getD 0
  else if f = Reg.SCH_JOB_TENT_tentative_valid then ((t.map (fun x => b2n x.valid)).getD 0)
  else if f = Reg.SCH_JOB_TENT_tentative_dec then ((t.map (fun x => b2n x.reject)).getD 0)
  else if f = Reg.SCH_JOB_TENT_tentative_cls then (t.map Tent.cls).getD 0
  else if f = Reg.SCH_JOB_TENT_tentative_gen then (t.map Tent.gen).getD 0
  else if f = Reg.SCH_JOB_TCONF_tentative_conf then (t.map Tent.conf).getD 0
  else if f = Reg.SCH_JOB_TCONF_tentative_obj_ctx then (t.map Tent.ctx).getD 0
  else if f = Reg.SCH_JOB_TOBJ_tentative_obj then (t.map Tent.object).getD 0
  else s.rd P.schJ f

def State.viewEntry (s : State) (f : Fld) : Nat :=
  let n := s.rd P.rtuE Reg.RTU_ESEL_entry
  let e := s.entry n
  if f = Reg.RTU_E_TGT_target then (e.map RtuEntry.target).getD 0
  else if f = Reg.RTU_E_INFO_state then (e.map RtuEntry.state).getD 0
  else if f = Reg.RTU_E_INFO_group then (e.map RtuEntry.group).getD 0
  else if f = Reg.RTU_E_INFO_failsafe then (e.map (fun x => b2n x.failPass)).getD 0
  else if f = Reg.RTU_E_INFO_nv then (e.map (fun x => b2n x.nv)).getD 0
  else if f = Reg.RTU_E_INFO_ctx then (e.map RtuEntry.ctx).getD 0
  else if f = Reg.RTU_E_INFO_gen then SMap.get s.rtu.gens n 0
  else if f = Reg.RTU_E_ACT_act_first then (e.map RtuEntry.actFirst).getD 0
  else if f = Reg.RTU_E_ACT_act_last then (e.map RtuEntry.actLast).getD 0
  else if f = Reg.RTU_E_OBJ_object then (e.map RtuEntry.object).getD 0
  else if f = Reg.RTU_E_TENT_tentative_valid then (e.map (fun x => b2n x.tentValid)).getD 0
  else if f = Reg.RTU_E_TENT_tentative_dec then (e.map (fun x => b2n x.tentDec)).getD 0
  else if f = Reg.RTU_E_TENT_tentative_staged then (e.map (fun x => b2n x.staged)).getD 0
  else if f = Reg.RTU_E_TENT_tentative_gen then SMap.get s.rtu.tentGens n 0
  else s.rd P.rtuE f

def State.viewQuench (s : State) (f : Fld) : Nat :=
  let u := s.rd P.qch Reg.QCH_SEL_entry
  let e := SMap.find? s.quench.entries u
  if f = Reg.QCH_ENT_result then (e.map QuenchEntry.result).getD 0
  else if f = Reg.QCH_ENT_untested then b2n (s.seq.untested.contains u)
  else if f = Reg.QCH_ENT_coverage then (e.map QuenchEntry.coverage).getD 0
  else if f = Reg.QCH_ENT_T_time_lo then (e.map QuenchEntry.lastPass).getD 0 % 2 ^ 32
  else if f = Reg.QCH_ENT_T_time_hi then (e.map QuenchEntry.lastPass).getD 0 / 2 ^ 32 % 2 ^ 32
  else s.rd P.qch f

def State.viewReady (s : State) (f : Fld) : Nat :=
  if f = Reg.CHIP_READY_ready then b2n s.isReady
  else if f = Reg.CHIP_READY_m_start then b2n s.mStart
  else if f = Reg.CHIP_READY_m_ctx then b2n s.mCtx
  else if f = Reg.CHIP_READY_m_enc then b2n s.mEnc
  else if f = Reg.CHIP_READY_m_rtu then b2n s.mRtu
  else if f = Reg.CHIP_READY_m_field then b2n s.mField
  else if f = Reg.CHIP_READY_m_net then b2n s.mNet
  else if f = Reg.CHIP_READY_m_check then b2n s.mCheck
  else if f = Reg.CHIP_READY_m_fault then b2n s.mFault
  else if f = Reg.CHIP_PWR_state then b2n s.chipIdle
  else if f = Reg.CHIP_SNAP_TIME_lo ∨ f = Reg.CHIP_SNAP_TIME_hi then (if s.timeInvalid then 0 else s.rd P.chip f)
  else s.rd P.chip f

def State.port (s : State) (p : Nat) : Port := SMap.get s.ports p default
def State.setPort (s : State) (p : Nat) (x : Port) : State := { s with ports := SMap.set s.ports p x default }

/-- TX_DISABLE of a port's cage: the port disabled, not seated, and the states without transmission (R50, R53, R454, R577). -/
def State.txDisabled (s : State) (p : Nat) : Bool :=
  !s.rdb (P.eth p) Reg.ETH_PORT_CFG_en || !s.board.seated || s.inReset || s.unpowered || s.underTest (P.eth p)

/-- The FEC in use: 1 at 10G and 3 act as 0 (R476). -/
def State.portFec (s : State) (p : Nat) : Nat :=
  let f := s.rd (P.eth p) Reg.ETH_PORT_CFG_fec
  if f = 3 ∨ (f = 1 ∧ s.rdb (P.eth p) Reg.ETH_PORT_CFG_speed) then 0 else f

/-- Levels of a port page: TX_DISABLE, the internal stamp corrections, the oldest entry of the timestamp queue (R461).
[DESIGN CHOICE: log entry 89.] -/
def State.viewPort (s : State) (p : Nat) (f : Fld) (i : Nat) : Nat :=
  let q := (s.port p).tsq
  let h := q.head?
  if f = Reg.ETH_PORT_STAT_tx_dis then b2n (s.txDisabled p)
  else if f = Reg.ETH_TS_CORR_INT_tx_int then
    Config.tsCorrInt (s.rd (P.eth p) Reg.ETH_PORT_CFG_speed) (s.portFec p) false % 65536
  else if f = Reg.ETH_TS_CORR_INT_rx_int then
    Config.tsCorrInt (s.rd (P.eth p) Reg.ETH_PORT_CFG_speed) (s.portFec p) true % 65536
  else if f = Reg.ETH_TSQ_HEAD0_time then (h.map TsEntry.time).getD 0 % 2 ^ 32
  else if f = Reg.ETH_TSQ_HEAD1_time then (h.map TsEntry.time).getD 0 / 2 ^ 32 % 2 ^ 32
  else if f = Reg.ETH_TSQ_HEAD2_id then (h.map TsEntry.id).getD 0
  else if f = Reg.ETH_TSQ_HEAD2_valid then b2n h.isSome
  else if f = Reg.ETH_TSQ_HEAD2_late then (h.map (fun e => b2n e.late)).getD 0
  else if f = Reg.ETH_TSQ_HEAD2_src then (h.map (fun e => b2n e.isSlot)).getD 0
  else if f = Reg.ETH_TSQ_HEAD2_slot then (h.map TsEntry.slot).getD 0
  else if f = Reg.ETH_TSQ_HEAD2_count then q.length
  else s.rd (P.eth p) f i

/-- A swap that names context c is pending (R308). -/
def State.swapNames (s : State) (c : Nat) : Bool :=
  s.ctxs.any (fun p => !p.2.swapped && match p.2.swapTo with
    | some (b, _) => p.1 = c || b = c
    | none => false)

/-- Jobs in flight of context c. -/
def State.ctxJobs (s : State) (c : Nat) : List (Nat × Job) := s.sched.jobs.filter (fun p => p.2.ctx = c)

/-- The placement a context runs on (R277, R308): 32, 31, 30 engines, or none. -/
def State.placement (s : State) : Nat :=
  let h := s.anvFree.length
  if h = 32 then 0 else if h = 31 then 1 else if h = 30 then 2 else 3

/-- Levels of the scheduler's global and context pages (R306, R308). -/
def State.viewSched (s : State) (f : Fld) : Nat :=
  if f = Reg.SCH_PLACE_h then s.anvFree.length
  else if f = Reg.SCH_PLACE_slots_used then s.sched.jobs.length
  else s.rd P.schG f

def State.viewCtx (s : State) (c : Nat) (f : Fld) (i : Nat) : Nat :=
  if f = Reg.SCH_CTX_STAT_placement then s.placement
  else if f = Reg.SCH_CTX_STAT_swap_pend then b2n (s.swapNames c)
  else if f = Reg.SCH_CTX_STAT_jobs then (s.ctxJobs c).length
  else if f = Reg.SCH_CTX_STAT_probes then ((SMap.find? s.ctxs c).map (fun x => x.probes.length)).getD 0
  else s.rd (P.schC c) f i

/-- Commands of engine e in flight whose opcode is one of ops. -/
def State.flying (s : State) (e : Nat) (ops : List Nat) : Nat :=
  (s.eng e).inflight.countP (fun p => ops.contains (bits p.2.w0.toNat 0 8))

/-- The first command that waits in a unit queue waits on its token (R150, R154). -/
def State.tokWait (s : State) (e : Nat) (q : Waiting) : Bool :=
  cmdWaits q.cmd && decide (SMap.get (s.eng e).tokens (16 * q.ctx + cmdWaitTok q.cmd) (0 : Nat) = 0)

/-- Commands of engine e wait in its queues, and the first of every queue that is not empty waits on a token (R163). -/
def State.allWait (s : State) (e : Nat) : Bool :=
  let l := (s.eng e).queued
  !l.isEmpty && (List.range 5).all (fun u => (l.find? (fun q => decide (cmdUnit (cmdOp q.cmd) = u))).all (s.tokWait e))

/-- BLK_STAT.blk of an Anvil engine's page 0 (R163). -/
def State.anvBlk (s : State) (e : Nat) : Nat :=
  let x := s.eng e
  b2n (s.flying e [1, 2] ≠ 0) + 2 * b2n (s.flying e [3, 4] ≠ 0) + 4 * b2n (s.flying e [5] ≠ 0)
    + 8 * b2n (s.allWait e) + 16 * b2n (!x.rwait.isEmpty && x.cur.isNone) + 32 * b2n x.gated + 64 * s.rd (P.anv e 0) Reg.ANV_CFG_rq_excl
    + 128 * b2n x.preReq.isSome

/-- BLK_STAT.blk of a Tongs engine's page 0 (R226). -/
def State.tngBlk (s : State) (t : Nat) : Nat :=
  let x := s.eng (32 + t)
  b2n (s.flying (32 + t) [0x22] ≠ 0) + 2 * b2n (s.flying (32 + t) [0x21] ≠ 0) + 4 * b2n (s.flying (32 + t) [0x20] ≠ 0)
    + 8 * b2n (s.flying (32 + t) [3, 4, 0x23, 0x24, 0x25] ≠ 0) + 16 * b2n (s.flying (32 + t) [5] ≠ 0) + 32 * b2n x.gated
    + 128 * b2n x.preReq.isSome

/-- The value of a field as a read shows it: a WO field reads 0, a level is computed, anything else is stored.
[DESIGN CHOICE: log entry 11.] -/
def State.view (s : State) (base : Nat) (k : PKind) (f : Fld) (i : Nat) : Nat :=
  if f.acc = .wo then 0
  else if f = Reg.BLK_STAT_state then s.blkState base k
  else if f = Reg.BLK_STAT_snap_busy then b2n (s.snapWait.contains (base / 4096))
  else if f = Reg.BLK_PARITY_err then
    b2n (s.parityBad.any (fun a => a / 4096 = base / 4096))
  else match k with
    | .anv0 => if f = Reg.BLK_STAT_blk then s.anvBlk ((base - P.anv 0 0) / 0x10000) else s.rd base f i
    | .anv2 =>
      if f = Reg.ANV_DMA_STAT_inflight then s.flying ((base - P.anv 0 2) / 0x10000) [5] else s.rd base f i
    | .tng0 => if f = Reg.BLK_STAT_blk then s.tngBlk ((base - P.tng 0 0) / 0x10000) else s.rd base f i
    | .chip => s.viewReady f
    | .schG => s.viewSched f
    | .schC => s.viewCtx ((base - P.schC 0) / 0x1000) f i
    | .schJ => s.viewJob f
    | .rtuE => s.viewEntry f
    | .qch => s.viewQuench f
    | .fio =>
      if f = Reg.FIO_CH_STAT_level && s.rdb P.fio Reg.FIO_CH_CFG_dir i then b2n (s.chan i).on else s.rd base f i
    | .bank => if f = Reg.BANK_CTL_shares then b2n (s.shareHeld i) else s.rd base f i
    | .erq =>
      if f = Reg.ERQ_TGT_tgt then s.target (s.rd P.erq Reg.ERQ_TSEL_src) else s.rd base f i
    | .eth => s.viewPort ((base - P.eth 0) / 0x1000) f i
    | .ptp =>
      if f = Reg.PTP_TIME_time_lo then s.now % 2 ^ 32
      else if f = Reg.PTP_TIME_time_hi then s.now / 2 ^ 32 % 2 ^ 32
      else s.rd base f i
    | _ => s.rd base f i

/-- A page whose clock is stopped in BANKED (R64, R72). -/
def pageStops (k : PKind) : Bool :=
  match k with
  | .enc | .ltg | .rtu | .rtuE | .fio | .eth | .ptp | .bry | .pcie | .erq => false
  | _ => true

/-- The value of a field as a read of its register at addr shows it: a write that R106 holds back is what was last written
(R10). [DESIGN CHOICE: log entry 15.] -/
def State.shown (s : State) (addr : Nat) (k : PKind) (fi : Fld × Nat) : Nat :=
  match s.deferred.find? (fun p => p.1 = addr) with
  | some p => if s.heldField (addr / 4096 * 4096) k fi then bits p.2 fi.1.lo fi.1.width
    else s.view (addr / 4096 * 4096) k fi.1 fi.2
  | none => s.view (addr / 4096 * 4096) k fi.1 fi.2

/-- The register word at an aligned BAR0 offset: identity words (R92, R93), counters, snapshots, fields (R9, R13).
[DESIGN CHOICE: log entry 11.] -/
def State.readWord (s : State) (addr : Nat) : Nat :=
  match pageInfo (addr / 4096) with
  | none => 0
  | some p =>
    let o := addr % 4096
    if o = 0 then p.src + p.index * 2 ^ 12 + p.last * 2 ^ 19 + b2n p.classL * 2 ^ 26
    else if o = 4 then 0x10100
    else if 0x800 ≤ o ∧ o < 0xc00 then
      if o % 8 = 0 then s.ctr addr % 2 ^ 32
      else s.ctr (addr - 4) / 2 ^ 32
    else if 0xc00 ≤ o then
      if o % 8 = 0 then SMap.get s.snaps (addr - 0x400) 0 % 2 ^ 32
      else SMap.get s.snaps (addr - 0x404) 0 / 2 ^ 32
    else
      ((fieldsAt p.kind o).map (fun fi => s.shown addr p.kind fi * 2 ^ fi.1.lo)).foldl (· + ·) 0

end Sys2Proof.Machine
end

