-- ==== Sys2Proof/Machine/Access.lean ====
section
/-! DEFINITION. How a register access reaches its page, the header's own commands, snapshots, parity and the claim
registers (R72, R90 to R130). -/

namespace Sys2Proof.Machine

/-! ### Reaching a page -/

/-- The configuration region of a page (R90). -/
def inConfig (addr : Nat) : Bool := decide (0x40 ≤ addr % 4096) && decide (addr % 4096 < 0x800)

/-- The driver's accesses are lost while the module is unpowered, in reset (R589) or in soft start. -/
def State.hostReach (s : State) : Bool := !s.inReset && !s.unpowered

/-- CORECLK, PIXCLK, HEARTHCLK and the DRAM controllers run (R53, R64, R69). -/
def State.clocked (s : State) : Bool := s.hostReach && decide (s.seq.power ≠ .banked)

/-- What happens in a block of those clocks happens only while they run. -/
def State.whenClocked (s : State) (k : State → State) : State := if s.clocked then k s else s

def State.pageStopped (s : State) (addr : Nat) : Bool :=
  decide (s.seq.power = .banked) && match pageInfo (addr / 4096) with
    | some p => pageStops p.kind
    | none => false

/-- Set an edge latch of CHIP_WAKE (R72, R85). [DEDUCED: log entry 35.] -/
def State.latch (s : State) (i : Nat) : State :=
  s.wr P.chip Reg.CHIP_WAKE_latch (setBit (s.rd P.chip Reg.CHIP_WAKE_latch) i)

/-- The register at addr has a stored field in the configuration region, and parity covers it: the MSI-X table has none
(R509). -/
def storesConfig (addr : Nat) : Bool :=
  inConfig addr && !(addr / 4096 = P.erq / 4096 && decide (0x400 ≤ addr % 4096)) && match pageInfo (addr / 4096) with
    | some p => (fieldsAt p.kind (addr % 4096)).any (fun fi => fi.1.acc = .rw || fi.1.acc = .rws)
    | none => false

/-- A configuration write stores fresh parity, or inverted parity once where it was injected (R100, R103, R104). -/
def State.storeParity (s : State) (addr : Nat) : State :=
  if storesConfig addr then
    let pg := addr / 4096
    let s := { s with parityBad := s.parityBad.filter (fun a => a ≠ addr) }
    if s.injectArmed.contains pg then
      { s with injectArmed := s.injectArmed.filter (fun p => p ≠ pg), parityBad := addr :: s.parityBad }
    else s
  else s

/-- A register write reaches its page and has the effect k: nothing happens while the module cannot be reached; a
stopped page sets the register-access latch (R72); a page under test or a locked configuration region ignores and
counts it (R94, R577). -/
def State.onWrite (s : State) (addr : Nat) (k : State → State) : State :=
  let base := addr / 4096 * 4096
  if !s.hostReach then s
  else if s.pageStopped addr then s.latch 2
  else if s.underTest base then s.note base .ignoredWrite
  else if inConfig addr && s.rdb base Reg.BLK_CTRL_cfg_lock then s.note base .ignoredWrite
  else k (s.storeParity addr)

/-- Store a plain register: fields that may change now take the value, the others wait until the block leaves active
and the write is counted (R106). A read shows what was last written meanwhile (R10). [DESIGN CHOICE: log entry 15.] -/
def State.storePlain (s : State) (addr v : Nat) : State :=
  if s.heldBack addr then
    let s := (s.writePart false addr v).note (addr / 4096 * 4096) .deferredWrite
    { s with deferred := s.deferred.filter (fun p => p.1 ≠ addr) ++ [(addr, v)] }
  else s.writeWord addr v

/-! ### Parity scan and fault clear -/

/-- The scan visits the register at addr (R103). What the block's own chapter adds is State.faultAction's. -/
def State.parityScan (s : State) (addr : Nat) : State :=
  if s.parityBad.contains addr && inConfig addr && !s.pageStopped addr then s.parityFound addr else s

/-- FAULT_CLR (R96, R105): a page leaves its fault state for idle, where it stays until its enabling sequence.
[DEDUCED: log entry 19.] [DESIGN CHOICE: log entry 148.] -/
def State.faultClr (s : State) (base : Nat) (gone : Bool) : State :=
  if s.inFault base then
    if gone && !s.parityBad.any (fun a => a / 4096 = base / 4096) then s.leaveTo base idleHeld
    else s.note base .clrRefused
  else s.clearErr base

def execFaultClr (page : BitVec 14) (causesGone : Bool) (s : State) : Host.Outcome State Fault Refusal :=
  let base := page.toNat * 4096
  fin (s.onWrite (base + 8) (fun s => if (pageInfo page.toNat).isSome then s.faultClr base causesGone else
    s.note P.chip .reservedAccess))

/-- An injection is armed on page n, in MANUFACTURE and RETURNED only (R100). -/
def State.parityInject (s : State) (n : Nat) : State :=
  let lc := s.rd P.tmp Reg.TMP_LC_state
  if (lc = 1 || lc = 4) && !s.injectArmed.contains n then { s with injectArmed := n :: s.injectArmed } else s

def execParityInject (page : BitVec 14) (s : State) : Host.Outcome State Fault Refusal :=
  fin (s.onWrite (page.toNat * 4096 + 0x1c) (fun s =>
    if (pageInfo page.toNat).isNone then s.note P.chip .reservedAccess else s.parityInject page.toNat))

/-! ### Snapshots (R107 to R112) -/

/-- A counter of the page at base, by its BAR0 offset. -/
def inCounters (base a : Nat) : Bool := decide (base + 0x800 ≤ a) && decide (a < base + 0xc00)

/-- Merge l into the rising list m: keys of l replace those of m, the first of a key in l before a later one. -/
def SMap.putAll (m : SMap Nat) (l : List (Nat × Nat)) : SMap Nat := l.foldr (fun p m => SMap.insert m p.1 p.2) m

/-- One capture in the page at base (R99, R109). -/
def State.capture (s : State) (base : Nat) : State :=
  let keep := s.snaps.filter (fun p => !inCounters base p.1)
  let s := { s with snaps := SMap.putAll keep (s.ctrs.filter (fun p => inCounters base p.1)) }
  s.wr base Reg.BLK_SNAP_seq (s.rd base Reg.BLK_SNAP_seq + 1)

/-- Pages held in CORECLK (R64): they capture a broadcast in its own cycle (R110). -/
def coreclkPages : List Nat :=
  [P.chip, P.clk, P.pwr, P.bank, P.noc, P.blw, P.replay, P.schG, P.schJ, P.flt, P.qch, P.xck]
    ++ (List.range 8).map P.schC
    ++ (List.range 32).flatMap (fun e => [P.anv e 0, P.anv e 1, P.anv e 2])
    ++ (List.range 4).flatMap (fun t => [P.tng t 0, P.tng t 1])

/-- The pages of the other clocks. -/
def otherPages : List Nat :=
  [P.drc 0, P.drc 1, P.cfe0, P.enc, P.ltg, P.rtu, P.rtuE, P.fio, P.eth 0, P.eth 1, P.ptp, P.bry, P.pcie, P.erq, P.arcG, P.tmp]
    ++ (List.range 16).map P.lane ++ (List.range 8).map P.cfeC ++ (List.range 4).map P.lplI ++ (List.range 8).map P.lplC
    ++ (List.range 64).map P.arcS

/-- The clock that holds the page does not run: BANKED stops it, or it is lost (R64, R65).
[DESIGN CHOICE: log entry 149.] -/
def State.clockStopped (s : State) (base : Nat) : Bool :=
  s.pageStopped base || match pageInfo (base / 4096) with
    | some p => match p.kind with
      | .eth | .ptp | .bry => s.seq.clkLost.contains .eth
      | .pcie | .erq => s.seq.clkLost.contains .pcie
      | _ => false
    | none => true

/-- A broadcast that the page has yet to capture is captured, where its clock runs (R110, R111). -/
def State.captureWaiting (s : State) (base : Nat) : State :=
  if s.snapWait.contains (base / 4096) then
    let s := { s with snapWait := s.snapWait.filter (fun n => n ≠ base / 4096) }
    if s.clockStopped base then s else s.capture base
  else s

/-- CHIP_SNAP (R110 to R112): the pages of CORECLK capture in the same cycle, the others that run at SNAP_CAPTURE. -/
def State.chipSnap (s : State) (within256 : Bool) : State :=
  if within256 then s.note P.chip .snapIgnored
  else
    let s := otherPages.foldl State.captureWaiting s
    let s := coreclkPages.foldl State.capture s
    let s := { s with snapWait := (otherPages.filter (fun b => !s.clockStopped b)).map (· / 4096) }
    s.wr2 P.chip Reg.CHIP_SNAP_TIME_lo Reg.CHIP_SNAP_TIME_hi (if s.timeInvalid then 0 else s.now)

def execChipSnap (within256 : Bool) (s : State) : Host.Outcome State Fault Refusal :=
  fin (s.onWrite 0x18 (fun s => s.chipSnap within256))

/-- BLK_SNAP; page 0's is CHIP_SNAP. -/
def execBlkSnap (page : BitVec 14) (s : State) (within256 : Bool := false) : Host.Outcome State Fault Refusal :=
  fin (s.onWrite (page.toNat * 4096 + 0x18) (fun s =>
    if page = 0 then s.chipSnap within256
    else if (pageInfo page.toNat).isSome then s.capture (page.toNat * 4096)
    else s.note P.chip .reservedAccess))

/-- SNAP_CAPTURE (R110, R111): a page of another clock makes the capture of the last broadcast. -/
def execSnapCapture (page : BitVec 14) (s : State) : Host.Outcome State Fault Refusal :=
  fin (s.captureWaiting (page.toNat * 4096))

/-! ### Reads (R108) -/

/-- The lower word of a 64-bit value whose read latches the upper one: a live counter, or PTP_TIME. -/
def latches (a : Nat) : Bool :=
  (decide (0x800 ≤ a % 4096) && decide (a % 4096 < 0xc00) && decide (a % 8 = 0)) || decide (a = P.ptp + 0x40)

/-- What a read of the register at a returns: an upper word that the last read of its page latched, or the present
value. -/
def State.readValue (s : State) (a : Nat) : Nat :=
  match SMap.find? s.host.upperLatch (a / 4096) with
  | some l => if l.1 = a then l.2 else s.readWord a
  | none => s.readWord a

/-- A register read: it ends its page's latch, and a lower word makes one. -/
def State.regRead (s : State) (a : Nat) : State :=
  let m := SMap.erase s.host.upperLatch (a / 4096)
  { s with host := { s.host with
    readData := le 4 (s.readValue a), readPoisoned := false
    upperLatch := if latches a then SMap.insert m (a / 4096) (a + 4, s.readWord (a + 4)) else m } }

/-- COUNTER_LOW_READ, and a read of any other register. -/
def State.counterLowRead (s : State) (a : Nat) : State :=
  if !s.hostReach then s
  else if s.pageStopped a then
    { s.latch 2 with host := { (s.latch 2).host with readData := le 4 0, readPoisoned := false } }
  else s.regRead (a / 4 * 4)

def execCounterLowRead (addr : Bar0Addr) (s : State) : Host.Outcome State Fault Refusal :=
  fin (s.counterLowRead addr.toNat)

/-- An access of no effect: a read returns 0 (R9, R13, R114). -/
def State.voidAccess (s : State) (isRead : Bool) (n : Nat) : State :=
  if isRead then { s with host := { s.host with readData := List.replicate n 0, readPoisoned := false } } else s

/-- REGISTER_ACCESS_INVALID (R9, R13, R114): no effect, counted by the block, or by the chip page where no page stands. -/
def execRegisterAccessInvalid (addr : Bar0Addr) (isRead : Bool) (s : State) : Host.Outcome State Fault Refusal :=
  let a := addr.toNat
  if !s.hostReach then fin s
  else if s.pageStopped a then fin ((s.latch 2).voidAccess isRead 4)
  else
    match pageInfo (a / 4096) with
    | some _ => fin ((s.note (a / 4096 * 4096) .invalidAccess).voidAccess isRead 4)
    | none => fin ((s.note P.chip .reservedAccess).voidAccess isRead 4)

/-- STOPPED_PAGE_ACCESS (R72): no effect, reads 0, sets the register-access latch. -/
def execStoppedPageAccess (addr : Bar0Addr) (isRead : Bool) (s : State) : Host.Outcome State Fault Refusal :=
  if s.pageStopped addr.toNat then fin ((s.latch 2).voidAccess isRead 4) else fin s

/-! ### Claim registers (R123 to R130) -/

/-- The four kinds of claimable resources (R123). -/
inductive ResKind where
  | chan | slot | path | timer
  deriving DecidableEq, Repr, Inhabited

/-- A resource: its kind, its page, its index in the page. -/
structure Res where
  kind : ResKind
  base : Nat
  idx : Nat
  deriving DecidableEq, Repr, Inhabited

/-- The resource whose claim register lies at a BAR0 offset (R123). -/
def resAt (addr : Nat) : Option Res :=
  let base := addr / 4096 * 4096
  let o := addr % 4096
  if o % 4 ≠ 0 then none
  else if base = P.fio ∧ 0x40 ≤ o ∧ o < 0x80 then some ⟨.chan, base, (o - 0x40) / 4⟩
  else if (base = P.eth 0 ∨ base = P.eth 1) ∧ 0x40 ≤ o ∧ o < 0xc0 then some ⟨.slot, base, (o - 0x40) / 4⟩
  else if base = P.cfe0 ∧ 0x40 ≤ o ∧ o < 0x60 then some ⟨.path, base, (o - 0x40) / 4⟩
  else if base = P.enc ∧ 0x100 ≤ o ∧ o < 0x120 then some ⟨.timer, base, (o - 0x100) / 4⟩
  else none

def Res.ownerF (r : Res) : Fld :=
  match r.kind with
  | .chan => Reg.CLAIM_FIO_owner | .slot => Reg.CLAIM_ETH_owner | .path => Reg.CLAIM_CFE0_owner
  | .timer => Reg.CLAIM_ENC_owner

def Res.unitF (r : Res) : Fld :=
  match r.kind with
  | .chan => Reg.CLAIM_FIO_unit | .slot => Reg.CLAIM_ETH_unit | .path => Reg.CLAIM_CFE0_unit
  | .timer => Reg.CLAIM_ENC_unit

def State.owner (s : State) (r : Res) : Nat := s.rd r.base r.ownerF r.idx

def State.ownerUnit (s : State) (r : Res) : Nat := s.rd r.base r.unitF r.idx

/-- The classes a resource permits (R123), and R439's rule for a channel that is an input. -/
def State.permits (s : State) (r : Res) (cls : Nat) : Bool :=
  match r.kind with
  | .chan => cls = ownGp || ((cls = ownPermit || cls = ownRtu || cls = ownLtg) && s.rdb P.fio Reg.FIO_CH_CFG_dir r.idx)
  | .slot => cls = ownRtu || cls = ownGp
  | .path => cls = ownLtg || cls = ownGp
  | .timer => cls = ownLtg || cls = ownGp

/-- The code a claim fails with, none where it succeeds (R125, R129). [DEDUCED: log entry 22.] -/
def State.claimCode (s : State) (r : Res) (cls : Nat) : Option Nat :=
  if !s.permits r cls then some 4 else if s.owner r ≠ ownFree then some 1 else none

/-- Timers run for an LTG that is armed, or for a GP owner with en = 1 (R407). [DEDUCED: log entry 78.] -/
def State.timerRun (s : State) (t : Nat) : State :=
  let o := s.rd P.enc Reg.CLAIM_ENC_owner t
  s.wrb P.enc Reg.TMR_CTL_run (o = ownLtg || (o = ownGp && s.rdb P.enc Reg.TMR_CTL_en t)) t

/-- [DEDUCED: log entry 78.] -/
def State.setOwner (s : State) (r : Res) (cls unit : Nat) : State :=
  let s := (s.wr r.base r.ownerF cls r.idx).wr r.base r.unitF unit r.idx
  match r.kind with
  | .timer => s.timerRun r.idx
  | .chan => s.setChan r.idx { s.chan r.idx with demand := cls = ownGp && s.rdb P.fio Reg.FIO_CH_OUT_lvl r.idx }
  | _ => s

/-- Record a failed claim (op 1) or release (op 2): CLAIM_ERR, the count, the CLAIM_FAIL record (R129, R587). -/
def State.claimFail (s : State) (r : Res) (code cls unit op : Nat) : State :=
  let s := ((s.wr r.base Reg.CLAIM_ERR_code code).wr r.base Reg.CLAIM_ERR_resource r.idx).wr r.base Reg.CLAIM_ERR_req cls
  let s := s.note r.base .claimFailed
  s.raise (srcOf r.base) 0x02 (le 4 (code + 16 * r.idx + 65536 * (cls % 8)) ++ le 1 op ++ le 1 unit)

/-- Claim a resource, or fail with its code. -/
def State.tryClaim (s : State) (r : Res) (cls unit : Nat) : State :=
  match s.claimCode r cls with
  | none => s.setOwner r cls unit
  | some c => s.claimFail r c cls unit 1

/-- The channels of a local entry (R409). -/
def State.entryChans (s : State) (e : RtuEntry) : List Nat :=
  let a0 := s.rd P.rtu Reg.RTU_GRP_ACT_act0 e.group
  let c0 := s.rd P.rtu Reg.RTU_GRP_CFG_ch0 e.group
  (List.range (e.actLast + 1 - e.actFirst)).map (fun i => c0 + (e.actFirst + i - a0))

/-- Entries of group g are not yet resolved (R128). -/
def State.unresolved (s : State) (g : Nat) : List RtuEntry :=
  (s.rtu.entries.map Prod.snd).filter (fun e => e.group = g && decide (e.state = 1))

/-- The owner has a pending use of the resource (R128, R403): an entry not yet resolved on the channel, or, as its slot is
given when it resolves, of the slot's group; a pulse that is on; a queued launch. [DEDUCED: log entry 23.] -/
def State.pendingUse (s : State) (r : Res) : Bool :=
  match r.kind with
  | .chan =>
    if s.owner r = ownRtu then
      (s.unresolved (s.ownerUnit r)).any (fun e => (s.entryChans e).contains r.idx) || !(SMap.get s.rtu.pulses r.idx []).isEmpty
    else if s.owner r = ownLtg then (s.chan r.idx).demand
    else false
  | .slot =>
    decide (2 ≤ s.rd r.base Reg.LSLOT_CTRL_state r.idx)
      || (s.owner r = ownRtu && !(s.unresolved (s.ownerUnit r)).isEmpty)
  | _ => false

/-- The code a release fails with (R128, R129). -/
def State.releaseCode (s : State) (r : Res) (cls unit : Nat) : Option Nat :=
  if s.owner r ≠ cls ∨ s.ownerUnit r ≠ unit ∨ s.owner r = ownFree then some 2
  else if s.pendingUse r then some 3
  else none

def State.tryRelease (s : State) (r : Res) (cls unit : Nat) : State :=
  match s.releaseCode r cls unit with
  | none => s.setOwner r ownFree 0
  | some c => s.claimFail r c cls unit 2

/-- An arming and what it claims (R126). -/
structure Arming where
  cls : Nat
  unit : Nat
  res : List Res
  deriving DecidableEq, Repr, Inhabited

/-- Claim a of one cycle comes before claim b (R127). -/
def Arming.before (a b : Arming) : Bool := decide (a.cls < b.cls) || (decide (a.cls = b.cls) && decide (a.unit < b.unit))

/-- The code with which an arming's claim of r fails beside the armings of the same cycle; each resource is settled on its
own (R125, R127). -/
def State.armCode (s : State) (rivals : List Arming) (a : Arming) (r : Res) : Option Nat :=
  match s.claimCode r a.cls with
  | some c => some c
  | none => if rivals.any (fun b => b.before a && b.res.contains r && (s.claimCode r b.cls).isNone) then some 5 else none

/-- The claims of an arming that fail, each with its code. -/
def State.armFails (s : State) (rivals : List Arming) (a : Arming) : List (Res × Nat) :=
  a.res.filterMap (fun r => (s.armCode rivals a r).map (fun c => (r, c)))

/-- Record every failure of an arming (R129). -/
def State.armFailed (s : State) (a : Arming) (l : List (Res × Nat)) : State :=
  l.foldl (fun s p => s.claimFail p.1 p.2 a.cls a.unit 1) s

/-- The claims of an arming that succeeds. -/
def State.armOwn (s : State) (a : Arming) : State := a.res.foldl (fun s r => s.setOwner r a.cls a.unit) s

/-- Settle an arming on the claims that stood at the beginning of its cycle: all of its claims, or none with every failure
recorded (R126). -/
def State.armOn (s s0 : State) (rivals : List Arming) (a : Arming) (ok failed : State → State) : State :=
  let l := s0.armFails rivals a
  if l.isEmpty then ok (s.armOwn a) else failed (s.armFailed a l)

/-- A write of a claim register: op 1 claims, op 2 releases, 0 and 3 do nothing (R124). -/
def State.claimWrite (s : State) (r : Res) (v : Nat) : State :=
  if bits v 30 2 = 1 then s.tryClaim r (bits v 16 3) (bits v 20 8)
  else if bits v 30 2 = 2 then s.tryRelease r (bits v 16 3) (bits v 20 8)
  else s

/-- CLAIM (R124, R125): the request's class and unit are in the word. -/
def execClaim (addr : Bar0Addr) (v : Word) (s : State) : Host.Outcome State Fault Refusal :=
  match resAt addr.toNat with
  | none => .refused .illFormed
  | some r => fin (s.onWrite addr.toNat (fun s => s.claimWrite r v.toNat))

/-- RELEASE (R128). -/
def execRelease (addr : Bar0Addr) (v : Word) (s : State) : Host.Outcome State Fault Refusal :=
  match resAt addr.toNat with
  | none => .refused .illFormed
  | some r => fin (s.onWrite addr.toNat (fun s => s.claimWrite r v.toNat))

end Sys2Proof.Machine
end

