-- ==== Sys2Proof/Machine/Erq.lean ====
section
/-! DEFINITION. Event record queues, MSI-X, targets, the mailbox ring and the Host Session Reset (R482 to R511). -/

namespace Sys2Proof.Machine

/-! ### MSI-X (R494, R509) -/

def State.bme (s : State) : Bool := s.rdb P.pcie Reg.PCIE_STAT_bme

/-- The message of vector q is sent: its data is written at its address, and it is listed. -/
def State.msixSend (s : State) (q : Nat) : State :=
  let a := s.rd2 P.erq Reg.MSIX_TABLE_addr_lo Reg.MSIX_TABLE_addr_hi q
  let d := s.rd P.erq Reg.MSIX_TABLE_data q
  { s with hostMem := Memory.writeBytes s.hostMem a (le 4 d), host := { s.host with msix := s.host.msix ++ [q] } }

def State.msixMasked (s : State) (q : Nat) : Bool := s.host.funcMask || s.rdb P.erq Reg.MSIX_TABLE_mask q

/-- Queue q raises its vector: nothing while MSI-X Enable is 0, the pending bit while masked, else the message. -/
def State.msixFire (s : State) (q : Nat) : State :=
  if !s.rdb P.pcie Reg.PCIE_STAT_msix_en || !s.bme then s
  else if s.msixMasked q then s.wr P.erq Reg.MSIX_PBA_pend (setBit (s.rd P.erq Reg.MSIX_PBA_pend) q)
  else s.msixSend q

/-- A vector that is pending and no longer masked sends its message. -/
def State.msixRelease (s : State) (q : Nat) : State :=
  if bit (s.rd P.erq Reg.MSIX_PBA_pend) q && !s.msixMasked q && s.rdb P.pcie Reg.PCIE_STAT_msix_en && s.bme then
    (s.wr P.erq Reg.MSIX_PBA_pend (clrBit (s.rd P.erq Reg.MSIX_PBA_pend) q)).msixSend q
  else s

/-! ### Host queues (R492, R493) -/

/-- log2 of a host queue's size (R507). -/
def State.erqLog (s : State) (q : Nat) : Nat :=
  let n := s.rd P.erq Reg.ERQ_QCFG_size_log2 q
  if 4 ≤ n ∧ n ≤ 15 then n else 4

/-- Records in host queue q. -/
def State.erqUsed (s : State) (q : Nat) : Nat :=
  let n := 2 ^ s.erqLog q
  (s.rd P.erq Reg.ERQ_QPROD_prod q + n - s.rd P.erq Reg.ERQ_QCONS_cons q % n) % n

/-- Free places: a queue holds at most 2^n - 1 records. -/
def State.erqFree (s : State) (q : Nat) : Nat := 2 ^ s.erqLog q - 1 - s.erqUsed q

/-- The 32 bytes of a record (R485). -/
def recBytes (r : EventRec) (phase lost : Bool) (seq : Nat) : List Byte :=
  let fl := r.flags.toNat - r.flags.toNat % 2 + b2n phase
  let fl := if lost then setBit fl 2 else fl
  le 2 r.src.toNat ++ le 1 r.typ.toNat ++ le 1 fl ++ le 4 seq ++ le 8 r.time.toNat ++ padTo 16 r.payload

def State.isLost (s : State) (t : Nat) : Bool := s.host.lost.contains t

/-- [DEDUCED: log entry 38.] -/
def State.setLost (s : State) (t : Nat) (b : Bool) : State :=
  let l := s.host.lost.filter (fun x => x ≠ t)
  { s with host := { s.host with lost := if b then t :: l else l } }

/-- Write one record to host queue q at its producer index (R492). -/
def State.erqPut (s : State) (q : Nat) (r : EventRec) : State :=
  let prod := s.rd P.erq Reg.ERQ_QPROD_prod q
  let seq := s.rd P.erq Reg.ERQ_QSEQ_seq q
  let ph := s.rdb P.erq Reg.ERQ_QPROD_phase q
  let a := s.rd2 P.erq Reg.ERQ_QBASE_addr_lo Reg.ERQ_QBASE_addr_hi q + 32 * prod
  let wasEmpty := s.erqUsed q = 0
  let s := { s with hostMem := Memory.writeBytes s.hostMem a (recBytes r ph (s.isLost (0x10 + q)) seq) }
  let s := s.setLost (0x10 + q) false
  let nxt := (prod + 1) % 2 ^ s.erqLog q
  let s := (s.wr P.erq Reg.ERQ_QPROD_prod nxt q).wr P.erq Reg.ERQ_QSEQ_seq (seq + 1) q
  let s := if nxt = 0 then s.wrb P.erq Reg.ERQ_QPROD_phase (!ph) q else s
  let s := s.bump (P.erq + 0x800 + 0x10 * q)
  if wasEmpty then s.msixFire q else s

/-- A unit for host queue q: written whole, or dropped whole (R487, R493). -/
def State.erqUnit (s : State) (q : Nat) (u : RecUnit) : State :=
  if s.erqFree q < u.recs.length then
    let s := s.wr P.erq Reg.ERQ_QSEQ_seq (s.rd P.erq Reg.ERQ_QSEQ_seq q + u.recs.length) q
    ((s.bump (P.erq + 0x808 + 0x10 * q) u.recs.length).setBlk P.erq 8).setLost (0x10 + q) true
  else u.recs.foldl (fun s r => s.erqPut q r) s

/-- A unit for Hearth core k's queue of 256 records (R491). [DEDUCED: log entry 38.] -/
def State.hearthUnit (s : State) (k : Nat) (u : RecUnit) : State :=
  let l := SMap.get s.host.hearthQ k []
  let n := SMap.get s.host.hearthSeq k 0
  let s := { s with host := { s.host with
    hearthSeq := SMap.set s.host.hearthSeq k ((n + u.recs.length) % 2 ^ 32) 0 } }
  if 256 < l.length + u.recs.length then
    ((s.bump (P.erq + 0x910) u.recs.length).setBlk P.erq 10).setLost (0x20 + k) true
  else
    let lost := s.isLost (0x20 + k)
    let recs := match u.recs with
      | r :: rs => (if lost then { r with flags := r.flags ||| 4 } else r) :: rs
      | [] => []
    let s := s.setLost (0x20 + k) false
    { s with host := { s.host with hearthQ := SMap.set s.host.hearthQ k (l ++ recs) [] } }

/-- Records of an inactive source are not written and are counted (R490). [DEDUCED: log entry 37.] -/
def State.dropInactive (s : State) (n : Nat) : State := (s.bump (P.erq + 0x900) n).setBlk P.erq 9

/-- A unit goes to its target, or is not written because its source is inactive (R490). -/
def State.writeUnit (s : State) (u : RecUnit) : State :=
  let t := u.target.toNat
  if isHostErq t then
    if s.rdb P.erq Reg.ERQ_QCFG_en (t - 0x10) && s.bme then s.erqUnit (t - 0x10) u else s.dropInactive u.recs.length
  else if isHearthQ t then s.hearthUnit (t - 0x20) u
  else s.dropInactive u.recs.length

/-- EVENT_RECORD_WRITE: the oldest unit produced is written or dropped, in the order of production (R483).
[DEDUCED: log entry 37.] -/
def State.eventWrite (s : State) : State :=
  match s.host.produced with
  | [] => s
  | u :: us => ({ s with host := { s.host with produced := us } }).writeUnit u

def execEventRecordWrite (s : State) : Host.Outcome State Fault Refusal := fin s.eventWrite

/-! ### Doorbells of the queues and the mailbox (R496) -/

/-- BAR4 writes made while BANKED are kept and set their latch (R495). [DEDUCED: log entry 39.] -/
def State.keepDoorbell (s : State) (off : Nat) (v : Word) (l : Nat) : State :=
  let s := s.latch l
  { s with host := { s.host with keptDoorbells := s.host.keptDoorbells ++ [(off, v)] } }

/-- A BAR4 doorbell write: lost while the module is not reached, kept while BANKED, else acted on. -/
def State.onDoorbell (s : State) (off : Nat) (v : Word) (k : State → State) : State :=
  if !s.hostReach then s
  else if s.seq.power = .banked then s.keepDoorbell off v (if off = 0xc000 then 1 else 0)
  else k s

/-- The consumer doorbell of host queue q (R494, R496). -/
def State.erqConsume (s : State) (q v : Nat) : State :=
  let i := v % 2 ^ 15
  if !s.rdb P.erq Reg.ERQ_QCFG_en q || decide (2 ^ s.erqLog q ≤ i) then s.bump (P.erq + 0x908)
  else
    let s := s.wr P.erq Reg.ERQ_QCONS_cons i q
    if s.erqUsed q = 0 then s else s.msixFire q

def execErqConsumerDoorbell (q : Fin 16) (v : Word) (s : State) : Host.Outcome State Fault Refusal :=
  fin (s.onDoorbell (0x8000 + 0x400 * q) v (fun s => s.erqConsume q v.toNat))

/-- log2 of the mailbox ring's size (R508). -/
def State.mbxLog (s : State) : Nat :=
  let n := s.rd P.erq Reg.MBX_CFG_size_log2
  if 2 ≤ n ∧ n ≤ 6 then n else 4

/-- The mailbox doorbell (R496, R497). -/
def State.mbxDoorbell (s : State) (v : Nat) : State :=
  let i := v % 2 ^ 6
  if !s.rdb P.erq Reg.MBX_CFG_en || decide (2 ^ s.mbxLog ≤ i) then s.bump (P.erq + 0x908)
  else s.wr P.erq Reg.MBX_STAT_prod i

def execMailboxDoorbell (v : Word) (s : State) : Host.Outcome State Fault Refusal :=
  fin (s.onDoorbell 0xc000 v (fun s => s.mbxDoorbell v.toNat))

/-! ### Queue, mailbox and target registers -/

/-- MSIX_UNMASK: clearing a vector's mask sends its pending message (R494). -/
def execMsixUnmask (q : Fin 16) (s : State) : Host.Outcome State Fault Refusal :=
  fin (s.onWrite (P.erq + 0x40c + 16 * q) (fun s => (s.wr P.erq Reg.MSIX_TABLE_mask 0 q).msixRelease q))

/-- A write of ERQ_QCFGq: size only while en is 0; en from 0 to 1 resets the queue (R492, R507). -/
def State.erqCfg (s : State) (q v : Nat) : State :=
  let was := s.rdb P.erq Reg.ERQ_QCFG_en q
  let en := bit v 0
  if was then
    let s := if bits v 4 4 ≠ s.rd P.erq Reg.ERQ_QCFG_size_log2 q then s.bump (P.erq + 0x908) else s
    s.wrb P.erq Reg.ERQ_QCFG_en en q
  else
    let s := s.wr P.erq Reg.ERQ_QCFG_size_log2 (bits v 4 4) q
    if en then
      ((((s.wrb P.erq Reg.ERQ_QCFG_en true q).wr P.erq Reg.ERQ_QPROD_prod 0 q).wr P.erq Reg.ERQ_QCONS_cons 0 q).wr P.erq
        Reg.ERQ_QPROD_phase 1 q).wr P.erq Reg.ERQ_QSEQ_seq 0 q
    else s

def execErqEnable (q : Fin 16) (v : Word) (s : State) : Host.Outcome State Fault Refusal :=
  fin (s.onWrite (P.erq + 0x48 + 32 * q) (fun s => s.erqCfg q v.toNat))

/-- A write of MBX_CFG (R508). -/
def State.mbxCfg (s : State) (v : Nat) : State :=
  let was := s.rdb P.erq Reg.MBX_CFG_en
  let en := bit v 0
  if was then s.wrb P.erq Reg.MBX_CFG_en en
  else
    let s := s.wr P.erq Reg.MBX_CFG_size_log2 (bits v 4 4)
    if en then ((s.wrb P.erq Reg.MBX_CFG_en true).wr P.erq Reg.MBX_STAT_prod 0).wr P.erq Reg.MBX_STAT_cons 0 else s

def execMailboxEnable (v : Word) (s : State) : Host.Outcome State Fault Refusal :=
  fin (s.onWrite (P.erq + 0x248) (fun s => s.mbxCfg v.toNat))

/-- The condition under which an active target may change (R489). -/
def State.targetMayChange (s : State) (src : Nat) : Bool :=
  if src = 0xf00 then !s.rdb P.erq Reg.MBX_CFG_en
  else if src = 0xf01 then !(List.range 8).any (fun c => s.primEn c && s.ctxRuns c)
  else if src = 0xf02 then true
  else !s.rdb (src * 4096) Reg.BLK_CTRL_en

def validTarget (t : Nat) : Bool := t = 0 || isHostErq t || isHearthQ t

/-- A write of ERQ_TGT for the selected source (R489, R508); bit 8 acknowledges refused. -/
def State.targetWrite (s : State) (v : Nat) : State :=
  let src := s.rd P.erq Reg.ERQ_TSEL_src
  let t := v % 256
  let s := if bit v 8 then s.wrb P.erq Reg.ERQ_TGT_refused false else s
  if !validTarget t then s.bump (P.erq + 0x908)
  else if s.target src = 0 || s.targetMayChange src then
    { s with host := { s.host with targets := SMap.set s.host.targets src t 0 } }
  else (s.wrb P.erq Reg.ERQ_TGT_refused true).bump (P.erq + 0x908)

def execTargetWrite (v : Word) (s : State) : Host.Outcome State Fault Refusal :=
  fin (s.onWrite (P.erq + 0x264) (fun s => s.targetWrite v.toNat))

/-! ### Mailbox requests (R497 to R499) -/

/-- The firmware runs: core 0 was released at step 3, its image is in DRAM since step 6, and nothing halts or pauses
it (R86, R88, R551, R572). [DEDUCED: log entry 40.] -/
def State.hearthRuns (s : State) : Bool :=
  s.hostReach && bit s.seq.ended 2 && bit s.seq.ended 5 && !s.coll.hearthHalted && decide (s.seq.power ≠ .banked)
    && !s.temper.pauseRuns

/-- The firmware can take a request: the mailbox is enabled, one is announced, the firmware runs.
[DEDUCED: log entry 40.] -/
def State.mbxCanTake (s : State) : Bool :=
  s.hearthRuns && s.rdb P.erq Reg.MBX_CFG_en && decide (s.rd P.erq Reg.MBX_STAT_prod ≠ s.rd P.erq Reg.MBX_STAT_cons)

/-- The firmware takes the next request, operation op. [DESIGN CHOICE: log entry 41.] -/
def State.mbxTake (s : State) (r : MbxReq) (op : Nat) : State :=
  let s := s.wr P.erq Reg.MBX_STAT_cons ((s.rd P.erq Reg.MBX_STAT_cons + 1) % 2 ^ s.mbxLog)
  let s := (s.bump (P.erq + 0x920)).wrb P.erq Reg.MBX_STAT_busy true
  { s with host := { s.host with mbxTaken := s.host.mbxTaken ++ [(r, op)] } }

/-- The reply area and then the MBX_DONE record (R498, R511). [DESIGN CHOICE: log entry 41.] -/
def State.mbxAnswer (s : State) (r : MbxReq) (op status detail : Nat) (data : List Byte) : State :=
  let area := padTo 64 (le 4 r.tag.toNat ++ le 1 status ++ le 1 detail ++ le 2 data.length ++ data)
  let s := if s.bme then { s with hostMem := Memory.writeBytes s.hostMem r.reply.toNat area } else s
  s.raise 0xf00 0x78 (le 4 r.tag.toNat ++ le 1 status ++ le 1 detail ++ le 2 op ++ le 8 r.reply.toNat)

/-- The firmware ends a request it has taken; one that a Host Session Reset overtook gets no reply (R500 step 5).
[DESIGN CHOICE: log entry 41.] -/
def State.mbxReply (s : State) (r : MbxReq) (op status detail : Nat) (data : List Byte) : State :=
  if s.host.mbxTaken.contains (r, op) then
    let l := s.host.mbxTaken.erase (r, op)
    let s := { s with host := { s.host with mbxTaken := l } }
    (s.wrb P.erq Reg.MBX_STAT_busy (!l.isEmpty)).mbxAnswer r op status detail data
  else s

/-- A request that the firmware takes and whose operation is k; nothing happens where none is announced. -/
def State.mbxOp (s : State) (r : MbxReq) (op : Nat) (k : State → State) : State :=
  if s.mbxCanTake then k (s.mbxTake r op) else s

/-- GET_INFO (R498). [DESIGN CHOICE: log entry 42.] -/
def execGetInfo (r : MbxReq) (s : State) : Host.Outcome State Fault Refusal :=
  fin (s.mbxOp r 0x0001 (fun s => s.mbxReply r 0x0001 0 0
    (Config.infoData s.temper.version (s.rd2 P.tmp Reg.TMP_SERIAL_serial_lo Reg.TMP_SERIAL_serial_hi))))

/-! ### Host Session Reset (R500 to R503) -/

/-- Host queue q and its registers at their reset values. -/
def State.erqReset (s : State) (q : Nat) : State :=
  (((((((s.wr P.erq Reg.ERQ_QBASE_addr_lo 0 q).wr P.erq Reg.ERQ_QBASE_addr_hi 0 q).wr P.erq Reg.ERQ_QCFG_en 0 q).wr P.erq
    Reg.ERQ_QCFG_size_log2 4 q).wr P.erq Reg.ERQ_QCONS_cons 0 q).wr P.erq Reg.ERQ_QPROD_prod 0 q).wr P.erq
    Reg.ERQ_QPROD_phase 1 q).wr P.erq Reg.ERQ_QSEQ_seq 0 q

def State.mbxReset (s : State) : State :=
  ((((((s.wr P.erq Reg.MBX_BASE_addr_lo 0).wr P.erq Reg.MBX_BASE_addr_hi 0).wr P.erq Reg.MBX_CFG_en 0).wr P.erq
    Reg.MBX_CFG_size_log2 4).wr P.erq Reg.MBX_STAT_prod 0).wr P.erq Reg.MBX_STAT_cons 0).wr P.erq Reg.MBX_STAT_busy 0

/-- MSI-X table entry q at its reset values. -/
def State.msixReset (s : State) (q : Nat) : State :=
  (((s.wr P.erq Reg.MSIX_TABLE_addr_lo 0 q).wr P.erq Reg.MSIX_TABLE_addr_hi 0 q).wr P.erq Reg.MSIX_TABLE_data 0 q).wr P.erq
    Reg.MSIX_TABLE_mask 1 q

def State.ctx (s : State) (c : Nat) : Ctx := SMap.get s.ctxs c default

def State.setCtx (s : State) (c : Nat) (x : Ctx) : State := { s with ctxs := SMap.set s.ctxs c x default }

/-- Context c's host job ring discarded: descriptors not admitted, both indices 0 (R500 step 4). -/
def State.hostRingReset (s : State) (c : Nat) : State :=
  let s := s.setCtx c { s.ctx c with hostQ := (s.ctx c).hostQ.filter (fun q => q ≠ .ring), hostProd := 0 }
  s.wr (P.schC c) Reg.SCH_CTX_HQ_cons 0

/-- Records for host queues that a Host Session Reset overtakes are not written (R490, R501). -/
def State.dropProduced (s : State) : State :=
  let gone := s.host.produced.filter (fun u => isHostErq u.target.toNat)
  let s := { s with host := { s.host with produced := s.host.produced.filter (fun u => !isHostErq u.target.toNat) } }
  if gone.isEmpty then s else s.dropInactive (heldCount gone)

/-- A Host Session Reset in progress gives way to a higher reset and is not completed (R78). -/
def State.hsrYield (s : State) : State := s.wrb P.erq Reg.ERQ_HSR_busy false

/-- The steps of a Host Session Reset from its start on, until HOST_SESSION_RESET_DONE (R500); an engine reset in progress
absorbs it (R78). -/
def State.hostSessionReset (s : State) (cause : Nat) (table : Bool) : State :=
  if !s.seq.engResets.isEmpty then s
  else
  let s := s.dropProduced
  let s := (List.range 16).foldl State.erqReset s.mbxReset
  let s := s.wr P.erq Reg.MSIX_PBA_pend 0
  let s := if table then (List.range 16).foldl State.msixReset s else s
  let s := (List.range 8).foldl State.hostRingReset s
  let s := { s with host := { s.host with keptDoorbells := [], mbxTaken := [],
                                          lost := s.host.lost.filter (fun t => !isHostErq t) } }
  let s := (s.wrb P.erq Reg.ERQ_HSR_busy true).wr P.erq Reg.ERQ_HSR_cause cause
  s.bump (P.pcie + 0x820)

/-- HOST_SESSION_RESET: CHIP_RST.cmd = 0x1 (R77, R500). -/
def execHostSessionReset (s : State) : Host.Outcome State Fault Refusal :=
  fin (s.onWrite 0x44 (fun s => s.hostSessionReset 3 false))

/-- The endpoint's configuration-space state at its reset values. -/
def State.endpointReset (s : State) : State :=
  let s := ((s.wrb P.pcie Reg.PCIE_STAT_bme false).wrb P.pcie Reg.PCIE_STAT_msix_en false)
  { s with host := { s.host with funcMask := false, bars := [] } }

def State.linkGone (s : State) : State :=
  ((s.wrb P.pcie Reg.PCIE_STAT_link_up false).wr P.pcie Reg.PCIE_STAT_speed 0).wr P.pcie Reg.PCIE_STAT_width 0

/-- The PCIe endpoint answers at all: the module is powered and not in reset (R53, R589). -/
def State.pcieAlive (s : State) : Bool := s.hostReach

/-- PERST_ASSERT (R51, R500, R503). -/
def execPerstAssert (s : State) : Host.Outcome State Fault Refusal :=
  if !s.pcieAlive then fin s
  else
    let s := { s with host := { s.host with pmeLatched := s.host.pmeEn, wakeTargets := s.host.targets } }
    fin (((s.wrb P.pcie Reg.PCIE_STAT_perst true).endpointReset.linkGone).hostSessionReset 1 true)

/-- PERST_DEASSERT (R500): the reset is done at most 50 us later. -/
def execPerstDeassert (s : State) : Host.Outcome State Fault Refusal :=
  if !s.pcieAlive then fin s else fin (s.wrb P.pcie Reg.PCIE_STAT_perst false)

/-- FUNCTION_LEVEL_RESET (R500). -/
def execFunctionLevelReset (s : State) : Host.Outcome State Fault Refusal :=
  if !s.pcieAlive then fin s else fin (s.endpointReset.hostSessionReset 2 true)

/-- The Data Link Layer reports the link down (R502). -/
def State.linkDown (s : State) : State :=
  if !s.pcieAlive then s
  else ((((s.setBlk P.pcie 8).bump (P.pcie + 0x818)).endpointReset).linkGone).hostSessionReset 4 true

def execLinkDown (s : State) : Host.Outcome State Fault Refusal := fin s.linkDown

/-- HOST_SESSION_RESET_DONE (R500): busy reads 1 throughout an assertion of PERST_N. -/
def execHostSessionResetDone (s : State) : Host.Outcome State Fault Refusal :=
  if s.rdb P.erq Reg.ERQ_HSR_busy && !(s.rdb P.pcie Reg.PCIE_STAT_perst && decide (s.rd P.erq Reg.ERQ_HSR_cause = 1)) then
    fin (s.wrb P.erq Reg.ERQ_HSR_busy false)
  else fin s

/-- PCIE_REPLAY (R504, R506), with the error that is logged with it: correctable, or uncorrectable. -/
def execPcieReplay (s : State) (aer : Option Bool := none) : Host.Outcome State Fault Refusal :=
  if !s.pcieAlive then fin s
  else
    let s := (s.bump (P.pcie + 0x800)).setBlk P.pcie 10
    fin (match aer with
      | none => s
      | some false => s.bump (P.pcie + 0x808)
      | some true => (s.bump (P.pcie + 0x810)).setBlk P.pcie 9)

/-- PCIE_LINK_UP (R502, R503): the link reaches L0. -/
def execPcieLinkUp (speed : BitVec 3) (width : BitVec 5) (s : State) : Host.Outcome State Fault Refusal :=
  if !s.pcieAlive || s.rdb P.pcie Reg.PCIE_STAT_perst || !bit s.seq.begun 4 then fin s
  else
    let s := ((s.wrb P.pcie Reg.PCIE_STAT_link_up true).wr P.pcie Reg.PCIE_STAT_speed speed.toNat).wr P.pcie
      Reg.PCIE_STAT_width width.toNat
    let s := { s with seq := { s.seq with clkLost := s.seq.clkLost.filter (fun k => k ≠ ClockId.pcie) } }
    fin (s.wrb P.pcie Reg.PCIE_STAT_wake false)

/-! ### Configuration space (R113, R482) -/

/-- The address bits of BAR n that can be written: 64 MiB, 64 GiB and 64 KiB windows in pairs of registers. -/
def barMask (n : Nat) : Nat :=
  match n with
  | 0 => 0xfc000000
  | 2 => 0
  | 3 => 0xfffffff0
  | 4 => 0xffff0000
  | _ => 0xffffffff

/-- The low bits of BAR n: 64-bit memory, BAR2 prefetchable; an upper half has none. -/
def barType (n : Nat) : Nat :=
  match n with
  | 0 => 4
  | 2 => 12
  | 4 => 4
  | _ => 0

/-- BAR n as read. -/
def State.barRead (s : State) (n : Nat) : Nat := SMap.get s.host.bars n 0 + barType n

def State.barWrite (s : State) (n v : Nat) : State :=
  { s with host := { s.host with bars := SMap.set s.host.bars n (v &&& barMask n) 0 } }

/-- The fixed words of configuration space that R482 gives: IDs, class code with the revision free, subsystem IDs. -/
def pciId : Nat := 0xa0321f4d
def pciClass : Nat := 0x120000
def pciSubsystem : Nat := 0x00011f4d
/-- The MSI-X table has 16 entries in BAR0, its Pending Bit Array too; Interrupt Pin is 0 (R482, R509). -/
def msixTable : Nat := 0xb01400
def msixPba : Nat := 0xb01500
def interruptPin : Nat := 0

/-- The Device Serial Number (R482). -/
def State.deviceSerial (s : State) : Nat := s.rd2 P.tmp Reg.TMP_SERIAL_serial_lo Reg.TMP_SERIAL_serial_hi

/-- The endpoint answers configuration requests with Request Retry Status until start step 7 has ended (R86). -/
def State.retryStatus (s : State) : Bool := !bit s.seq.ended 6

/-- CONFIGURATION_SPACE_WRITE (R113, R490, R494, R503): the control bits as they stand after it, and a BAR that it writes. -/
def execConfigurationSpaceWrite (bme msixEn funcMask pmeEn : Bool) (s : State) (bar : Option (Fin 6 × Word) := none) :
    Host.Outcome State Fault Refusal :=
  if !s.pcieAlive || s.rdb P.pcie Reg.PCIE_STAT_perst || s.retryStatus then fin s
  else
    let s := (s.wrb P.pcie Reg.PCIE_STAT_bme bme).wrb P.pcie Reg.PCIE_STAT_msix_en msixEn
    let s := { s with host := { s.host with funcMask := funcMask, pmeEn := pmeEn } }
    let s := match bar with
      | some b => s.barWrite b.1 b.2.toNat
      | none => s
    fin ((List.range 16).foldl State.msixRelease s)

end Sys2Proof.Machine
end

