-- ==== Sys2Proof/Machine/FieldIo.lean ====
section
/-! DEFINITION. Isolated field inputs and outputs (R429 to R451), and the GP budget of the field link (R260). -/

namespace Sys2Proof.Machine

/-! ### Paths -/

/-- The path in use changes (R431, R432, R433): the level, the status bit, the count. -/
def State.setPath (s : State) (p : Nat) : State :=
  ((s.wr P.fio Reg.FIO_GLB_path p).setBlk P.fio 9).bump (P.fio + 0x908)

/-- Every switch opens; what is still demanded switches on again as the command ends. -/
def State.openAll (s : State) : State :=
  (List.range 16).foldl (fun s n => s.setChan n { s.chan n with on := false, pick := false }) s

/-- Both paths are lost (R433). -/
def State.bothLost (s : State) : State :=
  ((s.setPath 2).blockFault P.fio 0x10)

/-- The collector's part in a loss of the main path: counted, the unit fenced, its retest outstanding (R560, R568). -/
def State.collectIso (s : State) : State :=
  let s := (s.bump (P.flt + 0x800)).bump (P.flt + 0x828)
  let s := ((s.setBlk P.flt 8).wrb P.flt Reg.FLT_FENCE2_iso_main true).wrb P.flt Reg.FLT_STAT_retest false
  let s := { s with coll := { s.coll with lastUnit := some 96 } }
  let s := ((s.wr P.flt Reg.FLT_LAST_src 0x900).wr P.flt Reg.FLT_LAST_cause 0).wr P.flt Reg.FLT_LAST_action 1
  s.raise 0xe00 0x80 (le 2 0x900 ++ le 1 0 ++ le 1 1 ++ le 2 96 ++ le 2 0 ++ le 1 s.anvFree.length)

/-- The main path is lost: every channel goes to the fallback path, or no path is left (R430, R431).
[DEDUCED: log entry 85.] -/
def State.mainLoss (s : State) (cause : Nat) : State :=
  if s.rd P.fio Reg.FIO_GLB_path ≠ 0 then s
  else
    let s := s.openAll.collectIso
    let s := (s.wr P.fio Reg.FIO_SUP_vin 0).wr P.fio Reg.FIO_SUP_iin 0
    if s.field.fallbackUp then
      (s.setPath 1).raise 0x900 0x3a (le 1 1 ++ le 1 cause)
    else s.bothLost

def pathCauseCode : PathCause → Nat
  | .alignment => 1 | .slotErrors => 2 | .fioclk => 3 | .converter => 4

/-- n slots of the main path were received in error (R434, R450). -/
def State.slotErrors (s : State) (n : Nat) : State := if n = 0 then s else s.bump (P.fio + 0x910) n

/-- ISOLATION_MAIN_LOSS; ten slots in a row in error are counted (R431). [DESIGN CHOICE: log entry 150.] -/
def execIsolationMainLoss (cause : PathCause) (s : State) : Host.Outcome State Fault Refusal :=
  fin ((s.slotErrors (if cause = .slotErrors && decide (s.rd P.fio Reg.FIO_GLB_path = 0) then 10 else 0)).mainLoss
    (pathCauseCode cause))

/-- FIELD_SLOT_TIMEOUT: no valid slot for 200 ns, that is 10 slots; the field side switches off every output it drives on
the main path (R431). [DESIGN CHOICE: log entry 150.] -/
def execFieldSlotTimeout (s : State) : Host.Outcome State Fault Refusal :=
  if s.rd P.fio Reg.FIO_GLB_path = 0 then
    fin ({ s.slotErrors 10 with field := { (s.slotErrors 10).field with sideOff := true } })
  else fin s

/-- FALLBACK_PATH_LOSS (R433). [DEDUCED: log entry 85.] -/
def execFallbackPathLoss (s : State) : Host.Outcome State Fault Refusal :=
  let s' := { s with field := { s.field with fallbackUp := false } }
  if s.rd P.fio Reg.FIO_GLB_path = 1 then fin s'.openAll.bothLost else fin s'

/-- The return to the main path, which is its retest (R432, R563, R570). -/
def State.mainReturn (s : State) : State :=
  let s := s.resume P.fio
  let s := { s with field := { s.field with sideOff := false } }
  let s := (s.setPath 0).raise 0x900 0x3a (le 1 0 ++ le 1 5)
  let s := s.wrb P.flt Reg.FLT_FENCE2_iso_main false
  if s.coll.lastUnit = some 96 then s.wrb P.flt Reg.FLT_STAT_retest true else s

/-- A write of FIO_GLB.main_req = 1 (R432). -/
def State.mainReq (s : State) (linkGood : Bool) : State :=
  if linkGood && decide (s.rd P.fio Reg.FIO_GLB_path ≠ 0) && !s.inFault P.fio then s.mainReturn
  else s.bump (P.fio + 0x900)

def execMainReq (linkGood : Bool) (s : State) : Host.Outcome State Fault Refusal :=
  fin (s.onWrite (P.fio + 0x80) (fun s => s.mainReq linkGood))

/-- The path chosen at the end of start step 4 (R591). -/
def State.fieldStart (s : State) (mainUp fallbackUp : Bool) (cause : Nat) : State :=
  let s := { s with field := { s.field with fallbackUp := fallbackUp, sideOff := false } }
  if mainUp then s.wr P.fio Reg.FIO_GLB_path 0
  else if fallbackUp then (s.setPath 1).raise 0x900 0x3a (le 1 1 ++ le 1 cause)
  else s.blockFault P.fio 0x10

/-! ### Outputs -/

/-- PICK_PHASE_END (R436). -/
def execPickPhaseEnd (ch : Fin 16) (s : State) : Host.Outcome State Fault Refusal :=
  fin (s.setChan ch { s.chan ch with pick := false })

def diagCode : DiagKind → Nat
  | .ovl => 1 | .therm => 2 | .openOn => 3 | .openOff => 4 | .shortLp => 5

def diagFld : DiagKind → Fld
  | .ovl => Reg.FIO_CH_STAT_ovl | .therm => Reg.FIO_CH_STAT_therm | .openOn => Reg.FIO_CH_STAT_open_on
  | .openOff => Reg.FIO_CH_STAT_open_off | .shortLp => Reg.FIO_CH_STAT_short_lp

/-- The W1C bit that keeps the condition, where there is one (R448). -/
def diagSeen : DiagKind → Option Fld
  | .ovl => some Reg.FIO_CH_STAT_ovl_seen | .therm => some Reg.FIO_CH_STAT_therm_seen
  | .openOn => some Reg.FIO_CH_STAT_open_seen | .openOff => some Reg.FIO_CH_STAT_open_seen | .shortLp => none

/-- A condition arises on output ch: shown, counted, recorded; ovl and therm switch the channel off (R437). -/
def State.diagArise (s : State) (ch : Nat) (k : DiagKind) : State :=
  let s := (s.wrb P.fio (diagFld k) true ch).bump (P.fio + 0x808 + 0x10 * ch)
  let s := match diagSeen k with | some f => s.wrb P.fio f true ch | none => s
  let s := if k = .ovl ∨ k = .therm then
      let s := s.setChan ch { s.chan ch with prot := true }
      if s.rdb P.fio Reg.FIO_CH_CFG_retry ch then s else s.wrb P.fio Reg.FIO_CH_STAT_off_latched true ch
    else s
  (s.setBlk P.fio 10).raise 0x900 0x39 (le 1 ch ++ le 1 (diagCode k) ++ le 1 0)

def State.diagClear (s : State) (ch : Nat) (k : DiagKind) : State :=
  (s.wrb P.fio (diagFld k) false ch).raise 0x900 0x39 (le 1 ch ++ le 1 (diagCode k) ++ le 1 1)

/-- OUTPUT_DIAGNOSTIC: reported by the main path only (R430, R437). -/
def execOutputDiagnostic (ch : Fin 16) (kind : DiagKind) (arose : Bool) (s : State) : Host.Outcome State Fault Refusal :=
  if s.rd P.fio Reg.FIO_GLB_path ≠ 0 || !s.rdb P.fio Reg.FIO_CH_CFG_dir ch || s.rdb P.fio (diagFld kind) ch = arose then fin s
  else if arose then fin (s.diagArise ch kind)
  else fin (s.diagClear ch kind)

/-- OUTPUT_RETRY: the protective off state ends, provided therm has cleared (R437). -/
def execOutputRetry (ch : Fin 16) (s : State) : Host.Outcome State Fault Refusal :=
  if s.rdb P.fio Reg.FIO_CH_CFG_retry ch && (s.chan ch).prot && !s.rdb P.fio Reg.FIO_CH_STAT_therm ch then
    fin (s.setChan ch { s.chan ch with prot := false })
  else fin s

/-- A write of FIO_CHn_CTRL.clr = 1 (R437). -/
def State.outputClr (s : State) (ch : Nat) : State :=
  if s.rdb P.fio Reg.FIO_CH_STAT_therm ch then s.bump (P.fio + 0x900)
  else if s.rdb P.fio Reg.FIO_CH_STAT_off_latched ch then
    (s.setChan ch { s.chan ch with prot := false }).wrb P.fio Reg.FIO_CH_STAT_off_latched false ch
  else s

def execOutputClr (ch : Fin 16) (s : State) : Host.Outcome State Fault Refusal :=
  fin (s.onWrite (P.fio + 0x114 + 0x20 * ch) (fun s => s.outputClr ch))

/-! ### GP commands (R260, R439) -/

/-- A GP command is carried out and counted (R271): an output level, or a measurement request. -/
def State.gpDo (s : State) (g : Nat × Nat) : State :=
  let s := s.bump (P.blw + 0xb00)
  if g.1 < 16 then
    if s.rd P.fio Reg.CLAIM_FIO_owner g.1 = ownGp then s.setChan g.1 { s.chan g.1 with demand := g.2 = 1 } else s
  else { s with field := { s.field with measPending := some (g.1 - 16, g.2) } }

/-- A GP command within the period's budget is carried out; one beyond it waits (R260). [DEDUCED: log entry 86.] -/
def State.gpCommand (s : State) (g : Nat × Nat) : State :=
  if s.field.gpLeft = 0 ∨ s.field.gpWait ≠ [] then
    { s with field := { s.field with gpWait := s.field.gpWait ++ [g] } }
  else ({ s with field := { s.field with gpLeft := s.field.gpLeft - 1 } }).gpDo g

/-- FIELD_BUDGET_RELOAD: the budget counter reloads and the waiting commands go, as far as it allows (R260); a period in
which one waited is counted (R271). [DEDUCED: log entry 86.] -/
def State.gpReload (s : State) : State :=
  let s := if s.field.gpWait.isEmpty then s else s.bump (P.blw + 0xb08)
  let b := s.rd P.blw Reg.BLW_FIELD_budget
  let go := s.field.gpWait.take b
  let s := { s with field := { s.field with gpLeft := b - go.length, gpWait := s.field.gpWait.drop b } }
  go.foldl State.gpDo s

def execFieldBudgetReload (s : State) : Host.Outcome State Fault Refusal := fin s.gpReload

def unitOf : Requester → Nat
  | .driver => 0 | .firmware => 1

/-- A write of FIO_CHn_OUT.lvl: the GP owner's only (R439). -/
def State.gpLevel (s : State) (ch : Nat) (lvl : Bool) (who : Requester) : State :=
  if s.rd P.fio Reg.CLAIM_FIO_owner ch = ownGp ∧ s.rd P.fio Reg.CLAIM_FIO_unit ch = unitOf who then
    if s.rdb P.fio Reg.FIO_CH_OUT_lvl ch = lvl then s
    else (s.wrb P.fio Reg.FIO_CH_OUT_lvl lvl ch).gpCommand (ch, b2n lvl)
  else s.bump (P.fio + 0x900)

def execGpOutputChange (ch : Fin 16) (lvl : Bool) (who : Requester) (s : State) : Host.Outcome State Fault Refusal :=
  fin (s.onWrite (P.fio + 0x10c + 0x20 * ch) (fun s => s.gpLevel ch lvl who))

/-- A write of FIO_MEAS_REQ (R447): ignored on the fallback path. -/
def State.measReq (s : State) (v : Nat) : State :=
  if bit v 8 && decide (s.rd P.fio Reg.FIO_GLB_path = 0) then
    (s.wrb P.fio Reg.FIO_MEAS_valid false).gpCommand (16 + bits v 0 4, bits v 4 1)
  else s

def execMeasureRequest (v : Word) (s : State) : Host.Outcome State Fault Refusal :=
  fin (s.onWrite (P.fio + 0x8c) (fun s => s.measReq v.toNat))

/-- MEASURE_RESULT (R447). -/
def execMeasureResult (ch : Fin 16) (value : BitVec 16) (s : State) : Host.Outcome State Fault Refusal :=
  match s.field.measPending with
  | some (c, _) =>
    if c = ch then
      let s := { s with field := { s.field with measPending := none } }
      fin (((s.wr P.fio Reg.FIO_MEAS_value value.toNat).wr P.fio Reg.FIO_MEAS_ch ch).wrb P.fio Reg.FIO_MEAS_valid true)
    else fin s
  | none => fin s

/-! ### The permit mirror (R440) -/

def chanRes (ch : Nat) : Res := ⟨.chan, P.fio, ch⟩

/-- The claim of a permit mirror on channel ch (R440). -/
def mirrorArming (ch : Nat) : Arming := { cls := ownPermit, unit := 0, res := [chanRes ch] }

/-- The mirror is switched on at channel ch, beside the armings of the same cycle; s0 holds the claims that stood at its
beginning. A claim that fails leaves mirror_en at 0. -/
def State.mirrorOn (s s0 : State) (rivals : List Arming) (ch : Nat) : State :=
  s.armOn s0 rivals (mirrorArming ch) (fun s => s.wrb P.fio Reg.FIO_GLB_mirror_en true) id

/-- The mirror bits of a FIO_GLB write. [DEDUCED: log entry 29.] -/
def State.mirrorWrite (s : State) (v : Nat) : State :=
  let ch := bits v 12 4
  if s.rdb P.fio Reg.FIO_GLB_mirror_en then
    if bit v 8 then
      if ch = s.rd P.fio Reg.FIO_GLB_mirror_ch then s else s.bump (P.fio + 0x900)
    else
      let s := s.setOwner (chanRes (s.rd P.fio Reg.FIO_GLB_mirror_ch)) ownFree 0
      let s := s.wrb P.fio Reg.FIO_GLB_mirror_en false
      if ch = s.rd P.fio Reg.FIO_GLB_mirror_ch then s else s.bump (P.fio + 0x900)
  else
    let s := s.wr P.fio Reg.FIO_GLB_mirror_ch ch
    if bit v 8 then s.mirrorOn s [] ch else s

def execMirrorEnable (v : Word) (s : State) : Host.Outcome State Fault Refusal :=
  fin (s.onWrite (P.fio + 0x80) (fun s => s.mirrorWrite v.toNat))

def execMirrorDisable (v : Word) (s : State) : Host.Outcome State Fault Refusal :=
  fin (s.onWrite (P.fio + 0x80) (fun s => s.mirrorWrite v.toNat))

/-! ### Inputs (R443 to R445) -/

/-- The sample period of an input in ns (R442, R443). -/
def State.samplePeriod (s : State) (ch : Nat) : Nat :=
  if s.rd P.fio Reg.FIO_GLB_path = 1 then 1000
  else if s.rdb P.fio Reg.FIO_CH_IN_smode ch then
    let t := s.rd P.fio Reg.FIO_CH_IN_ts ch
    10000 * (if t = 0 then 1 else if 100 < t then 100 else t)
  else 20

def State.det (s : State) (k : Nat) : Detect := SMap.get s.detect k default

def State.setDet (s : State) (k : Nat) (d : Detect) : State := { s with detect := SMap.set s.detect k d default }

/-- An edge of a photo-eye's channel (R445): a leading edge opens an object, a trailing edge closes it. -/
def State.eyeEdge (s : State) (k ch : Nat) (level : Bool) (count : Nat) (mark : Bool) : State :=
  if s.rdb P.fio Reg.FIO_EYE_en k && decide (s.rd P.fio Reg.FIO_EYE_ch k = ch) then
    let d := s.det k
    if level = !s.rdb P.fio Reg.FIO_EYE_pol k then
      (s.wr P.fio Reg.FIO_EYE_LEAD_count count k).setDet k
        { d with eyeOpen := some (d.nextObj, count, mark), nextObj := (d.nextObj + 1) % 2 ^ 32 }
    else
      let s := s.wr P.fio Reg.FIO_EYE_TRAIL_count count k
      match d.eyeOpen with
      | some (o, lead, m) =>
        s.setDet k { d with eyeOpen := none, eyeDone := d.eyeDone ++ [(o, lead, count, m || mark)] }
      | none => s
  else s

/-- The count at an edge and whether it is interpolated: exact from the history of 20.48 us, computed for an older t_e
(R443). -/
def State.edgeCount (s : State) (ch delay exact : Nat) : Nat × Bool :=
  if delay ≤ 20480 then (exact, false)
  else
    let e := s.rd P.fio Reg.FIO_CH_IN_enc ch
    let per := s.rd P.enc Reg.ENC_PER_per e
    let back := if per = 0 then 0 else roundDiv ((delay : Int) * 256) (5 * per)
    (wrap 32 ((s.rd P.enc Reg.ENC_CNT_count e : Int) - back), true)

/-- A filter completes an edge: its time, count, level, record and photo-eye (R443, R445). Each slot in error on its way
over the main path delays it by 20 ns and is counted (R434). [DEDUCED: log entry 85.] -/
def State.inputEdge (s : State) (ch : Nat) (level : Bool) (age exact : Nat) (near restart : Bool) (errored : Nat) : State :=
  let errored := if s.rd P.fio Reg.FIO_GLB_path = 0 then errored else 0
  let s := s.slotErrors errored
  let age := age + 20 * errored
  let n := let f := s.rd P.fio Reg.FIO_CH_IN_filt_n ch; if f = 0 then 1 else f
  let delay := age + (n - 1) * s.samplePeriod ch
  let te := s.now - delay
  let (count, interp) := s.edgeCount ch delay exact
  let fb := decide (s.rd P.fio Reg.FIO_GLB_path = 1)
  let s := (s.wrb P.fio Reg.FIO_CH_STAT_level level ch).wr2 P.fio Reg.FIO_CH_EDGE_t_e_lo Reg.FIO_CH_EDGE_t_e_hi te ch
  let s := (s.setChan ch { s.chan ch with lastCount := count }).bump (P.fio + 0x800 + 0x10 * ch)
  let s := if interp then (s.setBlk P.fio 13).bump (P.fio + 0x920) else s
  let s := if s.rdb P.fio Reg.FIO_CH_CFG_evt ch then
      s.raise 0x900 0x38 (le 1 ch ++ le 1 (b2n level) ++ le 1 (b2n interp + 2 * b2n fb + 4 * b2n (near || restart))
        ++ le 1 0 ++ le 4 count ++ le 8 te)
    else s
  (List.range 8).foldl (fun s k => s.eyeEdge k ch level count (near || restart || fb)) s

/-- [DESIGN CHOICE: log entry 150.] -/
def execInputEdge (ch : Fin 16) (level : Bool) (age : BitVec 32) (count : BitVec 32) (nearSwitch restart : Bool)
    (s : State) (errored : BitVec 8 := 0) : Host.Outcome State Fault Refusal :=
  if s.rdb P.fio Reg.FIO_CH_CFG_dir ch || s.noPath || !s.works P.fio || s.rdb P.fio Reg.FIO_CH_STAT_level ch = level
      || (level && s.rdb P.fio Reg.FIO_CH_STAT_wb ch) then fin s
  else fin (s.inputEdge ch level age.toNat count.toNat nearSwitch restart errored.toNat)

/-- WIRE_BREAK: shown while wb_en = 1, on the main path only; the filtered level is low (R444). -/
def execWireBreak (ch : Fin 16) (s : State) : Host.Outcome State Fault Refusal :=
  if s.rd P.fio Reg.FIO_GLB_path = 0 && !s.rdb P.fio Reg.FIO_CH_CFG_dir ch && s.rdb P.fio Reg.FIO_CH_IN_wb_en ch
      && !s.rdb P.fio Reg.FIO_CH_STAT_wb ch then
    let s := ((s.wrb P.fio Reg.FIO_CH_STAT_wb true ch).wrb P.fio Reg.FIO_CH_STAT_wb_seen true ch).wrb P.fio
      Reg.FIO_CH_STAT_level false ch
    fin (((s.setBlk P.fio 11).bump (P.fio + 0x808 + 0x10 * ch)).raise 0x900 0x39 (le 1 ch ++ le 1 6 ++ le 1 0))
  else fin s

/-- WIRE_BREAK_CLEAR (R444). -/
def execWireBreakClear (ch : Fin 16) (s : State) : Host.Outcome State Fault Refusal :=
  if s.rdb P.fio Reg.FIO_CH_STAT_wb ch then
    fin ((s.wrb P.fio Reg.FIO_CH_STAT_wb false ch).raise 0x900 0x39 (le 1 ch ++ le 1 6 ++ le 1 1))
  else fin s

/-! ### Supplies (R446) -/

/-- The three consecutive low measurements, and the 1 ms of good ones (101 measurements, 10 us apart), of R446.
[DEDUCED: log entry 85.] -/
def State.supply (s : State) (vin iin : Nat) : State :=
  let low := if vin < 1800 then s.field.lowRun + 1 else 0
  let high := if 1900 ≤ vin then s.field.highRun + 1 else 0
  let s := { s with field := { s.field with lowRun := low, highRun := high } }
  let s := if s.rd P.fio Reg.FIO_GLB_path = 0 then
      let s := (s.wr P.fio Reg.FIO_SUP_vin vin).wr P.fio Reg.FIO_SUP_iin iin
      if iin ≤ 1050 then s.wrb P.fio Reg.FIO_SUP_ihigh false else s
    else s
  if decide (3 ≤ low) && !s.rdb P.fio Reg.FIO_SUP_uv then
    (((s.wrb P.fio Reg.FIO_SUP_uv true).wrb P.fio Reg.FIO_SUP_pgood false).setBlk P.fio 8).bump (P.fio + 0x918)
      |>.raise 0x900 0x3b (le 1 1 ++ le 1 0 ++ le 2 (s.rd P.fio Reg.FIO_SUP_vin))
  else if decide (101 ≤ high) && s.rdb P.fio Reg.FIO_SUP_uv then
    ((s.wrb P.fio Reg.FIO_SUP_uv false).wrb P.fio Reg.FIO_SUP_pgood true).raise 0x900 0x3b
      (le 1 2 ++ le 1 0 ++ le 2 (s.rd P.fio Reg.FIO_SUP_vin))
  else s

/-- SUPPLY_MEASUREMENT: a measurement of L+ in 10 mV and of the total current in 10 mA. -/
def execSupplyMeasurement (vin : BitVec 12) (iin : BitVec 12) (s : State) : Host.Outcome State Fault Refusal :=
  if s.rd P.fio Reg.FIO_GLB_path = 2 then fin s else fin (s.supply vin.toNat iin.toNat)

/-- TOTAL_FIELD_CURRENT_HIGH (R446). -/
def execTotalFieldCurrentHigh (s : State) : Host.Outcome State Fault Refusal :=
  if s.rd P.fio Reg.FIO_GLB_path = 0 && !s.rdb P.fio Reg.FIO_SUP_ihigh then
    fin (((s.wrb P.fio Reg.FIO_SUP_ihigh true).setBlk P.fio 12).raise 0x900 0x3b
      (le 1 3 ++ le 1 0 ++ le 2 (s.rd P.fio Reg.FIO_SUP_vin)))
  else fin s

/-- SENSOR_SUPPLY_OVERLOAD: sensor supply k switches off for 1 s (R446). -/
def execSensorSupplyOverload (k : Fin 8) (s : State) : Host.Outcome State Fault Refusal :=
  if bit (s.rd P.fio Reg.FIO_LS_ovl) k then fin s
  else fin (((s.wr P.fio Reg.FIO_LS_ovl (setBit (s.rd P.fio Reg.FIO_LS_ovl) k)).bump (P.fio + 0x928)).raise 0x900 0x39
    (le 1 k ++ le 1 7 ++ le 1 0))

/-- SENSOR_SUPPLY_RETRY (R446). -/
def execSensorSupplyRetry (k : Fin 8) (s : State) : Host.Outcome State Fault Refusal :=
  if bit (s.rd P.fio Reg.FIO_LS_ovl) k then
    fin ((s.wr P.fio Reg.FIO_LS_ovl (clrBit (s.rd P.fio Reg.FIO_LS_ovl) k)).raise 0x900 0x39 (le 1 k ++ le 1 7 ++ le 1 1))
  else fin s

/-- Sensor supply LSk is on (R53, R446). -/
def State.sensorOn (s : State) (k : Nat) : Bool :=
  !bit (s.rd P.fio Reg.FIO_LS_ovl) k &&
    (decide (s.modState = 4) || decide (s.modState = 5) || (decide (s.modState = 3) && bit (s.rd P.fio Reg.FIO_LS_en) k))

end Sys2Proof.Machine
end

