-- ==== Sys2Proof/Machine/Banks.lean ====
section
/-! DEFINITION. The banks beside the engines and the Nimbus regions: owners, handovers, power, clears and shares
(R75, R76, R117, R118, R229 to R238, R261, R262). A bank is named by its index b of R261. -/

namespace Sys2Proof.Machine

/-! ### The inventory (R229, R261) -/

/-- The device address at which bank b begins (R117, R118). -/
def bankBase (b : Nat) : Nat :=
  if b < 192 then 0x2000000000 + b / 6 * 0x400000 + b % 6 * 0x80000
  else if b < 198 then 0x1000000000 + (b - 192) * 0x100000
  else 0x3000000000 + (b - 198) * 0x100000

/-- The size of bank b in bytes. -/
def bankSize (b : Nat) : Nat :=
  if b < 192 then (if b % 6 = 5 then 0x40000 else 0x80000) else if b < 198 then 0x100000 else 0x80000

/-- The bank that holds a device address; none outside the banks (R117, R118). -/
def bankAt (a : Nat) : Option Nat :=
  if 0x2000000000 ≤ a ∧ a < 0x2008000000 then
    let o := (a - 0x2000000000) % 0x400000
    if o < 0x2c0000 then some ((a - 0x2000000000) / 0x400000 * 6 + o / 0x80000) else none
  else if 0x1000000000 ≤ a ∧ a < 0x1000600000 then some (192 + (a - 0x1000000000) / 0x100000)
  else if 0x3000000000 ≤ a ∧ a < 0x3000400000 then
    if (a - 0x3000000000) % 0x100000 < 0x80000 then some (198 + (a - 0x3000000000) / 0x100000) else none
  else none

/-- The address lies in DRAM (R117). -/
def inDram (a : Nat) : Bool := decide (a < 0x800000000)

/-- The 64 MiB of DRAM that hold the firmware images (R549). -/
abbrev imageBase : Nat := 0x3fc000000

def inImage (a : Nat) : Bool := decide (imageBase ≤ a) && decide (a < 0x400000000)

/-- Copy n bytes at from in one memory over those at to in another. -/
def copyBytes (src dst : Memory) (from_ dest n : Nat) : Memory :=
  (src.filter (fun c => decide (from_ ≤ c.1) && decide (c.1 < from_ + n))).foldl
    (fun m c => Memory.write m (dest + (c.1 - from_)) c.2) (Memory.clear dst dest n)

/-- The firmware image's place in flash, and one half of the image region. -/
abbrev flashAt : Nat := 0x1000000
abbrev halfSize : Nat := 0x2000000

/-- The device address of half h. -/
def halfAt (h : Bool) : Nat := imageBase + (if h then halfSize else 0)

/-- The running half. -/
def State.runHalf (s : State) : Bool := s.rdb P.tmp Reg.TMP_STAT_half

/-- The stack that serves a DRAM address (R240). -/
def stackOf (a : Nat) : Nat := if a < 0x400000000 then 0 else 1

/-- The owner of bank b after reset (R229). -/
def serviceOwner (b : Nat) : Nat :=
  if b < 192 then 0 else if b < 195 then 2 else if b = 195 then 5 else if b < 198 then 1 else 4

/-- Owner class o is permitted for bank b (R229, R231). -/
def ownerPermitted (b o : Nat) : Bool :=
  o = 1 || o = 2 || o = 3 || (o = 0 && decide (b < 192)) || (o = 5 && decide (b = 195))
    || (o = 4 && decide (196 ≤ b))

/-- Bank b of Anvil engine e (k = 0 to 5), and X0 of Tongs engine t. -/
abbrev bankOf (e k : Nat) : Nat := 6 * e + k
abbrev bankX0 (t : Nat) : Nat := 198 + t

def State.bankOwner (s : State) (b : Nat) : Nat := s.rd P.bank Reg.BANK_CTL_owner b

/-- Bank b is on: as BANK_CTL says, and not in BANKED, whose stopped CORECLK serves no bank (R69, R238). -/
def State.bankOn (s : State) (b : Nat) : Bool := s.rd P.bank Reg.BANK_CTL_pwr b = 2 && decide (s.seq.power ≠ .banked)

/-- The unit that holds bank b is under a Quench test (R577). -/
def State.bankTested (s : State) (b : Nat) : Bool :=
  s.underTest (if b < 192 then P.anv (b / 6) 0 else if b < 198 then P.bank else P.tng (b - 198) 0)

/-- Owner class o may use bank b now: it owns it, no handover runs, the bank is on, its unit is not under test (R120,
R232, R233, R577). -/
def State.serves (s : State) (b o : Nat) : Bool :=
  decide (s.bankOwner b = o) && !s.rdb P.bank Reg.BANK_CTL_pend b && s.bankOn b && !s.bankTested b

/-- The TONGS side of bank b serves Tongs engine t: its own X0, or the Nimbus region whose unit it is (R231). -/
def State.servesTongs (s : State) (b t : Nat) : Bool :=
  s.serves b 4 && (if b < 198 then decide (s.rd P.bank Reg.BANK_CTL_unit b = t) else decide (b = bankX0 t))

/-- A request refused during a handover or by a non-owner is counted (R232, R262). -/
def State.bankDeny (s : State) : State := s.bump (P.bank + 0x808)

/-- Clear a device address range (R76, R236). -/
def State.clearMem (s : State) (a n : Nat) : State := { s with mem := Memory.clear s.mem a n }

/-! ### Handover (R233, R234) -/

/-- Why a handover of bank b to owner class o is refused (R234). -/
def State.handoverRefused (s : State) (b o : Nat) : Option Nat :=
  if !ownerPermitted b o then some 1
  else if s.shareHeld b && decide (o ≠ serviceOwner b) then some 2
  else if !s.bankOn b then some 3
  else none

/-- Record a refused bank write (R234, R262). -/
def State.bankRefuse (s : State) (b code : Nat) : State :=
  (s.wr P.bank Reg.BANK_CTL_refused code b).bump (P.bank + 0x810)

/-- A new owner or Tongs unit is written for bank b. -/
def State.handover (s : State) (b o u : Nat) : State :=
  match s.handoverRefused b o with
    | some c => s.bankRefuse b c
    | none =>
      let s := (s.wrb P.bank Reg.BANK_CTL_pend true b).wr P.bank Reg.BANK_CTL_refused 0 b
      { s with msys := { s.msys with handovers := SMap.set s.msys.handovers b (o + 8 * u) 0 } }

/-- The new owner takes bank b (R233 step 3). -/
def State.handoverDone (s : State) (b : Nat) : State :=
  if s.rdb P.bank Reg.BANK_CTL_pend b then
    let v := SMap.get s.msys.handovers b 0
    let s := ((s.wr P.bank Reg.BANK_CTL_owner (v % 8) b).wr P.bank Reg.BANK_CTL_unit (v / 8) b).wrb P.bank
      Reg.BANK_CTL_pend false b
    { s with msys := { s.msys with handovers := SMap.erase s.msys.handovers b } }
  else s

def execBankHandoverDone (b : Fin 202) (s : State) : Host.Outcome State Fault Refusal := fin (s.handoverDone b)

/-! ### Power (R75, R76, R238) -/

/-- Bank b goes to power state p: off loses its contents, a return from off clears it (R76), retention keeps (R75). -/
def State.bankPower (s : State) (b p : Nat) : State :=
  let old := s.rd P.bank Reg.BANK_CTL_pwr b
  let s := s.wr P.bank Reg.BANK_CTL_pwr p b
  if p = 0 ∨ old = 0 then
    let s := s.clearMem (bankBase b) (bankSize b)
    s.wrb P.bank Reg.BANK_CTL_clearing (p = 2) b
  else s

/-- A power value the field takes for bank b (R261). -/
def powerValue (b p : Nat) : Bool := p = 0 || p = 2 || (p = 1 && decide (192 ≤ b) && decide (b < 194))

/-- A new power state is written for bank b: refused while a running context holds a share (R238). -/
def State.powerWrite (s : State) (b p : Nat) : State :=
  if p = s.rd P.bank Reg.BANK_CTL_pwr b ∨ !powerValue b p then s
  else if p ≠ 2 ∧ s.shareHeld b then s.bankRefuse b 2
  else (s.wr P.bank Reg.BANK_CTL_refused 0 b).bankPower b p

/-- A write of BANK_CTLb: the owner and unit, then the power state, each where it differs from what stands (R261). While a
handover is pending, its owner is ignored and counted (R233). -/
def State.bankWrite (s : State) (b v : Nat) : State :=
  let o := bits v 0 3
  let u := bits v 4 2
  let s := if s.rdb P.bank Reg.BANK_CTL_pend b then s.bump (P.bank + 0x810) else if o = s.bankOwner b ∧ u = s.rd P.bank Reg.BANK_CTL_unit b then s else s.handover b o u
  s.powerWrite b (bits v 12 2)

def execBankHandover (b : Fin 202) (v : Word) (s : State) : Host.Outcome State Fault Refusal :=
  fin (s.onWrite (P.bank + 0x40 + 4 * b) (fun s => s.bankWrite b v.toNat))

def execBankPower (b : Fin 202) (v : Word) (s : State) : Host.Outcome State Fault Refusal :=
  fin (s.onWrite (P.bank + 0x40 + 4 * b) (fun s => s.bankWrite b v.toNat))

/-- BANK_CLEAR_DONE (R76). The bytes read as zero from the start of the clear, and an access to a bank being cleared
is carried out in its place in the queue, as one held until the clear ended would be. -/
def execBankClearDone (b : Fin 202) (s : State) : Host.Outcome State Fault Refusal :=
  fin (s.wrb P.bank Reg.BANK_CTL_clearing false b)

end Sys2Proof.Machine
end

