-- ==== Sys2Proof/Machine/Bellows.lean ====
section
/-! DEFINITION. The Bellows budgets: admission, period boundaries, grants (R253 to R260, R267 to R271). -/

namespace Sys2Proof.Machine

/-! ### Values as they will stand at the next boundary (R258) -/

/-- The word that waits for the next boundary at register address a, or what stands there. -/
def State.nextWord (s : State) (a : Nat) : Nat :=
  match s.msys.pendingRegs.find? (fun p => p.1 = a) with
  | some p => p.2
  | none => s.readWord a

def State.holdReg (s : State) (a v : Nat) : State :=
  { s with msys := { s.msys with pendingRegs := s.msys.pendingRegs.filter (fun p => p.1 ≠ a) ++ [(a, v)] } }

/-- BLW_CLSi's register r: 0 BUD0, 1 BUD1, 2 DECL0, 3 DECL1 (R268). -/
def clsAddr (i r : Nat) : Nat := P.blw + 0x80 + 16 * i + 4 * r

/-- SCHED's declared rate for a period (R257). -/
def schedRate (period : Nat) : Nat := (64 * period + 99) / 100

/-- Budgets, declarations and protection of every entry, and the period. -/
structure Plan where
  period : Nat
  budget : Nat → Nat → Nat
  decl : Nat → Nat → Nat
  prot : Nat → Bool

/-- The plan that the next boundary puts in force. -/
def State.nextPlan (s : State) : Plan where
  period := s.nextWord (P.blw + 0x40) % 1024
  budget := fun i k => s.nextWord (clsAddr i k) % 2 ^ 24
  decl := fun i k => s.nextWord (clsAddr i (2 + k)) % 2 ^ 24
  prot := fun i => bit (s.nextWord (clsAddr i 0)) 24

/-- The first admission failure of a plan: code, entry and stack (R257, R270). -/
def Plan.failure (p : Plan) : Option (Nat × Nat × Nat) :=
  let prots := (List.range 16).filter p.prot
  let below := (prots.flatMap (fun i => [(i, 0), (i, 1)])).find? (fun x => p.budget x.1 x.2 < p.decl x.1 x.2)
  match below with
  | some x => some (1, x.1, x.2)
  | none =>
    match [0, 1].find? (fun k => 3125 * p.period < (prots.map (fun i => p.budget i k)).foldl (· + ·) 0) with
    | some k => some (2, prots.getLastD 0, k)
    | none => none

/-- The failure of one entry's admission: its own budget, then the total (R257). -/
def Plan.entryFailure (p : Plan) (i : Nat) : Option (Nat × Nat) :=
  match [0, 1].find? (fun k => p.budget i k < p.decl i k) with
  | some k => some (1, k)
  | none =>
    let prots := (List.range 16).filter p.prot
    match [0, 1].find? (fun k => 3125 * p.period < (prots.map (fun j => p.budget j k)).foldl (· + ·) 0) with
    | some k => some (2, k)
    | none => none

/-- Record an admission refusal (R270). -/
def State.blwRefuse (s : State) (code entry stack : Nat) : State :=
  ((s.wr P.blw Reg.BLW_ADMIT_code code).wr P.blw Reg.BLW_ADMIT_entry entry).wr P.blw Reg.BLW_ADMIT_stack stack

/-- A written BLW_CLSi value with the bits that are fixed for entry i put back (R268). -/
def clsFix (i r v : Nat) : Nat :=
  if r = 0 then
    let v := v % 2 ^ 26
    if i < 3 then setBit v 24 else if i < 8 ∧ 4 ≤ i then clrBit v 24 else v
  else v % 2 ^ 24

/-- A write of register r of entry i (R257, R258, R268). -/
def State.clsWrite (s : State) (i r v : Nat) : State :=
  if i = 2 ∧ 2 ≤ r then s
  else
    let t := s.holdReg (clsAddr i r) (clsFix i r v)
    if t.nextPlan.prot i then
      match t.nextPlan.entryFailure i with
      | some (code, stack) => s.blwRefuse code i stack
      | none => t
    else t

def execBellowsAdmission (entry : Fin 16) (reg : Fin 4) (v : Word) (s : State) : Host.Outcome State Fault Refusal :=
  fin (s.onWrite (clsAddr entry reg) (fun s => s.clsWrite entry reg v.toNat))

/-- A write of BLW_CFG.period (R253, R258, R267). -/
def State.periodWrite (s : State) (v : Nat) : State :=
  let p := v % 1024
  if p < 10 ∨ 1000 < p then (s.note P.blw .ignoredWrite).blwRefuse 4 0 0
  else
    let t := ((s.holdReg (P.blw + 0x40) p).holdReg (clsAddr 2 2) (schedRate p)).holdReg (clsAddr 2 3) (schedRate p)
    match t.nextPlan.failure with
    | some (_, entry, stack) => s.blwRefuse 3 entry stack
    | none => t

def execPeriodChange (v : Word) (s : State) : Host.Outcome State Fault Refusal :=
  fin (s.onWrite (P.blw + 0x40) (fun s => s.periodWrite v.toNat))

/-! ### Budgets and counters (R255, R258) -/

/-- A value that waited takes effect. -/
def State.putWord (s : State) (a v : Nat) : State :=
  match pageInfo (a / 4096) with
  | none => s
  | some p => (fieldsAt p.kind (a % 4096)).foldl (fun s fi => s.wr (a / 4096 * 4096) fi.1 (bits v fi.1.lo fi.1.width) fi.2) s

def State.blwBudget (s : State) (i k : Nat) : Nat :=
  if k = 0 then s.rd P.blw Reg.BLW_CLS_BUD0_budget i else s.rd P.blw Reg.BLW_CLS_BUD1_budget i

def State.blwLeft (s : State) (i k : Nat) : Nat := (SMap.get s.msys.left (2 * i + k) 0).toNat

def State.setLeft (s : State) (i k : Nat) (v : Nat) : State :=
  { s with msys := { s.msys with left := SMap.set s.msys.left (2 * i + k) (v : Int) 0 } }

/-! ### Grants and the period boundary (R254 to R256, R258) -/

def State.blwProt (s : State) (i : Nat) : Bool := s.rdb P.blw Reg.BLW_CLS_BUD0_prot i

def State.blwBorrow (s : State) (i : Nat) : Bool := s.rdb P.blw Reg.BLW_CLS_BUD0_borrow i

/-- The tier of a request of entry i in stack k; 4 while it is held. -/
def State.blwTier (s : State) (i k : Nat) : Nat :=
  if s.blwProt i then (if 0 < s.blwLeft i k then 1 else 2)
  else if 0 < s.blwLeft i k then 2
  else if s.blwBorrow i then 3 else 4

/-- A request of u units of entry i is granted in stack k: its counter, its overrun (R255, R256, R271). -/
def State.blwTake (s : State) (k i u : Nat) : State :=
  let left := s.blwLeft i k
  let above := s.blwProt i && decide (left = 0)
  let s := (s.setLeft i k (left - u)).bump (P.blw + 0x800 + 0x30 * i + 8 * k) u
  if above then
    let s := s.bump (P.blw + 0x810 + 0x30 * i + 8 * k) u
    if s.msys.overrun.contains i then s
    else
      let s := { s with msys := { s.msys with overrun := i :: s.msys.overrun } }
      s.raiseFree 0x404 (le 1 i ++ le 1 k)
  else s

/-- A cycle in which a request of the entry is held (R271). -/
def State.blwHold (s : State) (k i : Nat) : State := s.bump (P.blw + 0x820 + 0x30 * i + 8 * k)

/-- The units of a request of n bytes (R254). -/
def unitsOf (n : Nat) : Nat := (n + 63) / 64

/-- A request of n bytes of the model's own traffic reaches stack k and is charged to entry i: granted, or held, and charged
at the boundary that ends its wait (R254, R255). [DESIGN CHOICE: log entry 151.] -/
def State.charge (s : State) (i k n : Nat) : State :=
  if n = 0 then s
  else if s.blwTier i k = 4 then
    let s := s.blwHold k i
    { s with msys := { s.msys with owed := s.msys.owed ++ [(i, k, unitsOf n)] } }
  else s.blwTake k i (unitsOf n)

/-- A request that was held: granted in the new period, or held on. -/
def State.payOwed (s : State) (p : Nat × Nat × Nat) : State :=
  if s.blwTier p.1 p.2.1 = 4 then
    let s := s.blwHold p.2.1 p.1
    { s with msys := { s.msys with owed := s.msys.owed ++ [p] } }
  else s.blwTake p.2.1 p.1 p.2.2

/-- Pending values take effect, every counter is loaded with its budget, and the requests that were held are charged to the
new period. -/
def State.periodBoundary (s : State) : State :=
  let s := { s.msys.pendingRegs.foldl (fun s p => s.putWord p.1 p.2) s with
    msys := { s.msys with pendingRegs := [], overrun := [] } }
  let s := (List.range 16).foldl (fun s i => (s.setLeft i 0 (s.blwBudget i 0)).setLeft i 1 (s.blwBudget i 1)) s
  s.msys.owed.foldl State.payOwed { s with msys := { s.msys with owed := [] } }

/-- BELLOWS_PERIOD_BOUNDARY: periods are counted in the DRAM controller clock, which stops in BANKED (R64, R253). -/
def execBellowsPeriodBoundary (s : State) : Host.Outcome State Fault Refusal :=
  if s.seq.power = .banked then fin s else fin s.periodBoundary

/-- A request of u units of entry i is granted in stack k in a cycle of BELLOWS_GRANT. -/
def State.blwGrant (s : State) (k i u : Nat) : State :=
  let s := s.blwTake k i u
  { s with msys := { s.msys with lastGrant := s.msys.lastGrant ++ [i] } }

/-- Grant the requests that stand in tier t now; the others wait on. -/
def State.blwPass (s : State) (k t : Nat) : List (Nat × Nat) → State × List (Nat × Nat)
  | [] => (s, [])
  | (i, u) :: l =>
    if s.blwTier i k = t then State.blwPass (s.blwGrant k i u) k t l
    else
      let r := State.blwPass s k t l
      (r.1, (i, u) :: r.2)

/-- The requests in ascending entry from the rotating index (R255). -/
def rotated (rot : Nat) (l : List (Nat × Nat)) : List (Nat × Nat) :=
  (List.range 16).flatMap (fun d => l.filter (fun p => p.1 = (rot + d) % 16))

/-- The controller admits, in one cycle, the requests waiting for a stack: tier 1, tier 2, and tier 3 only where neither
waits. The index has advanced by one in each of the cycles since the last such command, and an entry with a request that is
held is counted once (R255, R271). [DESIGN CHOICE: log entry 117.] -/
def State.blwServe (s : State) (k cycles : Nat) (waiting : List (Nat × Nat)) : State :=
  let rot := (s.msys.rot + cycles) % 16
  let l := rotated rot waiting
  let s := { s with msys := { s.msys with rot := rot, lastGrant := [] } }
  let one := s.blwPass k 1 l
  let two := one.1.blwPass k 2 one.2
  let three := if one.2.length = l.length ∧ two.2.length = one.2.length then two.1.blwPass k 3 two.2 else two
  (List.range 16).foldl (fun s i =>
    if three.2.any (fun p => p.1 = i) && decide (three.1.blwTier i k = 4) then s.blwHold k i else s) three.1

def execBellowsGrant (stack : Fin 2) (waiting : List (Fin 16 × BitVec 24)) (s : State) (cycles : BitVec 32 := 1) :
    Host.Outcome State Fault Refusal :=
  if s.seq.power = .banked then fin s
  else fin (s.blwServe stack cycles.toNat (waiting.map (fun p => (p.1.val, p.2.toNat))))

end Sys2Proof.Machine
end

