-- ==== Sys2Proof/Machine/Sha.lean ====
section
/-! DEFINITION. SHA-512 (named by R315, R324 and chapter 18; the algorithm itself is FIPS 180-4's, log entry 128,
PRESUMED) and CRC-64 with the ECMA-182 polynomial (R327), over bytes, in arithmetic modulo 2^64. -/

namespace Sys2Proof.Machine

/-- n words of 64 bits of a number, the highest first. -/
def sha64s (v : Nat) : Nat → List Nat
  | 0 => []
  | n + 1 => v / 2 ^ (64 * n) % 2 ^ 64 :: sha64s v n

/-- The first 64 bits of the fractions of the square roots of the first eight primes: each number joins four of them. -/
def shaH0 : List Nat := [
  0x6a09e667f3bcc908bb67ae8584caa73b3c6ef372fe94f82ba54ff53a5f1d36f1,
  0x510e527fade682d19b05688c2b3e6c1f1f83d9abfb41bd6b5be0cd19137e2179].flatMap (fun v => sha64s v 4)

/-- The first 64 bits of the fractions of the cube roots of the first 80 primes: each number joins five of them. -/
def shaK : List Nat := [
  0x428a2f98d728ae227137449123ef65cdb5c0fbcfec4d3b2fe9b5dba58189dbbc3956c25bf348b538,
  0x59f111f1b605d019923f82a4af194f9bab1c5ed5da6d8118d807aa98a303024212835b0145706fbe,
  0x243185be4ee4b28c550c7dc3d5ffb4e272be5d74f27b896f80deb1fe3b1696b19bdc06a725c71235,
  0xc19bf174cf692694e49b69c19ef14ad2efbe4786384f25e30fc19dc68b8cd5b5240ca1cc77ac9c65,
  0x2de92c6f592b02754a7484aa6ea6e4835cb0a9dcbd41fbd476f988da831153b5983e5152ee66dfab,
  0xa831c66d2db43210b00327c898fb213fbf597fc7beef0ee4c6e00bf33da88fc2d5a79147930aa725,
  0x6ca6351e003826f142929670a0e6e7027b70a8546d22ffc2e1b21385c26c9264d2c6dfc5ac42aed,
  0x53380d139d95b3df650a73548baf63de766a0abb3c77b2a881c2c92e47edaee692722c851482353b,
  0xa2bfe8a14cf10364a81a664bbc423001c24b8b70d0f89791c76c51a30654be30d192e819d6ef5218,
  0xd69906245565a910f40e35855771202a106aa07032bbd1b819a4c116b8d2d0c81e376c085141ab53,
  0x2748774cdf8eeb9934b0bcb5e19b48a8391c0cb3c5c95a634ed8aa4ae3418acb5b9cca4f7763e373,
  0x682e6ff3d6b2b8a3748f82ee5defb2fc78a5636f43172f6084c87814a1f0ab728cc702081a6439ec,
  0x90befffa23631e28a4506cebde82bde9bef9a3f7b2c67915c67178f2e372532bca273eceea26619c,
  0xd186b8c721c0c207eada7dd6cde0eb1ef57d4f7fee6ed17806f067aa72176fba0a637dc5a2c898a6,
  0x113f9804bef90dae1b710b35131c471b28db77f523047d8432caab7b40c724933c9ebe0a15c9bebc,
  0x431d67c49c100d4c4cc5d4becb3e42b6597f299cfc657e2a5fcb6fab3ad6faec6c44198c4a475817].flatMap (fun v => sha64s v 5)

def ror64 (x n : Nat) : Nat := x / 2 ^ n + x % 2 ^ n * 2 ^ (64 - n)

def not64 (x : Nat) : Nat := 2 ^ 64 - 1 - x

/-- The exclusive or of x rotated by each of the amounts, into acc. -/
def rorXor (x : Nat) (acc : Nat) (by_ : List Nat) : Nat := by_.foldl (fun v n => v ^^^ ror64 x n) acc

/-- The next n words of the message schedule; the window holds the last 16, oldest first. -/
def shaSched : Nat → List Nat → List Nat
  | 0, _ => []
  | n + 1, w =>
    let o := w.getD 14 0
    let q := w.getD 1 0
    let x := (rorXor o (o / 2 ^ 6) [19, 61] + w.getD 9 0 + rorXor q (q / 2 ^ 7) [1, 8] + w.getD 0 0) % 2 ^ 64
    x :: shaSched n (w.drop 1 ++ [x])

/-- One round on the eight working variables. -/
def shaRound (v : List Nat) (kw : Nat × Nat) : List Nat :=
  match v with
  | [a, b, c, d, e, f, g, h] =>
    let t1 := h + rorXor e 0 [14, 18, 41] + ((e &&& f) ^^^ (not64 e &&& g)) + kw.1 + kw.2
    let t2 := rorXor a 0 [28, 34, 39] + ((a &&& b) ^^^ (a &&& c) ^^^ (b &&& c))
    [(t1 + t2) % 2 ^ 64, a, b, c, (d + t1) % 2 ^ 64, e, f, g]
  | _ => v

/-- A 64-bit big-endian word. -/
def be64 (l : List Byte) : Nat := l.foldl (fun n b => n * 256 + b.toNat) 0

/-- The words of one 128-byte block. -/
def shaWords : Nat → List Byte → List Nat
  | 0, _ => []
  | n + 1, l => be64 (l.take 8) :: shaWords n (l.drop 8)

def shaBlock (h : List Nat) (blk : List Byte) : List Nat :=
  let w := shaWords 16 blk
  let v := (shaK.zip (w ++ shaSched 64 w)).foldl shaRound h
  (h.zip v).map (fun p => (p.1 + p.2) % 2 ^ 64)

/-- Fold n blocks. -/
def shaBlocks : Nat → List Nat → List Byte → List Nat
  | 0, h, _ => h
  | n + 1, h, l => shaBlocks n (shaBlock h (l.take 128)) (l.drop 128)

/-- v as n bytes, big-endian. -/
def be (n v : Nat) : List Byte := (le n v).reverse

/-- The SHA-512 digest, 64 bytes. [PRESUMED: log entry 128.] -/
def sha512 (m : List Byte) : List Byte :=
  let pad := (239 - m.length % 128) % 128
  let p := m ++ [0x80] ++ List.replicate pad 0 ++ be 16 (8 * m.length)
  (shaBlocks (p.length / 128) shaH0 p).flatMap (be 8)

/-- One bit of the CRC-64 register, most significant bit first. -/
def crcBit (c : Nat) (b : Bool) : Nat :=
  let out := bit c 63
  let c := c * 2 % 2 ^ 64
  if out = b then c else c ^^^ 0x42f0e1eba9ea3693

/-- One byte into the CRC-64 register. -/
def crcByte (c : Nat) (x : Byte) : Nat :=
  [7, 6, 5, 4, 3, 2, 1, 0].foldl (fun c i => crcBit c (x.getLsbD i)) c

/-- The register before the first byte, and the value after the last (R327). -/
def crcInit : Nat := 2 ^ 64 - 1
def crcFinal (c : Nat) : Nat := not64 c

end Sys2Proof.Machine
end

