-- ==== Sys2Proof/Machine/Traffic.lean ====
section
/-! DEFINITION. What every access to device memory goes through: the charge of its DRAM traffic to a budget entry, the unit
counters, and uncorrectable words (R240, R243 to R246, R254, R264 to R266, R549). -/

namespace Sys2Proof.Machine

/-! ### Budget entries (R254) -/

abbrev bwCamw : Nat := 0
abbrev bwLplt : Nat := 1
abbrev bwSched : Nat := 2
abbrev bwNet : Nat := 3
abbrev bwHearth : Nat := 4
abbrev bwHost : Nat := 5
abbrev bwArch : Nat := 6
abbrev bwMaint : Nat := 7
abbrev bwCtx (c : Nat) : Nat := 8 + c

/-! ### Stacks -/

/-- The pseudo-channel of a device address (R240). -/
def pcOf (a : Nat) : Nat := bits a 8 5 ^^^ bits a 13 5 ^^^ bits a 18 5

/-- The parts of n bytes at DRAM address a that each stack serves: stack, bytes. -/
def stackParts (a n : Nat) : List (Nat × Nat) :=
  [(0, min (a + n) 0x400000000 - a), (1, a + n - max a 0x400000000)].filter (fun p => p.2 ≠ 0)

/-- n bytes at DRAM address a move for entry i: charged in each stack, and its unit counter at offset o advanced. -/
def State.moved (s : State) (i a n o : Nat) : State :=
  (stackParts a n).foldl (fun s p => (s.charge i p.1 p.2).bump (P.drc p.1 + o) (unitsOf p.2)) s

/-- The stack that serves address a is in its fault state and serves no request (R265). -/
def State.stackDead (s : State) (a : Nat) : Bool := inDram a && s.inFault (P.drc (stackOf a))

/-! ### Uncorrectable words (R244, R245) -/

/-- The word at address / 8 is or becomes uncorrectable: poisoned and its address held (R244, R264). -/
def State.dramBad (s : State) (a : Nat) : State :=
  let w := a / 8
  let p := P.drc (stackOf a)
  let s := if s.msys.poison.contains w then s else { s with msys := { s.msys with poison := w :: s.msys.poison } }
  if s.rdb p Reg.DRC_ERR_ADDR_held then s
  else (s.wr2 p Reg.DRC_ERR_ADDR_lo Reg.DRC_ERR_ADDR_hi (a / 64 * 64)).wrb p Reg.DRC_ERR_ADDR_held true

/-- The word of the other stack's copy of a resident billet that answers for address a (R245).
[DEDUCED: log entry 120.] -/
def State.billetTwin (s : State) (a : Nat) : Option Nat :=
  (List.range 8).findSome? (fun c => ((s.ctx c).billet).bind (fun b =>
    let x := b.copy0.toNat
    let y := b.copy1.toNat
    let n := b.len.toNat
    if x ≤ a ∧ a < x + n then some (y + (a - x) / 8 * 8)
    else if y ≤ a ∧ a < y + n then some (x + (a - y) / 8 * 8)
    else none))

/-- A repair from the other stack: the good data is written over the word, counted, recorded (R245).
[DEDUCED: log entry 120.] -/
def State.billetRepair (s : State) (a twin : Nat) : State :=
  let p := P.drc (stackOf a)
  let had := s.rd p Reg.BLK_ERR_cause
  let s := (s.store (a / 8 * 8) (s.load twin 8)).bump (p + 0x908)
  let s := s.noteCause p 0x15
  if had = 0 then s else if s.masked p 0x15 then s else s.raiseBlkFault p

/-- An uncorrectable word that a requester's read meets: recorded, counted, and repaired where the other stack's copy is good;
whether the requester gets it poisoned (R244, R245). -/
def State.readBad (s : State) (a : Nat) : State × Bool :=
  let p := P.drc (stackOf a)
  let s := (s.dramBad a).bump (p + 0x900)
  match s.billetTwin a with
  | some t =>
    if s.msys.poison.contains (t / 8) || s.stackDead t then (s.noteCause p 0x10, true) else (s.billetRepair a t, false)
  | none => (s.noteCause p 0x10, true)

/-! ### Reads and writes -/

/-- The words of n bytes at a that are uncorrectable. -/
def State.badWords (s : State) (a n : Nat) : List Nat :=
  s.msys.poison.filter (fun w => decide (w * 8 < a + n) && decide (a < w * 8 + 8))

/-- n bytes at a are read for entry i; whether they come back poisoned. What they are is load of the state after it. -/
def State.fetch (s : State) (i a n : Nat) : State × Bool :=
  if !inDram a then (s, false)
  else
    let s := s.moved i a n 0x920
    if s.stackDead a then (s, true)
    else (s.badWords a n).foldl (fun r w => let x := r.1.readBad (8 * w); (x.1, r.2 || x.2)) (s, false)

/-- A word of the range is uncorrectable, or its stack serves no request (R121, R244, R265). -/
def State.poisoned (s : State) (a n : Nat) : Bool := s.stackDead a || !(s.badWords a n).isEmpty

/-- The bytes present are written at a for entry i. A stack in its fault state takes none (R265); no master but Temper's
copier writes into the image region, which is counted (R549). -/
def State.putMasked (s : State) (i a : Nat) (data : List (Option Byte)) : State :=
  let s := if inDram a then s.moved i a data.length 0x928 else s
  if s.stackDead a then s
  else
    let kept := data.zipIdx.map (fun p => if inImage (a + p.2) then none else p.1)
    (if kept = data then s else s.bump (P.tmp + 0x828)).storeMasked a kept

def State.put (s : State) (i a : Nat) (bs : List Byte) : State := s.putMasked i a (bs.map some)

/-- DMA requests for n bytes of a bank at a, 64 bytes each, are served in cycles in which its owner presents none (R231, R232,
R262). [DEDUCED: log entry 160.] -/
def State.dmaServed (s : State) (a n : Nat) : State :=
  if (bankAt a).isSome then s.bump (P.bank + 0x818) (unitsOf n) else s

/-- A DMA write of entry i. -/
def State.dmaPut (s : State) (i a : Nat) (bs : List Byte) : State := (s.dmaServed a bs.length).put i a bs

end Sys2Proof.Machine
end

