-- ==== Sys2Proof/Machine/LinePipe.lean ====
section
/-! DEFINITION. The replay ring (R248 to R252) and the line pipelines: stages, parameter sets, statistics, overflow,
through-memory staging (R372 to R391), and the boxes that a dropped range or a photo-eye gives (R19, R383, R445). -/

namespace Sys2Proof.Machine

/-! ### Camera facts -/

abbrev camUnbound : Nat := 0
abbrev camDiscovering : Nat := 1
abbrev camBound : Nat := 2
abbrev camLost : Nat := 3

def State.cam (s : State) (k : Nat) : Cam := SMap.get s.cams k default
def State.setCam (s : State) (k : Nat) (x : Cam) : State := { s with cams := SMap.set s.cams k x default }
def State.pipe (s : State) (k : Nat) : Pipe := SMap.get s.pipes k default
def State.setPipe (s : State) (k : Nat) (x : Pipe) : State := { s with pipes := SMap.set s.pipes k x default }

def State.camState (s : State) (k : Nat) : Nat := s.rd (P.cfeC k) Reg.CFE_CAM_STAT_state
def State.camWidth (s : State) (k : Nat) : Nat := s.rd (P.cfeC k) Reg.CFE_CAM_FMT_width
def State.camFmt (s : State) (k : Nat) : Nat := s.rd (P.cfeC k) Reg.CFE_CAM_FMT_fmt

/-- Channels and depth of a format code of CFE_CAM_FMT (R369, R375). -/
def fmtChans (f : Nat) : Nat := if f ≤ 3 then 1 else 3
def fmtDepth (f : Nat) : Nat :=
  match f with
  | 0 => 8 | 1 => 10 | 2 => 12 | 3 => 16 | 4 => 8 | 5 => 10 | _ => 12

/-- Bytes of one channel as the CFE hands it on (R352). -/
def inBytes (f : Nat) : Nat := if fmtDepth f = 8 then 1 else 2

/-- The block height H; 0 acts as 1, and a height above 8,192 as written (R17). [DESIGN CHOICE: log entry 156.] -/
def State.camH (s : State) (k : Nat) : Nat := max 1 (s.rd (P.cfeC k) Reg.CFE_CAM_BLK_h)

/-- The first line of the block that holds line n. -/
def State.blockStart (s : State) (k n : Nat) : Nat := n / s.camH k * s.camH k

/-- o and the bytes of one channel after the line pipeline (R375). -/
def State.outBits (s : State) (k : Nat) : Nat := if s.rdb (P.lplC k) Reg.LPL_CAM_CFG_out16 then 16 else 8
def State.outBytes (s : State) (k : Nat) : Nat := s.outBits k / 8 * fmtChans (s.camFmt k)

def align64 (n : Nat) : Nat := (n + 63) / 64 * 64

/-! ### The replay ring (R248 to R251) -/

/-- L_p (R248). -/
def State.linePitch (s : State) (k : Nat) : Nat := align64 (s.camWidth k * s.outBytes k)
def State.ringSlots (s : State) (k : Nat) : Nat := s.rd P.replay Reg.REPLAY_GEOM_slots k
def State.slotSize (s : State) (k : Nat) : Nat := 4096 * s.rd P.replay Reg.REPLAY_SLOT_z k

/-- The least Z that the geometry allows (R248). -/
def State.slotNeed (s : State) (k : Nat) : Nat :=
  (s.camH k * s.linePitch k + align64 (8 * s.camH k) + 4095) / 4096 * 4096

/-- The slot of the block that begins at line first, and its index entry's place (R248, R272). -/
def State.slotNo (s : State) (k first : Nat) : Nat := first / s.camH k % s.ringSlots k
def State.slotAddr (s : State) (k first : Nat) : Nat :=
  s.rd2 P.replay Reg.REPLAY_BASE_lo Reg.REPLAY_BASE_hi k + s.slotNo k first * s.slotSize k
def State.slotPlace (s : State) (k first : Nat) : Nat := s.rd P.replay Reg.REPLAY_GEOM_idx_base k + s.slotNo k first
def State.tagAddr (s : State) (k n : Nat) : Nat :=
  s.slotAddr k (s.blockStart k n) + s.camH k * s.linePitch k + 8 * (n % s.camH k)

/-- The place of entry p of the replay index in N0 (R249). [DESIGN CHOICE: log entry 153.] -/
def replayIndex (p : Nat) : Nat := 0x1000000000 + 32 * p

def State.replayAt (s : State) (p : Nat) : ReplayEntry :=
  let b := s.load (replayIndex p) 32
  let at_ := fun i n => unle ((b.drop i).take n)
  { first := at_ 0 8, stamp := at_ 8 4, lines := at_ 12 2, flags := at_ 14 1, camera := at_ 15 1, time := at_ 16 8, gen := at_ 24 4 }

/-- The 32 bytes of an entry (R249). -/
def ReplayEntry.bytes (x : ReplayEntry) : List Byte :=
  le 8 x.first ++ le 4 x.stamp ++ le 2 x.lines ++ le 1 x.flags ++ le 1 x.camera ++ le 8 x.time ++ le 4 x.gen ++ le 4 0

/-- The index writer uses N0's system port, which ownership does not govern (R230). -/
def State.setReplay (s : State) (p : Nat) (x : ReplayEntry) : State :=
  if s.bankOn 192 then s.store (replayIndex p) x.bytes else s

/-- R250 steps 1 and 2: the entry is invalid and being written, gen advances, every tag of the slot is invalid; the bytes
behind the tags are zero (R248). -/
def State.slotOpen (s : State) (k first : Nat) : State :=
  if s.ringSlots k = 0 then s
  else
    let e := s.replayAt (s.slotPlace k first)
    let s := s.setReplay (s.slotPlace k first) { e with flags := 4, gen := (e.gen + 1) % 2 ^ 32 }
    let s := s.put bwCamw (s.tagAddr k first) (List.replicate (8 * s.camH k) 0xff)
    let pad := s.camH k * s.linePitch k + 8 * s.camH k
    if s.stackDead (s.slotAddr k first) then s else s.clearMem (s.slotAddr k first + pad) (s.slotSize k - pad)

/-- R250 step 3: a line's data, then its tag. -/
def State.slotLine (s : State) (k n : Nat) (data : List Byte) : State :=
  if s.ringSlots k = 0 then s
  else
    (s.put bwCamw (s.slotAddr k (s.blockStart k n) + n % s.camH k * s.linePitch k) data).put bwCamw (s.tagAddr k n) (le 8 n)

/-- R250 step 4: the entry of a finished block is valid. -/
def State.slotClose (s : State) (k first stamp lines : Nat) (mark : Bool) (time : Nat) : State :=
  if s.ringSlots k = 0 then s
  else
    let s := s.bump (P.replay + 0x800 + 0x10 * k)
    let e := s.replayAt (s.slotPlace k first)
    s.setReplay (s.slotPlace k first)
      { first := first, stamp := stamp, lines := lines, camera := k, time := time, gen := e.gen,
        flags := 1 + 2 * b2n (decide (lines < s.camH k)) + 8 * b2n mark }

/-- Line n of camera k is held (R251). -/
def State.lineHeld (s : State) (k n : Nat) : Bool :=
  decide (s.ringSlots k ≠ 0) &&
    (let e := s.replayAt (s.slotPlace k (s.blockStart k n))
     (bit e.flags 0 && decide (e.camera = k) && decide (e.first ≤ n) && decide (n < e.first + e.lines))
      || (bit e.flags 2 && decide (unle (s.load (s.tagAddr k n) 8) = n)))

/-- A line whose tag still reads its number after its data was read (R251). -/
def State.lineGood (s : State) (k n : Nat) : Bool :=
  s.lineHeld k n && decide (unle (s.load (s.tagAddr k n) 8) = n)

/-- The corrected value of channel c of pixel x of line n, from the ring. -/
def State.ringPixel (s : State) (k n x c : Nat) : Nat :=
  let w := s.outBits k / 8
  unle (s.load (s.slotAddr k (s.blockStart k n) + n % s.camH k * s.linePitch k + x * s.outBytes k + c * w) w)

/-! ### Boxes (R19, R20, R383, R445) -/

/-- A box with this first line belongs to context c while a swap of its camera is pending or being finished (R296). -/
def State.belongs (s : State) (c first : Nat) : Bool :=
  decide ((s.ctx c).since ≤ first) && (match (s.ctx c).swapTo with
    | some (_, l) => decide (first < l)
    | none => true)

/-- Context c receives a box of camera k with this first line (R273, R283, R296). -/
def State.receives (s : State) (c k first : Nat) : Bool :=
  decide (s.ctxState c = ctxRunning) && s.primEn c && decide (s.primCam c = k) && s.belongs c first

/-- Of blocks by first line and stamp, newest first, those that hold lines first to last. -/
def stampsOf (l : List (Nat × Nat)) (first last : Nat) : List (Nat × Nat) :=
  let l := l.filter (fun p => decide (p.1 ≤ last))
  l.takeWhile (fun p => decide (first < p.1)) ++ (l.dropWhile (fun p => decide (first < p.1))).take 1

/-- A box is issued to these contexts; one that no context receives goes nowhere. [DEDUCED: log entry 51.] -/
def State.issueTo (s : State) (k : Nat) (b : Box) (last : Nat) (cs : List Nat) : State :=
  if cs.isEmpty then s
  else s.setDet k { s.det k with issued := (s.det k).issued ++
    [{ box := b, last := last, dest := cs, stamps := stampsOf (s.pipe k).stamps b.first.toNat b.last.toNat }] }

/-- A box is issued by the block whose last line is last. -/
def State.issueBox (s : State) (k : Nat) (b : Box) (last : Nat) : State :=
  s.issueTo k b last ((List.range 8).filter (fun c => s.receives c k b.first.toNat))

def mkBox (k first last c0 c1 obj : Nat) (nv : Bool) : Box :=
  { first := BitVec.ofNat 64 first, last := BitVec.ofNat 64 last, col0 := BitVec.ofNat 16 c0, col1 := BitVec.ofNat 16 c1,
    object := BitVec.ofNat 32 obj, camera := Fin.ofNat 8 k, noVerdict := nv }

/-- A box touches a dropped line of the camera (R20, R359). [DEDUCED: log entry 71.] -/
def State.touchesDropped (s : State) (k first last : Nat) : Bool :=
  (s.pipe k).dropped.any (fun n => decide (first ≤ n) && decide (n ≤ last))

/-- A range of lines is issued as one full-width box with the no-verdict mark; the open boxes that touch it are closed
into it (R217, R383). [DEDUCED: log entry 71.] -/
def State.issueMark (s : State) (k first lines : Nat) : State :=
  let d := s.det k
  let touch := d.openBoxes.filter (fun b => decide (first ≤ b.2.last.toNat + 1))
  let f := (touch.map (fun b => b.2.first.toNat)).foldl min first
  let b := mkBox k f (first + lines - 1) 0 (s.camWidth k - 1) d.nextObj true
  (s.setDet k { d with openBoxes := d.openBoxes.filter (fun b => !decide (first ≤ b.2.last.toNat + 1)), lastRow := [],
                       nextObj := (d.nextObj + 1) % 2 ^ 32 }).issueBox k b (first + lines - 1)

/-- Lines of a photo-eye pulse: the first line at or past the leading count and the last at or before the trailing
one, at least one line, on the encoder grid of the block that closes (R19, R445). [DESIGN CHOICE: log entry 154.] -/
def eyeLines (first stamp spacing off lead trail : Nat) : Nat × Nat :=
  let dl := sext 32 ((lead + off + 2 ^ 32 - stamp) % 2 ^ 32)
  let dt := sext 32 ((trail + off + 2 ^ 32 - stamp) % 2 ^ 32)
  let f := ((first : Int) + (dl * 65536 + (spacing : Int) - 1) / spacing).toNat
  let l := ((first : Int) + (dt * 65536) / spacing).toNat
  (f, max f l)

/-- The spacing S_raw of the LTG that triggers camera k (R24). -/
def State.camSpacing (s : State) (k : Nat) : Nat :=
  match s.camLtg k with
  | some l => s.rd2 P.ltg Reg.LTG_SPC_S_lo Reg.LTG_SPC_S_hi l
  | none => 0

/-- The list with x in its place by first line, then first column. [DEDUCED: log entry 116.] -/
def boxInsert (x : Box) : List Box → List Box
  | [] => [x]
  | y :: ys =>
    if x.first.toNat < y.first.toNat ∨ (x.first.toNat = y.first.toNat ∧ x.col0.toNat < y.col0.toNat) then x :: y :: ys
    else y :: boxInsert x ys

/-- The boxes that are open when a binding ends are issued with the no-verdict mark, each to the context that opened it.
[DESIGN CHOICE: log entry 70.] -/
def State.openIssue (s : State) (k last : Nat) : State :=
  let d := s.det k
  (List.range 8).foldl (fun s c =>
      ((d.openBoxes.filter (fun p => p.1 = c)).foldl (fun m p => boxInsert { p.2 with noVerdict := true } m) []).foldl (fun s b =>
        s.issueTo k b last (if s.receives c k b.first.toNat then [c] else [])) s)
    (s.setDet k { d with openBoxes := [], lastRow := [] })

/-- Context c's detection program runs on a block of camera k with this first line (R273, R296).
[DEDUCED: log entry 52.] -/
def State.detects (s : State) (c k first : Nat) : Bool :=
  s.primEn c && decide (s.primCam c = k) && !s.rdb P.fio Reg.FIO_EYE_en k &&
    (decide (s.ctxState c = ctxRunning)
      || (decide (s.ctxState c = ctxStandby) && (List.range 8).any (fun a => match (s.ctx a).swapTo with
        | some (b, l) => b = c && decide (l ≤ first + s.camH k)
        | none => false)))

/-- What waits for detection of camera k, up to the first block that a detecting context has yet to take: a dropped range
is issued as one marked box (R383), and the end of a binding issues what is open (R19, R20). [DEDUCED: log entry 71.] -/
def State.blocksTrim (s : State) (k : Nat) : List DoneBlk → State
  | [] => s.setPipe k { s.pipe k with done := [] }
  | b :: bs =>
    if b.mark then State.blocksTrim (if b.lines = 0 then s.openIssue k b.first else s.issueMark k b.first b.lines) k bs
    else if (List.range 8).all (fun c => !s.detects c k b.first || b.took.contains c) then State.blocksTrim s k bs
    else s.setPipe k { s.pipe k with done := b :: bs }

/-- What waits for detection of camera k is never taken: every block is issued as a dropped range is.
[DESIGN CHOICE: log entry 70.] -/
def State.blocksLost (s : State) (k : Nat) : List DoneBlk → State
  | [] => s.setPipe k { s.pipe k with done := [] }
  | b :: bs => State.blocksLost (if b.lines = 0 then s.openIssue k b.first else s.issueMark k b.first b.lines) k bs

/-- Photo-eye boxes whose last line lies at or before the end of a block that has just completed are issued in its
list (R19). -/
def State.eyeIssue (s : State) (k first lines stamp : Nat) : State :=
  let sp := s.camSpacing k
  if !s.rdb P.fio Reg.FIO_EYE_en k || decide (sp = 0) then s
  else
    let off := s.rd P.fio Reg.FIO_EYE_OFF_off_ct k
    let range := fun (p : Nat × Nat × Nat × Bool) => eyeLines first stamp sp off p.2.1 p.2.2.1
    let go := (s.det k).eyeDone.filter (fun p => (range p).2 < first + lines)
    let s := s.setDet k { s.det k with eyeDone := (s.det k).eyeDone.filter (fun p => !decide ((range p).2 < first + lines)) }
    go.foldl (fun s p =>
      let r := range p
      s.issueBox k (mkBox k r.1 r.2 0 (s.camWidth k - 1) p.1 (p.2.2.2 || s.touchesDropped k r.1 r.2)) (first + lines - 1)) s

/-- The eye's boxes that a binding has not issued when it ends are issued with the no-verdict mark; the object still under
the eye ends with its leading edge's line. [DESIGN CHOICE: log entry 70.] -/
def State.eyeEnd (s : State) (k : Nat) : State :=
  let d := s.det k
  let l := d.eyeDone ++ (match d.eyeOpen with | some (o, lead, m) => [(o, lead, lead, m)] | none => [])
  let s := s.setDet k { d with eyeOpen := none, eyeDone := [] }
  let sp := s.camSpacing k
  match (s.pipe k).stamps.head? with
  | none => s
  | some (first, stamp) =>
    if sp = 0 then s
    else l.foldl (fun s p =>
      let r := eyeLines first stamp sp (s.rd P.fio Reg.FIO_EYE_OFF_off_ct k) p.2.1 p.2.2.1
      s.issueBox k (mkBox k r.1 r.2 0 (s.camWidth k - 1) p.1 true) r.2) s

/-! ### Stage arithmetic (R375 to R377) -/

/-- Shift right with rounding to nearest, ties away from zero (R173). -/
def rshift (x : Int) (n : Nat) : Int := roundDiv x (2 ^ n)
def rshiftN (x n : Nat) : Nat := (rshift x n).toNat

/-- Stage n, 1 to 6, is enabled in a set. -/
def stageOn (p : Option ParamSet) (n : Nat) : Bool :=
  match p with | some x => bit x.enables (n - 1) | none => false

/-- Column x of channel c is listed as defective. -/
def listed (defs : List (Nat × Nat)) (x c : Nat) : Bool := defs.any (fun d => d.1 = x && bit d.2 c)

/-- The nearest column below x, and at or above x, that is not listed for c. -/
def goodBelow (defs : List (Nat × Nat)) (c : Nat) : Nat → Option Nat
  | 0 => none
  | x + 1 => if listed defs x c then goodBelow defs c x else some x
def goodAbove (defs : List (Nat × Nat)) (c x : Nat) : Nat → Option Nat
  | 0 => none
  | n + 1 => if listed defs x c then goodAbove defs c (x + 1) n else some x

/-- Stages 1 to 3 of a line, with whether stage 3 limited each value. -/
def stages123 (p : Option ParamSet) (w ch d : Nat) (px : List Nat) : List (Nat × Bool) :=
  let top := 2 ^ d - 1
  let q := p.getD default
  let v1 := px.zipIdx.map (fun e => if stageOn p 1 then e.1 - q.black.getD (e.2 % ch * w + e.2 / ch) 0 else e.1)
  let v2 := v1.zipIdx.map (fun e =>
    let x := e.2 / ch
    let c := e.2 % ch
    if stageOn p 2 && listed q.defects x c then
      match goodBelow q.defects c x, goodAbove q.defects c (x + 1) (w - (x + 1)) with
      | some l, some r => rshiftN (v1.getD (l * ch + c) 0 + v1.getD (r * ch + c) 0) 1
      | some l, none => v1.getD (l * ch + c) 0
      | none, some r => v1.getD (r * ch + c) 0
      | none, none => e.1
    else e.1)
  v2.zipIdx.map (fun e =>
    if stageOn p 3 then
      let v := rshiftN (e.1 * q.flat.getD (e.2 % ch * w + e.2 / ch) 0) 14
      (min v top, decide (top < v))
    else (e.1, false))

/-- Stage 5, and stage 6 or the output form: v5, the output, and whether anything limited the value. -/
def stages56 (p : Option ParamSet) (d o c : Nat) (v : Nat × Bool) : Nat × Nat × Bool :=
  let top := 2 ^ d - 1
  let q := p.getD default
  let g := rshiftN (v.1 * q.g.getD c 0) 12
  let v5 := if stageOn p 5 then min g top else v.1
  let c5 := stageOn p 5 && decide (top < g)
  if stageOn p 6 then
    let i := if d ≤ 12 then v5 else min (rshiftN v5 4) 4095
    let t := q.tone.getD (c * 4096 + i) 0
    (v5, min t (2 ^ o - 1), v.2 || c5 || decide (2 ^ o - 1 < t))
  else if d ≤ o then (v5, v5, v.2 || c5)
  else
    let t := rshiftN v5 (d - 8)
    (v5, min t 255, v.2 || c5 || decide (255 < t))

/-- Channel c's v3 for output line n: from line n - a[c], none where that line was dropped or lies before line 0. -/
def alignChan (p : Option ParamSet) (hist : List (Nat × Bool × List (Nat × Bool))) (n c : Nat) : Option (List (Nat × Bool)) :=
  let a := if stageOn p 4 then (p.getD default).a.getD c 0 else 0
  if n < a then none
  else match hist.find? (fun h => h.1 = n - a) with
    | some h => if h.2.1 then none else some h.2.2
    | none => none

/-! ### Statistics (R381) -/

/-- Count one value at the statistics point: raw word, clip flag, value w of q bits, channel c, column bin b. -/
def Stat.value (t : Stat) (c topHit clipHit w q b : Nat) : Stat :=
  { t with
    tops := setAt 0 t.tops c ((t.tops.getD c 0 + topHit) % 2 ^ 32)
    clip := setAt 0 t.clip c ((t.clip.getD c 0 + clipHit) % 2 ^ 32)
    histo := SMap.insert t.histo (256 * c + w / 2 ^ (q - 8)) (SMap.get t.histo (256 * c + w / 2 ^ (q - 8)) 0 + 1)
    colSum := SMap.insert t.colSum (65536 * c + b) (SMap.get t.colSum (65536 * c + b) 0 + w) }

def State.statShift (s : State) (k : Nat) : Nat := min 6 (s.rd (P.lplC k) Reg.LPL_CAM_CFG_cb)
/-- [DEDUCED: log entry 73.] -/
def State.statPoint (s : State) (k : Nat) : Nat := min 2 (s.rd (P.lplC k) Reg.LPL_CAM_CFG_stat_pt)

/-- The statistics of one line that is not dropped: raw words, v5 with outputs and clip flags. -/
def State.statLine (s : State) (k : Nat) (t : Stat) (raw : List Nat) (res : List (Nat × Nat × Bool)) : Stat :=
  let ch := fmtChans (s.camFmt k)
  let d := fmtDepth (s.camFmt k)
  let pt := s.statPoint k
  let t := { t with counted := t.counted + 1 }
  (raw.zip res).zipIdx.foldl (fun t e =>
    let w := if pt = 0 then e.1.1 else if pt = 1 then e.1.2.1 else e.1.2.2.1
    t.value (e.2 % ch) (b2n (decide (e.1.1 = 2 ^ d - 1))) (b2n e.1.2.2.2) w (if pt = 2 then s.outBits k else d)
      (e.2 / ch / 2 ^ s.statShift k)) t

/-! ### Parameter sets (R378 to R380) -/

/-- The fields of the load status and bit 9 of the camera page. -/
def State.ploadState (s : State) (k v : Nat) : State :=
  (s.wr (P.lplC k) Reg.LPL_PLOAD_STAT_state v).putBlk (P.lplC k) 9 (v ≠ 0)

/-- A load ends without coming into force. -/
def State.ploadEnd (s : State) (k res : Nat) : State :=
  ((s.ploadState k 0).wr (P.lplC k) Reg.LPL_PLOAD_STAT_res res).bump (P.lplC k + 0x830)

/-- A pending load is withdrawn (R380). -/
def State.ploadWithdraw (s : State) (k : Nat) : State :=
  if s.rd (P.lplC k) Reg.LPL_PLOAD_STAT_state = 0 then s else s.ploadEnd k 7

/-- n little-endian 16-bit words at a. -/
def State.words16 (s : State) (a n : Nat) : List Nat := (List.range n).map (fun i => unle (s.load (a + 2 * i) 2))

/-- Where the sections of an image lie: flat, defect list, tone, end (R378). -/
def imageLayout (w ch defs : Nat) : Nat × Nat × Nat × Nat :=
  let flat := align64 (64 + 2 * ch * w)
  let dl := align64 (flat + 2 * ch * w)
  let tone := align64 (dl + 4 * defs)
  (flat, dl, tone, tone + 2 * ch * 4096)

/-- The image at device address a as a parameter set. -/
def State.readImage (s : State) (a w ch : Nat) : ParamSet :=
  let nd := unle (s.load (a + 4) 2)
  let (flat, dl, tone, _) := imageLayout w ch nd
  { enables := unle (s.load (a + 6) 1)
    a := (List.range ch).map (fun c => unle (s.load (a + 8 + c) 1))
    g := s.words16 (a + 16) ch
    defects := (List.range nd).map (fun i => let e := unle (s.load (a + dl + 4 * i) 4); (e % 65536, e / 65536 % 8))
    black := s.words16 (a + 64) (ch * w)
    flat := s.words16 (a + flat) (ch * w)
    tone := s.words16 (a + tone) (ch * 4096) }

def State.zeroBytes (s : State) (a n : Nat) : Bool := (s.load a n).all (fun b => b = 0)

/-- The reserved bytes of an image are zero (R378). -/
def State.imageReserved (s : State) (a w ch : Nat) : Bool :=
  let nd := unle (s.load (a + 4) 2)
  let (flat, dl, tone, _) := imageLayout w ch nd
  s.zeroBytes (a + 7) 1 && s.zeroBytes (a + 8 + ch) (8 - ch) && s.zeroBytes (a + 16 + 2 * ch) (48 - 2 * ch)
    && s.zeroBytes (a + 64 + 2 * ch * w) (flat - 64 - 2 * ch * w)
    && s.zeroBytes (a + flat + 2 * ch * w) (dl - flat - 2 * ch * w)
    && s.zeroBytes (a + dl + 4 * nd) (tone - dl - 4 * nd)

/-- Columns in ascending order. -/
def ascending : List Nat → Bool
  | [] => true
  | [_] => true
  | a :: b :: l => decide (a < b) && ascending (b :: l)

/-- The defect list satisfies R376. -/
def defectsValid (w ch : Nat) (defs : List (Nat × Nat)) : Bool :=
  decide (defs.length ≤ 1024) && ascending (defs.map Prod.fst) && defs.all (fun d => d.1 < w) &&
    (List.range ch).all (fun c =>
      let cols := (defs.filter (fun d => bit d.2 c)).map Prod.fst
      decide (cols.length < w) && cols.all (fun x => !([1, 2, 3, 4].all (fun i => cols.contains (x + i)))))

/-- The alignment satisfies R377. -/
def alignValid (w f : Nat) (inLine : Bool) (a : List Nat) : Bool :=
  a.all (fun x => x < 16) && (a.all (fun x => x = 0) || (inLine && decide (fmtChans f = 3)))
    && decide ((a.map (fun x => x * w * inBytes f)).foldl (· + ·) 0 ≤ 524288)

/-- The result code of the image check; 0 where it passes (R379 step 1, R389). [DEDUCED: log entry 72.] -/
def State.imageCode (s : State) (k a : Nat) : Nat :=
  let f := s.camFmt k
  let w := s.camWidth k
  let p := s.readImage a w (fmtChans f)
  if unle (s.load a 2) ≠ w % 65536 ∨ unle (s.load (a + 2) 1) ≠ fmtChans f ∨ unle (s.load (a + 3) 1) ≠ fmtDepth f then 2
  else if !defectsValid w (fmtChans f) p.defects then 3
  else if !alignValid w f (!s.rdb (P.lplC k) Reg.LPL_CAM_CFG_mode) p.a || !s.imageReserved a w (fmtChans f) then 4
  else 0

def State.ploadSrc (s : State) (k : Nat) : Nat := s.rd2 (P.lplC k) Reg.LPL_PLOAD_SRC_lo Reg.LPL_PLOAD_SRC_hi

/-- A write of LPL_PLOAD_CTL (R379, R388). [DEDUCED: log entry 43.] [DEDUCED: log entry 72.] -/
def State.ploadGo (s : State) (k v : Nat) : State :=
  if bits v 16 16 ≠ 0x7b1e then s.note (P.lplC k) .ignoredWrite
  else if !bit v 0 then s
  else if s.rd (P.lplC k) Reg.LPL_PLOAD_STAT_state ≠ 0 then
    (s.wr (P.lplC k) Reg.LPL_PLOAD_STAT_res 1).bump (P.lplC k + 0x830)
  else if s.camState k ≠ camDiscovering ∧ s.camState k ≠ camBound then s.ploadEnd k 6
  else
    let r := s.fetch bwHearth (s.ploadSrc k) 64
    let c := if r.2 then 5 else r.1.imageCode k (s.ploadSrc k)
    if c = 0 then r.1.ploadState k 1 else r.1.ploadEnd k c

def execLplPloadGo (k : Fin 8) (v : Word) (s : State) : Host.Outcome State Fault Refusal :=
  fin (s.onWrite (P.lplC k + 0x70) (fun s => s.ploadGo k v.toNat))

/-- PARAM_ARM: the copy ends and the switch is armed, or an uncorrectable read ends the load (R379, R389). -/
def State.paramArm (s : State) (k : Nat) (readOk : Bool) : State :=
  if s.rd (P.lplC k) Reg.LPL_PLOAD_STAT_state ≠ 1 then s
  else
    let a := s.ploadSrc k
    let w := s.camWidth k
    let ch := fmtChans (s.camFmt k)
    let r := s.fetch bwHearth a (imageLayout w ch (unle (s.load (a + 4) 2))).2.2.2
    let s := r.1
    if !readOk || r.2 then s.ploadEnd k 5
    else (s.ploadState k 2).setPipe k { s.pipe k with standby := some (s.readImage a w ch) }

def execParamArm (k : Fin 8) (readOk : Bool) (s : State) : Host.Outcome State Fault Refusal :=
  fin (s.whenClocked (fun s => s.paramArm k readOk))

/-- An armed set comes into force on line n where the line is due (R379, R380). -/
def State.paramSwitch (s : State) (k n : Nat) : State :=
  let from_ := s.rd2 (P.lplC k) Reg.LPL_PLOAD_LINE_lo Reg.LPL_PLOAD_LINE_hi
  if s.rd (P.lplC k) Reg.LPL_PLOAD_STAT_state = 2 ∧ from_ ≤ n then
    let p := s.pipe k
    let gen := (s.rd (P.lplC k) Reg.LPL_PLOAD_STAT_gen + 1) % 65536
    let s := s.setPipe k { p with inForce := p.standby, standby := p.inForce, stat := { p.stat with newSet := true } }
    let s := ((s.ploadState k 0).wr (P.lplC k) Reg.LPL_PLOAD_STAT_res 0).wr (P.lplC k) Reg.LPL_PLOAD_STAT_gen gen
    let s := (s.wr2 (P.lplC k) Reg.LPL_PARAM_LINE_lo Reg.LPL_PARAM_LINE_hi n).bump (P.lplC k + 0x820)
    let s := if from_ < n then s.bump (P.lplC k + 0x828) else s
    s.raise 0x700 0x2a (le 1 k ++ le 1 (b2n (decide (from_ < n))) ++ le 2 gen ++ le 4 0 ++ le 8 n)
  else s

/-! ### Blocks -/

/-- A block begins with this line (R250, R384). -/
def State.blockOpen (s : State) (k : Nat) (l : Line) : State :=
  let s := (s.slotOpen k l.number).clrBlk (P.lplC k) 8
  let p := s.pipe k
  let st : Stat := { (default : Stat) with first := l.number, stamp := l.count, block := l.number / s.camH k % 2 ^ 32,
                                           time := l.time, gen := s.rd (P.lplC k) Reg.LPL_PLOAD_STAT_gen,
                                           newSet := p.stat.newSet }
  s.setPipe k { p with open_ := true, blkFirst := l.number, blkLines := 0, stamp := l.count, mark := false,
                       blkTime := l.time, stat := st, stamps := ((l.number, l.count) :: p.stamps).take 16384 }

/-- The block being written ends with the lines it has (R250 step 4, R349, R381, R383). -/
def State.blockClose (s : State) (k : Nat) : State :=
  let p := s.pipe k
  if !p.open_ || decide (p.blkLines = 0) then s.setPipe k { p with open_ := false }
  else
    let s := s.slotClose k p.blkFirst p.stamp p.blkLines p.mark p.blkTime
    let st := { p.stat with lines := p.blkLines, short := decide (p.blkLines < s.camH k), mark := p.mark }
    let s := s.setPipe k { p with
      open_ := false, done := p.done ++ [{ first := p.blkFirst, lines := p.blkLines, mark := false }]
      stat := default
      statsDone := if s.rdb (P.lplC k) Reg.LPL_CAM_CFG_stat_en then p.statsDone ++ [st] else p.statsDone }
    (s.eyeIssue k p.blkFirst p.blkLines p.stamp).blocksTrim k (s.pipe k).done

/-! ### A line through the instance -/

/-- The output line: none where it is dropped, else v5, output and clip flag of every value. -/
def State.lineOut (s : State) (k n : Nat) : Option (List (Nat × Nat × Bool)) :=
  let p := s.pipe k
  let ch := fmtChans (s.camFmt k)
  let chans := (List.range ch).map (alignChan p.inForce p.hist n)
  if chans.any Option.isNone then none
  else some ((List.range (s.camWidth k * ch)).map (fun i =>
    stages56 p.inForce (fmtDepth (s.camFmt k)) (s.outBits k) (i % ch)
      (((chans.getD (i % ch) none).getD []).getD i (0, false))))

/-- A line is corrected and written (R250, R359, R375 to R381). -/
def State.lineWrite (s : State) (k : Nat) (l : Line) : State :=
  let s := s.paramSwitch k l.number
  let s := if l.number % s.camH k = 0 || !(s.pipe k).open_ then (s.blockClose k).blockOpen k l else s
  let p := s.pipe k
  let f := s.camFmt k
  let v3 := if l.dropped then [] else stages123 p.inForce (s.camWidth k) (fmtChans f) (fmtDepth f) l.pixels
  let s := s.setPipe k { p with hist := ((l.number, l.dropped, v3) :: p.hist).take 16 }
  let w := s.outBits k / 8
  let s := s.bump (P.lplC k + 0x800)
  match s.lineOut k l.number with
  | some out =>
    let s := s.slotLine k l.number (out.flatMap (fun v => le w v.2.1))
    let p := s.pipe k
    let s := s.bump (P.lplC k + 0x818) (out.countP (fun v => v.2.2))
    let raw := if l.dropped then List.replicate out.length 0 else l.pixels
    s.setPipe k { p with blkLines := p.blkLines + 1, stat := s.statLine k p.stat raw out }
  | none =>
    let s := s.slotLine k l.number (List.replicate (s.camWidth k * s.outBytes k) 0)
    let p := s.pipe k
    s.setPipe k { p with blkLines := p.blkLines + 1, mark := true, dropped := l.number :: p.dropped }

/-- A line overflows (R382 to R384). -/
def State.lineOverflow (s : State) (k : Nat) (l : Line) (cause : Nat) : State :=
  let h := s.camH k
  let b := s.blockStart k l.number
  let n := b + h - l.number
  let s := if l.number = b then (s.blockClose k).blockOpen k l else s
  let s := s.setPipe k { s.pipe k with mark := true }
  let s := s.blockClose k
  let s := s.setPipe k { s.pipe k with dropTo := b + h, dropped := (List.range n).map (· + l.number) ++ (s.pipe k).dropped }
  let s := ((s.bump (P.lplC k + 0x808) n).bump (P.lplC k + 0x810)).bump (P.lplI (s.rd (P.lplC k) Reg.LPL_CAM_CFG_inst) + 0x818)
  let s := (s.setBlk (P.lplC k) 8).raise 0x700 0x29 (le 1 k ++ le 1 cause ++ le 2 0 ++ le 4 n ++ le 8 l.number)
  s.blocksTrim k ((s.pipe k).done ++ [{ first := l.number, lines := n, mark := true }])

def ovfCode : OvfCause → Nat
  | .inputQueue => 1 | .stagingRing => 2 | .refusedWrite => 3 | .instanceFault => 4

def State.throughMemory (s : State) (k : Nat) : Bool := s.rdb (P.lplC k) Reg.LPL_CAM_CFG_mode

/-- A fault of the instance withdraws a pending load and takes the sets out of force (R380, and the paragraph that
opens the line pipelines' registers). -/
def State.instanceLost (s : State) (k : Nat) : State :=
  (s.ploadWithdraw k).setPipe k { (s.ploadWithdraw k).pipe k with inForce := none, standby := none }

/-- The instance takes one line of camera k. Out of its fault state it runs again at once, with every stage bypassed (R105,
and the paragraph that opens the line pipelines' registers); a fault of the camera's page or of the ring registers stops its
lines as the instance's does. [DESIGN CHOICE: log entry 157.] -/
def State.lplTake (s : State) (k : Nat) (l : Line) (ovf : Option OvfCause) : State :=
  let inst := P.lplI (s.rd (P.lplC k) Reg.LPL_CAM_CFG_inst)
  if l.number < (s.pipe k).dropTo then s
  else if s.inFault inst || s.inFault (P.lplC k) || s.inFault P.replay then (s.instanceLost k).lineOverflow k l 4
  else match (if l.ovf.isSome then l.ovf else ovf) with
    | some c => s.lineOverflow k l (ovfCode c)
    | none =>
      let s := ((s.resume inst).resume (P.lplC k)).resume P.replay
      let s := (s.bump (inst + (if s.throughMemory k then 0x808 else 0x800))).lineWrite k l
      if (s.pipe k).blkLines = s.camH k then s.blockClose k else s

/-- LPL_LINE (R375): the next line of the camera, as handed over or as read back. [DEDUCED: log entry 72.] -/
def State.lplLine (s : State) (k : Nat) (ovf : Option OvfCause) : State :=
  let c := s.cam k
  if s.throughMemory k then
    match c.fetched with
    | [] => s
    | l :: ls => (s.setCam k { c with fetched := ls }).lplTake k l ovf
  else
    match c.inbox with
    | [] => s
    | l :: ls => (s.setCam k { c with inbox := ls }).lplTake k l ovf

def execLplLine (k : Fin 8) (ovf : Option OvfCause) (s : State) : Host.Outcome State Fault Refusal :=
  fin (s.whenClocked (fun s => s.lplLine k ovf))

/-! ### Through memory (R372, R382) -/

/-- Lines of the staging ring (R386). -/
def State.tmDepth (s : State) (k : Nat) : Nat :=
  let d := s.rd (P.lplC k) Reg.LPL_CAM_CFG_tm_depth
  2 ^ (if 4 ≤ d ∧ d ≤ 8 then d else 6)

/-- The staging ring's place of line n. -/
def State.stageAddr (s : State) (k n : Nat) : Nat :=
  let f := s.camFmt k
  s.rd2 (P.lplC k) Reg.LPL_TM_BASE_lo Reg.LPL_TM_BASE_hi
    + n % s.tmDepth k * align64 (s.camWidth k * fmtChans f * inBytes f)

/-- LINE_STAGE: the CFE writes the next line into the staging ring; a full ring, or N3 not owned by the CFE, overflows
it (R232, R372, R382). -/
def State.lineStage (s : State) (k : Nat) : State :=
  let c := s.cam k
  if !s.throughMemory k then s
  else match c.inbox with
    | [] => s
    | l :: ls =>
      let full := decide (s.tmDepth k ≤ (c.staged.filter (fun x => x.ovf.isNone)).length)
      let ovf := if full then some OvfCause.stagingRing else if !s.serves 195 5 then some OvfCause.refusedWrite else none
      let s := s.setCam k { c with inbox := ls, staged := c.staged ++ [{ l with ovf := ovf }] }
      if ovf.isSome then s
      else (s.put bwLplt (s.stageAddr k l.number) (l.pixels.flatMap (le (inBytes (s.camFmt k))))).bump (P.lplC k + 0x848)

def execLineStage (k : Fin 8) (s : State) : Host.Outcome State Fault Refusal :=
  fin (s.whenClocked (fun s => s.lineStage k))

/-- The camera of instance i whose oldest staged line is the oldest; ties to the lower camera. -/
def State.oldestStaged (s : State) (i : Nat) : Option Nat :=
  (List.range 8).foldl (fun best k =>
    if s.throughMemory k && decide (s.rd (P.lplC k) Reg.LPL_CAM_CFG_inst = i) then
      match (s.cam k).staged.head?, best with
      | none, b => b
      | some _, none => some k
      | some l, some b => if l.time < (((s.cam b).staged.head?).map Line.time).getD 0 then some k else some b
    else best) none

/-- LINE_READBACK: the instance reads the oldest staged line of its through-memory cameras (R372). A line whose data comes
back uncorrectable is dropped. [DESIGN CHOICE: log entry 155.] -/
def State.lineReadback (s : State) (i : Nat) : State :=
  match s.oldestStaged i with
  | none => s
  | some k =>
    let c := s.cam k
    match c.staged with
    | [] => s
    | l :: ls =>
      let f := s.camFmt k
      if l.ovf.isSome then s.setCam k { c with staged := ls, fetched := c.fetched ++ [l] }
      else
        let r := s.fetch bwLplt (s.stageAddr k l.number) (l.pixels.length * inBytes f)
        let s := r.1
        let px := (List.range l.pixels.length).map (fun j => unle (s.load (s.stageAddr k l.number + j * inBytes f) (inBytes f)))
        s.setCam k { c with staged := ls, fetched := c.fetched ++ [{ l with pixels := px, dropped := l.dropped || r.2 }] }

def execLineReadback (i : Fin 4) (s : State) : Host.Outcome State Fault Refusal :=
  fin (s.whenClocked (fun s => s.lineReadback i))

/-! ### Statistics records (R381) -/

def State.statLog (s : State) (k : Nat) : Nat :=
  let n := s.rd (P.lplC k) Reg.LPL_STAT_RING_size_log2
  if 2 ≤ n ∧ n ≤ 12 then n else 4

/-- The mean of a column bin; a free value where no line was counted. -/
def statMean (t : Stat) (w cb c b free : Nat) : Nat :=
  let cols := min (2 ^ cb) (w - b * 2 ^ cb)
  if t.counted = 0 then free % 65536 else (roundDiv ((SMap.get t.colSum (65536 * c + b) (0 : Nat) : Nat) : Int) (t.counted * cols)).toNat

/-- The bytes of a statistics record; free numbers the free values used. [DEDUCED: log entry 73.] -/
def statBytes (t : Stat) (k ch w cb pt : Nat) (free : Nat → Nat) : List Byte :=
  let nb := (w + 2 ^ cb - 1) / 2 ^ cb
  let head := le 8 t.first ++ le 4 t.stamp ++ le 2 t.lines ++ le 2 t.counted ++ le 1 k ++ le 1 ch
    ++ le 1 (b2n t.short + 2 * b2n t.mark + 4 * b2n t.newSet) ++ le 1 pt ++ le 4 t.block ++ le 8 t.time ++ le 2 t.gen ++ le 2 0
    ++ padTo 12 (t.tops.flatMap (le 4)) ++ padTo 12 (t.clip.flatMap (le 4)) ++ le 4 0
  let hist := (List.range (256 * ch)).flatMap (fun i => le 4 (SMap.get t.histo i 0))
  let means := (List.range (ch * nb)).flatMap (fun i => le 2 (statMean t w cb (i / nb) (i % nb) (free i)))
  head ++ hist ++ padTo (align64 (2 * ch * nb)) means

/-- The statistics ring of camera k, its producer at prod, has room for no record (R381, R386). -/
def State.statFull (s : State) (k prod : Nat) : Bool :=
  decide ((prod + 1) % 2 ^ s.statLog k = s.rd (P.lplC k) Reg.LPL_STAT_CONS_cons % 2 ^ s.statLog k)

/-- The ring's level as BLK_STAT.blk bit 10 shows it. -/
def State.statLevel (s : State) (k : Nat) : State :=
  s.putBlk (P.lplC k) 10 (s.statFull k (s.rd (P.lplC k) Reg.LPL_STAT_RING_prod))

/-- STATS_RECORD: the oldest finished block's record is written, or dropped where the ring is full.
[DEDUCED: log entry 73.] -/
def State.statsRecord (s : State) (k : Nat) : State :=
  let p := s.pipe k
  match p.statsDone with
  | [] => s
  | t :: ts =>
    let s := s.setPipe k { p with statsDone := ts }
    let size := 2 ^ s.statLog k
    let prod := s.rd (P.lplC k) Reg.LPL_STAT_RING_prod
    let nxt := (prod + 1) % size
    if s.statFull k prod then (s.bump (P.lplC k + 0x840)).setBlk (P.lplC k) 10
    else
      let ch := fmtChans (s.camFmt k)
      let w := s.camWidth k
      let cb := s.statShift k
      let bs := statBytes t k ch w cb (s.statPoint k) (fun i => Config.freeNat (s.draws + i))
      let s := if t.counted = 0 then { s with draws := s.draws + bs.length } else s
      let s := s.put bwCamw (s.rd2 (P.lplC k) Reg.LPL_STAT_BASE_lo Reg.LPL_STAT_BASE_hi + prod % size * bs.length) bs
      let s := ((s.wr (P.lplC k) Reg.LPL_STAT_RING_prod nxt).bump (P.lplC k + 0x838)).statLevel k
      if s.rdb (P.lplC k) Reg.LPL_CAM_CFG_stat_evt then
        s.raise 0x700 0x28 (le 1 k ++ le 3 0 ++ le 4 nxt ++ le 8 t.first)
      else s

def execStatsRecord (k : Fin 8) (s : State) : Host.Outcome State Fault Refusal :=
  fin (s.whenClocked (fun s => s.statsRecord k))

/-! ### Unbinding (R349, R361, R380) -/

/-- The line pipeline's part in the end of a binding: the current block closes short as the final one, what detection has
yet to take is followed by the end of the binding, a pending load is withdrawn, every stage is bypassed, and gen reads 0.
[DESIGN CHOICE: log entry 70.] -/
def State.pipeUnbind (s : State) (k : Nat) : State :=
  let s := (s.blockClose k).eyeEnd k
  let s := s.blocksTrim k ((s.pipe k).done ++ [{ first := (s.cam k).nextLine - 1, lines := 0, mark := true }])
  let s := s.ploadWithdraw k
  let s := s.setPipe k { s.pipe k with inForce := none, standby := none, hist := [], dropTo := 0 }
  s.wr (P.lplC k) Reg.LPL_PLOAD_STAT_gen 0

end Sys2Proof.Machine
end

