-- ==== Sys2Proof/Machine/Cams.lean ====
section
/-! DEFINITION. Camera lanes and the CoaXPress front end: binding, stream packets, triggers, pairing, loss, PRBS
(R341 to R371). -/

namespace Sys2Proof.Machine

/-! ### Lanes and records -/

def State.lane (s : State) (n : Nat) : Lane := SMap.get s.lanes n default
def State.setLane (s : State) (n : Nat) (x : Lane) : State := { s with lanes := SMap.set s.lanes n x default }

/-- The lanes of camera k's group (R347). -/
def State.camLanes (s : State) (k : Nat) : List Nat := bitsOf 16 (s.rd (P.cfeC k) Reg.CFE_CAM_BIND_lanes)

/-- The camera a bound lane belongs to. -/
def State.laneCam (s : State) (n : Nat) : Option Nat :=
  if s.rdb (P.lane n) Reg.CXP_LANE_STAT_bound then some (s.rd (P.lane n) Reg.CXP_LANE_STAT_cam) else none

/-- The camera that a lane serves or is being bound to. -/
def State.laneUser (s : State) (n : Nat) : Option Nat :=
  match s.laneCam n with
  | some k => some k
  | none => (List.range 8).find? (fun k => s.camState k = camDiscovering && (s.camLanes k).contains n)

/-- The CAM_STATE record (R371); with no line handed over yet its line number is a free value.
[DEDUCED: log entry 65.] -/
def State.camRecord (s : State) (k : Nat) : State :=
  let c := s.cam k
  let head := le 1 k ++ le 1 (s.camState k) ++ le 1 (s.rd (P.cfeC k) Reg.CFE_CAM_STAT_res) ++ le 5 0
  if c.nextLine = 0 then s.draw.raise 0x610 0x20 (head ++ le 8 s.freeVal)
  else s.raise 0x610 0x20 (head ++ le 8 (c.nextLine - 1))

/-- Camera k enters a state; bit 8 of its page reads bound (R369). [DEDUCED: log entry 65.] -/
def State.camEnter (s : State) (k st : Nat) : State :=
  ((s.wr (P.cfeC k) Reg.CFE_CAM_STAT_state st).putBlk (P.cfeC k) 8 (st = camBound)).camRecord k

/-! ### Handing lines over (R17, R359) -/

/-- A line is handed to the line pipeline with the next line number. -/
def State.handOver (s : State) (k count : Nat) (dropped : Bool) (px : List Nat) : State :=
  let c := s.cam k
  let l : Line := { number := c.nextLine, count := count, dropped := dropped, time := s.now, pixels := px, ovf := none }
  (s.setCam k { c with nextLine := (c.nextLine + 1) % 2 ^ 64, inbox := c.inbox ++ [l] }).bump (P.cfeC k + 0x840)

def State.setLog (s : State) (k : Nat) (l : List Trig) : State :=
  (s.setCam k { s.cam k with log := l }).wr (P.cfeC k) Reg.CFE_CAM_STAT_log l.length

/-- The line of the oldest entry is missing and is supplied (R358, R359). -/
def State.supplyMissing (s : State) (k : Nat) : State :=
  match (s.cam k).log with
  | [] => s
  | t :: ts => ((s.setLog k ts).bump (P.cfeC k + 0x808)).handOver k t.count true []

/-- The end of an entry's window (R358). -/
def State.windowEnd (s : State) (k : Nat) (t : Trig) : Nat := t.time + 100 * s.rd (P.cfeC k) Reg.CFE_CAM_WIN_lat_max

/-- The oldest entry's line can no longer arrive: its window is past, or its trigger was not sent (R357, R358). -/
def State.oldestGone (s : State) (k : Nat) : Bool :=
  match (s.cam k).log with
  | [] => false
  | t :: _ => t.notSent || decide (s.windowEnd k t < s.now)

/-- Supply the missing lines at the head of the log, at most n. -/
def State.drainLog (s : State) (k : Nat) : Nat → State
  | 0 => s
  | n + 1 => if s.oldestGone k then State.drainLog (s.supplyMissing k) k n else s

/-! ### The end of a binding (R349, R361) -/

/-- Lines on their way to the instance are taken before the final block closes. -/
def State.flushLines (s : State) (k : Nat) : State :=
  let c := s.cam k
  (c.fetched ++ c.staged ++ c.inbox).foldl (fun s l => s.lplTake k l none) (s.setCam k { c with fetched := [], staged := [], inbox := [] })

/-- The declared rates that the binding added are withdrawn (R349). -/
def State.addRates (s : State) (l : List Nat) (f : Nat → Nat → Nat) : State :=
  [(0, 2), (0, 3), (1, 2), (1, 3)].zipIdx.foldl (fun s p =>
    let a := clsAddr p.1.1 p.1.2
    let d := l.getD p.2 0
    if d = 0 then s else s.holdReg a (f (s.nextWord a % 2 ^ 24) d % 2 ^ 24)) s

/-- LPL_INST_STAT of every instance (R385). -/
def State.instStat (s : State) : State :=
  (List.range 4).foldl (fun s i =>
    let mine := (List.range 8).filter (fun k => s.camState k = camBound && decide (s.rd (P.lplC k) Reg.LPL_CAM_CFG_inst = i))
    let inl := mine.filter (fun k => !s.throughMemory k)
    let tm := mine.filter s.throughMemory
    ((s.wr (P.lplI i) Reg.LPL_INST_STAT_inline_cam (inl.headD 0)).wrb (P.lplI i) Reg.LPL_INST_STAT_inline_en (!inl.isEmpty)).wr
      (P.lplI i) Reg.LPL_INST_STAT_tm_mask (tm.foldl setBit 0)) s

/-- What unbinding clears, ahead of the state it ends in. [DESIGN CHOICE: log entry 70.] -/
def State.camRelease (s : State) (k : Nat) : State :=
  let s := (s.flushLines k).pipeUnbind k
  let s := s.addRates (s.cam k).declared (fun a b => a - b)
  let s := (s.camLanes k).foldl (fun s n =>
    if s.laneCam n = some k then (s.wrb (P.lane n) Reg.CXP_LANE_STAT_bound false).wr (P.lane n) Reg.CXP_LANE_STAT_cam 0 else s) s
  let s := (s.clrBlk (P.cfeC k) 9).clrBlk (P.cfeC k) 10
  s.setCam k { s.cam k with log := [], declared := [], mismatch := false, lineBroken := false, tagsHeld := [], answers := [] }

/-- Camera k leaves its binding for UNBOUND or LOST. [DESIGN CHOICE: log entry 70.] -/
def State.camLeave (s : State) (k st : Nat) : State :=
  if s.camState k = camBound then (((s.camRelease k).setLog k []).camEnter k st).instStat
  else s.camEnter k st

def State.camLose (s : State) (k : Nat) : State := if s.camState k = camBound then s.camLeave k camLost else s

/-! ### Triggers (R355 to R357) -/

/-- [DEDUCED: log entry 66.] -/
def State.trigSrc (s : State) (k : Nat) : Nat := min 2 (s.rd (P.cfeC k) Reg.CFE_CAM_BLK_trig_src)

/-- The lane that carries connection 0 (R347). -/
def State.masterLane (s : State) (k : Nat) : Option Nat :=
  (s.camLanes k).find? (fun n => s.laneCam n = some k && decide (s.rd (P.lane n) Reg.CXP_LANE_STAT_conn = 0))

/-- A trigger on path k: logged and sent, not sent as an overrun, or the camera enters LOST (R355 to R357).
[DEDUCED: log entry 66.] -/
def State.camTrigger (s : State) (k count : Nat) (software : Bool) : State :=
  let c := s.cam k
  if s.camState k ≠ camBound ∨ s.trigSrc k = 2 ∨ s.clocked = false ∨ s.works P.cfe0 = false then s
  else if 64 ≤ c.log.length then s.camLose k
  else
    let above := match c.lastTrig with
      | some t => decide (t ≤ s.now) && decide (s.now < t + 1000)
      | none => false
    let e : Trig := { count := if software then 0 else count, time := s.now, software := software, notSent := above }
    let s := s.setLog k (c.log ++ [e])
    let s := s.setCam k { s.cam k with lastTrig := some s.now }
    if above then (s.bump (P.cfeC k + 0x830)).drainLog k 64
    else if s.trigSrc k = 0 then
      match s.masterLane k with
      | some n => s.bump (P.lane n + 0x848)
      | none => s
    else s

/-- GP_TRIGGER: software triggers on the paths that the writer owns (R355). -/
def State.gpTrigger (s : State) (v : Nat) (who : Requester) : State :=
  (bitsOf 8 v).foldl (fun s k =>
    if s.rd P.cfe0 Reg.CLAIM_CFE0_owner k = ownGp ∧ s.rd P.cfe0 Reg.CLAIM_CFE0_unit k = unitOf who then s.camTrigger k 0 true
    else s.bump (P.cfeC k + 0x838)) s

def execGpTrigger (v : Word) (who : Requester) (s : State) : Host.Outcome State Fault Refusal :=
  fin (s.onWrite (P.cfe0 + 0x60) (fun s => s.gpTrigger v.toNat who))

/-! ### Lines (R350 to R359) -/

/-- A line of camera k is lost (R353). -/
def State.lineLost (s : State) (k : Nat) : State :=
  (s.setCam k { s.cam k with lineBroken := false }).bump (P.cfeC k + 0x818)

/-- A complete line with all its packets: paired with the oldest trigger, or extra (R358). -/
def State.linePair (s : State) (k : Nat) (px : List Nat) : State :=
  if s.trigSrc k = 2 then s.handOver k 0 false px
  else
    let s := s.drainLog k 64
    match (s.cam k).log with
    | [] => s.bump (P.cfeC k + 0x810)
    | t :: ts =>
      if s.now < t.time + 100 * s.rd (P.cfeC k) Reg.CFE_CAM_WIN_lat_min then s.bump (P.cfeC k + 0x810)
      else (((s.setLog k ts).bump (P.cfeC k + 0x800)).handOver k t.count false px).drainLog k 64

/-- LINE_COMPLETE: values as the CFE unpacks them (R351 to R353, R358). [DESIGN CHOICE: log entry 69.] -/
def State.lineComplete (s : State) (k : Nat) (px : List Nat) : State :=
  if s.camState k ≠ camBound then s
  else if (s.cam k).mismatch || (s.cam k).lineBroken
      || decide (px.length ≠ s.camWidth k * fmtChans (s.camFmt k)) then s.lineLost k
  else s.linePair k (px.map (fun v => v % 2 ^ fmtDepth (s.camFmt k)))

def execLineComplete (k : Fin 8) (pixels : List (BitVec 16)) (s : State) : Host.Outcome State Fault Refusal :=
  fin (s.whenClocked (fun s => s.lineComplete k (pixels.map BitVec.toNat)))

/-- TRIGGER_WINDOW_EXPIRY (R358 step 1). -/
def execTriggerWindowExpiry (k : Fin 8) (s : State) : Host.Outcome State Fault Refusal :=
  if s.clocked && s.camState k = camBound && s.oldestGone k then fin ((s.supplyMissing k).drainLog k 64) else fin s

/-- IMAGE_HEADER (R351). -/
def execImageHeader (k : Fin 8) (xsize : BitVec 24) (fmt : BitVec 3) (s : State) : Host.Outcome State Fault Refusal :=
  if !s.clocked || decide (s.camState k ≠ camBound) then fin s
  else
    let bad := decide (xsize.toNat ≠ s.camWidth k) || decide (fmt.toNat ≠ s.camFmt k)
    let s' := (s.setCam k { s.cam k with mismatch := bad }).putBlk (P.cfeC k) 10 bad
    fin (if bad then s'.bump (P.cfeC k + 0x820) else s')

/-! ### Stream packets (R345, R350) -/

/-- Tags waiting in order are taken, at most n. [PRESUMED: log entry 67.] [DEDUCED: log entry 68.] -/
def takeTags : Nat → Nat → List Nat → Nat × List Nat
  | 0, t, held => (t, held)
  | n + 1, t, held => if held.contains t then takeTags n ((t + 1) % 256) (held.filter (fun x => x ≠ t)) else (t, held)

/-- An accepted packet with tag t takes its place (R350). [PRESUMED: log entry 67.] [DEDUCED: log entry 68.] -/
def State.packetTag (s : State) (k t : Nat) : State :=
  let c := s.cam k
  if t = c.nextTag then
    let r := takeTags 256 ((t + 1) % 256) c.tagsHeld
    s.setCam k { c with nextTag := r.1, tagsHeld := r.2 }
  else if (t + 256 - c.nextTag) % 256 < 128 then s.setCam k { c with tagsHeld := c.tagsHeld ++ [t] }
  else s

/-- STREAM_PACKET (R345, R350, R368). [DESIGN CHOICE: log entry 69.] -/
def State.streamPacket (s : State) (n : Nat) (p : StreamPacket) : State :=
  let b := P.lane n
  let v := p.codeViolations.toNat
  let d := p.disparityErrors.toNat
  let s := ((s.bump (b + 0x800) p.chars.toNat).bump (b + 0x808) v).bump (b + 0x810) d
  let s := if v = 0 then s else s.setBlk b 9
  let s := if d = 0 then s else s.setBlk b 10
  if v + d ≠ 0 then s
  else if !p.crcOk then (s.bump (b + 0x820)).setBlk b 11
  else match s.laneCam n with
    | none => s
    | some k =>
      if p.streamId.toNat ≠ s.rd (P.cfeC k) Reg.CFE_CAM_FMT_stream_id then s.bump (b + 0x828)
      else (s.bump (b + 0x818)).packetTag k p.tag.toNat

def execStreamPacket (n : Fin 16) (p : StreamPacket) (s : State) : Host.Outcome State Fault Refusal :=
  if s.clocked && s.rdb (P.lane n) Reg.CXP_LANE_STAT_lock then fin (s.streamPacket n p) else fin s

/-- PACKET_SKEW_TIMEOUT: the awaited packet is lost, and with it its line (R350, R353). [DEDUCED: log entry 68.] -/
def State.packetSkew (s : State) (k : Nat) : State :=
  let c := s.cam k
  if c.tagsHeld.isEmpty then s
  else
    let r := takeTags 256 ((c.nextTag + 1) % 256) c.tagsHeld
    (s.setCam k { c with nextTag := r.1, tagsHeld := r.2, lineBroken := true }).bump (P.cfeC k + 0x828)

def execPacketSkewTimeout (k : Fin 8) (s : State) : Host.Outcome State Fault Refusal := fin (s.whenClocked (fun s => s.packetSkew k))

/-- CONTROL_EVENT_PACKET: passed to the firmware (R341). -/
def execControlEventPacket (n : Fin 16) (data : List Byte) (s : State) : Host.Outcome State Fault Refusal :=
  if s.clocked && s.rdb (P.lane n) Reg.CXP_LANE_STAT_lock then fin (s.setLane n { s.lane n with rx := (s.lane n).rx ++ data }) else fin s

/-! ### Binding (R347, R348) -/

/-- The lanes of a mask form an aligned group (R347). -/
def alignedGroup (m : Nat) : Bool :=
  [1, 2, 4, 8].any (fun n => (List.range (16 / n)).any (fun i => m = (2 ^ n - 1) * 2 ^ (i * n)))

/-- Lane n is under PRBS test (R362). -/
def State.lanePrbs (s : State) (n : Nat) : Bool :=
  s.rdb (P.lane n) Reg.CXP_PRBS_CFG_gen_en || s.rdb (P.lane n) Reg.CXP_PRBS_CFG_chk_en

/-- Step 2 of R348 and R360: group, window and format. -/
def State.groupValid (s : State) (k : Nat) : Bool :=
  alignedGroup (s.rd (P.cfeC k) Reg.CFE_CAM_BIND_lanes)
    && (s.camLanes k).all (fun n => (s.laneUser n).isNone && !s.lanePrbs n)
    && decide (s.rd (P.cfeC k) Reg.CFE_CAM_WIN_lat_min < s.rd (P.cfeC k) Reg.CFE_CAM_WIN_lat_max)
    && decide (s.camFmt k ≠ 7) && decide (1 ≤ s.camWidth k) && decide (s.camWidth k ≤ 32768)

/-- A binding is refused: nothing is changed but the result (R348). -/
def State.bindRefuse (s : State) (k code : Nat) : State :=
  let c := s.cam k
  let back := if c.wasLost then camLost else camUnbound
  let s := (s.wr (P.cfeC k) Reg.CFE_CAM_STAT_res code).setCam k { c with answers := [], req := none }
  let s := s.camEnter k back
  match c.req with
  | some r => s.mbxReply r 0x20 3 code []
  | none => s

/-- Declared units of camera k's traffic in one stack: a rate in bytes per second over one period (R257, R348). -/
def unitsFor (bytesPerS period : Nat) : Nat := (bytesPerS * period + 64 * 1000000 - 1) / (64 * 1000000)

/-- CAMW and LPLT declarations in stacks 0 and 1 of a binding: line data, tags and their invalidation, statistics
records; staging writes and read-backs (R250, R254, R372, R381). -/
def State.bindRates (s : State) (k rmax : Nat) : List Nat :=
  let per := s.nextPlan.period
  let ch := fmtChans (s.camFmt k)
  let nb := (s.camWidth k + 2 ^ s.statShift k - 1) / 2 ^ s.statShift k
  let zs := if s.rdb (P.lplC k) Reg.LPL_CAM_CFG_stat_en then 64 + 1024 * ch + align64 (2 * ch * nb) else 0
  let camw := unitsFor (rmax * (s.camWidth k * s.outBytes k + 16) + rmax * zs / s.camH k) per
  let lplt := if s.throughMemory k then unitsFor (2 * rmax * s.camWidth k * ch * inBytes (s.camFmt k)) per else 0
  let ring := stackOf (s.rd2 P.replay Reg.REPLAY_BASE_lo Reg.REPLAY_BASE_hi k)
  let tm := stackOf (s.rd2 (P.lplC k) Reg.LPL_TM_BASE_lo Reg.LPL_TM_BASE_hi)
  [if ring = 0 then camw else 0, if ring = 1 then camw else 0, if tm = 0 then lplt else 0, if tm = 1 then lplt else 0]

/-- D of R252 in us: 64 ms, or the depth that R34 requires and the start-up set gives. -/
def State.ringDepth (s : State) (k : Nat) : Nat := max 64000 (((s.startSet.depths.map BitVec.toNat).getD k 0))

/-- The ring lies in the DRAM that the start-up set sets aside for rings (R252); no start-up set sets any aside.
[DESIGN CHOICE: log entry 45.] -/
def State.ringSetAside (s : State) (a n : Nat) : Bool :=
  !s.hasStartSet || s.startSet.rings.any (fun w => decide (w.1.toNat ≤ a) && decide (a + n ≤ w.1.toNat + w.2.toNat))

/-- The ring satisfies R248 and R252, and its index entries belong to no other bound camera. -/
def State.ringValid (s : State) (k rmax : Nat) : Bool :=
  let n := s.ringSlots k
  let i := s.rd P.replay Reg.REPLAY_GEOM_idx_base k
  let a := s.rd2 P.replay Reg.REPLAY_BASE_lo Reg.REPLAY_BASE_hi k
  decide ((s.ringDepth k * rmax + 1000000 * s.camH k - 1) / (1000000 * s.camH k) + 2 ≤ n) && decide (i + n ≤ 16384)
    && decide (s.slotNeed k ≤ s.slotSize k) && inDram (a + n * s.slotSize k - 1)
    && decide (stackOf a = stackOf (a + n * s.slotSize k - 1)) && s.ringSetAside a (n * s.slotSize k)
    && (List.range 8).all (fun j => j = k || s.camState j ≠ camBound
        || decide (i + n ≤ s.rd P.replay Reg.REPLAY_GEOM_idx_base j)
        || decide (s.rd P.replay Reg.REPLAY_GEOM_idx_base j + s.ringSlots j ≤ i))

/-- An instance can take camera k: one in-line, three through memory, 14.4 Gpx/s (R372, R373). -/
def State.instValid (s : State) (k rmax : Nat) : Bool :=
  let mine := (List.range 8).filter (fun j => j ≠ k && s.camState j = camBound
    && s.rd (P.lplC j) Reg.LPL_CAM_CFG_inst = s.rd (P.lplC k) Reg.LPL_CAM_CFG_inst)
  let load := (mine.map (fun j => s.camWidth j * fmtChans (s.camFmt j) * (s.cam j).rmax)).foldl (· + ·) 0
  (if s.throughMemory k then decide ((mine.filter s.throughMemory).length < 3) else mine.all s.throughMemory)
    && decide (load + s.camWidth k * fmtChans (s.camFmt k) * rmax ≤ 14400000000)

/-- CFE_CAM_CMD (R349, R369): bind, unbind, or nothing. A binding is the enabling sequence of the camera's page and its lanes
(R105); a page in its fault state does not act. -/
def State.camBind (s : State) (k rmax : Nat) : State :=
  let st := s.camState k
  if (st ≠ camUnbound ∧ st ≠ camLost) ∨ s.inFault (P.cfeC k) = true then s.note (P.cfeC k) .ignoredWrite
  else
    let s := (s.camLanes k).foldl (fun s n => s.resume (P.lane n)) (s.resume (P.cfeC k))
    let s := s.setCam k { s.cam k with wasLost := st = camLost, rmax := rmax, answers := [] }
    if s.groupValid k then s.camEnter k camDiscovering else s.bindRefuse k 1

/-- [DESIGN CHOICE: log entry 46.] [DESIGN CHOICE: log entry 70.] -/
def State.camUnbind (s : State) (k : Nat) : State :=
  if s.camState k = camUnbound then s
  else
    let s := s.camLeave k camUnbound
    match (s.cam k).req with
    | some r => (s.setCam k { s.cam k with req := none }).mbxReply r 0x20 5 0 []
    | none => s

def State.camCmd (s : State) (k v rmax : Nat) : State :=
  if bits v 16 16 ≠ 0x6c3a then s.note (P.cfeC k) .ignoredWrite
  else if bits v 0 2 = 1 then s.camBind k rmax
  else if bits v 0 2 = 2 then s.camUnbind k
  else s

def execCameraBind (k : Fin 8) (v : Word) (rmax : BitVec 32) (s : State) : Host.Outcome State Fault Refusal :=
  fin (s.onWrite (P.cfeC k + 0x58) (fun s => s.camCmd k v.toNat rmax.toNat))

def execCameraUnbind (k : Fin 8) (v : Word) (s : State) : Host.Outcome State Fault Refusal :=
  fin (s.onWrite (P.cfeC k + 0x58) (fun s => s.camCmd k v.toNat 0))

/-- Steps 5 to 7 of R348, once every lane has locked at speed. [DESIGN CHOICE: log entry 168.] -/
def State.bindFinish (s : State) (k : Nat) : State :=
  let c := s.cam k
  if s.trigSrc k = 0 ∧ !c.fastUplink then s.bindRefuse k 5
  else
    let rates := s.bindRates k c.rmax
    let t := s.addRates rates (· + ·)
    if (t.nextPlan.entryFailure 0).isSome ∨ (s.throughMemory k ∧ (t.nextPlan.entryFailure 1).isSome) then s.bindRefuse k 6
    else if !s.ringValid k c.rmax || !s.instValid k c.rmax then s.bindRefuse k 7
    else
      let s := (s.camLanes k).foldl (fun s n =>
        ((s.wrb (P.lane n) Reg.CXP_LANE_STAT_bound true).wr (P.lane n) Reg.CXP_LANE_STAT_cam k).wr (P.lane n)
          Reg.CXP_LANE_CFG_rate (s.rd (P.cfeC k) Reg.CFE_CAM_BIND_rate)) t
      let s := s.blocksLost k (s.pipe k).done
      let s := s.setDet k { s.det k with openBoxes := [], lastRow := [], eyeOpen := none, eyeDone := [] }
      let s := (s.setPipe k default).setCam k { (default : Cam) with rmax := c.rmax, declared := rates, fastUplink := c.fastUplink }
      let s := (((s.wr (P.cfeC k) Reg.CFE_CAM_STAT_res 0).setLog k []).camEnter k camBound).instStat
      let s := (List.range 8).foldl (fun s c =>
        if s.primCam c = k then s.setCtx c { s.ctx c with since := 0 } else s) s
      match c.req with
      | some r => s.mbxReply r 0x20 0 0 []
      | none => s

/-- Every lane of the group has answered from one device with connection IDs 0 to n - 1, each once (R348 step 3). -/
def answersGood (lanes : List Nat) (l : List (Nat × Nat × Nat)) : Bool :=
  (List.range lanes.length).all (fun c => l.countP (fun a => a.2.2 = c) = 1) &&
    l.all (fun a => l.all (fun b => a.2.1 = b.2.1))

/-- DISCOVERY_ANSWER: a lane answers; when all have, they retrain at the binding's speed (R348 steps 3 and 4).
[DESIGN CHOICE: log entry 69.] -/
def State.discoveryAnswer (s : State) (n device conn : Nat) (fast : Bool) : State :=
  match s.laneUser n with
  | none => s
  | some k =>
    let c := s.cam k
    if s.camState k ≠ camDiscovering ∨ c.answers.any (fun a => a.1 = n) then s
    else
      let c := { c with answers := c.answers ++ [(n, device, conn)], fastUplink := if conn = 0 then fast else c.fastUplink }
      let s := (s.setCam k c).wr (P.lane n) Reg.CXP_LANE_STAT_conn conn
      if c.answers.length < (s.camLanes k).length then s
      else if !answersGood (s.camLanes k) c.answers then s.bindRefuse k 3
      else (s.camLanes k).foldl (fun s m =>
        s.wrb (P.lane m) Reg.CXP_LANE_STAT_lock false) s

def execDiscoveryAnswer (n : Fin 16) (device : BitVec 16) (conn : BitVec 3) (fastUplink : Bool) (s : State) :
    Host.Outcome State Fault Refusal :=
  fin (s.whenClocked (fun s => s.discoveryAnswer n device.toNat conn.toNat fastUplink))

/-- BIND_TIMEOUT (R348 steps 3 and 4). -/
def execBindTimeout (k : Fin 8) (ph : BindPhase) (s : State) : Host.Outcome State Fault Refusal :=
  let all := decide ((s.camLanes k).length ≤ (s.cam k).answers.length)
  if !s.clocked || decide (s.camState k ≠ camDiscovering) then fin s
  else match ph with
    | .discovery => if all then fin s else fin (s.bindRefuse k 2)
    | .speed => if all then fin (s.bindRefuse k 4) else fin s

/-! ### Lane lock and loss (R344, R346, R361) -/

/-- The LANE_LOCK record (R371). -/
def State.laneRecord (s : State) (n : Nat) (regained : Bool) : State :=
  s.raise (0x600 + n) 0x21 (le 1 n ++ le 1 (b2n regained) ++ le 1 ((s.laneCam n).getD 0xff))

/-- LANE_LOSS (R346). -/
def State.laneLoss (s : State) (n : Nat) : State :=
  if (s.lane n).lost || !s.rdb (P.lane n) Reg.CXP_LANE_STAT_lock then s
  else
    let s := (s.setLane n { s.lane n with lost := true }).wrb (P.lane n) Reg.CXP_LANE_STAT_lock false
    let s := (s.setBlk (P.lane n) 8).bump (P.lane n + 0x830)
    let s := match s.laneCam n with
      | some k => (s.setCam k { s.cam k with lostLanes := n :: (s.cam k).lostLanes }).setBlk (P.cfeC k) 9
      | none => s
    s.laneRecord n false

def execLaneLoss (n : Fin 16) (s : State) : Host.Outcome State Fault Refusal := fin (s.whenClocked (fun s => s.laneLoss n))

/-- The CTLE setting in use: the one the sweep kept, or the one written (R344). -/
def State.ctleIn (s : State) (n found : Nat) : Nat :=
  if s.rdb (P.lane n) Reg.CXP_LANE_CFG_ctle_fix then s.rd (P.lane n) Reg.CXP_LANE_CFG_ctle else found

/-- The taps and the eye margin that the lane reports; frozen taps stay (R344, R366). -/
def State.laneReport (s : State) (n dfe eye : Nat) : State :=
  let b := P.lane n
  let s := if s.rdb b Reg.CXP_LANE_CFG_dfe_hold then s
    else ((((s.wr b Reg.CXP_LANE_DFE_tap1 (bits dfe 0 6)).wr b Reg.CXP_LANE_DFE_tap2 (bits dfe 6 6)).wr b Reg.CXP_LANE_DFE_tap3
      (bits dfe 12 6)).wr b Reg.CXP_LANE_DFE_tap4 (bits dfe 18 6)).wr b Reg.CXP_LANE_DFE_tap5 (bits dfe 24 6)
  s.wr b Reg.CXP_LANE_EYE_margin eye

/-- LANE_LOCKED: a lane locks at its speed, for the first time, in a binding, or again after a loss (R346, R348). -/
def State.laneLocked (s : State) (n ctle dfe eye : Nat) : State :=
  let was := (s.lane n).lost
  let s := s.laneReport n dfe eye
  let s := ((s.wrb (P.lane n) Reg.CXP_LANE_STAT_sig true).wrb (P.lane n) Reg.CXP_LANE_STAT_lock true).wr (P.lane n)
    Reg.CXP_LANE_STAT_ctle_act (s.ctleIn n ctle)
  let s := s.setLane n { s.lane n with lost := false, failedRetrains := 0 }
  let s := match s.laneCam n with
    | some k =>
      let l := (s.cam k).lostLanes.filter (fun x => x ≠ n)
      (s.setCam k { s.cam k with lostLanes := l }).putBlk (P.cfeC k) 9 (!l.isEmpty)
    | none => s
  let s := if was then s.laneRecord n true else s
  match s.laneUser n with
  | some k =>
    if s.camState k = camDiscovering && decide ((s.camLanes k).length ≤ (s.cam k).answers.length)
        && (s.camLanes k).all (fun m => s.rdb (P.lane m) Reg.CXP_LANE_STAT_lock) then s.bindFinish k
    else s
  | none => s

/-- A lane in its fault state, or held idle after it, does not lock (R104, R105). -/
def execLaneLocked (n : Fin 16) (ctle : BitVec 4) (s : State) (dfe : BitVec 30 := 0) (eye : BitVec 10 := 0) : Host.Outcome State Fault Refusal :=
  if !s.clocked || !s.works (P.lane n) || s.rdb (P.lane n) Reg.CXP_LANE_STAT_lock then fin s
  else fin (s.laneLocked n ctle.toNat dfe.toNat eye.toNat)

/-- CAMERA_LOSS_TIMEOUT (R361). -/
def execCameraLossTimeout (k : Fin 8) (n : Fin 16) (s : State) : Host.Outcome State Fault Refusal :=
  if s.clocked && (s.cam k).lostLanes.contains n then fin (s.camLose k) else fin s

/-- LANE_RETRAIN_FAIL: the third failure in succession is fault 0x10 of the lane, and its camera is LOST (R346, R361). -/
def State.laneRetrainFail (s : State) (n : Nat) : State :=
  let f := (s.lane n).failedRetrains + 1
  let s := s.setLane n { s.lane n with failedRetrains := f }
  if f < 3 then s
  else
    let s := (s.setLane n { s.lane n with failedRetrains := 0 }).blockFault (P.lane n) 0x10
    match s.laneCam n with
    | some k => s.camLose k
    | none => s

def execLaneRetrainFail (n : Fin 16) (s : State) : Host.Outcome State Fault Refusal :=
  if s.clocked && (s.lane n).lost then fin (s.laneRetrainFail n) else fin s

/-! ### Lane test (R362, R363) -/

/-- One generated bit is inverted; through the internal loopback the locked checker counts it. -/
def State.prbsInject (s : State) (n bitsRun : Nat) : State :=
  let b := P.lane n
  if !s.rdb b Reg.CXP_PRBS_CFG_gen_en then s
  else
    let s := s.setLane n { s.lane n with injected := (s.lane n).injected + 1 }
    if !s.rdb b Reg.CXP_PRBS_CFG_gen_dst && s.rdb b Reg.CXP_PRBS_CFG_chk_en && s.rdb b Reg.CXP_PRBS_CFG_chk_lock then
      ((s.bump (b + 0x838) bitsRun).bump (b + 0x840)).setBlk b 12
    else s

def execPrbsInjectOne (n : Fin 16) (s : State) : Host.Outcome State Fault Refusal :=
  fin (s.onWrite (P.lane n + 0x50) (fun s =>
    if s.rdb (P.lane n) Reg.CXP_LANE_STAT_bound then s.note (P.lane n) .ignoredWrite else s.prbsInject n 1))

def execPrbsInjectPeriodic (n : Fin 16) (s : State) : Host.Outcome State Fault Refusal :=
  let r := s.rd (P.lane n) Reg.CXP_PRBS_CFG_inj_rate
  if !s.clocked || decide (r = 0) then fin s else fin (s.prbsInject n (2 ^ (r + 9)))

/-- PRBS_LOCK: after 64 consecutive error-free bits (R363). -/
def execPrbsLock (n : Fin 16) (s : State) : Host.Outcome State Fault Refusal :=
  let b := P.lane n
  if s.clocked && s.rdb b Reg.CXP_PRBS_CFG_chk_en && !s.rdb b Reg.CXP_PRBS_CFG_chk_lock then
    fin ((s.wrb b Reg.CXP_PRBS_CFG_chk_lock true).bump (b + 0x838) 64)
  else fin s

/-- PRBS_LOCK_LOST: 64 errors within 1,024 bits (R363). -/
def execPrbsLockLost (n : Fin 16) (s : State) : Host.Outcome State Fault Refusal :=
  let b := P.lane n
  if s.clocked && s.rdb b Reg.CXP_PRBS_CFG_chk_lock then
    fin ((((s.wrb b Reg.CXP_PRBS_CFG_chk_lock false).bump (b + 0x840) 64).setBlk b 12).setBlk b 13)
  else fin s

end Sys2Proof.Machine
end

