-- ==== Sys2Proof/Machine/Encoder.lean ====
section
/-! DEFINITION. Encoders, line trigger generators and event timers (R392 to R407). A command names the event that the
sample brings: the decoded change, the passed time, the satisfied compare. -/

namespace Sys2Proof.Machine

def State.encOf (s : State) (e : Nat) : Enc := SMap.get s.encs e default
def State.setEnc (s : State) (e : Nat) (x : Enc) : State := { s with encs := SMap.set s.encs e x default }

def State.encCount (s : State) (e : Nat) : Nat := s.rd P.enc Reg.ENC_CNT_count e

/-- The encoder page, and the LTG page, act: ENCCLK runs, and the page is in no state of its own that stops it (R53, R64,
R104). [DESIGN CHOICE: log entry 158.] -/
def State.encActs (s : State) : Bool := s.hostReach && s.works P.enc
/-- [DESIGN CHOICE: log entry 158.] -/
def State.ltgActs (s : State) : Bool := s.hostReach && s.works P.ltg

/-! ### Decoding (R394) -/

/-- What a sample's change makes of the count. -/
inductive EncMove where
  | none | count (fwd : Bool) | illegal
  deriving DecidableEq, Repr

/-- R394's table: A leads B going forward; mode 1 is ×2, mode 2 is ×1, 0 and 3 are ×4. -/
def encMove (mode : Nat) (inv a b a' b' : Bool) : EncMove :=
  if a ≠ a' ∧ b ≠ b' then .illegal
  else if a ≠ a' then
    if mode = 2 ∧ !a' then .none else .count ((a' ≠ b) ≠ inv)
  else if b ≠ b' then
    if mode = 1 ∨ mode = 2 then .none else .count ((a = b') ≠ inv)
  else .none

/-! ### Encoder faults (R395, R396, R400) -/

/-- [DEDUCED: log entry 74.] -/
def State.illLim (s : State) (e : Nat) : Nat := max 1 (s.rd P.enc Reg.ENC_CFG_ill_lim e)

/-- The ENC_FAULT record (R428). -/
def State.encRecord (s : State) (e cause : Nat) : State :=
  s.raise 0x800 0x30 (le 1 e ++ le 1 cause ++ le 1 (s.rd P.enc Reg.ENC_STAT_cab e) ++ le 1 0 ++ le 4 (s.encCount e))

/-- The encoder enters its encoder fault; the page stays out of its own fault state (R400). -/
def State.encFault (s : State) (e cause : Nat) : State :=
  if s.rdb P.enc Reg.ENC_STAT_flt e then s
  else
    let s := (s.wrb P.enc Reg.ENC_STAT_flt true e).wr P.enc Reg.ENC_STAT_flt_cause cause e
    ((s.bump (P.enc + 0x808 + 0x20 * e)).setBlk P.enc 10).encRecord e cause

/-- An illegal transition (R394, R395); n is the number in the sliding window, this one among them.
[DEDUCED: log entry 74.] -/
def State.encIllegal (s : State) (e n : Nat) : State :=
  let s := ((s.wrb P.enc Reg.ENC_STAT_ill true e).bump (P.enc + 0x800 + 0x20 * e)).setBlk P.enc 8
  if s.illLim e ≤ n then s.encFault e 1 else s

/-! ### Counting (R394, R399) -/

/-- ENC_PERe over the intervals kept, newest first (R399). [DEDUCED: log entry 76.] -/
def perOf (avg : Nat) (l : List Nat) : Nat :=
  let l := l.take (2 ^ avg)
  if l.isEmpty then 0 else min 0xffffffff (roundDiv ((l.foldl (· + ·) 0 * 256 : Nat) : Int) l.length).toNat

/-- A count of encoder e; the first after a stop has no interval. -/
def State.encStep (s : State) (e : Nat) (fwd : Bool) (interval : Nat) : State :=
  let x := s.encOf e
  let l := if s.rdb P.enc Reg.ENC_STAT_stopped e then [] else (interval :: x.intervals).take 256
  let s := s.setEnc e { x with intervals := l, last := s.now }
  let s := s.wr P.enc Reg.ENC_CNT_count ((s.encCount e + (if fwd then 1 else 2 ^ 32 - 1)) % 2 ^ 32) e
  let s := (s.wrb P.enc Reg.ENC_STAT_stopped false e).wrb P.enc Reg.ENC_STAT_dir (!fwd) e
  s.wr P.enc Reg.ENC_PER_per (perOf (min 8 (s.rd P.enc Reg.ENC_CFG_avg e)) l) e

/-- ENCODER_COUNT: the accepted levels of a sample. -/
def State.encoderCount (s : State) (e : Nat) (a b : Bool) (interval ill : Nat) : State :=
  if !s.encActs then s
  else
  let x := s.encOf e
  let mv := encMove (s.rd P.enc Reg.ENC_CFG_mode e) (s.rdb P.enc Reg.ENC_CFG_dir_inv e) x.a x.b a b
  let s := s.setEnc e { x with a := a, b := b }
  match mv with
  | .none => s
  | .count fwd => s.encStep e fwd interval
  | .illegal => s.encIllegal e ill

def execEncoderCount (e : Fin 4) (a b : Bool) (interval : BitVec 40) (illInWindow : BitVec 8) (s : State) :
    Host.Outcome State Fault Refusal :=
  fin (s.encoderCount e a b interval.toNat illInWindow.toNat)

/-- ENCODER_STOP: stop_ms passes without a count (R399). -/
def State.encoderStop (s : State) (e : Nat) : State :=
  ((s.setEnc e { s.encOf e with intervals := [] }).wrb P.enc Reg.ENC_STAT_stopped true e).wr P.enc Reg.ENC_PER_per 0 e

def execEncoderStop (e : Fin 4) (s : State) : Host.Outcome State Fault Refusal := fin (if s.encActs then s.encoderStop e else s)

/-! ### Index and cable (R396, R397) -/

/-- An index line is routed to encoder e (R397). -/
def State.zRouted (s : State) (e : Nat) : Bool :=
  if e % 2 = 0 then s.rdb P.enc Reg.ENC_ZROUTE_z0_en && decide (s.rd P.enc Reg.ENC_ZROUTE_z0_to = e / 2)
  else s.rdb P.enc Reg.ENC_ZROUTE_z1_en && decide (s.rd P.enc Reg.ENC_ZROUTE_z1_to = e / 2)

/-- CABLE_CHECK_TIMEOUT: pair 0 A, 1 B, 2 Z; Z only where it is routed. -/
def State.cableCheck (s : State) (e pair : Nat) : State :=
  if bit (s.rd P.enc Reg.ENC_STAT_cab e) pair ∨ (pair = 2 ∧ !s.zRouted e) ∨ s.encActs = false then s
  else
    let s := s.wr P.enc Reg.ENC_STAT_cab (setBit (s.rd P.enc Reg.ENC_STAT_cab e) pair) e
    (s.setBlk P.enc 9).encFault e 2

def execCableCheckTimeout (e : Fin 4) (pair : Fin 3) (s : State) : Host.Outcome State Fault Refusal :=
  fin (s.cableCheck e pair)

abbrev ltgDisarmed : Nat := 0
abbrev ltgWaiting : Nat := 1

/-- cmp of LTG l (R401). -/
def State.ltgCmp (s : State) (l : Nat) : Nat := s.rd2 P.ltg Reg.LTG_CMP_cmp_lo Reg.LTG_CMP_cmp_hi l
def State.setCmp (s : State) (l v : Nat) : State := s.wr2 P.ltg Reg.LTG_CMP_cmp_lo Reg.LTG_CMP_cmp_hi (v % 2 ^ 48) l

/-! ### Register commands of page 0 -/

/-- A write of ENC_CTRLe.clr_flt = 1 (R400). [DEDUCED: log entry 74.] [DEDUCED: log entry 75.] -/
def State.clrFlt (s : State) (e : Nat) (agrees : Bool) (ill : Nat) : State :=
  if s.rdb P.enc Reg.ENC_STAT_flt e && !agrees && decide (ill < s.illLim e) then
    (((s.wr P.enc Reg.ENC_STAT_cab 0 e).wrb P.enc Reg.ENC_STAT_flt false e).wr P.enc Reg.ENC_STAT_flt_cause 0 e).encRecord e 3
  else s

def execClrFlt (e : Fin 4) (pairAgrees : Bool) (illInWindow : BitVec 8) (s : State) : Host.Outcome State Fault Refusal :=
  fin (s.onWrite (P.enc + 0x44 + 0x20 * e) (fun s => s.clrFlt e pairAgrees illInWindow.toNat))

/-- A write of ENC_CNTe (R398). -/
def State.encCntWrite (s : State) (e v : Nat) : State :=
  if s.encUsed e then s.bump (P.enc + 0x818 + 0x20 * e) else s.wr P.enc Reg.ENC_CNT_count v e

def execEncCntWrite (e : Fin 4) (v : Word) (s : State) : Host.Outcome State Fault Refusal :=
  fin (s.onWrite (P.enc + 0x4c + 0x20 * e) (fun s => s.encCntWrite e v.toNat))

/-- ENC_ZROUTE_WRITE (R397); the filters lie before INDEX_EDGE, which reports accepted edges only. -/
def execEncZrouteWrite (v : Word) (s : State) : Host.Outcome State Fault Refusal :=
  fin (s.onWrite (P.enc + 0xc0) (fun s => s.writeWord (P.enc + 0xc0) v.toNat))

/-! ### Arming (R402, R403, R405, R126) -/

def State.ltgTimeMode (s : State) (l : Nat) : Bool := s.rdb P.ltg Reg.LTG_CFG_src l
def State.ltgCams (s : State) (l : Nat) : List Nat := bitsOf 8 (s.rd P.ltg Reg.LTG_CFG_cams l)
def State.ltgS (s : State) (l : Nat) : Nat := s.rd2 P.ltg Reg.LTG_SPC_S_lo Reg.LTG_SPC_S_hi l

def pathRes (k : Nat) : Res := ⟨.path, P.cfe0, k⟩
def timerRes (t : Nat) : Res := ⟨.timer, P.enc, t⟩

/-- What arming LTG l claims. -/
def State.ltgRes (s : State) (l : Nat) : List Res :=
  (s.ltgCams l).map pathRes
    ++ (if s.rdb P.ltg Reg.LTG_CFG_fo_en l then [chanRes (s.rd P.ltg Reg.LTG_CFG_fo_ch l)] else [])
    ++ (if s.ltgTimeMode l then [timerRes (s.rd P.ltg Reg.LTG_CFG_tmr l)] else [])

/-- x has passed y: (x - y) mod 2^32 < 2^31 (R401). -/
def passed (x y : Nat) : Bool := decide ((x + 2 ^ 32 - y % 2 ^ 32) % 2 ^ 32 < 2 ^ 31)

/-- Why an LTG in encoder mode fails to arm, before its claims (R402, R403). [DEDUCED: log entry 77.] -/
def State.ltgCheck (s : State) (l : Nat) : Option Nat :=
  let st := s.rd P.ltg Reg.LTG_START_start l
  let e := s.rd P.ltg Reg.LTG_CFG_enc l
  if s.ltgTimeMode l then none
  else if s.ltgS l < 0x10000 ∨ 0x400000000000 < s.ltgS l then some 3
  else match s.rd P.ltg Reg.LTG_CFG_start l with
    | 1 => if 1 ≤ st ∧ st < 2 ^ 31 then none else some 3
    | 2 => if 2 ^ 31 ≤ st then some 3 else if !s.zRouted e then some 4 else none
    | _ => if passed (s.encCount e) st then some 2 else none

/-- State and compare of an LTG whose arming succeeds. -/
def State.ltgStart (s : State) (l : Nat) : State :=
  let st := s.rd P.ltg Reg.LTG_START_start l
  let c := s.encCount (s.rd P.ltg Reg.LTG_CFG_enc l)
  if s.ltgTimeMode l then s.wr P.ltg Reg.LTG_STAT_state ltgArmed l
  else match s.rd P.ltg Reg.LTG_CFG_start l with
    | 1 => (s.setCmp l ((c + st) % 2 ^ 32 * 65536)).wr P.ltg Reg.LTG_STAT_state ltgArmed l
    | 2 => s.wr P.ltg Reg.LTG_STAT_state ltgWaiting l
    | _ => (s.setCmp l (st * 65536)).wr P.ltg Reg.LTG_STAT_state ltgArmed l

/-- The arming of LTG l. -/
def State.ltgArming (s : State) (l : Nat) : Arming := ⟨ownLtg, l, s.ltgRes l⟩

/-- LTG l would claim if it were armed now. -/
def State.ltgClaims (s : State) (l : Nat) : Bool :=
  decide (s.rd P.ltg Reg.LTG_STAT_state l = ltgDisarmed) && !s.inFault P.ltg && (s.ltgCheck l).isNone

/-- LTG l is armed beside the armings of the same cycle, whose claims are settled on s0 (R126, R127). The arming is the
page's enabling sequence (R105). -/
def State.ltgArmOn (s s0 : State) (rivals : List Arming) (l : Nat) : State :=
  if s.rd P.ltg Reg.LTG_STAT_state l ≠ ltgDisarmed ∨ s.inFault P.ltg = true then s.resume P.ltg
  else
    let s := s.resume P.ltg
    let fail := fun (r : Nat) (s : State) => (s.wr P.ltg Reg.LTG_STAT_res r l).wrb P.ltg Reg.LTG_CTRL_arm false l
    match s.ltgCheck l with
    | some r => fail r s
    | none =>
      s.armOn s0 rivals (s.ltgArming l) (fun s => ((s.ltgStart l).wr P.ltg Reg.LTG_STAT_res 0 l).wrb P.ltg Reg.LTG_CTRL_arm true l)
        (fail 1)

/-- A write of LTG_CTRL.arm = 1: nothing else arms in its cycle. [DEDUCED: log entry 77.] -/
def State.ltgArm (s : State) (l : Nat) : State := s.ltgArmOn s [] l

def ltgCtrl (l : Nat) : Nat := P.ltg + 0x54 + 0x40 * l

def execLtgArm (l : Fin 4) (s : State) : Host.Outcome State Fault Refusal := fin (s.onWrite (ltgCtrl l) (fun s => s.ltgArm l))

/-- LTG l owns a resource. -/
def State.ltgOwns (s : State) (l : Nat) (r : Res) : Bool := s.owner r = ownLtg && decide (s.ownerUnit r = l)

/-- Release those of a list of resources that LTG l owns. -/
def State.ltgFree (s : State) (l : Nat) (rs : List Res) : State :=
  rs.foldl (fun s r => if s.ltgOwns l r then s.setOwner r ownFree 0 else s) s

/-- A write of LTG_CTRL.arm = 0 (R403): a channel with a pulse on keeps its claim until the pulse ends. -/
def State.ltgDisarm (s : State) (l : Nat) : State :=
  let s := (s.wr P.ltg Reg.LTG_STAT_state ltgDisarmed l).wrb P.ltg Reg.LTG_CTRL_arm false l
  let s := (s.ltgFree l ((List.range 8).map pathRes)).ltgFree l ((List.range 8).map timerRes)
  s.ltgFree l (((List.range 16).filter (fun n => !(s.chan n).demand)).map chanRes)

def execLtgDisarm (l : Fin 4) (s : State) : Host.Outcome State Fault Refusal :=
  fin (s.onWrite (ltgCtrl l) (fun s => if s.rd P.ltg Reg.LTG_STAT_state l = ltgDisarmed then s else s.ltgDisarm l))

/-! ### Hits (R401, R404 to R406) -/

/-- The field pulse of a hit: it starts, or a pulse that is on is extended. -/
def State.ltgPulse (s : State) (l : Nat) : State :=
  let n := s.rd P.ltg Reg.LTG_CFG_fo_ch l
  if s.rdb P.ltg Reg.LTG_CFG_fo_en l && s.ltgOwns l (chanRes n) then
    if (s.chan n).demand then s.bump (P.ltg + 0x808 + 0x10 * l) else s.setChan n { s.chan n with demand := true }
  else s

/-- What every hit does, in either mode. -/
def State.ltgTrigger (s : State) (l : Nat) : State :=
  let c := s.encCount (s.rd P.ltg Reg.LTG_CFG_enc l)
  let s := (s.wr P.ltg Reg.LTG_LAST_count c l).bump (P.ltg + 0x800 + 0x10 * l)
  (((s.ltgCams l).filter (fun k => s.ltgOwns l (pathRes k))).foldl (fun s k => s.camTrigger k c false) s).ltgPulse l

/-- ⌈cmp⌉ of R401. -/
def cmpCeil (cmp : Nat) : Nat := (cmp + 65535) / 65536 % 2 ^ 32

/-- The conditions of a hit at the compare: armed, in encoder mode, not in reverse, the compare satisfied. -/
def State.ltgHits (s : State) (l : Nat) : Bool :=
  let e := s.rd P.ltg Reg.LTG_CFG_enc l
  decide (s.rd P.ltg Reg.LTG_STAT_state l = ltgArmed) && !s.ltgTimeMode l && !s.rdb P.enc Reg.ENC_STAT_dir e
    && passed (s.encCount e) (cmpCeil (s.ltgCmp l))

/-- LTG_HIT. -/
def State.ltgHit (s : State) (l : Nat) : State :=
  if s.ltgActs && s.ltgHits l then (s.ltgTrigger l).setCmp l (s.ltgCmp l + s.ltgS l) else s

def execLtgHit (l : Fin 4) (s : State) : Host.Outcome State Fault Refusal := fin (s.ltgHit l)

/-- An LTG that waits for this index has its compare and is armed; one whose compare the index satisfies hits in the same
sample (R403). -/
def State.ltgIndex (s : State) (e l : Nat) : State :=
  if s.ltgActs && s.rd P.ltg Reg.LTG_STAT_state l = ltgWaiting && s.rd P.ltg Reg.LTG_CFG_enc l = e then
    ((s.setCmp l ((s.rd P.enc Reg.ENC_IDX_count e + s.rd P.ltg Reg.LTG_START_start l) % 2 ^ 32 * 65536)).wr P.ltg
      Reg.LTG_STAT_state ltgArmed l).ltgHit l
  else s

/-- INDEX_EDGE. -/
def State.indexEdge (s : State) (e : Nat) : State :=
  if s.encActs && s.zRouted e then
    let s := (s.wr P.enc Reg.ENC_IDX_count (s.encCount e) e).wrb P.enc Reg.ENC_STAT_idx true e
    (List.range 4).foldl (fun s l => s.ltgIndex e l) (s.bump (P.enc + 0x810 + 0x20 * e))
  else s

def execIndexEdge (e : Fin 4) (s : State) : Host.Outcome State Fault Refusal := fin (s.indexEdge e)

/-- LTG_PULSE_END: the channel's claim goes with the pulse where the LTG is disarmed. -/
def State.ltgPulseEnd (s : State) (l : Nat) : State :=
  let mine := (List.range 16).filter (fun n => s.ltgOwns l (chanRes n) && (s.chan n).demand)
  let s := mine.foldl (fun s n => s.setChan n { s.chan n with demand := false }) s
  if s.rd P.ltg Reg.LTG_STAT_state l = ltgDisarmed then s.ltgFree l (mine.map chanRes) else s

def execLtgPulseEnd (l : Fin 4) (s : State) : Host.Outcome State Fault Refusal := fin (s.ltgPulseEnd l)

/-! ### Event timers (R405, R407) -/

/-- EVENT_TIMER_EXPIRY. [DEDUCED: log entry 78.] -/
def State.timerExpiry (s : State) (t : Nat) : State :=
  if !s.encActs || !s.rdb P.enc Reg.TMR_CTL_run t then s
  else
    let s := s.bump (P.enc + 0x880 + 8 * t)
    let o := s.rd P.enc Reg.CLAIM_ENC_owner t
    let l := s.rd P.enc Reg.CLAIM_ENC_unit t
    if o = ownLtg then
      if s.ltgActs && s.rd P.ltg Reg.LTG_STAT_state l = ltgArmed && s.ltgTimeMode l then s.ltgTrigger l else s
    else if s.rdb P.enc Reg.TMR_CTL_evt t then
      s.raise 0x800 0x32 (le 1 t ++ le 7 0 ++ le 8 (s.ctr (P.enc + 0x880 + 8 * t)))
    else s

def execEventTimerExpiry (t : Fin 8) (s : State) : Host.Outcome State Fault Refusal := fin (s.timerExpiry t)

end Sys2Proof.Machine
end

