-- ==== Sys2Proof/Machine/Eth.lean ====
section
/-! DEFINITION. Ethernet ports, launch slots, timestamp queues and network time (R452 to R465, R476 to R478, R481). -/

namespace Sys2Proof.Machine

/-- An edge latch of CHIP_WAKE catches its source while clocks are stopped (R72). -/
def State.wakeEdge (s : State) (i : Nat) : State := if s.seq.power = .banked then s.latch i else s

/-- The ETH_LINK record (R481). -/
def State.linkRecord (s : State) (p kind : Nat) : State := s.raise (srcOf (P.eth p)) 0x50 (le 1 p ++ le 1 kind)

/-! ### Frames as bytes -/

def byteAt (f : List Byte) (i : Nat) : Nat := (f.getD i 0).toNat

/-- A big-endian 16-bit field of a published header (R5). -/
def be16At (f : List Byte) (i : Nat) : Nat := byteAt f i * 256 + byteAt f (i + 1)

def be32At (f : List Byte) (i : Nat) : Nat := be16At f i * 65536 + be16At f (i + 2)

/-- Where the frame's Ethernet payload begins: after one IEEE 802.1Q tag where there is one (R452). -/
def payloadAt (f : List Byte) : Nat := if be16At f 12 = 0x8100 then 18 else 14

def etherType (f : List Byte) : Nat := be16At f (payloadAt f - 2)

def isIpv4 (f : List Byte) : Bool :=
  etherType f = 0x800 && decide (payloadAt f + 20 ≤ f.length) && decide (byteAt f (payloadAt f) / 16 = 4)

/-- Where the UDP header begins. -/
def udpAt (f : List Byte) : Nat := payloadAt f + byteAt f (payloadAt f) % 16 * 4

def isUdp (f : List Byte) : Bool := isIpv4 f && decide (byteAt f (payloadAt f + 9) = 17) && decide (udpAt f + 8 ≤ f.length)

/-- Put bytes into a list from place i on, keeping its length. -/
def putBytes (f : List Byte) (i : Nat) (bs : List Byte) : List Byte :=
  f.zipIdx.map (fun e => if i ≤ e.2 ∧ e.2 < i + bs.length then bs.getD (e.2 - i) 0 else e.1)

def be16 (v : Nat) : List Byte := [BitVec.ofNat 8 (v / 256), BitVec.ofNat 8 v]

/-- The one's-complement sum of a list taken as big-endian 16-bit words. -/
def onesSum : List Byte → Nat
  | [] => 0
  | [a] => a.toNat * 256
  | a :: b :: l => a.toNat * 256 + b.toNat + onesSum l

/-- End-around carries folded in; three folds suffice for any frame. -/
def fold16 (x : Nat) : Nat :=
  let g := fun y => y % 65536 + y / 65536
  g (g (g x))

/-- The Internet checksum of a list. [PRESUMED: log entry 87.] -/
def checksum (l : List Byte) : Nat := 65535 - fold16 (onesSum l)

/-- The fields that a slot's flags have filled at the fetch (R463). [PRESUMED: log entry 87.] -/
def fillIp (f : List Byte) : List Byte :=
  if isIpv4 f then
    let i := payloadAt f
    let z := putBytes f (i + 10) [0, 0]
    putBytes z (i + 10) (be16 (checksum ((z.drop i).take (udpAt f - i))))
  else f

/-- [PRESUMED: log entry 87.] -/
def fillUdp (f : List Byte) : List Byte :=
  if isUdp f then
    let i := payloadAt f
    let u := udpAt f
    let n := be16At f (u + 4)
    let z := putBytes f (u + 6) [0, 0]
    let c := checksum ((z.drop (i + 12)).take 8 ++ [0, 17] ++ be16 n ++ (z.drop u).take n)
    putBytes z (u + 6) (be16 (if c = 0 then 65535 else c))
  else f

/-- The Ethernet FCS: CRC-32 over the frame, least significant bit first. -/
def crc32Bit (c : Nat) : Nat → Nat
  | 0 => c
  | n + 1 => crc32Bit (if c % 2 = 1 then (c / 2) ^^^ 0xedb88320 else c / 2) n

/-- [PRESUMED: log entry 87.] -/
def fcs (f : List Byte) : Nat := 0xffffffff - f.foldl (fun c b => crc32Bit (c ^^^ b.toNat) 8) 0xffffffff

/-- The frame as it leaves: padded to 64 bytes with the FCS appended (R463). [PRESUMED: log entry 87.] -/
def onWire (f : List Byte) : List Byte :=
  let g := f ++ List.replicate (60 - f.length) 0
  g ++ le 4 (fcs g)

/-! ### Reception (R453) -/

/-- A port's unicast address, first byte first. -/
def State.macOf (s : State) (p : Nat) : List Byte :=
  le 4 (s.rd (P.eth p) Reg.ETH_MAC_addr_lo) ++ le 2 (s.rd (P.eth p) Reg.ETH_MAC_addr_hi)

def broadcastMac : List Byte := List.replicate 6 0xff
def ptpMacs : List (List Byte) := [[0x01, 0x1b, 0x19, 0, 0, 0], [0x01, 0x80, 0xc2, 0, 0, 0x0e]]

/-- The port accepts the frame's destination (R452). -/
def State.accepts (s : State) (p : Nat) (f : List Byte) : Bool :=
  let d := f.take 6
  d = s.macOf p || d = broadcastMac || ptpMacs.contains d

/-- A PAUSE frame. -/
def isPause (f : List Byte) : Bool := etherType f = 0x8808

/-- Case 2 of R453: Brynade's port and magic, to the module's IPv4 address. -/
def State.isBrynade (s : State) (f : List Byte) : Bool :=
  isUdp f && decide (be32At f (payloadAt f + 16) = s.rd P.bry Reg.BRY_IP_addr)
    && decide (be16At f (udpAt f + 2) = s.rd P.bry Reg.BRY_UDP_port)
    && decide (byteAt f (udpAt f + 8) + 256 * byteAt f (udpAt f + 9) = 0xb7de)

/-- n bytes at offset i of a Brynade frame's header, little-endian (R5, R466). -/
def bryAt (f : List Byte) (i n : Nat) : Nat := unle ((f.drop (udpAt f + 8 + i)).take n)

/-- Type and fields of a Brynade frame; not well formed where the version, a byte that is zero, or the length is wrong.
[PRESUMED: log entry 87.] -/
def bryParse (f : List Byte) : Nat × BryPacket :=
  let t := bryAt f 3 1
  let n := bryAt f 24 2
  let body := (f.drop (udpAt f + 40)).take n
  let ctl := t = 2 || t = 3
  (t, { src := BitVec.ofNat 16 (bryAt f 4 2), dst := BitVec.ofNat 16 (bryAt f 6 2), flow := BitVec.ofNat 16 (bryAt f 8 2)
        flags := BitVec.ofNat 8 (bryAt f 10 1), op := BitVec.ofNat 8 (bryAt f 11 1), pseq := BitVec.ofNat 32 (bryAt f 12 4)
        jseq := BitVec.ofNat 32 (bryAt f 16 4), offset := BitVec.ofNat 32 (bryAt f 20 4), payload := body
        wellFormed := decide (bryAt f 2 1 = 1) && (ctl || t = 1 || t = 16) && decide (bryAt f 26 6 = 0)
          && (t = 16 || decide (bryAt f 11 1 = 0)) && (!ctl || decide (bryAt f 20 6 = 0)) && decide (body.length = n)
          && decide (n ≤ 1408) })

/-- A correction of port p: the term the port sets and the integrator's, in units of 10 ps (R458, R476).
[DESIGN CHOICE: log entry 89.] -/
def State.tsCorr (s : State) (p : Nat) (rx : Bool) : Int :=
  let b := P.eth p
  if rx then (s.viewPort p Reg.ETH_TS_CORR_INT_rx_int 0 : Int) + sext 16 (s.rd b Reg.ETH_TS_CORR_rx_ext)
  else (s.viewPort p Reg.ETH_TS_CORR_INT_tx_int 0 : Int) + sext 16 (s.rd b Reg.ETH_TS_CORR_tx_ext)

/-- The stamp of a frame that crosses the MAC/PCS boundary now, in whole nanoseconds (R458).
[DESIGN CHOICE: log entry 89.] -/
def State.stamp (s : State) (p : Nat) (rx : Bool) : Nat :=
  let c := s.tsCorr p rx
  wrap 64 (roundDiv (100 * (s.now : Int) + (if rx then -c else c)) 100)

/-- FRAME_RECEIVE. A frame is given without its FCS. [DESIGN CHOICE: log entry 93.] -/
def State.frameReceive (s : State) (p : Nat) (f : List Byte) (fcsOk : Bool) : State :=
  let b := P.eth p
  if !s.hostReach || !s.works b || !s.rdb b Reg.ETH_PORT_CFG_en || !s.rdb b Reg.ETH_PORT_STAT_link then s
  else if !fcsOk then s.bump (b + 0x810)
  else if isPause f then s.bump (b + 0x820)
  else if !s.accepts p f then s.bump (b + 0x818)
  else
    let s := s.bump (b + 0x808)
    let s := if f.take 6 = s.macOf p then s.wakeEdge (3 + p) else s
    if s.isBrynade f then
      if !(bryParse f).2.wellFormed then s.bump (P.bry + 0x860)
      else { s with bry := { s.bry with rx := s.bry.rx ++ [f] } }
    else s.setPort p { s.port p with rx := (s.port p).rx ++ [(f, s.stamp p true)] }

def execFrameReceive (p : Fin 2) (frame : List Byte) (fcsOk : Bool) (s : State) : Host.Outcome State Fault Refusal :=
  fin (s.frameReceive p frame fcsOk)

/-! ### Cages and links (R38, R454) -/

def execSfpOvercurrent (p : Fin 2) (s : State) : Host.Outcome State Fault Refusal :=
  let b := P.eth p
  if !s.rdb b Reg.ETH_PORT_STAT_sfp_pwr then fin s
  else fin ((((s.wrb b Reg.ETH_PORT_STAT_sfp_pwr false).wrb b Reg.ETH_PORT_STAT_ocp true).setBlk b 10).linkRecord p 2)

/-- The cage supply returns; there is none while the module is unpowered (R53). -/
def State.sfpRestore (s : State) (p : Nat) : State :=
  (s.wrb (P.eth p) Reg.ETH_PORT_STAT_ocp false).wrb (P.eth p) Reg.ETH_PORT_STAT_sfp_pwr
    (!s.unpowered && s.rdb (P.eth p) Reg.ETH_PORT_STAT_present)

/-- A write of ETH_PORT_CFG: its stored fields, and sfp_rst. Writing en = 1 is the port's enabling sequence (R105). -/
def State.portCfg (s : State) (p v : Nat) : State :=
  let s := s.storePlain (P.eth p + 0xc0) v
  let s := if bit v 0 then s.resume (P.eth p) else s
  if bit v 8 && s.rdb (P.eth p) Reg.ETH_PORT_STAT_ocp then s.sfpRestore p else s

def execSfpRst (p : Fin 2) (v : Word) (s : State) : Host.Outcome State Fault Refusal :=
  fin (s.onWrite (P.eth p + 0xc0) (fun s => s.portCfg p v.toNat))

/-- PLUG_IN_MODULE_CHANGE. [DESIGN CHOICE: log entry 88.] -/
def State.plugChange (s : State) (p : Nat) (inserted : Bool) : State :=
  let b := P.eth p
  if s.rdb b Reg.ETH_PORT_STAT_present = inserted then s
  else
    let s := (s.wrb b Reg.ETH_PORT_STAT_present inserted).sfpRestore p
    s.linkRecord p (if inserted then 4 else 3)

def execPlugInModuleChange (p : Fin 2) (inserted : Bool) (s : State) : Host.Outcome State Fault Refusal :=
  fin (s.plugChange p inserted)

/-- ETHCLK runs again: a link comes up on it, or the time is valid on it (R65). [DESIGN CHOICE: log entry 159.] -/
def State.ethRuns (s : State) : State :=
  { s with seq := { s.seq with clkLost := s.seq.clkLost.filter (fun c => c ≠ .eth) } }

/-- LINK_STATE_CHANGE; what los reads when a link goes down is not given. -/
def State.linkChange (s : State) (p : Nat) (up : Bool) : State :=
  let b := P.eth p
  if s.rdb b Reg.ETH_PORT_STAT_link = up ∨ (up ∧ (!s.rdb b Reg.ETH_PORT_CFG_en || !s.hostReach)) then s
  else
    let s := s.wrb b Reg.ETH_PORT_STAT_link up
    if up then (s.ethRuns.wrb b Reg.ETH_PORT_STAT_los false).linkRecord p 1
    else ((s.draw.wr b Reg.ETH_PORT_STAT_los s.freeVal).setBlk b 8).linkRecord p 0

def execLinkStateChange (p : Fin 2) (up : Bool) (s : State) : Host.Outcome State Fault Refusal := fin (s.linkChange p up)

/-! ### Network time (R455 to R459) -/

/-- PTP_CTL.valid changes, with the PTP_STATE record (R457, R481). -/
def State.ptpValid (s : State) (v : Bool) (cause : Nat) : State :=
  if s.rdb P.ptp Reg.PTP_CTL_valid = v then s
  else
    let s := s.wrb P.ptp Reg.PTP_CTL_valid v
    let s := if v then s.ethRuns else s.setBlk P.ptp 8
    s.raise (srcOf P.ptp) 0x51 (le 1 (b2n v) ++ le 1 cause)

/-- A remote group is armed (R456). -/
def State.remoteArmed (s : State) : Bool :=
  (List.range 32).any (fun g => s.rdb P.rtu Reg.RTU_GRP_CFG_armed g && s.rd P.rtu Reg.RTU_GRP_CFG_kind g = 1)

/-- PTP_CTL.step (R456). -/
def State.ptpStep (s : State) : State :=
  let d := sext 64 (s.rd2 P.ptp Reg.PTP_ADJ_offset_lo Reg.PTP_ADJ_offset_hi)
  if s.remoteArmed && decide (s.rd P.ptp Reg.PTP_CTL_step_lim < d.natAbs) then
    (s.bump (P.ptp + 0x808)).setBlk P.ptp 9
  else ({ s with ptp := { s.ptp with ns := wrap 64 ((s.ptp.ns : Int) + d) } }).bump (P.ptp + 0x800)

/-- The fields that a write of PTP_CTL stores beside valid; a running clock holds back new values (R106). -/
def State.ptpStore (s : State) (v : Nat) : State :=
  let a := P.ptp + 0x54
  if bits (s.readWord a) 8 24 = bits v 8 24 then s
  else s.storePlain a (256 * bits v 8 24 + 2 * s.rd P.ptp Reg.PTP_CTL_valid)

/-- A write of PTP_CTL: the stored fields, then the step; kick restarts the holdover interval that
PTP_HOLDOVER_EXPIRY ends. -/
def State.ptpCtl (s : State) (v : Nat) : State :=
  let s := s.ptpStore v
  let s := s.ptpValid (bit v 1) 1
  if bit v 0 then s.ptpStep else s

def execPtpStep (v : Word) (s : State) : Host.Outcome State Fault Refusal :=
  fin (s.onWrite (P.ptp + 0x54) (fun s => s.ptpCtl v.toNat))

def execPtpKick (v : Word) (s : State) : Host.Outcome State Fault Refusal :=
  fin (s.onWrite (P.ptp + 0x54) (fun s => s.ptpCtl v.toNat))

def execPtpRateWrite (v : Word) (s : State) : Host.Outcome State Fault Refusal :=
  fin (s.onWrite (P.ptp + 0x50) (fun s => s.writeWord (P.ptp + 0x50) v.toNat))

/-- PTP_HOLDOVER_EXPIRY (R457). -/
def execPtpHoldoverExpiry (s : State) : Host.Outcome State Fault Refusal := fin (s.ptpValid false 3)

/-- PPS_IN_EDGE (R459, R85). -/
def execPpsInEdge (s : State) : Host.Outcome State Fault Refusal :=
  fin (if !s.hostReach then s else ((s.wr2 P.ptp Reg.PTP_PPS_IN_time_lo Reg.PTP_PPS_IN_time_hi s.now).setBlk P.ptp 10).wakeEdge 6)

/-- PPS_OUT may pulse (R53, R459). -/
def State.ppsOn (s : State) : Bool :=
  s.rdb P.ptp Reg.PTP_PPS_out_en && !s.timeInvalid && !s.inReset && !s.unpowered && s.works P.ptp

/-- PPS_OUT_PULSE: the output rises at a whole second; it falls pw ms later as the clock passes (Idle.lean). -/
def execPpsOutPulse (s : State) : Host.Outcome State Fault Refusal :=
  if s.ppsOn then fin { s with ptp := { s.ptp with pps := true } } else fin s

/-! ### The transmit timestamp queue (R460, R461) -/

/-- TSQ_ENTRY_ADD. -/
def State.tsqAdd (s : State) (p : Nat) (e : TsEntry) : State :=
  let b := P.eth p
  if 64 ≤ (s.port p).tsq.length then
    (((s.wr b Reg.ETH_TSQ_LOST_id e.id).setBlk b 9).bump (b + 0x840)).raise (srcOf b) 0x52 (le 1 p ++ le 1 0 ++ le 2 e.id)
  else s.setPort p { s.port p with tsq := (s.port p).tsq ++ [e] }

/-- TSQ_POP. -/
def State.tsqPop (s : State) (p : Nat) : State :=
  if (s.port p).tsq.isEmpty then s.bump (P.eth p + 0x858)
  else s.setPort p { s.port p with tsq := (s.port p).tsq.drop 1 }

def execTsqPop (p : Fin 2) (s : State) : Host.Outcome State Fault Refusal :=
  fin (s.onWrite (P.eth p + 0xec) (fun s => s.tsqPop p))

/-! ### Launch slots (R462 to R465, R477) -/

abbrev slotEmpty : Nat := 0
abbrev slotLoading : Nat := 1
abbrev slotArmed : Nat := 2
abbrev slotSending : Nat := 3

def slotRes (p i : Nat) : Res := ⟨.slot, P.eth p, i⟩

def State.slotState (s : State) (p i : Nat) : Nat := s.rd (P.eth p) Reg.LSLOT_CTRL_state i
def State.setSlot (s : State) (p i st : Nat) : State := s.wr (P.eth p) Reg.LSLOT_CTRL_state st i
def State.setSlotRes (s : State) (p i r : Nat) : State := s.wr (P.eth p) Reg.LSLOT_CTRL_res r i
def State.slotTime (s : State) (p i : Nat) : Nat := s.rd2 (P.eth p) Reg.LSLOT_TIME_time_lo Reg.LSLOT_TIME_time_hi i
def State.slotLen (s : State) (p i : Nat) : Nat := s.rd (P.eth p) Reg.LSLOT_CFG_len i
def State.slotBuf (s : State) (p i : Nat) : List Byte := SMap.get (s.port p).buf i []

def State.setSlotBuf (s : State) (p i : Nat) (b : List Byte) : State :=
  s.setPort p { s.port p with buf := SMap.set (s.port p).buf i b [] }

def State.slotFetched (s : State) (p i : Nat) : Bool := (s.port p).fetched.contains i

def State.putFetched (s : State) (p i : Nat) (b : Bool) : State :=
  let l := (s.port p).fetched.filter (fun x => x ≠ i)
  s.setPort p { s.port p with fetched := if b then i :: l else l }

/-- The slot returns to EMPTY with a result. -/
def State.slotEnd (s : State) (p i r : Nat) : State := ((s.putFetched p i false).setSlot p i slotEmpty).setSlotRes p i r

/-- A requester may write the slot's registers: it owns the slot, or nobody does (R130, R477). -/
def State.slotMine (s : State) (p i : Nat) (who : Requester) : Bool :=
  s.owner (slotRes p i) = ownFree
    || (s.owner (slotRes p i) = ownGp && decide (s.ownerUnit (slotRes p i) = unitOf who))

/-- A write of a slot's plain register: refused from the start of the fetch on (R463). [DEDUCED: log entry 90.] -/
def State.slotWrite (s : State) (p i addr v : Nat) (who : Requester) : State :=
  if s.slotMine p i who && !s.slotFetched p i then s.writeWord addr v else s.bump (P.eth p + 0x858)

/-- go = 1 of the owner: accepted in EMPTY only (R462). [DEDUCED: log entry 90.] -/
def State.slotGo (s : State) (p i : Nat) : State :=
  if s.slotState p i = slotEmpty then s.setSlot p i slotLoading else s.setSlotRes p i 6

/-- cancel = 1 of the owner (R465). [DEDUCED: log entry 90.] -/
def State.slotCancel (s : State) (p i : Nat) : State :=
  if s.slotState p i = slotArmed then s.slotEnd p i 4 else s.bump (P.eth p + 0x858)

/-- A write of LSLOT_CTRL by a requester. A go in a slot that another owns is refused with claim code 0x1 (R130). -/
def State.slotCtrl (s : State) (p i v : Nat) (who : Requester) : State :=
  let b := P.eth p
  if s.owner (slotRes p i) = ownGp ∧ s.ownerUnit (slotRes p i) = unitOf who then
    if s.slotFetched p i then
      let s := s.bump (b + 0x858)
      if bit v 1 then s.setSlotRes p i 5 else if bit v 0 then s.setSlotRes p i 6 else s
    else
      let s := s.wr b Reg.LSLOT_CTRL_ts_id (bits v 16 16) i
      let s := if bit v 1 then s.slotCancel p i else s
      if bit v 0 then s.slotGo p i else s
  else if s.owner (slotRes p i) = ownFree then
    let s := s.wr b Reg.LSLOT_CTRL_ts_id (bits v 16 16) i
    if bit v 0 || bit v 1 then s.bump (b + 0x858) else s
  else
    let s := s.bump (b + 0x858)
    if bit v 0 then s.claimFail (slotRes p i) 1 ownGp (unitOf who) 1 else s

def slotCtrlAddr (p i : Nat) : Nat := P.eth p + 0x20c + 0x20 * i

def execLslotGo (p : Fin 2) (s : Fin 32) (v : Word) (who : Requester) (st : State) : Host.Outcome State Fault Refusal :=
  fin (st.onWrite (slotCtrlAddr p s) (fun st => st.slotCtrl p s v.toNat who))

def execLslotCancel (p : Fin 2) (s : Fin 32) (v : Word) (who : Requester) (st : State) : Host.Outcome State Fault Refusal :=
  fin (st.onWrite (slotCtrlAddr p s) (fun st => st.slotCtrl p s v.toNat who))

/-- n bytes at a lie in DRAM, or in Nimbus regions that are on (R462). -/
def State.slotSource (s : State) (a n : Nat) : Bool :=
  inDram (a + n - 1) || (decide (0x1000000000 ≤ a) && decide (a + n ≤ 0x1000600000)
    && s.bankOn (192 + (a - 0x1000000000) / 0x100000) && s.bankOn (192 + (a + n - 1 - 0x1000000000) / 0x100000))

/-- A slot's copy: the bytes that it brings, none where it fails (R462). -/
def State.slotCopy (s : State) (p i : Nat) (readOk : Bool) : State × Option (List Byte) :=
  let a := s.rd2 (P.eth p) Reg.LSLOT_SRC_addr_lo Reg.LSLOT_SRC_addr_hi i
  let n := s.slotLen p i
  if decide (60 ≤ n) && decide (n ≤ 1514) && s.slotSource a n then
    let r := s.fetch bwNet a n
    (r.1, if readOk && !r.2 then some (r.1.load a n) else none)
  else (s, none)

/-- LSLOT_COPY_DONE. -/
def State.slotCopyDone (s : State) (p i : Nat) (readOk : Bool) : State :=
  if s.slotState p i ≠ slotLoading then s
  else match s.slotCopy p i readOk with
    | (s, some b) => (s.setSlotBuf p i b).setSlot p i slotArmed
    | (s, none) => s.slotEnd p i 1

def execLslotCopyDone (p : Fin 2) (s : Fin 32) (readOk : Bool) (st : State) : Host.Outcome State Fault Refusal :=
  fin (st.whenClocked (fun st => st.slotCopyDone p s readOk))

/-- The frame of a slot with its selected fields filled (R463). -/
def State.slotFrame (s : State) (p i : Nat) : List Byte :=
  let b := P.eth p
  let f := (s.slotBuf p i).take (s.slotLen p i)
  let f := if s.rdb b Reg.LSLOT_CFG_time_en i then
      putBytes f (s.rd b Reg.LSLOT_CFG_time_off i) (le 8 (s.slotTime p i)) else f
  let f := if s.rdb b Reg.LSLOT_CFG_ip_csum i then fillIp f else f
  if s.rdb b Reg.LSLOT_CFG_udp_csum i then fillUdp f else f

/-- LAUNCH_FETCH: 1.0 µs before the launch time of an ARMED slot, which is SENDING from then on. The buffer keeps the template; the fields are filled
in the frame that leaves. -/
def execLaunchFetch (p : Fin 2) (s : Fin 32) (st : State) : Host.Outcome State Fault Refusal :=
  if st.slotState p s = slotArmed then fin ((st.putFetched p s true).setSlot p s slotSending) else fin st

/-- The port sends nothing: TX_DISABLE, no link, or its fault state (R454, R465). [DEDUCED: log entry 90.] -/
def State.portDead (s : State) (p : Nat) : Bool :=
  s.txDisabled p || !s.rdb (P.eth p) Reg.ETH_PORT_STAT_link || !s.works (P.eth p)

/-- Slot i is the first of the port's fetched slots in launch order (R464). -/
def State.slotFirst (s : State) (p i : Nat) : Bool :=
  (s.port p).fetched.all (fun j => decide (s.slotTime p i < s.slotTime p j)
    || (decide (s.slotTime p i = s.slotTime p j) && decide (i ≤ j)))

/-- A frame leaves the port. -/
def State.sendFrame (s : State) (p : Nat) (f : List Byte) : State :=
  (s.setPort p { s.port p with sent := (s.port p).sent ++ [onWire f] }).bump (P.eth p + 0x800)

/-- A slot's frame: sent, late or dropped (R464, R465); none while starting for a slot of the RTU (R53), whose page counts
its own (R427). [DEDUCED: log entry 90.] -/
def State.slotSend (s : State) (p i : Nat) : State :=
  let b := P.eth p
  let rtu := s.owner (slotRes p i) = ownRtu
  if s.portDead p || (rtu && decide (s.modState = 3)) then
    ((s.slotEnd p i 3).bump (b + 0x838)).setBlk b 12
  else
    let t := max s.now (s.slotTime p i)
    let late := decide (s.slotTime p i + 50 < t)
    let e : TsEntry := { id := s.rd b Reg.LSLOT_CTRL_ts_id i, isSlot := true, slot := i, late := late, time := t }
    let ts := s.rdb b Reg.LSLOT_CFG_ts_en i
    let s := ((s.sendFrame p (s.slotFrame p i)).slotEnd p i (if late then 2 else 0)).bump (b + 0x828)
    let s := if rtu then s.bump (P.rtu + 0x840) else s
    let s := if late then (s.bump (b + 0x830)).setBlk b 11 else s
    if ts then s.tsqAdd p e else s

/-- A ring frame of n bytes on the wire ends before every fetched launch time (R463). -/
def State.ringFits (s : State) (p n : Nat) : Bool :=
  let r := if s.rdb (P.eth p) Reg.ETH_PORT_CFG_speed then 10 else 25
  (s.port p).fetched.all (fun i => decide ((n + 20) * 8 ≤ (s.slotTime p i - s.now) * r))

/-- FRAME_TRANSMIT. -/
def State.frameTransmit (s : State) (p : Nat) (src : TxSource) : State :=
  match src with
  | .slot i => if s.slotFetched p i && s.slotFirst p i then s.slotSend p i else s
  | .ring f want id =>
    if s.portDead p || !s.ringFits p (onWire f).length then s
    else
      let t := s.stamp p false
      let s := s.sendFrame p f
      if want then s.tsqAdd p { id := id.toNat, isSlot := false, slot := 0, late := false, time := t } else s

def execFrameTransmit (p : Fin 2) (src : TxSource) (s : State) : Host.Outcome State Fault Refusal := fin (s.frameTransmit p src)

end Sys2Proof.Machine
end

