-- ==== Sys2Proof/Machine/Rtu.lean ====
section
/-! DEFINITION. The Reject Timing Unit: entries, deadlines, commit points, launches, target compares, groups (R21 to
R31, R301, R408 to R419), the verdict records (R487) and the audit entries (R331). -/

namespace Sys2Proof.Machine

/-! ### Entries -/

def State.setEntry (s : State) (n : Nat) (e : RtuEntry) : State :=
  { s with rtu := { s.rtu with entries := SMap.insert s.rtu.entries n e } }

/-- RTU_STAT.used after a change of the entries. -/
def State.countUsed (s : State) : State := s.wr P.rtu Reg.RTU_STAT_used s.rtu.entries.length

/-- tentative_gen of entry n advances (R300). -/
def State.tentGen (s : State) (n : Nat) : State :=
  { s with rtu := { s.rtu with tentGens := SMap.set s.rtu.tentGens n ((SMap.get s.rtu.tentGens n (0 : Nat) + 1) % 65536) 0 } }

/-- Entry n is freed: gen advances, and tentative_gen where tentative fields were held (R300, R408). -/
def State.freeEntry (s : State) (n : Nat) : State :=
  let t := (s.entry n).any RtuEntry.tentValid
  let s := { s with rtu := { s.rtu with
    entries := SMap.erase s.rtu.entries n
    gens := SMap.set s.rtu.gens n ((SMap.get s.rtu.gens n (0 : Nat) + 1) % 256) 0 } }
  (if t then s.tentGen n else s).countUsed

/-- The lowest entry number that is free, counting from k; the listed numbers rise. [DEDUCED: log entry 63.] -/
def lowestFree : List Nat → Nat → Nat
  | [], k => k
  | a :: l, k => if a = k then lowestFree l (k + 1) else k

def State.groupEnc (s : State) (g : Nat) : Nat := s.rd P.rtu Reg.RTU_GRP_CFG_enc g
def State.groupCount (s : State) (g : Nat) : Nat := s.encCount (s.groupEnc g)
def State.groupRemote (s : State) (g : Nat) : Bool := s.rdb P.rtu Reg.RTU_GRP_CFG_kind g

/-- adv in 0.1 µs; values 1 to 9 act as 10 (R411). -/
def State.groupAdv (s : State) (g : Nat) : Nat :=
  let a := s.rd P.rtu Reg.RTU_GRP_ADV_adv g
  if 1 ≤ a ∧ a ≤ 9 then 10 else a

def State.groupGrid (s : State) (g : Nat) : Nat := max 1 (s.rd P.rtu Reg.RTU_GRP_REM_grid g)

/-- The RTU acts: ENCCLK runs, and its page is in no state of its own that stops it (R53, R64, R104, R105).
[DEDUCED: log entry 79.] -/
def State.rtuAlive (s : State) : Bool := s.hostReach && s.works P.rtu

/-- t_pred is defined for the group's entries (R410). -/
def State.predicts (s : State) (g : Nat) : Bool :=
  let e := s.groupEnc g
  !s.rdb P.enc Reg.ENC_STAT_stopped e && decide (s.rd P.enc Reg.ENC_PER_per e ≠ 0) && !s.rdb P.enc Reg.ENC_STAT_dir e

/-- t_pred of a count in PTP ns: the time of the last count plus n periods of 5/256 ns (R410). -/
def State.predicted (s : State) (g target : Nat) : Nat :=
  let e := s.groupEnc g
  (s.encOf e).last + (target + 2 ^ 32 - s.encCount e) % 2 ^ 32 * s.rd P.enc Reg.ENC_PER_per e * 5 / 256

/-! ### The audit ring (R331, R338) -/

/-- [DEDUCED: log entry 83.] -/
def State.audLog (s : State) : Nat :=
  let n := s.rd P.xck Reg.XCK_AUD_CFG_size_log2
  if 6 ≤ n ∧ n ≤ 15 then n else 10

/-- The 64 bytes of an audit entry. -/
def auditBytes (a : Audit) (time : Nat) : List Byte :=
  padTo 16 a.identity ++ padTo 16 a.digest ++ le 8 a.base ++ le 4 a.object ++ le 1 a.ctx ++ le 1 a.flags ++ le 2 0
    ++ le 8 time ++ padTo 8 a.hash

/-- AUDIT_APPEND: written, or dropped where the ring is full. [DEDUCED: log entry 83.] -/
def State.auditAppend (s : State) (a : Audit) : State :=
  if !s.rdb P.xck Reg.XCK_AUD_CFG_en then s
  else
    let n := 2 ^ s.audLog
    let prod := s.rd P.xck Reg.XCK_AUD_PROD_prod
    if n ≤ (prod + 65536 - s.rd P.xck Reg.XCK_AUD_CONS_cons) % 65536 then
      let s := (s.bump (P.xck + 0x838)).setBlk P.xck 10
      s.raise 0xe02 0x62 (le 8 (s.ctr (P.xck + 0x838)))
    else
      let s := s.put bwSched (s.rd2 P.xck Reg.XCK_AUD_BASE_lo Reg.XCK_AUD_BASE_hi + 64 * (prod % n)) (auditBytes a s.now)
      (s.wr P.xck Reg.XCK_AUD_PROD_prod (prod + 1)).bump (P.xck + 0x830)

/-- [DEDUCED: log entry 83.] -/
def State.setAudit (s : State) (k : Nat) (a : Audit) : State :=
  { s with rtu := { s.rtu with audits := SMap.insert s.rtu.audits k a } }

/-- [DEDUCED: log entry 83.] -/
def State.dropAudit (s : State) (k : Nat) : State :=
  { s with rtu := { s.rtu with audits := SMap.erase s.rtu.audits k } }

/-- One of a box's entries has written its record with these flags. -/
def State.auditRecord (s : State) (k flags : Nat) : State :=
  match SMap.find? s.rtu.audits k with
  | none => s
  | some a =>
    let a := { a with left := a.left - 1, flags := a.flags ||| flags }
    if a.left = 0 ∧ a.admitted then (s.dropAudit k).auditAppend a else s.setAudit k a

/-! ### Verdict records (R30, R31, R487) -/

/-- The flags of an entry's record: no verdict, with what its job was chosen for and ran; else those of its job;
provisional-confirmed (R31, R201). [DEDUCED: log entry 64.] -/
def entryFlags (e : RtuEntry) : Nat :=
  if e.nv ∨ e.verdict.isNone then 1 + (e.vflags &&& 12) else e.vflags + (if e.confirmed then 16 else 0)

/-- The pair of records of an entry. [DEDUCED: log entry 64.] -/
def State.verdictRecord (s : State) (e : RtuEntry) : State :=
  let v := if e.nv then none else e.verdict
  let head := le 4 e.object ++ le 4 e.target ++ le 1 e.camera ++ le 1 ((v.map Verdict.cls).getD 0)
    ++ le 2 ((v.map Verdict.conf).getD 0) ++ le 1 e.ctx ++ le 1 (entryFlags e) ++ le 1 (b2n e.acted)
    ++ le 1 (e.group + 128 * b2n e.multi)
  let r1 := mkRec s 0xf01 0x70 head s.now
  let r2 := mkRec s 0xf01 0x71 ((v.map Verdict.digest).getD []) s.now
  (s.produce 0xf01 [{ r1 with flags := r1.flags ||| 16 }, r2]).auditRecord e.key (entryFlags e)

/-! ### Overflow and missed entries (R22, R414, R418) -/

/-- The RTU_OVF record (R428). -/
def State.ovfRecord (s : State) (kind ctx cam obj : Nat) : State :=
  s.raise 0x800 0x31 (le 1 kind ++ le 1 ctx ++ le 1 cam ++ le 1 0 ++ le 4 obj ++ le 2 (s.rd P.rtu Reg.RTU_STAT_used))

/-- RTU_OVERFLOW. [DEDUCED: log entry 63.] -/
def State.rtuOverflow (s : State) (ctx cam obj : Nat) : State :=
  ((s.wrb P.rtu Reg.RTU_STAT_ovf true).setBlk P.rtu 8).ovfRecord 1 ctx cam obj

/-- MISSED_ENTRY: no action, a record with no verdict, the entry freed. [DEDUCED: log entry 63.] -/
def State.missedEntry (s : State) (n : Nat) (e : RtuEntry) : State :=
  let s := (s.verdictRecord { e with nv := true, acted := false }).freeEntry n
  (((s.wrb P.rtu Reg.RTU_STAT_ovf true).setBlk P.rtu 9).bump (P.rtu + 0x820)).ovfRecord 2 e.ctx e.camera e.object

/-- RTU_ENTRY_WRITE: an entry is written in the lowest free place, and found missed where its compare is satisfied. -/
def State.rtuWrite (s : State) (e : RtuEntry) : State :=
  let n := lowestFree (SMap.keys s.rtu.entries) 0
  let s := (((s.setEntry n e).countUsed).bump (P.rtu + 0x800))
  let s := if e.tentValid then s.tentGen n else s
  if passed (s.groupCount e.group) e.target then s.missedEntry n e else s

/-- RTU_OVF_CLEAR (R418). -/
def State.ovfClear (s : State) (v : Nat) : State :=
  if !bit v 0 then s
  else if bits v 16 16 = 0x4e7d ∧ s.rd P.rtu Reg.RTU_STAT_used ≤ 3840 then
    if s.rdb P.rtu Reg.RTU_STAT_ovf then (s.wrb P.rtu Reg.RTU_STAT_ovf false).ovfRecord 3 0 0 0 else s
  else s.note P.rtu .ignoredWrite

def execRtuOvfClear (v : Word) (s : State) : Host.Outcome State Fault Refusal :=
  fin (s.onWrite (P.rtu + 0x40) (fun s => s.ovfClear v.toNat))

/-! ### Verdicts landing (R26, R27, R408) -/

/-- The entry takes a verdict with this tag now. -/
def takesVerdict (e : RtuEntry) (tag : Nat) : Bool := e.job = some tag && e.decision.isNone && decide (e.state = 1)

/-- A verdict lands in every entry that takes it, or is discarded and counted. -/
def State.verdictLand (s : State) (x : Crossing) : State :=
  let ns := (s.rtu.entries.filter (fun p => takesVerdict p.2 x.tag)).map Prod.fst
  if ns.isEmpty then (s.bump (P.rtu + 0x848)).bump (P.schC x.ctx + 0x818)
  else
    { s with rtu := { s.rtu with entries := s.rtu.entries.map (fun p =>
        if takesVerdict p.2 x.tag then
          (p.1, { p.2 with decision := some x.verdict.reject, verdict := some x.verdict,
                           vflags := (p.2.vflags &&& 4) ||| x.flags })
        else p) } }

/-- The entries of a job that ends without handing over a verdict await none (R408). -/
def State.detachJob (s : State) (tag : Nat) : State :=
  { s with rtu := { s.rtu with entries := s.rtu.entries.map (fun p =>
      if p.2.job = some tag then (p.1, { p.2 with job := none }) else p) } }

/-! ### Deadline (R413) -/

/-- The launch slot of a launch time, given in turn where the time is new (R416).
[DEDUCED: log entry 81.] [DEDUCED: log entry 82.] -/
def State.giveSlot (s : State) (g t : Nat) : State :=
  let l := SMap.get s.rtu.slotTimes g []
  if l.any (fun p => p.1 = t) then s
  else
    let n := max 1 (s.rd P.rtu Reg.RTU_GRP_REM_nslot g)
    let i := SMap.get s.rtu.slotNext g (0 : Nat)
    let slot := s.rd P.rtu Reg.RTU_GRP_REM_slot0 g + i % n
    let s := s.wr2 (P.eth (s.rd P.rtu Reg.RTU_GRP_CFG_port g)) Reg.LSLOT_TIME_time_lo Reg.LSLOT_TIME_time_hi t slot
    { s with rtu := { s.rtu with slotNext := SMap.set s.rtu.slotNext g ((i + 1) % n) 0
                                 slotTimes := SMap.set s.rtu.slotTimes g (l ++ [(t, slot)]) [] } }

/-- The launch time of a remote entry (R411); with no prediction, as a forced launch has none, the present time. -/
def State.launchTime (s : State) (e : RtuEntry) : Nat :=
  if s.predicts e.group && !passed (s.groupCount e.group) e.target then
    let t := s.predicted e.group e.target - 100 * s.groupAdv e.group
    t - t % (1000 * s.groupGrid e.group)
  else s.now

/-- An entry resolves. [DEDUCED: log entry 82.] -/
def State.resolve (s : State) (n : Nat) (e : RtuEntry) : State :=
  let nv := e.nv || e.decision.isNone
  let reject := if nv then !e.failPass else e.decision.getD false
  let t := if s.groupRemote e.group then some (s.launchTime e) else none
  let s := s.setEntry n { e with state := if reject then 2 else 3, nv := nv, launchAt := t }
  let s := match t with | some t => s.giveSlot e.group t | none => s
  s.bump (P.rtu + (if nv then 0x818 else if reject then 0x808 else 0x810))

/-- RTU_DEADLINE: none falls due while the prediction is undefined (R410). -/
def State.rtuDeadline (s : State) (n : Nat) : State :=
  match s.entry n with
  | none => s
  | some e => if s.rtuAlive && decide (e.state = 1) && s.predicts e.group then s.resolve n e else s

def execRtuDeadline (ent : Fin 4096) (s : State) : Host.Outcome State Fault Refusal := fin (s.rtuDeadline ent)

/-! ### Commit point (R301, R416, R417) -/

/-- Set the bits of valves a to b in a bitmap of bytes. -/
def setValves (bm : List Byte) (a b : Nat) : List Byte :=
  bm.zipIdx.map (fun e => (List.range 8).foldl (fun (x : Byte) i =>
    if a ≤ 8 * e.2 + i ∧ 8 * e.2 + i ≤ b then x ||| BitVec.ofNat 8 (2 ^ i) else x) e.1)

/-- Entries of group g that launch at t and have resolved to reject. -/
def State.rejects (s : State) (g t : Nat) : List RtuEntry :=
  (s.rtu.entries.map Prod.snd).filter (fun e => e.group = g && e.launchAt = some t && (e.state = 2 || e.state = 4))

/-- The valve bitmap of a launch time goes into its slot, which is ARMED, or EMPTY where no bit is set.
[DEDUCED: log entry 81.] -/
def State.commitFrame (s : State) (g t : Nat) : State :=
  match (SMap.get s.rtu.slotTimes g []).find? (fun p => p.1 = t) with
  | none => s
  | some (_, slot) =>
    let p := s.rd P.rtu Reg.RTU_GRP_CFG_port g
    let nb := (s.rd P.rtu Reg.RTU_GRP_ACT_act0 g + s.rd P.rtu Reg.RTU_GRP_ACT_n_act g + 7) / 8
    let bm := (s.rejects g t).foldl (fun bm e => setValves bm e.actFirst e.actLast) (List.replicate nb 0)
    let s := { s with rtu := { s.rtu with
      slotTimes := SMap.set s.rtu.slotTimes g ((SMap.get s.rtu.slotTimes g []).filter (fun p => p.1 ≠ t)) [] } }
    let s := s.setSlotBuf p slot (putBytes (s.slotBuf p slot) (s.rd P.rtu Reg.RTU_GRP_FRM_bmp_off g) bm)
    if bm.all (fun b => b = 0) then s.setSlot p slot slotEmpty
    else ((s.wr2 (P.eth p) Reg.LSLOT_TIME_time_lo Reg.LSLOT_TIME_time_hi t slot).setSlot p slot slotArmed)

/-- The staged copy is confirmed or discarded, and the frame of the launch time is made. [DEDUCED: log entry 81.] -/
def State.commit (s : State) (n : Nat) (e : RtuEntry) : State :=
  let same := decide (e.state = 2)
  let e' := { e with committed := true, staged := false, confirmed := e.staged && same && !e.nv }
  let s := s.setEntry n e'
  let s := if e.staged then (s.tentGen n).bump (P.schC e.ctx + (if same then 0x880 else 0x888)) else s
  match e.launchAt with
  | some t => s.commitFrame e.group t
  | none => s

/-- COMMIT_POINT. -/
def State.commitPoint (s : State) (n : Nat) : State :=
  match s.entry n with
  | none => s
  | some e =>
    if s.rtuAlive && (e.state = 2 || e.state = 3) && !e.committed && s.predicts e.group then s.commit n e else s

def execCommitPoint (ent : Fin 4096) (s : State) : Host.Outcome State Fault Refusal := fin (s.commitPoint ent)

/-! ### Launch (R411, R415) -/

/-- [DEDUCED: log entry 84.] -/
def State.setPulses (s : State) (ch : Nat) (l : List Nat) : State :=
  { s with rtu := { s.rtu with pulses := SMap.set s.rtu.pulses ch l [] } }

/-- A pulse starts on a channel; on one that is on it is merged (R415). -/
def State.pulse (s : State) (ch endCount : Nat) : State :=
  let l := SMap.get s.rtu.pulses ch []
  let s := s.setPulses ch (l ++ [endCount])
  if l.isEmpty then s else s.bump (P.rtu + 0x830)

/-- A reject is carried out: local channels switch on; a remote frame is with the launch queue. -/
def State.launchEntry (s : State) (n : Nat) (e : RtuEntry) : State :=
  let s := s.setEntry n { e with state := 4, acted := true }
  if s.groupRemote e.group then s
  else
    let z := (e.target + e.lenCt + s.rd P.rtu Reg.RTU_GRP_EXT_ext_ct e.group) % 2 ^ 32
    (s.entryChans e).foldl (fun s ch => s.pulse ch z) s

/-- A local group without advance launches at the compare (R411). -/
def State.countExact (s : State) (e : RtuEntry) : Bool := !s.groupRemote e.group && decide (s.groupAdv e.group = 0)

/-- LAUNCH: what falls due earlier in the order of R412 comes first. -/
def State.launch (s : State) (n : Nat) : State :=
  match s.entry n with
  | none => s
  | some e =>
    let due := if s.countExact e then passed (s.groupCount e.group) e.target else s.predicts e.group
    if s.rtuAlive && decide (e.state = 2) && due then
      let s := if e.committed then s else s.commit n e
      match s.entry n with
      | some e => s.launchEntry n e
      | none => s
    else s

def execLaunch (ent : Fin 4096) (s : State) : Host.Outcome State Fault Refusal := fin (s.launch ent)

/-! ### Target compare (R412, R413) -/

/-- Apply f to entry n where it stands. -/
def State.withEntry (s : State) (n : Nat) (f : State → RtuEntry → State) : State :=
  match s.entry n with
  | some e => f s e
  | none => s

/-- The deadline, the commit point and the launch, as far as they have not fallen due (LAUNCH_FORCED). -/
def State.forceDue (s : State) (n : Nat) : State :=
  let s := s.withEntry n (fun s e => if e.state = 1 then s.resolve n e else s)
  let s := s.withEntry n (fun s e => if e.committed then s else s.commit n e)
  s.withEntry n (fun s e =>
    if e.state = 2 then
      let s := if s.countExact e then s else s.bump (P.rtu + 0x850)
      s.launchEntry n e
    else s)

/-- TARGET_COMPARE: the verdict record, and the entry is freed. -/
def State.targetCompare (s : State) (n : Nat) : State :=
  match s.entry n with
  | none => s
  | some e =>
    if s.rtuAlive && passed (s.groupCount e.group) e.target then
      (s.forceDue n).withEntry n (fun s e => (s.verdictRecord e).freeEntry n)
    else s

def execTargetCompare (ent : Fin 4096) (s : State) : Host.Outcome State Fault Refusal := fin (s.targetCompare ent)

/-! ### Pulses (R415) -/

/-- The place of the pulse that ends first: in object mode by its count, in time mode the first to start.
[DEDUCED: log entry 84.] -/
def firstToEnd (count : Nat) : List Nat → Nat
  | [] => 0
  | [_] => 0
  | a :: b :: l =>
    let i := firstToEnd count (b :: l)
    if sext 32 (a + 2 ^ 32 - count) ≤ sext 32 ((b :: l).getD i 0 + 2 ^ 32 - count) then 0 else i + 1

/-- ACTUATOR_OFF: one pulse on the channel ends. [DEDUCED: log entry 84.] -/
def State.actuatorOff (s : State) (ch : Nat) : State :=
  let l := SMap.get s.rtu.pulses ch []
  let g := s.rd P.fio Reg.CLAIM_FIO_unit ch
  let i := if s.rdb P.rtu Reg.RTU_GRP_CFG_on_mode g then firstToEnd (s.groupCount g) l else 0
  s.setPulses ch (l.eraseIdx i)

def execActuatorOff (ch : Fin 16) (s : State) : Host.Outcome State Fault Refusal := fin (s.actuatorOff ch)

/-- MAX_ON_CUTOFF. -/
def execMaxOnCutoff (ch : Fin 16) (s : State) : Host.Outcome State Fault Refusal :=
  if (SMap.get s.rtu.pulses ch []).isEmpty then fin s else fin ((s.setPulses ch []).bump (P.rtu + 0x838))

/-! ### Groups (R416, R419, R462) -/

def State.groupAct0 (s : State) (g : Nat) : Nat := s.rd P.rtu Reg.RTU_GRP_ACT_act0 g
def State.groupNAct (s : State) (g : Nat) : Nat := s.rd P.rtu Reg.RTU_GRP_ACT_n_act g
def State.groupPort (s : State) (g : Nat) : Nat := s.rd P.rtu Reg.RTU_GRP_CFG_port g

/-- The launch slots of a remote group. -/
def State.groupSlots (s : State) (g : Nat) : List Nat :=
  (List.range (s.rd P.rtu Reg.RTU_GRP_REM_nslot g)).map (· + s.rd P.rtu Reg.RTU_GRP_REM_slot0 g)

/-- What arming group g claims (R126). -/
def State.groupRes (s : State) (g : Nat) : List Res :=
  if s.groupRemote g then (s.groupSlots g).map (slotRes (s.groupPort g))
  else (List.range (s.groupNAct g)).map (fun i => chanRes (s.rd P.rtu Reg.RTU_GRP_CFG_ch0 g + i))

/-- The field ranges of R409, R425 and R462. [DEDUCED: log entry 80.] -/
def State.groupRange (s : State) (g : Nat) : Bool :=
  let n := s.groupNAct g
  decide (1 ≤ n) && decide (s.groupAct0 g + n ≤ 1024) &&
    (if s.groupRemote g then
      let k := s.rd P.rtu Reg.RTU_GRP_REM_nslot g
      decide (1 ≤ k) && decide (s.rd P.rtu Reg.RTU_GRP_REM_slot0 g + k ≤ 32) && decide (s.groupGrid g ≤ 1000)
        && (s.groupSlots g).all (fun i =>
          decide (s.rd P.rtu Reg.RTU_GRP_FRM_bmp_off g + (s.groupAct0 g + n + 7) / 8 ≤ s.slotLen (s.groupPort g) i))
    else decide (s.rd P.rtu Reg.RTU_GRP_CFG_ch0 g + n ≤ 16))

/-- The slots of the group suffice (R416). [DEDUCED: log entry 80.] -/
def State.slotsEnough (s : State) (g : Nat) : Bool :=
  !s.groupRemote g
    || decide ((40 + s.groupGrid g - 1) / s.groupGrid g + 1 ≤ s.rd P.rtu Reg.RTU_GRP_REM_nslot g)

/-- The template is copied into a slot of the arming group (R462). [DEDUCED: log entry 81.] -/
def State.templateCopy (s : State) (p i : Nat) : State :=
  match s.slotCopy p i true with
  | (s, some b) => s.setSlotBuf p i b
  | (s, none) => (s.setSlotBuf p i []).slotEnd p i 1

/-- The arming of group g. -/
def State.groupArming (s : State) (g : Nat) : Arming := ⟨ownRtu, g, s.groupRes g⟩

/-- Group g would claim if it were armed now. -/
def State.groupClaims (s : State) (g : Nat) : Bool :=
  !s.rdb P.rtu Reg.RTU_GRP_CFG_armed g && !s.inFault P.rtu && s.groupRange g && s.slotsEnough g

/-- Group g is armed beside the armings of the same cycle, whose claims are settled on s0 (R126, R127). The arming is the
page's enabling sequence (R105). -/
def State.groupArmOn (s s0 : State) (rivals : List Arming) (g : Nat) : State :=
  if s.rdb P.rtu Reg.RTU_GRP_CFG_armed g || s.inFault P.rtu then s.resume P.rtu
  else
    let s := s.resume P.rtu
    let fail := fun (r : Nat) (s : State) => (s.wr P.rtu Reg.RTU_GRP_CFG_res r g).wrb P.rtu Reg.RTU_GRP_CFG_arm false g
    if !s.groupRange g then fail 3 s
    else if !s.slotsEnough g then fail 2 s
    else s.armOn s0 rivals (s.groupArming g) (fun s =>
        let s := if s.groupRemote g then (s.groupSlots g).foldl (fun s i => s.templateCopy (s.groupPort g) i) s else s
        ((s.wrb P.rtu Reg.RTU_GRP_CFG_armed true g).wr P.rtu Reg.RTU_GRP_CFG_res 0 g).wrb P.rtu Reg.RTU_GRP_CFG_arm true g)
      (fail 1)

/-- A write of RTU_GRPg_CFG.arm = 1: nothing else arms in its cycle. [DEDUCED: log entry 80.] -/
def State.groupArm (s : State) (g : Nat) : State := s.groupArmOn s [] g

def groupCfg (g : Nat) : Nat := P.rtu + 0x100 + 0x20 * g

def execRtuGroupArm (g : Fin 32) (s : State) : Host.Outcome State Fault Refusal :=
  fin (s.onWrite (groupCfg g) (fun s => s.groupArm g))

/-- The resources that group g owns. -/
def State.groupOwned (s : State) (g : Nat) : List Res :=
  ((List.range 16).map chanRes ++ (List.range 32).map (slotRes 0) ++ (List.range 32).map (slotRes 1)).filter
    (fun r => s.owner r = ownRtu && s.ownerUnit r = g)

/-- Each claim of a disarmed group with no pending use is released (R128, R419). -/
def State.groupRelease (s : State) (g : Nat) : State :=
  if s.rtu.releasing.contains g then
    let s := (s.groupOwned g).foldl (fun s r => if s.pendingUse r then s else s.setOwner r ownFree 0) s
    if (s.groupOwned g).isEmpty then
      { s with rtu := { s.rtu with releasing := s.rtu.releasing.filter (fun x => x ≠ g) } }
    else s
  else s

def execGroupClaimRelease (g : Fin 32) (s : State) : Host.Outcome State Fault Refusal := fin (s.groupRelease g)

/-- The actuator map of a running context names the group (R419). -/
def State.groupNamed (s : State) (g : Nat) : Bool :=
  (List.range 8).any (fun c => s.ctxRuns c && (s.actMap c).any (fun m => m.2.2.1 = g))

/-- A write of RTU_GRPg_CFG.arm = 0. -/
def State.groupDisarm (s : State) (g : Nat) : State :=
  if !s.rdb P.rtu Reg.RTU_GRP_CFG_armed g then s
  else if s.groupNamed g then s.wr P.rtu Reg.RTU_GRP_CFG_res 5 g
  else
    let s := ((s.wrb P.rtu Reg.RTU_GRP_CFG_armed false g).wrb P.rtu Reg.RTU_GRP_CFG_arm false g).wr P.rtu Reg.RTU_GRP_CFG_res 0 g
    ({ s with rtu := { s.rtu with releasing := g :: s.rtu.releasing } }).groupRelease g

def execRtuGroupDisarm (g : Fin 32) (s : State) : Host.Outcome State Fault Refusal :=
  fin (s.onWrite (groupCfg g) (fun s => s.groupDisarm g))

/-- The fault action of the RTU: every entry abandoned, no frame, its channels off, ovf set. -/
def State.rtuFaultAction (s : State) : State :=
  let s := { s with rtu := { s.rtu with
    entries := [], pulses := [], slotTimes := [], audits := [], crossing := []
    gens := (SMap.keys s.rtu.entries).foldl (fun m n => SMap.set m n ((SMap.get m n (0 : Nat) + 1) % 256) 0) s.rtu.gens } }
  let s := [0, 1].foldl (fun s p => (List.range 32).foldl (fun s i =>
    if s.owner (slotRes p i) = ownRtu then (s.putFetched p i false).setSlot p i slotEmpty else s) s) s
  (s.countUsed).wrb P.rtu Reg.RTU_STAT_ovf true

end Sys2Proof.Machine
end

