-- ==== Sys2Proof/Machine/Waits.lean ====
section
/-! DEFINITION. Brynade flows as the table in DRAM gives them, remote waits and the landing of data (R291, R293, R467, R469),
and the end of a job, which moves them on. -/

namespace Sys2Proof.Machine

/-! ### The flow table (R467) -/

/-- One 64-byte entry. -/
structure FlowEntry where
  kind : Nat
  port : Nat
  ctx : Nat
  lb : Nat
  peer : Nat
  ackN : Nat
  ip : List Byte
  mac : List Byte
  engine : Nat
  wait : Nat
  deriving DecidableEq, Repr, Inhabited

/-- Flow f, none at or above BRY_FLOW_N. -/
def State.flowEntry (s : State) (f : Nat) : Option FlowEntry :=
  if f < s.rd P.bry Reg.BRY_FLOW_N_n then
    let b := s.load (s.rd2 P.bry Reg.BRY_FLOW_BASE_addr_lo Reg.BRY_FLOW_BASE_addr_hi + 64 * f) 64
    let at_ := fun i n => unle ((b.drop i).take n)
    some { kind := at_ 0 1, port := at_ 1 1, ctx := at_ 2 1, lb := at_ 3 1, peer := at_ 4 2, ackN := max 1 (at_ 6 2),
           ip := (b.drop 8).take 4, mac := (b.drop 12).take 6, engine := at_ 18 1, wait := at_ 19 1 }
  else none

def State.flow (s : State) (f : Nat) : Flow := SMap.get s.bry.flows f default

def State.setFlow (s : State) (f : Nat) (x : Flow) : State :=
  { s with bry := { s.bry with flows := SMap.set s.bry.flows f x default } }

/-- The flows of a context, by number. -/
def State.ctxFlows (s : State) (c : Nat) : List Nat :=
  (List.range (s.rd P.bry Reg.BRY_FLOW_N_n)).filter (fun f => (s.flowEntry f).any (fun x => x.ctx = c))

/-! ### Remote wait entries (R291) -/

/-- The destination, byte count and timeout of an engine's remote wait entry. -/
def State.waitEntry (s : State) (c e w : Nat) : Option (Nat × Nat × Nat) :=
  ((s.ctx c).billet).bind (fun b =>
    (b.waits.find? (fun x => x.1.val = e && x.2.1.val = w)).map (fun x =>
      (x.2.2.1.toNat, x.2.2.2.1.toNat, x.2.2.2.2.toNat)))

/-- Entry w of engine e is complete for the context's oldest job. -/
def State.waitDone (s : State) (c e w : Nat) : Bool :=
  (s.ctx c).waitsDone.contains (16 * e + w)
    || (match s.waitEntry c e w with
        | some x => decide (x.2.1 ≤ SMap.get (s.ctx c).landed (16 * e + w) (0 : Nat))
        | none => false)

/-- A collective completes the entry; the completion stays until a wait takes it. [DEDUCED: log entry 62.] -/
def State.waitMark (s : State) (c e w : Nat) : State :=
  if (s.ctx c).waitsDone.contains (16 * e + w) then s
  else s.setCtx c { s.ctx c with waitsDone := (16 * e + w) :: (s.ctx c).waitsDone }

/-- [DEDUCED: log entry 62.] -/
def State.waitTake (s : State) (c e w : Nat) : State :=
  s.setCtx c { s.ctx c with waitsDone := (s.ctx c).waitsDone.filter (fun k => k ≠ 16 * e + w) }

/-- A packet's payload lands at destination + offset, as a DMA request (R291, R469). -/
def State.waitLand (s : State) (c e w off : Nat) (bs : List Byte) : State :=
  match s.waitEntry c e w with
  | none => s
  | some x =>
    let s := s.dmaPut bwNet (x.1 + off) bs
    let k := 16 * e + w
    s.setCtx c { s.ctx c with landed := SMap.set (s.ctx c).landed k (SMap.get (s.ctx c).landed k (0 : Nat) + bs.length) 0 }

/-! ### Jobs of a context -/

def State.setJob (s : State) (j : Nat) (x : Job) : State :=
  { s with sched := { s.sched with jobs := SMap.insert s.sched.jobs j x } }

/-- The oldest job of context c that has not ended. -/
def State.oldestJob (s : State) (c : Nat) : Option Job :=
  s.sched.order.findSome? (fun j => match s.job j with
    | some x => if x.ctx = c ∧ x.ended.isNone then some x else none
    | none => none)

/-- The jseq expected by the receive flows of context c (R469). -/
def State.expectJseq (s : State) (c : Nat) : Nat :=
  match s.oldestJob c with
  | some x => x.jseq
  | none => (s.ctx c).jseqNext

/-- How far 32-bit number b lies past a, as a signed number. -/
def seqDiff (a b : Nat) : Int := sext 32 ((b + 2 ^ 32 - a % 2 ^ 32) % 2 ^ 32)

/-- The job of context c with transfer sequence n has ended: below the expected one, or admitted and no longer open
(R293, R469). -/
def State.jseqOver (s : State) (c n : Nat) : Bool :=
  decide (seqDiff (s.expectJseq c) n < 0)
    || (decide (seqDiff (s.ctx c).jseqNext n < 0) && !(s.ctxJobs c).any (fun p => decide (p.2.jseq = n) && p.2.ended.isNone))

/-- The landing buffer of flow f after a job of its context has ended: data of jobs that have ended is dropped and counted,
that of the oldest open job is copied to its destination (R293, R469). -/
def State.landFlow (s : State) (c f : Nat) : State :=
  match s.flowEntry f with
  | none => s
  | some x =>
    let n := s.expectJseq c
    let l := (s.flow f).landing
    let gone := l.filter (fun p => s.jseqOver c p.jseq.toNat)
    let mine := l.filter (fun p => p.jseq.toNat = n && !s.jseqOver c n)
    let s := s.setFlow f { s.flow f with landing := l.filter (fun p => !gone.contains p && !mine.contains p) }
    mine.foldl (fun s p => s.waitLand c x.engine x.wait p.offset.toNat p.payload) (s.bump (P.bry + 0x828) gone.length)

/-- The receive flows of context c after a job of it has ended. -/
def State.landFlows (s : State) (c : Nat) : State :=
  ((s.ctxFlows c).filter (fun f => (s.flowEntry f).any (fun x => x.kind = 1))).foldl (fun s f => s.landFlow c f) s

/-- The oldest job of context c has ended: the waits of the next begin anew. [DEDUCED: log entry 62.] -/
def State.waitsAdvance (s : State) (c : Nat) : State := s.setCtx c { s.ctx c with landed := [] }

/-! ### The end of a job -/

/-- The sequencer page of engine e, whose context registers lie alike on both kinds (R166 to R168, R227). -/
def seqPage (e : Nat) : Nat := if e < 32 then P.anv e 1 else P.tng (e - 32) 1

/-- Engine e leaves context c's job: it runs no step of it, nothing of it waits or is in flight. -/
def Engine.leave (x : Engine) (c tag : Nat) : Engine :=
  let x := { x with
    jobOf := SMap.erase x.jobOf c, rwait := x.rwait.filter (fun r => r.1 ≠ c), progs := SMap.erase x.progs c
    inflight := x.inflight.filter (fun f => f.1 ≠ c), queued := x.queued.filter (fun q => q.ctx ≠ c)
    begun := x.begun.filter (fun t => t ≠ tag), chain := if x.chain = some c then none else x.chain }
  if x.cur = some c then
    { x with barrier := none, branch := none, preReq := none, phase := 0, groupRegs := [], skipNext := false, sample := none, cur := none }
  else x

/-- Nothing of the job with this tag is left on an engine, but for the step that runs on the engine named; the context is
stopped there (R168). -/
def State.engineDrop (s : State) (c tag : Nat) (keep : Option Nat := none) : State :=
  (List.range 36).foldl (fun s e =>
    let x := s.eng e
    if keep = some e && decide (x.cur = some c) then s
    else if SMap.get x.jobOf c (0 : Nat) = tag + 1 then (s.setEng e (x.leave c tag)).wr (seqPage e) Reg.ANV_CTX_STAT_state 0 c
    else if x.begun.contains tag then s.setEng e { x with begun := x.begun.filter (fun t => t ≠ tag) }
    else s) s

def zeroDigest : List Byte := List.replicate 16 0

/-- The digest a run of a check ended with is noted (R328). -/
def State.checkNote (s : State) (x : Job) : State :=
  match x.check with
  | none => s
  | some k =>
    match SMap.find? s.sched.checks k with
    | none => s
    | some ck =>
      let d := some ((x.verdict.map Verdict.digest).getD zeroDigest)
      let ck := match x.kind with
        | .copy => { ck with copyDigest := d }
        | .arbitration => { ck with arbEnded := true }
        | _ => { ck with origDigest := d }
      { s with sched := { s.sched with checks := SMap.insert s.sched.checks k ck } }

/-- Job j ends with a status; the step on the engine named, whose VERDICT has ended it, still runs to its STEP_END
(R286, R293, R408, R469). -/
def State.jobEnd (s : State) (j st : Nat) (keep : Option Nat := none) : State :=
  match s.job j with
  | none => s
  | some x =>
    if x.ended.isSome then s
    else
      let was := (s.oldestJob x.ctx).map Job.jseq
      let s := s.setJob j { x with ended := some st }
      let s := if x.verdict.isNone then s.detachJob x.tag else s
      let s := (s.engineDrop x.ctx x.tag keep).checkNote x
      (if (s.oldestJob x.ctx).map Job.jseq = was then s else s.waitsAdvance x.ctx).landFlows x.ctx

end Sys2Proof.Machine
end

