-- ==== Sys2Proof/Machine/Steps.lean ====
section
/-! DEFINITION. The programs of contexts on the engines and which context an engine issues next: the step in the program buffer,
the steps that are ready, the context named, and the request for a pre-emption (R149, R155, R166, R167, R195, R199, R277,
R284, R287, R288, R326). Engines are numbered 0 to 31 for Anvil and 32 to 35 for Tongs. -/

namespace Sys2Proof.Machine

/-- The scheduler runs. -/
def State.alive (s : State) : Bool := s.clocked && s.works P.schG

/-- The pages of engine e. -/
def engPages (e : Nat) : List Nat :=
  if e < 32 then [P.anv e 0, P.anv e 1, P.anv e 2] else [P.tng (e - 32) 0, P.tng (e - 32) 1]

/-- The banks of engine e (R229). -/
def engBanks (e : Nat) : List Nat := if e < 32 then (List.range 6).map (bankOf e) else [bankX0 (e - 32)]

def State.engFenced (s : State) (e : Nat) : Bool := if e < 32 then s.anvFenced e else s.tngFenced (e - 32)

/-- Engine e can issue commands: it is not fenced, in fault, held idle or under test (R104, R162, R225, R568, R577). -/
def State.engWorks (s : State) (e : Nat) : Bool :=
  s.alive && !s.engFenced e && (engPages e).all s.works && !(s.eng e).underTest

/-- A command of context c meets a fault: the engine issues no more, what is in flight is abandoned (R161, R162, R224,
R225). -/
def State.engFault (s : State) (e c cause : Nat) : State :=
  let s := s.blockFault (P.eng e) cause
  if s.inFault (P.eng e) then (s.setEng e { s.eng e with skipNext := false }).wr (seqPage e) Reg.ANV_CTX_STAT_state 4 c else s

/-! ### Programs (R149, R166, R195) -/

/-- What engine e holds of context c's program. -/
def State.prog (s : State) (e c : Nat) : Prog := SMap.get (s.eng e).progs c default

def State.setProg (s : State) (e c : Nat) (p : Prog) : State :=
  s.setEng e { s.eng e with progs := SMap.set (s.eng e).progs c p default }

/-- The logical engine that physical engine e is for job x: the unfenced engines in order, turned by the rotation of its
run; a Tongs engine is itself (R277, R326). -/
def State.logicalOf (s : State) (e : Nat) (x : Job) : Nat :=
  if e < 32 then
    let h := s.anvFree.length
    (s.anvFree.findIdx (fun p => p = e) + h - x.rotation % max 1 h) % max 1 h
  else e

/-- The device address of the program that job x runs on engine e. A rotated run takes the program that stands with the
engine that its logical engine runs on without a rotation. [DESIGN CHOICE: log entry 161.] -/
def State.progBase (s : State) (e : Nat) (x : Job) : Nat :=
  s.rd2 (seqPage (if e < 32 then (s.anvFree[s.logicalOf e x]?).getD e else e)) Reg.ANV_CTX_PROG_lo Reg.ANV_CTX_PROG_hi x.ctx

/-- Where the program of job x begins on engine e, from its base: the folded variant stands elsewhere (R147, R199).
[DESIGN CHOICE: log entry 161.] -/
def State.progStart (s : State) (e : Nat) (x : Job) : Nat :=
  if x.folded then Config.foldedAt (s.ctx x.ctx).hash s.anvFree.length (s.logicalOf e x) / 16 * 16 else 0

/-- Engine e has begun job x. -/
def State.onJob (s : State) (e : Nat) (x : Job) : Bool := decide (SMap.get (s.eng e).jobOf x.ctx (0 : Nat) = x.tag + 1)

/-- What engine e holds of job x's program, at its start where the job has not begun there. -/
def State.jobProg (s : State) (e : Nat) (x : Job) : Prog :=
  if s.onJob e x then s.prog e x.ctx else { (default : Prog) with start := s.progStart e x }

/-- The command at a device address. -/
def State.cmdAt (s : State) (a : Nat) : Cmd :=
  let w := fun i => BitVec.ofNat 32 (unle (s.load (a + 4 * i) 4))
  { w0 := w 0, w1 := w 1, w2 := w 2, w3 := w 3 }

/-- The commands from a device address to the first STEP_END, of at most n. -/
def State.stepCmds (s : State) : Nat → Nat → Option (List Cmd)
  | 0, _ => none
  | n + 1, a =>
    let w := s.cmdAt a
    if cmdOp w = 15 then some [w] else (State.stepCmds s n (a + 16)).map (w :: ·)

/-- A step has at most 128 commands, and lies in the context's share of the buffer (R149, R167). -/
def State.stepLimit (s : State) (e c : Nat) : Nat := min 128 (s.rd (seqPage e) Reg.ANV_CTX_BUF_size c)

/-- The next step of job x on engine e as it stands in memory. A step of which no STEP_END is found within the limit is
never whole in the buffer. [DESIGN CHOICE: log entry 161.] -/
def State.nextStep (s : State) (e : Nat) (x : Job) : Option (List Cmd) :=
  s.stepCmds (s.stepLimit e x.ctx) (s.progBase e x + (s.jobProg e x).start)

/-- The descriptor that a command names: its offset and its bytes (R151, R212). -/
def cmdDesc (e : Nat) (w : Cmd) : Option (Nat × Nat) :=
  match cmdOp w with
  | 1 => if e < 32 then some (w.w1.toNat, 32) else none
  | 3 | 4 => some (w.w1.toNat, 64)
  | 5 => some (w.w1.toNat, 32)
  | 0x20 => if 32 ≤ e then some (w.w2.toNat, 64) else none
  | 0x21 => if 32 ≤ e then some (w.w1.toNat, 32) else none
  | 0x23 | 0x24 | 0x25 => if 32 ≤ e then some (w.w1.toNat, 64) else none
  | _ => none

/-- Program words are read for context c; a word that stays uncorrectable is fault 0x16 (R161, R224, R246). -/
def State.progFetch (s : State) (e c : Nat) (l : List (Nat × Nat)) : State :=
  let r := l.foldl (fun (r : State × Bool) q => let f := r.1.fetch (bwCtx c) q.1 q.2; (f.1, r.2 || f.2)) (s, false)
  if r.2 then r.1.engFault e c 0x16 else r.1

/-- The next step of job x is fetched into engine e's program buffer with the descriptors it names, where it is not there
(R149, R254). [DESIGN CHOICE: log entry 161.] -/
def State.stepFetch (s : State) (e : Nat) (x : Job) : State :=
  let p := s.prog e x.ctx
  let base := s.progBase e x
  if !p.cmds.isEmpty then s
  else match s.nextStep e x with
    | none => s
    | some l =>
      let s := s.progFetch e x.ctx ((base + p.start, 16 * l.length) :: (l.filterMap (cmdDesc e)).map (fun d => (base + d.1, d.2)))
      if s.inFault (P.eng e) then s
      else match s.nextStep e x with
        | none => s
        | some l => s.setProg e x.ctx { p with
            cmds := l, descs := (l.filterMap (cmdDesc e)).map (fun d => (d.1, s.load (base + d.1) d.2)), pos := 0 }

/-- The bytes of a descriptor in the program buffer. -/
def State.descBytes (s : State) (e c off : Nat) : List Byte :=
  (((s.prog e c).descs.find? (fun d => d.1 = off)).map Prod.snd).getD []

/-! ### Readiness (R149, R164, R167, R284, R287) -/

/-- Job x runs on engine e: every Anvil engine, and the Tongs engine assigned (R277, R278). -/
def Job.runsOn (x : Job) (e : Nat) : Bool := decide (e < 32) || decide (x.tongs = e - 32)

/-- The jobs of context c that engine e has to run, in the order of their admission (R284). -/
def State.engJobs (s : State) (e c : Nat) : List (Nat × Job) :=
  s.sched.order.filterMap (fun j => match s.job j with
    | some x => if x.ctx = c ∧ x.ended.isNone ∧ x.phase ≠ 4 ∧ x.runsOn e then some (j, x) else none
    | none => none)

/-- The manifest lists a further step of job x on engine e's logical engine, or cannot tell: it lists none at all, or the
job has taken a fallback (R195, R318). [DESIGN CHOICE: log entry 161.] -/
def State.stepsLeft (s : State) (e : Nat) (x : Job) : Bool :=
  match (s.ctx x.ctx).billet with
  | none => true
  | some b =>
    let done := if s.onJob e x then s.rd (seqPage e) Reg.ANV_CTX_STAT_step x.ctx else 0
    b.stepEngines.isEmpty || x.fallback
      || decide (done < b.stepEngines.countP (fun l => if e < 32 then decide (l.val = s.logicalOf e x) else decide (32 ≤ l.val)))

/-- A step of job x is ready on engine e: under way, or there to be fetched. -/
def State.jobReady (s : State) (e : Nat) (x : Job) : Bool :=
  !(s.jobProg e x).cmds.isEmpty || (s.stepsLeft e x && (s.nextStep e x).isSome)

/-- Job x may run on engine e next: it is the one begun last there, or the oldest that has not begun (R284). -/
def State.jobTurn (s : State) (e : Nat) (x : Job) : Bool :=
  s.onJob e x
    || (!(s.eng e).begun.contains x.tag
        && ((s.engJobs e x.ctx).find? (fun p => !(s.eng e).begun.contains p.2.tag)).any (fun p => p.2.tag = x.tag))

/-- A share of at least 256 commands lets a context start on an Anvil engine, of at least 128 on a Tongs engine
(R167, R274). -/
def State.bufEnough (s : State) (e c : Nat) : Bool :=
  decide ((if e < 32 then 256 else 128) ≤ s.rd (seqPage e) Reg.ANV_CTX_BUF_size c)

/-- Context c is ready on engine e (R287). -/
def State.ready (s : State) (e c : Nat) : Bool :=
  bit (s.rd (P.eng e) Reg.ANV_CFG_ctx_en) c && s.ctxRuns c && !(s.eng e).rwait.any (fun r => r.1 = c) && s.bufEnough e c
    && (s.engJobs e c).any (fun p => s.jobTurn e p.2 && s.jobReady e p.2)

def State.prio (s : State) (c : Nat) : Nat := s.rd (P.schC c) Reg.SCH_CTX_CFG_prio

/-- The context that the scheduler names on engine e: of the highest priority among those that are ready, of equals the
first counted from one past the context last named (R287). -/
def State.named (s : State) (e : Nat) : Option Nat :=
  let l := ((List.range 8).map (fun i => ((s.eng e).lastNamed + 1 + i) % 8)).filter (s.ready e)
  let top := l.foldl (fun m c => max m (s.prio c)) 0
  l.find? (fun c => s.prio c = top)

/-- The context whose step engine e runs, or whose next step is chained to the one that has ended (R155). -/
def Engine.holder (g : Engine) : Option Nat :=
  match g.cur with
  | some c => some c
  | none => g.chain

/-- The context that may issue the first command of a step on engine e now: the chained one while it is ready, else the one
named (R155, R287). -/
def State.nextCtx (s : State) (e : Nat) : Option Nat :=
  match (s.eng e).chain with
  | some c => if s.ready e c then some c else s.named e
  | none => s.named e

/-! ### Pre-emption requests (R288) -/

/-- Context c has become ready: a request is raised on every engine where one of lower priority runs.
[DEDUCED: log entry 60.] -/
def State.preempt (s : State) (c : Nat) : State :=
  (List.range 36).foldl (fun s e =>
    let g := s.eng e
    match g.holder with
    | none => s
    | some d =>
      let past := match g.preReq with
        | some r => decide (s.prio r < s.prio c)
        | none => true
      if decide (s.prio d < s.prio c) && past && s.ready e c then s.setEng e { g with preReq := some c } else s) s

/-! ### Waits that end (R292, R293) -/

/-- REMOTE_WAIT_TIMEOUT: the job ends with status 3, a box-list job as no verdict; an arrival in the same cycle counts
(R67, R293). -/
def State.remoteTimeout (s : State) (e c w j : Nat) : State :=
  match s.job j with
  | none => s
  | some x =>
    if (s.eng e).rwait.contains (c, w) && !s.waitDone c e w && s.onJob e x then (s.bump (P.schC c + 0x860)).jobEnd j 3 else s

def execRemoteWaitTimeout (e : Fin 32) (c : Fin 8) (ent : Fin 16) (j : Fin 512) (s : State) : Host.Outcome State Fault Refusal :=
  fin (s.whenClocked (fun s => s.remoteTimeout e c ent j))

end Sys2Proof.Machine
end

