-- ==== Sys2Proof/Machine/Jobs.lean ====
section
/-! DEFINITION. Boxes, jobs and verdicts (R19 to R31, R278, R282 to R286, R298 to R300, R314, R318, R324 to R326, R331):
the admission of boxes and of jobs, the landing of verdicts, the end of a job. -/

namespace Sys2Proof.Machine

/-! ### The tentative table (R298 to R300) -/

def State.setTent (s : State) (i : Nat) (t : Tent) : State :=
  { s with sched := { s.sched with tents := SMap.insert s.sched.tents i t } }

/-- The place that holds the tentative of an object for a context. -/
def State.tentAt (s : State) (c k obj : Nat) : Option (Nat × Tent) :=
  List.find? (fun (p : Nat × Tent) => p.2.valid && p.2.ctx = c && p.2.camera = k && p.2.object = obj) s.sched.tents

/-- A place is freed; its generation advances (R300). -/
def State.tentFree (s : State) (i : Nat) (t : Tent) : State :=
  s.setTent i { (default : Tent) with gen := (t.gen + 1) % 65536 }

/-! ### Boxes (R24, R283, R409) -/

/-- The line that a box is referred to (R24, R307). -/
def State.refLine (s : State) (c : Nat) (b : Box) : Nat :=
  let f := b.first.toNat
  let l := b.last.toNat
  match s.rd (P.schC c) Reg.SCH_CTX_CFG_ref with
  | 0 => f
  | 1 => l
  | _ => f + (l - f + 1) / 2

/-- The count of line n of camera k, by the blocks given: the stamp of the block that holds it and the lines past the
block's first (R24). -/
def State.lineCount (s : State) (k : Nat) (stamps : List (Nat × Nat)) (n : Nat) : Nat :=
  let blk := (stamps.find? (fun p => p.1 ≤ n)).getD (0, 0)
  (blk.2 + (roundDiv ((n - blk.1) * s.camSpacing k : Nat) 65536).toNat) % 2 ^ 32

/-- The actuators of a group that the columns of a box select (R409). -/
def State.actuators (s : State) (g : Nat) (b : Box) : Nat × Nat :=
  let c0 := s.rd P.rtu Reg.RTU_GRP_MAP_col0 g
  let p := max 1 (s.rd P.rtu Reg.RTU_GRP_MAP_pitch g)
  let a := fun x => s.groupAct0 g + min ((x - c0) / p) (s.groupNAct g - 1)
  (a b.col0.toNat, a b.col1.toNat)

/-- The map entries of context c that a box overlaps (R283). -/
def State.boxMap (s : State) (c : Nat) (b : Box) : List (Nat × Nat × Nat × Nat) :=
  (s.actMap c).filter (fun m => decide (m.1 ≤ b.col1.toNat) && decide (b.col0.toNat ≤ m.2.1))

/-- The RTU entry of a box for one map entry (R21, R24, R299, R408). -/
def State.mkEntry (s : State) (c : Nat) (b : Box) (stamps : List (Nat × Nat)) (m : Nat × Nat × Nat × Nat) (multi : Bool)
    (t : Option Tent) (key : Nat) : RtuEntry :=
  let k := b.camera.val
  let r := s.refLine c b
  let a := s.actuators m.2.2.1 b
  { (default : RtuEntry) with
    target := (s.lineCount k stamps r + m.2.2.2) % 2 ^ 32
    group := m.2.2.1
    actFirst := a.1
    actLast := a.2
    lenCt := ((b.last.toNat - r) * s.camSpacing k + 65535) / 65536
    failPass := s.rdb (P.schC c) Reg.SCH_CTX_CFG_failsafe
    nv := b.noVerdict
    ctx := c
    object := b.object.toNat
    camera := k
    state := 1
    multi := multi
    tentValid := t.isSome
    tentDec := (t.map Tent.reject).getD false
    staged := (t.map Tent.reject).getD false
    key := key }

/-- The entries of a box are written in the order of the map; none follows one that overflows or is missed (R22, R414,
R418). Answers how many were written. [DEDUCED: log entry 63.] -/
def State.writeEntries (s : State) (c : Nat) (b : Box) (stamps : List (Nat × Nat)) (multi : Bool) (t : Option Tent) (key : Nat) :
    List (Nat × Nat × Nat × Nat) → Nat → State × Nat
  | [], n => (s, n)
  | m :: ms, n =>
    if s.rdb P.rtu Reg.RTU_STAT_ovf then (s, n)
    else if 4096 ≤ s.rtu.entries.length then (s.rtuOverflow c b.camera b.object.toNat, n)
    else State.writeEntries (s.rtuWrite (s.mkEntry c b stamps m multi t key)) c b stamps multi t key ms (n + 1)

/-- A held tentative of the object leaves the table: into the entries, or discarded for a marked box (R299).
[DEDUCED: log entry 115.] -/
def State.takeTent (s : State) (c : Nat) (b : Box) : State × Option Tent :=
  match s.tentAt c b.camera b.object.toNat with
  | none => (s, none)
  | some (i, t) =>
    let s := s.tentFree i t
    if b.noVerdict then (s.bump (P.schC c + 0x890), none) else (s.bump (P.schC c + 0x878), some t)

/-- The box takes its place in the admission queue, or finds it full (R283). -/
def State.queueBox (s : State) (c : Nat) (q : QBox) (entries : Nat) : State :=
  if 1024 ≤ (s.ctx c).boxQ.length then s.bump (P.schC c + 0x810)
  else
    (s.setCtx c { s.ctx c with boxQ := (s.ctx c).boxQ ++ [q] }).setAudit q.key
      { (default : Audit) with left := entries, object := q.box.object.toNat, ctx := c }

/-- A box that context c receives: its entries, then its place in the queue. -/
def State.boxTake (s : State) (c : Nat) (b : Box) (last : Nat) (stamps : List (Nat × Nat)) : State :=
  if s.rdb P.rtu Reg.RTU_STAT_ovf then s.bump (P.rtu + 0x828)
  else
    let ms := s.boxMap c b
    let key := s.rtu.keys + 1
    let first := lowestFree (SMap.keys s.rtu.entries) 0
    let t := s.takeTent c b
    let s := { t.1 with rtu := { t.1.rtu with keys := key } }
    let w := s.writeEntries c b stamps (decide (1 < ms.length)) t.2 key ms 0
    let s := w.1
    if b.noVerdict || s.rdb P.rtu Reg.RTU_STAT_ovf then s
    else s.queueBox c { box := b, rtuFirst := first, lastLine := last, key := key } w.2

/-- BOX_ADMIT: a box issued to context c and not yet taken. A context that has left RUNNING since by STOP still takes
it (R281); one that was reset or has failed does not. -/
def State.boxAdmit (s : State) (c : Nat) (b : Box) : State :=
  let k := b.camera.val
  match (s.det k).issued.find? (fun x => x.box = b && x.dest.contains c && s.alive) with
  | none => s
  | some x =>
    let x' := { x with dest := x.dest.erase c }
    let s := s.setDet k { s.det k with issued :=
      ((s.det k).issued.map (fun y => if y = x then x' else y)).filter (fun y => !y.dest.isEmpty) }
    if s.ctxState c = ctxRunning || s.ctxState c = ctxDraining then s.boxTake c b x.last x.stamps else s

def execBoxAdmit (c : Fin 8) (b : Box) (s : State) : Host.Outcome State Fault Refusal := fin (s.boxAdmit c b)

/-! ### Job admission (R278, R282, R285, R314, R318) -/

/-- The first 8 bytes are the box's first line and its camera, the rest its extent (R314). -/
def boxIdentity (b : Box) : List Byte :=
  le 6 b.first.toNat ++ le 1 b.camera ++ le 1 1 ++ le 4 (b.last.toNat - b.first.toNat + 1) ++ le 2 b.col0.toNat ++ le 2 b.col1.toNat

/-- The lowest free job slot. -/
def State.freeSlot (s : State) : Option Nat := (List.range 512).find? (fun j => (s.job j).isNone)

def State.quota (s : State) (c : Nat) : Nat := s.rd (P.schC c) Reg.SCH_CTX_CFG_quota

/-- A slot is free within the quota of context c. -/
def State.slotFor (s : State) (c : Nat) : Option Nat :=
  if (s.ctxJobs c).length < s.quota c then s.freeSlot else none

/-- Jobs assigned to Tongs engine t; one that awaits its restart has left it (R278). -/
def State.tongsLoad (s : State) (t : Nat) : Nat :=
  (s.sched.jobs.filter (fun p => p.2.tongs = t && p.2.ended.isNone && p.2.phase ≠ 4)).length

/-- The Tongs engine a job of context c is assigned to: the least loaded, the lowest of equals (R278). -/
def State.assignTongs (s : State) (c : Nat) : Option Nat :=
  (s.tngFree.filter (fun t => bit (s.rd (P.tng t 0) Reg.TNG_CFG_ctx_en) c)).foldl (fun best t =>
    match best with
    | none => some t
    | some b => if s.tongsLoad t < s.tongsLoad b then some t else some b) none

/-- The first unfenced Tongs engine after t, wrapping (R326). -/
def State.nextTongs (s : State) (t : Nat) : Nat :=
  (((List.range 4).map (fun i => (t + 1 + i) % 4)).find? (fun u => s.tngFree.contains u)).getD t

/-- A job admitted now runs folded (R199, R333). -/
def State.foldNow (s : State) (c : Nat) : Bool :=
  bit (s.rd P.xck Reg.XCK_AUD_CFG_force_fold) c || s.anvFree.any (fun e => s.rdb (P.anv e 0) Reg.ANV_CFG_rq_excl)

/-- The step counter of a context advances by one job (R318). -/
def State.takeBase (s : State) (c : Nat) : State × Nat :=
  let b := s.rd2 (P.schC c) Reg.SCH_CTX_STEPS_lo Reg.SCH_CTX_STEPS_hi
  (s.wr2 (P.schC c) Reg.SCH_CTX_STEPS_lo Reg.SCH_CTX_STEPS_hi ((b + 65536) % 2 ^ 64), b)

/-- A job goes into slot j: its tag, its transfer sequence, its place in the order, the requests it raises. -/
def State.placeJob (s : State) (j : Nat) (x : Job) : State :=
  let g := SMap.get s.sched.slotGen j (0 : Nat)
  let q := (s.ctx x.ctx).jseqNext
  let s := s.setJob j { x with tag := j + 512 * g, jseq := q }
  let s := { s with sched := { s.sched with order := s.sched.order ++ [j] } }
  let s := s.setCtx x.ctx { s.ctx x.ctx with jseqNext := (q + 1) % 2 ^ 32 }
  let s := if s.coll.reloading then
      { s with coll := { s.coll with pendingJobs := s.coll.pendingJobs ++ [j + 512 * g] } } else s
  (s.bump (P.schC x.ctx + 0x800)).preempt x.ctx

/-- The tag the next job in slot j gets (R282). -/
def State.nextTag (s : State) (j : Nat) : Nat := j + 512 * SMap.get s.sched.slotGen j (0 : Nat)

/-! ### Cross-check selection (R324, R325) -/

def State.seedBytes (s : State) (c : Nat) : List Byte :=
  (List.range 4).flatMap (fun i => le 4 (s.rd (P.schC c) Reg.SCH_CTX_SEED_word i))

/-- N, from 16 to 65,536 (R335). -/
def State.xckN (s : State) : Nat := max 16 (min 65536 (s.rd P.xck Reg.XCK_N_n))

/-- The hash of R324 selects an identity. -/
def State.hashSelects (s : State) (c : Nat) (id : List Byte) : Bool :=
  decide (unle ((sha512 (s.seedBytes c ++ padTo 16 id)).take 8) % s.xckN = 0)

/-- Jobs of the context are sampled at all. -/
def State.xckSamples (s : State) (c : Nat) : Bool :=
  s.rdb P.xck Reg.XCK_CFG_en && bit (s.rd P.xck Reg.XCK_CFG_ctx_mask) c && s.works P.xck
    && !((s.ctx c).billet).any (fun b => !b.waits.isEmpty)

/-- XCHECK_SELECT: a check begins, with the copy behind the host jobs that wait; answers the check. -/
def State.xckSelect (s : State) (x : Job) : State × Option Nat :=
  if s.xckSamples x.ctx && s.hashSelects x.ctx x.identity then
    match (List.range 4).find? (fun k => (SMap.find? s.sched.checks k).isNone) with
    | none => (s.bump (P.xck + 0x808), none)
    | some k =>
      let ck : Check := { (default : Check) with proto := { x with xcheck := true, check := some k } }
      let s := { s with sched := { s.sched with checks := SMap.insert s.sched.checks k ck } }
      ((s.setCtx x.ctx { s.ctx x.ctx with hostQ := (s.ctx x.ctx).hostQ ++ [HostItem.copy k] }).bump (P.xck + 0x800), some k)
  else (s, none)

/-- An original is admitted: selected or not. -/
def State.admitOriginal (s : State) (j : Nat) (x : Job) : State :=
  let x := { x with tag := s.nextTag j }
  let r := s.xckSelect x
  r.1.placeJob j { x with xcheck := r.2.isSome, check := r.2 }

/-! ### Box-list jobs -/

/-- The record flags of R31 that belong to the job. -/
def jobFlags (x : Job) : Nat := (if 0 < x.restarts then 2 else 0) + (if x.xcheck then 4 else 0) + (if x.folded then 8 else 0)

/-- The entries of a box record the job's tag and its flags; the audit entry takes what the job knows (R31, R283, R331). -/
def State.tieEntries (s : State) (x : Job) : State :=
  let s := { s with rtu := { s.rtu with entries := s.rtu.entries.map (fun p =>
    if p.2.key = x.key ∧ p.2.decision.isNone then
      (p.1, { p.2 with job := some x.tag, vflags := jobFlags x })
    else p) } }
  match SMap.find? s.rtu.audits x.key with
  | none => s
  | some a =>
    let a := { a with admitted := true, identity := x.identity, base := x.base, hash := (s.ctx x.ctx).hash }
    if a.left = 0 then (s.dropAudit x.key).auditAppend a else s.setAudit x.key a

/-- The oldest box of the queue becomes a job in slot j on Tongs engine t. -/
def State.admitBox (s : State) (c j t : Nat) (q : QBox) (qs : List QBox) : State :=
  let s := s.setCtx c { s.ctx c with boxQ := qs }
  let b := s.takeBase c
  let s := b.1
  let x : Job := { (default : Job) with
    ctx := c, kind := .box, box := some q.box, identity := boxIdentity q.box, base := b.2, folded := s.foldNow c
    tongs := t, rtuFirst := q.rtuFirst, lastLine := q.lastLine, key := q.key }
  let s := s.admitOriginal j x
  match s.job j with
  | some x =>
    let s := s.tieEntries x
    if x.folded then s.bump (P.schC c + 0x868) else s
  | none => s

/-! ### Host jobs (R285, R286) -/

/-- The fields of a host job descriptor. -/
def readDesc (b : List Byte) : HostJob :=
  let at_ := fun i n => unle ((b.drop i).take n)
  { input := at_ 0 8, width := at_ 8 2, height := at_ 10 2, c0 := at_ 12 2, c1 := at_ 14 2, l0 := at_ 16 2, l1 := at_ 18 2
    len := at_ 20 4, result := at_ 24 8, userTag := at_ 32 8, kind := at_ 40 1, flags := at_ 41 1, identity := (b.drop 48).take 16 }

/-- n bytes at a lie in one of the context's DRAM windows. [DESIGN CHOICE: log entry 57.] -/
def State.inWindows (s : State) (c a n : Nat) : Bool :=
  ((s.ctx c).billet).any (fun b => b.windows.any (fun w => decide (w.1.toNat ≤ a) && decide (a + n ≤ w.1.toNat + w.2.toNat)))

/-- A result area that can be written. [DEDUCED: log entry 54.] -/
def State.resultValid (s : State) (c : Nat) (d : HostJob) : Bool := decide (d.result % 64 = 0) && s.inWindows c d.result 64

/-- A descriptor that is run (R285). [DEDUCED: log entry 54.] [DEDUCED: log entry 56.] -/
def State.descValid (s : State) (c : Nat) (b : List Byte) : Bool :=
  let d := readDesc b
  decide (unle ((b.drop 42).take 6) = 0) && decide (d.flags < 4) && decide (d.input < 2 ^ 40) && s.resultValid c d
    && (if d.kind = 0 then
          decide (d.width = 0) && decide (d.height = 0) && ((s.ctx c).billet).any (fun x => d.len = x.inputLen.toNat)
            && s.inWindows c d.input d.len
        else decide (d.kind = 1) && decide (1 ≤ d.width) && decide (d.width ≤ 32768) && decide (1 ≤ d.height) && decide (d.height ≤ 8192)
          && decide (d.c0 ≤ d.c1) && decide (d.c1 < d.width) && decide (d.l0 ≤ d.l1) && decide (d.l1 < d.height)
          && s.inWindows c d.input (d.width * d.height * max 1 (Config.pixelBytes (s.ctx c).hash)))

/-- log2 of a context's host job ring: values outside 4 to 12 act as 4. [DESIGN CHOICE: log entry 55.] -/
def State.hqLog (s : State) (c : Nat) : Nat :=
  let n := s.rd (P.schC c) Reg.SCH_CTX_HQ_size_log2
  if 4 ≤ n ∧ n ≤ 12 then n else 4

/-- Result area and JOB_DONE share their first eight bytes (R286). -/
def resultHead (tag st : Nat) (v : Option Verdict) (flags : Nat) : List Byte :=
  le 2 tag ++ le 1 st ++ le 1 ((v.map Verdict.cls).getD 0) ++ le 2 ((v.map Verdict.conf).getD 0)
    ++ le 1 (b2n ((v.map Verdict.reject).getD false)) ++ le 1 flags

/-- A host job reports: its result area, then its record where asked for (R284). [DEDUCED: log entry 54.] -/
def State.reportHost (s : State) (c : Nat) (d : HostJob) (tag st : Nat) (v : Option Verdict) (flags : Nat) : State :=
  let head := resultHead tag st v flags
  let area := head ++ padTo 16 ((v.map Verdict.digest).getD []) ++ le 8 d.userTag ++ le 8 s.now ++ List.replicate 24 0
  let s := if s.resultValid c d then s.put bwSched d.result area else s
  if bit d.flags 1 then s.raise (srcOf P.schG) 0x40 (head ++ le 8 d.userTag) else s

/-- A host job of this kind in slot j. -/
def State.admitHost (s : State) (c j t : Nat) (d : HostJob) (kind : JobKind) : State :=
  let b := s.takeBase c
  let s := b.1
  let x : Job := { (default : Job) with
    ctx := c, kind := kind, desc := some d, identity := d.identity, base := b.2, folded := s.foldNow c, tongs := t }
  let s := if x.folded then s.bump (P.schC c + 0x868) else s
  if kind = .regen then
    let r := s.sched.regen.map (fun r => { r with job := s.nextTag j })
    { s with sched := { s.sched with regen := r } }.placeJob j x
  else s.admitOriginal j x

/-- The next descriptor of the ring: admitted, or completed at once with status 2, whose tag the spec does not give; one
that cannot be read is refused like one that is not valid. [DEDUCED: log entry 54.] -/
def State.admitRing (s : State) (c j t : Nat) : State :=
  let i := s.rd (P.schC c) Reg.SCH_CTX_HQ_cons
  let a := s.rd2 (P.schC c) Reg.SCH_CTX_HQ_BASE_lo Reg.SCH_CTX_HQ_BASE_hi / 64 * 64 + 64 * i
  let r := s.fetch bwSched a 64
  let s := r.1
  let b := s.load a 64
  let s := s.wr (P.schC c) Reg.SCH_CTX_HQ_cons ((i + 1) % 2 ^ s.hqLog c)
  if !r.2 && s.descValid c b then s.admitHost c j t (readDesc b) .host
  else s.draw.reportHost c (readDesc b) (s.freeVal % 65536) 2 none 0

/-- A copy or an arbitration run of check k: the original's base, input, identity and variant (R325, R326, R328). -/
def State.admitRerun (s : State) (c j k : Nat) (arb : Bool) : State :=
  match SMap.find? s.sched.checks k with
  | none => s
  | some ck =>
    let h := s.anvFree.length
    let t := s.nextTongs ck.proto.tongs
    let s := if arb then s else { s with sched := { s.sched with checks := SMap.insert s.sched.checks k { ck with copyTongs := t } } }
    let s := s.placeJob j { ck.proto with
      kind := if arb then .arbitration else .copy, phase := 0, restarts := 0, tongs := t, counts := [], verdict := none, ended := none
      rotation := if arb then h / 4 else h / 2, xcheck := false, key := 0 }
    if ck.proto.folded then s.bump (P.schC c + 0x868) else s

/-- The next host job in its order of arrival. -/
def State.admitHostItem (s : State) (c j t : Nat) : State :=
  match (s.ctx c).hostQ with
  | [] => s
  | q :: qs =>
    let s := s.setCtx c { s.ctx c with hostQ := qs }
    match q with
    | .ring => s.admitRing c j t
    | .copy k => s.admitRerun c j k false
    | .arbitrate k => s.admitRerun c j k true
    | .regen d => s.admitHost c j t d .regen

/-- The entries of a restarted job take its flags (R31). -/
def State.reflag (s : State) (x : Job) : State :=
  { s with rtu := { s.rtu with entries := s.rtu.entries.map (fun (p : Nat × RtuEntry) =>
      if p.2.job = some x.tag then (p.1, { p.2 with vflags := jobFlags x }) else p) } }

/-- Job x as it restarts on Tongs engine t, its variant chosen anew, and what its check notes of it: a run of a check takes
the engine after the original's, the original's variant and its rotation of the standing h (R325, R326, R562).
[DEDUCED: log entry 167.] -/
def State.restartAs (s : State) (x : Job) (t : Nat) : State × Job :=
  let x := { x with phase := 0, counts := [] }
  let own := { x with tongs := t, folded := s.foldNow x.ctx }
  match x.check with
  | none => (s, own)
  | some k =>
    match SMap.find? s.sched.checks k with
    | none => (s, own)
    | some ck =>
      let h := s.anvFree.length
      let u := s.nextTongs ck.proto.tongs
      let note := fun (ck : Check) => { s with sched := { s.sched with checks := SMap.insert s.sched.checks k ck } }
      match x.kind with
      | .copy => (note { ck with copyTongs := u }, { x with tongs := u, folded := ck.proto.folded, rotation := h / 2 })
      | .arbitration => (s, { x with tongs := u, folded := ck.proto.folded, rotation := h / 4 })
      | _ => (note { ck with proto := { ck.proto with tongs := t, folded := own.folded } }, own)

/-- A restarted job of context c is dispatched again; one that now runs folded is counted (R294, R562). -/
def State.redispatch (s : State) (c : Nat) : Option State :=
  match s.sched.restartQ.find? (fun j => match s.job j with
      | some x => x.ctx = c
      | none => false) with
  | none => none
  | some j =>
    match s.job j, s.assignTongs c with
    | some x, some t =>
      let s := { s with sched := { s.sched with restartQ := s.sched.restartQ.erase j } }
      let r := s.restartAs x t
      let s := if r.2.folded && !x.folded then r.1.bump (P.schC c + 0x868) else r.1
      some (((s.setJob j r.2).reflag r.2).preempt c)
    | _, _ => none

/-- JOB_ADMIT: restarted jobs first, then boxes, then host jobs; a context that drains admits the boxes issued before its
STOP (R281, R282, R562). -/
def State.jobAdmit (s : State) (c : Nat) : State :=
  if !s.alive || !(s.ctxRuns c) then s
  else match s.redispatch c with
    | some s => s
    | none =>
      match s.slotFor c, s.assignTongs c with
      | some j, some t =>
        match (s.ctx c).boxQ with
        | q :: qs => if s.ctxState c = ctxStandby then s.admitHostItem c j t else s.admitBox c j t q qs
        | [] => if s.ctxState c = ctxDraining then s else s.admitHostItem c j t
      | _, _ => s

def execJobAdmit (c : Fin 8) (s : State) : Host.Outcome State Fault Refusal := fin (s.jobAdmit c)


/-- The archive stream that runs and feeds context c (R519). -/
def State.arcFeeds (s : State) (c : Nat) : Option Nat :=
  (List.range 64).find? (fun i => decide (s.rd (P.arcS i) Reg.ARC_SCFG_ctx = c)
    && ([1, 2, 3] : List Nat).contains (s.rd (P.arcS i) Reg.ARC_SSTAT_state))

/-- HOST_JOB_DOORBELL (R490, R496): descriptors up to the written index are announced. -/
def State.jobDoorbell (s : State) (c v : Nat) : State :=
  let i := v % 4096
  match s.arcFeeds c with
  | some n => (s.bump (P.erq + 0x908)).bump (P.arcS n + 0x820)
  | none =>
  if 2 ^ s.hqLog c ≤ i ∨ !s.ctxResident c then s.bump (P.erq + 0x908)
  else
    let n := (i + 2 ^ s.hqLog c - (s.ctx c).hostProd % 2 ^ s.hqLog c) % 2 ^ s.hqLog c
    s.setCtx c { s.ctx c with hostQ := (s.ctx c).hostQ ++ List.replicate n HostItem.ring, hostProd := i }

def execHostJobDoorbell (c : Fin 8) (v : Word) (s : State) : Host.Outcome State Fault Refusal :=
  fin (s.onDoorbell (0x1000 * c) v (fun s => s.jobDoorbell c v.toNat))

/-! ### Verdicts -/

/-- The result area's flags (R286). -/
def resultFlags (x : Job) : Nat :=
  b2n x.folded + 2 * b2n x.fallback + 4 * b2n (decide (0 < x.restarts)) + 8 * b2n (x.kind = .copy)

/-- A final VERDICT on engine e hands a job's verdict over (R221, R284); one without a class ends the job as no verdict.
[DEDUCED: log entry 114.] -/
def State.handVerdict (s : State) (e j : Nat) (v : Verdict) : State :=
  match s.job j with
  | none => s
  | some x =>
    if x.ended.isSome then s
    else if v.noVerdict then s.jobEnd j 1 (some e)
    else
      let s := s.setJob j { x with verdict := some v }
      let s := if x.kind = .box then
          let z : Crossing := { slot := j, tag := x.tag, ctx := x.ctx, verdict := v, flags := jobFlags x }
          let s := { s with rtu := { s.rtu with crossing := s.rtu.crossing ++ [z] } }
          match SMap.find? s.rtu.audits x.key with
          | some a => s.setAudit x.key { a with digest := v.digest }
          | none => s
        else s
      s.jobEnd j 0 (some e)

/-- Restarted jobs whose verdict has landed or that have ended otherwise; RESTART_DONE with the last (R565, R585).
[DEDUCED: log entry 59.] -/
def State.restartLanded (s : State) (tag : Nat) : State :=
  if s.coll.pendingJobs.contains tag then
    let l := s.coll.pendingJobs.filter (fun t => t ≠ tag)
    let s := { s with coll := { s.coll with pendingJobs := l } }
    if l.isEmpty then
      (s.wrb P.flt Reg.FLT_STAT_busy false).raise 0xe00 0x81
        (le 4 (s.now - s.coll.startNs) ++ le 2 (s.rd P.flt Reg.FLT_STAT_jobs) ++ le 1 s.anvFree.length)
    else s
  else s

/-- VERDICT_LANDING: the oldest verdict of slot j on its way lands (R26, R27, R408). -/
def State.verdictLanding (s : State) (j : Nat) : State :=
  match s.rtu.crossing.find? (fun x => x.slot = j) with
  | none => s
  | some x =>
    let s := { s with rtu := { s.rtu with crossing := s.rtu.crossing.erase x } }
    (if s.rtuAlive then s.verdictLand x else s).restartLanded x.tag

def execVerdictLanding (j : Fin 512) (s : State) : Host.Outcome State Fault Refusal :=
  fin (if s.hostReach then s.verdictLanding j else s)

/-! ### Completion (R284, R320) -/

/-- The REGEN_DONE record and the end of the request (R337, R340). -/
def State.regenEnd (s : State) (status c step : Nat) : State :=
  let s := ((s.wr P.xck Reg.XCK_REGEN_CTL_status status).wrb P.xck Reg.XCK_REGEN_CTL_busy false).bump (P.xck + 0x840)
  { s with sched := { s.sched with regen := none } }.raise 0xe02 0x61 (le 2 status ++ le 1 c ++ le 5 0 ++ le 8 step)

/-- Slot j is free again; its generation advances (R282). -/
def State.freeJob (s : State) (j : Nat) : State :=
  { s with sched := { s.sched with
    jobs := SMap.erase s.sched.jobs j
    slotGen := SMap.set s.sched.slotGen j ((SMap.get s.sched.slotGen j (0 : Nat) + 1) % 128) 0
    order := s.sched.order.filter (fun i => i ≠ j)
    restartQ := s.sched.restartQ.filter (fun i => i ≠ j) } }

/-- The output tensor of a host job that asks for it goes to the billet's output window (R285). -/
def State.outputWrite (s : State) (c : Nat) (d : HostJob) (st : Nat) : State :=
  match (s.ctx c).billet with
  | none => s
  | some b =>
    if bit d.flags 0 && decide (st = 0) then
      let r := s.fetch (bwCtx c) b.outAt.toNat b.outLen.toNat
      if r.2 then r.1 else r.1.dmaPut (bwCtx c) b.outWindow.toNat (r.1.load b.outAt.toNat b.outLen.toNat)
    else s

/-- JOB_COMPLETE: a job that has ended reports and leaves its slot. -/
def State.jobComplete (s : State) (j : Nat) : State :=
  match s.job j with
  | none => s
  | some x =>
    match x.ended with
    | none => s
    | some st =>
      let s := (s.engineDrop x.ctx x.tag).freeJob j
      let s := if st = 4 then s else s.bump (P.schC x.ctx + 0x808)
      let s := match x.desc with
        | some d =>
          if x.kind = JobKind.host ∨ x.kind = JobKind.regen then
            (s.outputWrite x.ctx d st).reportHost x.ctx d x.tag st x.verdict (resultFlags x)
          else s
        | none => s
      let s := match s.sched.regen with
        | some r => if x.kind = JobKind.regen ∧ r.job = x.tag then s.regenEnd 3 r.ctx r.step else s
        | none => s
      if x.kind = JobKind.box ∧ x.verdict.isSome then s else s.restartLanded x.tag

def execJobComplete (j : Fin 512) (s : State) : Host.Outcome State Fault Refusal :=
  fin (if s.alive then s.jobComplete j else s)

end Sys2Proof.Machine
end

