-- ==== Sys2Proof/Machine/Sched.lean ====
section
/-! DEFINITION. Contexts: their commands, live swaps, faults, resets and shares (R77, R235, R236, R273, R276, R277, R280,
R281, R295 to R297, R303 to R305, R311, R471). -/

namespace Sys2Proof.Machine

/-! ### States and results -/

/-- A context changes state and writes its CTX_STATE record (R273, R311). -/
def State.setCtxState (s : State) (c st fcause : Nat) : State :=
  ((s.wr (P.schC c) Reg.SCH_CTX_STAT_state st).wr (P.schC c) Reg.SCH_CTX_STAT_fcause fcause).raise (srcOf P.schG) 0x42
    (le 1 c ++ le 1 st ++ le 1 fcause)

/-- A command ends: SCH_CMD_RES and its CMD_DONE record (R280, R305, R311). -/
def State.schDone (s : State) (op c code : Nat) : State :=
  let n := (s.rd P.schG Reg.SCH_CMD_RES_seq + 1) % 65536
  let s := (((s.wr P.schG Reg.SCH_CMD_RES_code code).wr P.schG Reg.SCH_CMD_RES_op op).wr P.schG Reg.SCH_CMD_RES_ctx c).wr P.schG
    Reg.SCH_CMD_RES_seq n
  s.raise (srcOf P.schG) 0x41 (le 4 (code + 16 * (op % 16) + 256 * (c % 8) + 65536 * n))

/-! ### Shares (R235, R236) -/

/-- Where context c's share of bank b begins and how long it is, in bytes (R235). -/
def State.share (s : State) (c b : Nat) : Option (Nat × Nat) :=
  ((s.ctx c).billet).map (fun x =>
    let y := s.ctx c
    let n := shareUnits x b
    if b < 192 then
      ((if b % 6 < 4 then y.aBase else if b % 6 = 4 then y.wBase else y.pBase) * 4096, n * 4096)
    else if b = 196 then (y.n4Base * 65536, n * 65536)
    else if b = 197 then (y.n5Base * 65536, n * 65536)
    else (y.xBase * 4096, n * 4096))

/-- Every share of context c is cleared and counted; its banks show that until BANK_CLEAR_DONE (R236, R261, R262). -/
def State.clearShares (s : State) (c : Nat) : State :=
  (List.range 202).foldl (fun s b => match s.share c b with
    | some (o, n) =>
      if n = 0 then s
      else ((s.clearMem (bankBase b + o) n).wrb P.bank Reg.BANK_CTL_clearing true b).bump (P.bank + 0x828)
    | none => s) s

/-! ### What a context drops -/

/-- Host jobs of checks and of a regeneration that wait are dropped, and the check's copy counts as ended with digest zero
(R328). Announced descriptors stay announced. [DEDUCED: log entry 51.] -/
def State.dropHostQ (s : State) (c : Nat) : State :=
  let s := (s.ctx c).hostQ.foldl (fun s q => match q with
    | .copy k =>
      match SMap.find? s.sched.checks k with
      | some ck => { s with sched := { s.sched with checks := SMap.insert s.sched.checks k { ck with copyDigest := some zeroDigest } } }
      | none => s
    | .arbitrate k =>
      match SMap.find? s.sched.checks k with
      | some ck => { s with sched := { s.sched with checks := SMap.insert s.sched.checks k { ck with arbEnded := true } } }
      | none => s
    | .regen _ =>
      match s.sched.regen with
      | some r => s.regenEnd 6 r.ctx r.step
      | none => s
    | .ring => s) s
  s.setCtx c { s.ctx c with hostQ := (s.ctx c).hostQ.filter (fun q => q = .ring) }

/-- The boxes that wait for a job get none, and the host jobs of checks go (R27). [DEDUCED: log entry 51.] -/
def State.dropQueues (s : State) (c : Nat) : State :=
  let s := ((s.ctx c).boxQ.foldl (fun s q => s.dropAudit q.key) s).dropHostQ c
  s.setCtx c { s.ctx c with boxQ := [] }

/-- Probes and held tentatives of the context go. -/
def State.dropTents (s : State) (c : Nat) : State :=
  let s := (s.sched.tents.filter (fun p => p.2.valid && p.2.ctx = c)).foldl (fun s p => s.tentFree p.1 p.2) s
  s.setCtx c { s.ctx c with probes := [] }

/-- Every job in flight of the context ends with this status (R286, R303). [DEDUCED: log entry 53.] -/
def State.abandonJobs (s : State) (c st : Nat) : State :=
  (s.ctxJobs c).foldl (fun s p => s.jobEnd p.1 st) s

/-! ### Swaps (R295 to R297) -/

/-- The contexts whose pending swap names c, that c is withdrawn from. -/
def State.swapsOf (s : State) (c : Nat) : List Nat :=
  (List.range 8).filter (fun a => !(s.ctx a).swapped && (match (s.ctx a).swapTo with
    | some (b, _) => a = c || b = c
    | none => false))

def State.swapClear (s : State) (a : Nat) : State := s.setCtx a { s.ctx a with swapTo := none, swapped := false }

/-- A swap that has not taken effect is withdrawn, with code 6 (R297). [DEDUCED: log entry 52.] -/
def State.swapWithdraw (s : State) (c : Nat) : State :=
  (s.swapsOf c).foldl (fun s a => (s.swapClear a).schDone 3 a 6) s

/-- An eye pulse of camera k that leads before line l. -/
def State.eyeBelow (s : State) (k l lead : Nat) : Bool :=
  !passed (lead + s.rd P.fio Reg.FIO_EYE_OFF_off_ct k) ((s.lineCount k (s.pipe k).stamps (l - 1) + 1) % 2 ^ 32)

/-- Something with a first line below l is still to come to context a, or to be admitted there (R296). -/
def State.swapBusy (s : State) (a l : Nat) : Bool :=
  let k := s.primCam a
  let d := s.det k
  d.openBoxes.any (fun b => b.1 = a && decide (b.2.first.toNat < l)) || d.issued.any (fun x => x.dest.contains a)
    || !(s.ctx a).boxQ.isEmpty
    || (!s.rdb P.fio Reg.FIO_EYE_en k && (s.pipe k).done.any (fun b => decide (b.first < l) && !b.took.contains a))
    || ((s.pipe k).open_ && decide ((s.pipe k).blkFirst < l))
    || (s.rdb P.fio Reg.FIO_EYE_en k &&
        ((d.eyeOpen.any (fun e => s.eyeBelow k l e.2.1)) || d.eyeDone.any (fun e => s.eyeBelow k l e.2.1)))

/-- The outgoing context enters DRAINING once nothing below the boundary is left to it (R296). -/
def State.swapDrain (s : State) (a : Nat) : State :=
  match (s.ctx a).swapTo with
  | none => s
  | some (_, l) =>
    if (s.ctx a).swapped && decide (s.ctxState a = ctxRunning) && !s.swapBusy a l then s.setCtxState a ctxDraining 0 else s

/-! ### Faults and resets (R77, R303, R471) -/

/-- CONTEXT_FAULT: the jobs in flight are abandoned with status 4. [DEDUCED: log entry 53.] -/
def State.ctxFail (s : State) (c fcause : Nat) : State :=
  let s := ((s.swapWithdraw c).dropQueues c).dropTents c
  let s := (s.abandonJobs c 4).arcLose c
  let s := if (s.ctx c).swapped then s.swapClear c else s
  s.setCtxState c ctxFault fcause

/-- Fewer than 30 Anvil engines are left: every running context fails with cause 3 (R277). -/
def State.placementLost (s : State) : State :=
  if s.anvFree.length < 30 then
    (List.range 8).foldl (fun s c => if s.ctxRuns c then s.ctxFail c 3 else s) s
  else s

/-- The flows of a context begin anew and no flow of it is faulted (R471). -/
def State.flowsReset (s : State) (c : Nat) : State :=
  let fs := s.ctxFlows c
  let s := fs.foldl (fun s f => s.setFlow f default) s
  s.wr P.bry Reg.BRY_STAT_faulted (s.bry.flows.filter (fun p => p.2.faulted)).length

/-- CONTEXT_RESET of a resident context: an engine reset in progress absorbs it, and it takes over a Host Session Reset in
progress (R77, R78). [DEDUCED: log entry 53.] -/
def State.contextReset (s : State) (c : Nat) : State :=
  if !s.ctxResident c || !s.seq.engResets.isEmpty then s
  else
    let s := s.hsrYield
    let s := ((s.swapWithdraw c).dropQueues c).dropTents c
    let s := (s.abandonJobs c 4).arcLose c
    let s := (s.clearShares c).flowsReset c
    let s := s.setCtx c { s.ctx c with landed := [], waitsDone := [], jseqNext := 0, swapTo := none, swapped := false }
    let s := s.wr2 (P.schC c) Reg.SCH_CTX_STEPS_lo Reg.SCH_CTX_STEPS_hi 0
    if s.ctxState c = ctxStopped then s else s.setCtxState c ctxStopped 0

/-! ### START (R18, R280) -/

/-- The columns 0 to w - 1 that are covered without a gap, from column x on, by at most n entries. -/
def reach (m : List (Nat × Nat × Nat × Nat)) : Nat → Nat → Nat
  | x, 0 => x
  | x, n + 1 => reach m (m.foldl (fun y e => if e.1 ≤ x then max y (e.2.1 + 1) else y) x) n

/-- The valid map entries of context c cover the whole width of camera k. -/
def State.mapCovers (s : State) (c k : Nat) : Bool := decide (s.camWidth k ≤ reach (s.actMap c) 0 8)

/-- Every group of the map is armed, with the encoder of the camera's LTG (R280, R409). -/
def State.groupsArmed (s : State) (c k : Nat) : Bool :=
  (s.actMap c).all (fun m => s.rdb P.rtu Reg.RTU_GRP_CFG_armed m.2.2.1 && (match s.camLtg k with
    | some l => decide (s.rd P.ltg Reg.LTG_CFG_enc l = s.groupEnc m.2.2.1)
    | none => false))

/-- The result code of START. [DEDUCED: log entry 50.] -/
def State.startCode (s : State) (c : Nat) : Nat :=
  let k := s.primCam c
  if s.ctxState c ≠ ctxStopped then 1
  else if s.nextPlan.prot (8 + c) && (s.nextPlan.entryFailure (8 + c)).isSome then 3
  else if !s.primEn c then 0
  else if s.camState k ≠ camBound ∨ (s.camLtg k).isNone then 2
  else if !s.groupsArmed c k then 5
  else if !s.mapCovers c k then 8
  else 0

/-- A context's detection begins with the blocks that complete from now on. -/
def State.detectFresh (s : State) (c : Nat) : State :=
  let k := s.primCam c
  let d := s.det k
  let s := s.setDet k { d with openBoxes := d.openBoxes.filter (fun b => b.1 ≠ c), lastRow := d.lastRow.filter (fun b => b.1 ≠ c) }
  s.setPipe k { s.pipe k with done := (s.pipe k).done.map (fun b => { b with took := c :: b.took }) }

/-- START. A context that starts on fewer than 30 engines cannot run and fails at once (R277).
[DEDUCED: log entry 49.] -/
def State.start (s : State) (c : Nat) (standby : Bool) : State :=
  match s.startCode c with
  | 0 =>
    let s := (s.setCtx c { s.ctx c with since := 0 }).detectFresh c
    ((s.setCtxState c (if standby then ctxStandby else ctxRunning) 0).schDone 1 c 0).placementLost
  | code => s.schDone 1 c code

/-- A write of SCH_CMD; a scheduler in its fault state takes no command (R104, R280). -/
def State.onCmd (s : State) (k : State → State) : State := s.onWrite (P.schG + 0x50) (fun s => if s.works P.schG then k s else s)

def execStart (c : Fin 8) (standby : Bool) (s : State) : Host.Outcome State Fault Refusal :=
  fin (s.onCmd (fun s => s.start c standby))

/-! ### STOP, SWAP, EVICT, CANCEL_SWAP -/

/-- STOP: boxes issued before it are still admitted (R281). [DEDUCED: log entry 51.] -/
def State.stop (s : State) (c : Nat) : State :=
  if (s.ctxState c = ctxRunning ∨ s.ctxState c = ctxStandby) ∧ !s.swapNames c then
    ((s.setCtxState c ctxDraining 0).dropHostQ c).schDone 2 c 0
  else s.schDone 2 c 1

def execStop (c : Fin 8) (s : State) : Host.Outcome State Fault Refusal := fin (s.onCmd (fun s => s.stop c))

/-- The first line of the second block of camera k that has not begun (R296). -/
def State.secondBlock (s : State) (k : Nat) : Nat :=
  let h := s.camH k
  ((s.cam k).nextLine + h - 1) / h * h + h

/-- The result code of SWAP. [DEDUCED: log entry 52.] -/
def State.swapCode (s : State) (a b : Nat) : Nat :=
  if s.ctxState a ≠ ctxRunning ∨ s.ctxState b ≠ ctxStandby ∨ s.swapNames a ∨ s.swapNames b ∨ (s.ctx a).swapped then 1
  else if s.primCam a ≠ s.primCam b ∨ !s.primEn a ∨ !s.primEn b then 4
  else if !s.groupsArmed b (s.primCam b) then 5
  else if !s.mapCovers b (s.primCam b) then 8
  else 0

/-- SWAP: pending at L (R296). [DEDUCED: log entry 52.] -/
def State.swap (s : State) (a b : Nat) : State :=
  match s.swapCode a b with
  | 0 =>
    let l := max (s.rd2 P.schG Reg.SCH_CMD_ARG_lo Reg.SCH_CMD_ARG_hi) (s.secondBlock (s.primCam a))
    (s.setCtx a { s.ctx a with swapTo := some (b, l), swapped := false }).schDone 3 a 0
  | code => s.schDone 3 a code

def execSwap (c c2 : Fin 8) (s : State) : Host.Outcome State Fault Refusal := fin (s.onCmd (fun s => s.swap c c2))

/-- SWAP_EFFECTIVE: the CFE has received line L; the required bit moves with it (R296). [DEDUCED: log entry 52.] -/
def State.swapEffective (s : State) (a : Nat) : State :=
  match (s.ctx a).swapTo with
  | none => s
  | some (b, l) =>
    if (s.ctx a).swapped || !decide (l < (s.cam (s.primCam a)).nextLine) then s
    else
      let req := s.rd P.chip Reg.CHIP_READY_ctx_req
      let s := if bit req a then s.wr P.chip Reg.CHIP_READY_ctx_req (setBit (clrBit req a) b) else s
      let s := s.setCtx a { s.ctx a with swapped := true }
      let s := s.setCtx b { s.ctx b with since := l }
      (s.setCtxState b ctxRunning 0).swapDrain a

def execSwapEffective (c : Fin 8) (s : State) : Host.Outcome State Fault Refusal := fin (s.swapEffective c)

/-- CONTEXT_DRAINED: STOPPED once no job and no box is left, with SWAP_DONE for a swap (R273, R295). -/
def State.ctxDrained (s : State) (c : Nat) : State :=
  let s := s.swapDrain c
  if s.alive && s.ctxState c = ctxDraining && (s.ctxJobs c).isEmpty && (s.ctx c).boxQ.isEmpty
      && !(List.range 8).any (fun k => (s.det k).issued.any (fun x => x.dest.contains c)) then
    let s := s.setCtxState c ctxStopped 0
    match (s.ctx c).swapTo with
    | some (b, l) =>
      if (s.ctx c).swapped then
        (s.swapClear c).raise (srcOf P.schG) 0x43 (le 1 c ++ le 1 b ++ le 6 0 ++ le 8 l)
      else s
    | none => s
  else s

def execContextDrained (c : Fin 8) (s : State) : Host.Outcome State Fault Refusal := fin (s.ctxDrained c)

/-- EVICT (R276). -/
def State.evict (s : State) (c : Nat) : State :=
  if s.ctxState c = ctxStopped then ((s.arcLose c).setCtxState c ctxEvicting 0).schDone 4 c 0 else s.schDone 4 c 1

def execEvict (c : Fin 8) (s : State) : Host.Outcome State Fault Refusal := fin (s.onCmd (fun s => s.evict c))

/-- EVICTION_DONE: the shares are clear and free, the DRAM copies freed (R276). -/
def State.evictionDone (s : State) (c : Nat) : State :=
  if s.ctxState c = ctxEvicting then
    let s := (s.dropQueues c).clearShares c
    let s := (s.setCtx c default).wr (P.schC c) Reg.SCH_CTX_HQ_cons 0
    s.setCtxState c ctxEmpty 0
  else s

def execEvictionDone (c : Fin 8) (s : State) : Host.Outcome State Fault Refusal := fin (s.evictionDone c)

/-- CANCEL_SWAP, for either context that the swap names. -/
def State.cancelSwap (s : State) (c : Nat) : State :=
  match s.swapsOf c with
  | [] => s.schDone 5 c 1
  | as => (as.foldl State.swapClear s).schDone 5 c 0

def execCancelSwap (c : Fin 8) (s : State) : Host.Outcome State Fault Refusal :=
  fin (s.onCmd (fun s => s.cancelSwap c))

/-! ### SCH_CMD as a word (R304) -/

/-- A word written to SCH_CMD or to a context's command doorbell; ctx must equal want there (R496).
[DEDUCED: log entry 50.] -/
def State.schCmd (s : State) (v : Nat) (want : Option Nat) : State :=
  let op := bits v 0 4
  let c := bits v 4 3
  if bits v 16 16 ≠ 0x5c4d ∨ want.any (fun w => w ≠ c) then s.schDone op c 7
  else match op with
    | 1 => s.start c (bit v 12)
    | 2 => s.stop c
    | 3 => s.swap c (bits v 8 3)
    | 4 => s.evict c
    | 5 => s.cancelSwap c
    | _ => s.schDone op c 7

def execSchCmdInvalid (v : Word) (s : State) : Host.Outcome State Fault Refusal :=
  fin (s.onCmd (fun s => s.schCmd v.toNat none))

/-! ### CHIP_RST, command 2 (R77, R82) -/

def execContextReset (c : Fin 8) (s : State) : Host.Outcome State Fault Refusal :=
  fin (s.onWrite 0x44 (fun s => s.contextReset c))

/-! ### Probes (R298) -/

/-- Object obj of camera k has been open for E lines to context c, where E comes from its billet: a box by its lines so far,
an object under the photo-eye by the counts since its leading edge (R222, R445). -/
def State.openLong (s : State) (c obj k : Nat) : Bool :=
  let e := (((s.ctx c).billet).map (fun b => b.exitLines.toNat)).getD 0
  let now := s.lineCount k (s.pipe k).stamps ((s.cam k).nextLine - 1)
  (s.det k).openBoxes.any (fun b => b.1 = c && b.2.object.toNat = obj && decide (e ≤ b.2.last.toNat - b.2.first.toNat + 1))
    || (s.det k).eyeOpen.any (fun x => x.1 = obj
        && passed now ((x.2.1 + s.rd P.fio Reg.FIO_EYE_OFF_off_ct k + (e * s.camSpacing k + 65535) / 65536) % 2 ^ 32))

/-- PROBE_START: the early-exit notice of an open object starts a probe, or is counted where 64 are in flight. -/
def State.probeStart (s : State) (c obj k : Nat) : State :=
  if s.alive && decide (s.ctxState c = ctxRunning) && s.rdb (P.schC c) Reg.SCH_CTX_CFG_spec_en
      && ((s.ctx c).billet).any Billet.earlyExit && decide (s.primCam c = k) && s.openLong c obj k
      && !(s.ctx c).probes.contains (obj, k) then
    if 64 ≤ (s.ctx c).probes.length then s.note (P.schC c) .discarded
    else s.setCtx c { s.ctx c with probes := (s.ctx c).probes ++ [(obj, k)] }
  else s

def execProbeStart (c : Fin 8) (object : BitVec 32) (camera : Fin 8) (s : State) : Host.Outcome State Fault Refusal :=
  fin (s.probeStart c object.toNat camera)

end Sys2Proof.Machine
end

