-- ==== Sys2Proof/Machine/Fp.lean ====
section
/-! DEFINITION. The number formats and their arithmetic (R170 to R177): a floating-point value is its stored bit pattern;
each operation forms the exact result and rounds it once, to nearest with ties away from zero, saturating instead of
overflowing to an infinity. A result comes with whether it saturated. -/

namespace Sys2Proof.Machine

/-- A floating-point format of R170: exponent bits, fraction bits, bias, and whether exponent all ones is an ordinary
exponent but for the NaN (FP8-E4M3). -/
structure FFmt where
  eb : Nat
  fb : Nat
  bias : Nat
  fullExp : Bool
  deriving DecidableEq, Repr, Inhabited

def fE4M3 : FFmt := ⟨4, 3, 7, true⟩
def fE5M2 : FFmt := ⟨5, 2, 15, false⟩
def fFP16 : FFmt := ⟨5, 10, 15, false⟩
def fBF16 : FFmt := ⟨8, 7, 127, false⟩
def fFP32 : FFmt := ⟨8, 23, 127, false⟩

/-- The pattern of the largest finite magnitude. -/
def FFmt.maxMag (f : FFmt) : Nat := if f.fullExp then 2 ^ (f.eb + f.fb) - 2 else (2 ^ f.eb - 1) * 2 ^ f.fb - 1

/-- The canonical NaN (R176). -/
def FFmt.nan (f : FFmt) : Nat := if f.fullExp then 2 ^ (f.eb + f.fb) - 1 else (2 ^ f.eb - 1) * 2 ^ f.fb + 2 ^ (f.fb - 1)

/-- The sign bit's weight. -/
def FFmt.sign (f : FFmt) : Nat := 2 ^ (f.eb + f.fb)

/-- An exact value: NaN, or a sign and m × 2^e. -/
inductive FVal where
  | nan
  | fin (neg : Bool) (m : Nat) (e : Int)
  deriving DecidableEq, Repr, Inhabited

/-- The value of a stored pattern; an infinity reads as the largest finite value of its sign (R175). -/
def FFmt.val (f : FFmt) (x : Nat) : FVal :=
  let mag := x % f.sign
  let neg := bit x (f.eb + f.fb)
  let inf := (2 ^ f.eb - 1) * 2 ^ f.fb
  if (if f.fullExp then mag = 2 ^ (f.eb + f.fb) - 1 else inf < mag) then .nan
  else
    let mag := if !f.fullExp && mag = inf then f.maxMag else mag
    let ex := mag / 2 ^ f.fb
    let fr := mag % 2 ^ f.fb
    if ex = 0 then .fin neg fr (1 - (f.bias : Int) - f.fb)
    else .fin neg (2 ^ f.fb + fr) ((ex : Int) - f.bias - f.fb)

/-- n × 2^e as a quotient of naturals. -/
def scale2 (n : Nat) (e : Int) : Nat × Nat := if 0 ≤ e then (n * 2 ^ e.toNat, 1) else (n, 2 ^ (-e).toNat)

/-- The exponent E with 2^E ≤ num / den < 2^(E + 1), for num > 0. -/
def floorLog2 (num den : Nat) : Int :=
  let e : Int := (Nat.log2 num : Int) - (Nat.log2 den : Int)
  let d := scale2 den e
  if num * d.2 < d.1 then e - 1 else e

/-- num / den rounded to the format, with its sign; and whether it saturated (R173 to R175). -/
def FFmt.round (f : FFmt) (neg : Bool) (num den : Nat) : Nat × Bool :=
  let s := if neg then f.sign else 0
  if num = 0 then (s, false)
  else
    let e0 : Int := 1 - (f.bias : Int)
    let e := max e0 (floorLog2 num den)
    let u := scale2 1 (e - f.fb)
    let n := num * u.2
    let d := den * u.1
    let r := (2 * n + d) / (2 * d)
    let p := (e - e0).toNat * 2 ^ f.fb + r
    if f.maxMag < p then (s + f.maxMag, true) else (s + p, false)

/-- An exact value in the format. -/
def FFmt.ofVal (f : FFmt) (v : FVal) : Nat × Bool :=
  match v with
  | .nan => (f.nan, false)
  | .fin neg m e =>
    let q := scale2 m e
    f.round neg q.1 q.2

def FFmt.isNan (f : FFmt) (x : Nat) : Bool := f.val x = .nan

/-- Conversion between formats (R174 to R176). -/
def fconv (a b : FFmt) (x : Nat) : Nat × Bool := b.ofVal (a.val x)

/-- An integer in a format, rounded once. -/
def fofInt (f : FFmt) (x : Int) : Nat × Bool := f.round (decide (x < 0)) x.natAbs 1

/-! ### Exact operations -/

/-- The integer of a value at exponent e, which is at most its own. -/
def FVal.at_ (neg : Bool) (m : Nat) (e' e : Int) : Int :=
  let n : Int := (m * 2 ^ (e' - e).toNat : Nat)
  if neg then -n else n

/-- Sum; an exact zero of unlike signs is +0 (R174). -/
def FVal.add : FVal → FVal → FVal
  | .fin n1 m1 e1, .fin n2 m2 e2 =>
    let e := min e1 e2
    let x := FVal.at_ n1 m1 e1 e + FVal.at_ n2 m2 e2 e
    if x = 0 then .fin (n1 && n2) 0 0 else .fin (decide (x < 0)) x.natAbs e
  | _, _ => .nan

def FVal.neg : FVal → FVal
  | .nan => .nan
  | .fin n m e => .fin (!n) m e

def FVal.mul : FVal → FVal → FVal
  | .fin n1 m1 e1, .fin n2 m2 e2 => .fin (n1 != n2) (m1 * m2) (e1 + e2)
  | _, _ => .nan

/-- a is below b; no NaN. -/
def FVal.lt : FVal → FVal → Bool
  | .fin n1 m1 e1, .fin n2 m2 e2 =>
    let e := min e1 e2
    decide (FVal.at_ n1 m1 e1 e < FVal.at_ n2 m2 e2 e)
  | _, _ => false

/-! ### FP32 operations, rounded once -/

def fadd (a b : Nat) : Nat × Bool := fFP32.ofVal ((fFP32.val a).add (fFP32.val b))
def fsub (a b : Nat) : Nat × Bool := fFP32.ofVal ((fFP32.val a).add (fFP32.val b).neg)
def fmul (a b : Nat) : Nat × Bool := fFP32.ofVal ((fFP32.val a).mul (fFP32.val b))

/-- Division; zero by zero is NaN, a nonzero value by zero saturates (R176). -/
def fdiv (a b : Nat) : Nat × Bool :=
  match fFP32.val a, fFP32.val b with
  | .fin n1 m1 e1, .fin n2 m2 e2 =>
    if m2 = 0 then
      (if m1 = 0 then (fFP32.nan, false) else ((if n1 != n2 then fFP32.sign else 0) + fFP32.maxMag, true))
    else
      let q := scale2 m1 (e1 - e2)
      fFP32.round (n1 != n2) q.1 (q.2 * m2)
  | _, _ => (fFP32.nan, false)

/-- Max and min; NaN with a NaN operand (R176). Of two zeros the first operand is the result.
[DESIGN CHOICE: log entry 164.] -/
def fmax (a b : Nat) : Nat :=
  if fFP32.isNan a || fFP32.isNan b then fFP32.nan else if (fFP32.val a).lt (fFP32.val b) then b else a
/-- [DESIGN CHOICE: log entry 164.] -/
def fmin (a b : Nat) : Nat :=
  if fFP32.isNan a || fFP32.isNan b then fFP32.nan else if (fFP32.val b).lt (fFP32.val a) then b else a

/-- The floor of an FP32 value, 0 for NaN. -/
def ffloor (a : Nat) : Int :=
  match fFP32.val a with
  | .nan => 0
  | .fin n m e =>
    let q := scale2 m e
    if n then -(((q.1 + q.2 - 1) / q.2 : Nat) : Int) else ((q.1 / q.2 : Nat) : Int)

/-- An FP32 value times k, rounded to the nearest integer with ties away from zero, within 0 to hi; NaN gives 0. -/
def fscaleNat (a k hi : Nat) : Nat :=
  match fFP32.val a with
  | .nan => 0
  | .fin n m e =>
    let q := scale2 (m * k) e
    if n then 0 else min hi ((2 * q.1 + q.2) / (2 * q.2))

/-! ### Integers -/

/-- x within lo to hi, and whether it was brought there (R175). -/
def satTo (lo hi x : Int) : Int × Bool := if x < lo then (lo, true) else if hi < x then (hi, true) else (x, false)

def sat32 (x : Int) : Int × Bool := satTo (-(2 ^ 31)) (2 ^ 31 - 1) x

/-- The stored formats of a tensor element (R170). -/
inductive NFmt where
  | int8 | uint8 | int16 | int32 | e4m3 | e5m2 | fp16 | bf16 | fp32
  deriving DecidableEq, Repr, Inhabited

/-- Bytes of an element. -/
def NFmt.bytes : NFmt → Nat
  | .int8 | .uint8 | .e4m3 | .e5m2 => 1
  | .int16 | .fp16 | .bf16 => 2
  | .int32 | .fp32 => 4

def NFmt.isFloat : NFmt → Bool
  | .e4m3 | .e5m2 | .fp16 | .bf16 | .fp32 => true
  | _ => false

/-- The floating-point format of an element. -/
def NFmt.ffmt : NFmt → FFmt
  | .e4m3 => fE4M3 | .e5m2 => fE5M2 | .fp16 => fFP16 | .bf16 => fBF16 | _ => fFP32

/-- The integer that a stored element of an integer format stands for. -/
def NFmt.toInt (f : NFmt) (x : Nat) : Int :=
  match f with
  | .uint8 => (x % 256 : Nat)
  | .int8 => sext 8 x
  | .int16 => sext 16 x
  | _ => sext 32 x

/-- An integer stored in an integer format, saturated to its range. -/
def NFmt.ofInt (f : NFmt) (x : Int) : Nat × Bool :=
  match f with
  | .uint8 => let r := satTo 0 255 x; (r.1.toNat, r.2)
  | .int8 => let r := satTo (-128) 127 x; (wrap 8 r.1, r.2)
  | .int16 => let r := satTo (-32768) 32767 x; (wrap 16 r.1, r.2)
  | _ => let r := sat32 x; (wrap 32 r.1, r.2)

/-- An FP32 value as the nearest integer, ties away from zero; a NaN gives 0 (R173, R176). -/
def fround (a : Nat) : Int :=
  match fFP32.val a with
  | .nan => 0
  | .fin n m e =>
    let q := scale2 m e
    let r : Int := ((2 * q.1 + q.2) / (2 * q.2) : Nat)
    if n then -r else r

/-- A stored element as FP32: an integer is converted (R187). -/
def NFmt.toFloat (f : NFmt) (x : Nat) : Nat :=
  if f.isFloat then (fconv f.ffmt fFP32 x).1 else (fofInt fFP32 (f.toInt x)).1

/-- An FP32 value stored in a format (R173 to R176, R194). -/
def NFmt.ofFloat (f : NFmt) (x : Nat) : Nat × Bool := if f.isFloat then fconv fFP32 f.ffmt x else f.ofInt (fround x)

/-! ### Packed elements (R171) -/

/-- Element i of a run of n-bit elements in little-endian bytes: INT4 (n = 4) and LUT3 codes (n = 3) pack so. -/
def packed (bs : List Byte) (n i : Nat) : Nat := bits (unle ((bs.drop (n * i / 8)).take 2)) (n * i % 8) n

end Sys2Proof.Machine
end

