-- ==== Sys2Proof/Machine/Collector.lean ====
section
/-! DEFINITION. The fault collector: fences, restarts, retests, engine resets and their ends, unfencing, and the Hearth
complex's restarts (R77, R162, R225, R246, R277, R303, R499, R559 to R573, R582 to R585). Units are named by their index
of R580 or, in the collector's own records, as FLT_UNFENCE.unit codes them. -/

namespace Sys2Proof.Machine

/-! ### Engines as units -/

/-- Unit u, coded as FLT_UNFENCE.unit, is fenced (R568). -/
def State.unitFenced (s : State) (u : Nat) : Bool :=
  if u < 36 then s.engFenced u
  else if 64 ≤ u ∧ u < 96 then bit (s.rd P.flt Reg.FLT_FENCE_rq) (u - 64)
  else u = 96 && s.rdb P.flt Reg.FLT_FENCE2_iso_main

/-- The retest of unit u since it was fenced: none yet, or its result (R563). -/
def State.retestOf (s : State) (u : Nat) : Option Bool :=
  if u < 36 then (s.eng u).retest else SMap.find? s.coll.retests u

/-- Billet x of a context is read in stack 0: n bytes move for entry i, and words that prove uncorrectable are repaired from
the other stack (R245). -/
def State.billetRead (s : State) (i : Nat) (x : Billet) (n : Nat) : State :=
  let s := s.moved i x.copy0.toNat n 0x920
  (s.badWords x.copy0.toNat x.len.toNat).foldl (fun s w => (s.readBad (8 * w)).1) s

/-- Every engine's program address and buffer share for context c; the logical engines of the placement in their order
(R275, R277). [DESIGN CHOICE: log entry 108.] -/
def State.programSet (s : State) (c : Nat) : State :=
  match (s.ctx c).billet with
  | none => s
  | some b =>
    let y := s.ctx c
    let h := s.anvFree.length
    let blob := s.load b.copy0.toNat b.len.toNat
    (List.range 36).foldl (fun s e =>
      let logical := if e < 32 then ((s.anvFree.idxOf? e).getD e) else e
      let s := s.wr2 (seqPage e) Reg.ANV_CTX_PROG_lo Reg.ANV_CTX_PROG_hi ((b.copy0.toNat + Config.programAt blob h logical) / 16 * 16) c
      (s.wr (seqPage e) Reg.ANV_CTX_BUF_base (if e < 32 then y.anvBuf else y.tngBuf) c).wr (seqPage e) Reg.ANV_CTX_BUF_size
        (if e < 32 then b.anvCmds.toNat else b.tngCmds.toNat) c) s

/-- A change of h moves every resident context to its new placement (R277). -/
def State.placementMove (s : State) : State :=
  (List.range 8).foldl (fun s c => if s.ctxResident c then s.programSet c else s) s

/-- An engine reset clears its sequencer, queues and accumulators and its banks (R77). -/
def State.engineClear (s : State) (e : Nat) : State :=
  let x := s.eng e
  let s := s.setEng e { (default : Engine) with lastNamed := x.lastNamed, gated := x.gated, retest := x.retest, underTest := x.underTest }
  let s := (List.range 8).foldl (fun s c => ((s.wr (seqPage e) Reg.ANV_CTX_STAT_pc 0 c).wr (seqPage e) Reg.ANV_CTX_STAT_state 0 c).wr
    (seqPage e) Reg.ANV_CTX_STAT_step 0 c) s
  (engBanks e).foldl (fun s b => s.clearMem (bankBase b) (bankSize b)) s

/-! ### Restarts (R562 to R566) -/

/-- Job j, abandoned by a fault, is to run again from its first step, or ends at the limit of R566. -/
def State.abandon (s : State) (at_ : Nat → Option (Nat × Nat)) (j : Nat) : State :=
  match s.job j with
  | none => s
  | some x =>
    if 2 ≤ x.restarts then ((s.jobEnd j 1).bump (P.flt + 0x820)).setBlk P.flt 11
    else
      let s := s.engineDrop x.ctx x.tag
      let s := s.setJob j { x with
        restarts := x.restarts + 1, phase := 4, counts := [], verdict := none, fallback := false
        faultAt := if (at_ j).isSome then at_ j else x.faultAt }
      let s := { s with rtu := { s.rtu with entries := s.rtu.entries.map (fun (p : Nat × RtuEntry) =>
        if p.2.job = some x.tag then (p.1, { p.2 with vflags := p.2.vflags ||| 2 }) else p) } }
      (s.bump (P.schC x.ctx + 0x848)).bump (P.flt + 0x818)

/-- The jobs of js that have not ended, in the order of their admission. [DEDUCED: log entry 59.] -/
def State.openJobs (s : State) (js : List Nat) : List Nat :=
  s.sched.order.filter (fun j => js.contains j && (s.job j).any (fun x => x.ended.isNone))

/-- A restart of these jobs, behind a reload where one is needed; answers how many were abandoned.
[DEDUCED: log entry 59.] -/
def State.restart (s : State) (js : List Nat) (reload : Bool) (at_ : Nat → Option (Nat × Nat)) : State × Nat :=
  let js := s.openJobs js
  if js.isEmpty && !reload then (s, 0)
  else
    let s := js.foldl (fun s j => s.abandon at_ j) s
    let alive := s.openJobs js
    let tags := alive.filterMap (fun j => (s.job j).map Job.tag)
    let busy := s.rdb P.flt Reg.FLT_STAT_busy
    let old := if busy then s.coll.pendingJobs.filter (fun t => !tags.contains t) else []
    let fresh := tags.filter (fun t => !(busy && s.coll.pendingJobs.contains t))
    let n := (if busy then s.rd P.flt Reg.FLT_STAT_jobs else 0) + fresh.length
    let wait := s.coll.reloading || reload
    let q := if wait then s.sched.restartQ.filter (fun j => !js.contains j)
      else s.sched.order.filter (fun j => s.sched.restartQ.contains j || alive.contains j)
    let s := { s with sched := { s.sched with restartQ := q } }
    if tags.isEmpty && !reload && !busy then (s, js.length)
    else
      let s := { s with coll := { s.coll with
        pendingJobs := old ++ tags, startNs := if busy then s.coll.startNs else s.now, reloading := wait } }
      let s := ((s.wrb P.flt Reg.FLT_STAT_busy true).wr P.flt Reg.FLT_STAT_jobs n).bump (P.flt + 0x810)
      (s.setBlk P.flt 9, js.length)

/-- Every job in flight. -/
def State.allJobs (s : State) : List Nat := s.sched.order

/-- The resident weights and parameters of context c's placement are loaded into its shares, as DMA requests of entry i (R254,
R275, R563). Bytes beyond the share are not written. [DESIGN CHOICE: log entry 108.] -/
def State.loadResident (s : State) (i c : Nat) : State :=
  match (s.ctx c).billet with
  | none => s
  | some x =>
    let h := s.anvFree.length
    let img := Config.residentImage (s.load x.copy0.toNat x.len.toNat) h
    (Config.residentImage ((s.billetRead i x 0).load x.copy0.toNat x.len.toNat) h).foldl (fun s e =>
      let b := if e.1 < 192 then (s.anvFree[e.1 / 6]?).map (fun p => bankOf p (e.1 % 6))
        else if e.1 < 202 then some e.1 else none
      match b with
      | none => s
      | some b =>
        if !s.bankOn b then s
        else match s.share c b with
          | none => s
          | some (o, n) => s.dmaPut i (bankBase b + o + e.2.1) (e.2.2.take (n - e.2.1)))
      (s.billetRead i x (img.map (fun e => e.2.2.length)).sum)

/-- PLACEMENT_RELOAD_DONE: the abandoned jobs are dispatched again; without any the restart is over (R562, R565). -/
def State.reloadDone (s : State) : State :=
  if !s.coll.reloading then s
  else
    let s := { s with coll := { s.coll with reloading := false } }
    let s := (List.range 8).foldl (fun s c => if s.ctxResident c then s.loadResident (bwCtx c) c else s) s
    let q := s.sched.order.filter (fun j => (s.job j).any (fun x => x.phase = 4 && x.ended.isNone))
    let s := { s with sched := { s.sched with restartQ := q } }
    if s.coll.pendingJobs.isEmpty && s.rdb P.flt Reg.FLT_STAT_busy then
      (s.wrb P.flt Reg.FLT_STAT_busy false).raise 0xe00 0x81
        (le 4 (s.now - s.coll.startNs) ++ le 2 (s.rd P.flt Reg.FLT_STAT_jobs) ++ le 1 s.anvFree.length)
    else s

def execPlacementReloadDone (s : State) : Host.Outcome State Fault Refusal := fin s.reloadDone

/-! ### Fences (R568, R569) -/

/-- An engine reset of e begins: it takes over a Host Session Reset in progress, and absorbs the lower resets until it ends
(R77, R78). -/
def State.resetBegins (s : State) (e : Nat) : State :=
  let s := s.hsrYield
  if s.seq.engResets.contains e then s else { s with seq := { s.seq with engResets := e :: s.seq.engResets } }

/-- What every fence does to the collector's own page. -/
def State.fenceMark (s : State) (u : Nat) : State :=
  let s := ((s.setBlk P.flt 8).bump (P.flt + 0x828)).wrb P.flt Reg.FLT_STAT_retest false
  { s with coll := { s.coll with lastUnit := some u, retests := SMap.erase s.coll.retests u } }

/-- The fence of an engine; answers how many jobs it abandoned. [DEDUCED: log entry 123.] -/
def State.fenceEngine (s : State) (e : Nat) (at_ : Nat → Option (Nat × Nat)) : State × Nat :=
  let s := if e < 32 then s.wr P.schG Reg.SCH_FENCE_mask (setBit (s.rd P.schG Reg.SCH_FENCE_mask) e)
    else s.wr P.schG Reg.SCH_PLACE_tongs_fenced (setBit (s.rd P.schG Reg.SCH_PLACE_tongs_fenced) (e - 32))
  let s := (engPages e).foldl (fun s p => s.leaveTo p 4) s
  let s := (if e < 32 then s.placementMove else s).fenceMark e
  let n := (s.openJobs s.allJobs).length
  let r := if e < 32 then
      (if s.anvFree.length < 30 then (s.placementLost, n) else s.restart s.allJobs true at_)
    else s.restart (s.sched.jobs.filterMap (fun p => if p.2.tongs = e - 32 then some p.1 else none)) false at_
  let s := (engBanks e).foldl (fun s b => s.bankPower b 0) r.1
  let s := s.engineClear e
  ((s.setEng e { s.eng e with retest := none, underTest := true }).resetBegins e, r.2)

/-- The fence of a requantisation unit: jobs run folded (R147, R199). [DEDUCED: log entry 123.] -/
def State.fenceRq (s : State) (e : Nat) : State × Nat :=
  let s := s.wr P.flt Reg.FLT_FENCE_rq (setBit (s.rd P.flt Reg.FLT_FENCE_rq) e)
  let s := (s.wrb (P.anv e 0) Reg.ANV_CFG_rq_excl true).fenceMark (64 + e)
  s.restart (s.sched.jobs.filterMap (fun p => if p.2.folded then none else some p.1)) false (fun _ => none)

/-! ### The collector's action (R559 to R561, R567, R573) -/

/-- FLT_LAST and the FLT_ACTION record (R582, R585). [DEDUCED: log entry 124.] -/
def State.logAction (s : State) (src cause action unit jobs : Nat) : State :=
  let s := ((s.wr P.flt Reg.FLT_LAST_src src).wr P.flt Reg.FLT_LAST_cause cause).wr P.flt Reg.FLT_LAST_action action
  s.raise 0xe00 0x80 (le 2 src ++ le 1 cause ++ le 1 action ++ le 2 unit ++ le 2 jobs ++ le 1 s.anvFree.length)

/-- The job whose step runs on engine e, with its logical engine and step (R277, R318, R326). -/
def State.running (s : State) (e : Nat) : Option (Nat × Job × Nat × Nat) :=
  match (s.eng e).cur with
  | none => none
  | some c =>
    let t := SMap.get (s.eng e).jobOf c (0 : Nat)
    let j := (t - 1) % 512
    match s.job j with
    | none => none
    | some x =>
      if t = x.tag + 1 then
        let l := if e < 32 then s.logicalOf e x else 32
        some (j, x, l, s.rd (seqPage e) Reg.ANV_CTX_STAT_step c)
      else none

/-- The causes that a billet's own program can raise (R567). -/
def programCause (c : Nat) : Bool := c = 0x10 || c = 0x11 || c = 0x12 || c = 0x14 || c = 0x15 || c = 0x18

/-- Jobs that an engine reset or a fence of e touches: on an Anvil engine every job, on a Tongs engine its own. -/
def State.engineJobs (s : State) (e : Nat) : List Nat :=
  if e < 32 then s.allJobs else s.sched.jobs.filterMap (fun p => if p.2.tongs = e - 32 then some p.1 else none)

/-- ENGINE_RESET of an engine (R77): its jobs restart, behind a reload of what its banks held.
[DEDUCED: log entry 59.] -/
def State.engineReset (s : State) (e : Nat) : State × Nat :=
  let r := if s.engFenced e then (s, 0) else s.restart (s.engineJobs e) true (fun _ => none)
  let s := r.1.engineClear e
  ((s.setEng e { s.eng e with underTest := true, retest := if s.engFenced e then none else (s.eng e).retest }).resetBegins e, r.2)

/-- A fault of engine e. [DEDUCED: log entry 58.] [DEDUCED: log entry 124.] -/
def State.collectEngine (s : State) (src cause e : Nat) : State :=
  if s.engFenced e then s.logAction src cause 1 e 0
  else
    let run := s.running e
    let same := match run with
      | some (_, x, l, k) => programCause cause && decide (x.faultAt = some (l, k))
      | none => false
    match run with
    | some (j, x, l, k) =>
      if same then
        let r := (s.ctxFail x.ctx 2).engineReset e
        r.1.logAction src cause 1 e r.2
      else
        let r := s.fenceEngine e (fun i => if i = j then some (l, k) else none)
        r.1.logAction src cause 3 e r.2
    | none =>
      let r := s.fenceEngine e (fun _ => none)
      r.1.logAction src cause 3 e r.2

/-- The page is one of R573, and it is in its fault state. -/
def State.withdraws (s : State) (base : Nat) : Bool :=
  s.inFault base && match pageInfo (base / 4096) with
    | some p => match p.kind with
      | .drc | .rtu | .schG | .bank | .blw | .lplI | .eth | .flt => true
      | .xck => s.rdb P.xck Reg.XCK_CFG_unres_act
      | _ => false
    | none => false

/-- Causes that a block records without entering its fault state (R55, R243, R245, R265). [DEDUCED: log entry 124.] -/
def noteOnly (k : PKind) (cause : Nat) : Bool :=
  match k with
  | .drc => cause = 0x10 || cause = 0x11 || cause = 0x15
  | .chip => cause = 0x10
  | _ => false

/-- The fault action that a block's chapter gives it as it enters its fault state (R104): the camera of a lane or of a camera page
is LOST (R361), a line pipeline instance's cameras lose their sets, the RTU abandons its entries, every archive stream fails
on cause 0x10 (R528). Other blocks only stop acting on their configuration, which State.works and State.inFault say. -/
def State.faultAction (s : State) (base : Nat) : State :=
  match pageInfo (base / 4096) with
  | none => s
  | some p => match p.kind with
    | .lane => match s.laneCam (base / 4096 - 0x600) with
      | some k => s.camLose k
      | none => s
    | .cfeC => s.camLose (base / 4096 - 0x611)
    | .lplI => (List.range 8).foldl (fun s k =>
        if s.rd (P.lplC k) Reg.LPL_CAM_CFG_inst = base / 4096 - 0x700 then s.instanceLost k else s) s
    | .rtu => s.rtuFaultAction
    | .arcG => if s.rd base Reg.BLK_ERR_cause = 0x10 then (List.range 64).foldl (fun s i => s.arcFail i 7) s else s
    | _ => s

/-- The faults of one cycle that no block has recorded yet are recorded, and a block that so enters its fault state takes its
fault action (R96, R98, R104). -/
def State.recordFaults (s : State) (base : Nat) (causes : List Nat) : State :=
  match pageInfo (base / 4096) with
  | none => s
  | some p =>
    let notes := causes.filter (fun c => noteOnly p.kind c && decide (s.rd base Reg.BLK_ERR_cause ≠ c))
    let faults := causes.filter (fun c => !noteOnly p.kind c)
    if faults.isEmpty || s.inFault base || s.isFenced base then (if notes.isEmpty then s else s.noteCauses base notes)
    else
      let s := s.blockFaults base (notes ++ faults)
      if s.inFault base then s.faultAction base else s

/-- The action for a fault that has been recorded. -/
def State.collect (s : State) (f : FaultReport) : State :=
  let n := f.src.toNat + f.page.toNat
  let cause := f.cause.toNat
  let base := n * 4096
  let s := s.bump (P.flt + 0x800)
  match engineOfPage n with
  | some e =>
    if f.residue && decide (e < 32) then
      if s.unitFenced (64 + e) || s.engFenced e then s.logAction f.src.toNat 0xf0 1 (64 + e) 0
      else
        let r := s.fenceRq e
        r.1.logAction f.src.toNat 0xf0 3 (64 + e) r.2
    else s.collectEngine f.src.toNat cause e
  | none =>
    if decide (0x501 ≤ n) && decide (n ≤ 0x508) && decide (cause = 2) then
      (if s.ctxRuns (n - 0x501) then s.ctxFail (n - 0x501) 1 else s).logAction f.src.toNat cause 1 0xffff 0
    else
      s.logAction f.src.toNat cause (if s.withdraws base || (decide (base = P.chip) && decide (cause = 0x10)) then 5 else 1) 0xffff 0

/-- FAULT_RECEIVED: a masked fault is counted only; of two of one cycle the unmasked one is recorded, of two unmasked ones the
lower code (R98, R559). [DEDUCED: log entry 20.] [DEDUCED: log entry 21.] -/
def State.faultReceived (s : State) (f : FaultReport) : State :=
  let base := (f.src.toNat + f.page.toNat) * 4096
  let causes := (f.cause.toNat :: (f.also.map BitVec.toNat).toList).filter (fun c => c ≠ 0)
  let open_ := causes.filter (fun c => !s.masked base c)
  if f.residue && (engineOfPage f.src.toNat).any (fun e => decide (e < 32)) then s.collect f
  else if (pageInfo (base / 4096)).isNone || causes.isEmpty then s
  else
    let s := s.recordFaults base causes
    if open_.isEmpty then s else s.collect { f with cause := BitVec.ofNat 8 (open_.foldl min 255) }

def execFaultReceived (f : FaultReport) (s : State) : Host.Outcome State Fault Refusal :=
  fin (if s.hostReach then s.faultReceived f else s)

/-- CONFIG_PARITY_SCAN of one register: a mismatch is recorded, and the block takes its fault action (R103, R104). -/
def execConfigParityScan (addr : Bar0Addr) (s : State) : Host.Outcome State Fault Refusal :=
  let base := addr.toNat / 4096 * 4096
  fin (if s.hostReach then
      let t := s.parityScan addr.toNat
      if t.inFault base && !s.inFault base then t.faultAction base else t
    else s)

/-! ### Engine resets (R77, R82, R563) -/

/-- ENGINE_RESET: CHIP_RST command 3. -/
def execEngineReset (e : Fin 36) (s : State) : Host.Outcome State Fault Refusal :=
  fin (s.onWrite 0x44 (fun s => (s.engineReset e).1))

/-- FLT_STAT.retest shows the last fenced unit's result. -/
def State.retestShow (s : State) (u : Nat) (pass : Bool) : State :=
  if s.coll.lastUnit = some u then s.wrb P.flt Reg.FLT_STAT_retest pass else s

/-- ENGINE_RESET_DONE: the self-check that ends an engine reset, or the retest of a fenced unit; an engine that is not
fenced leaves its fault state where it passes, and enters it with cause 0x04 where it fails (R96, R162).
[DEDUCED: log entry 123.] -/
def State.engineResetDone (s : State) (e : Nat) (pass : Bool) : State :=
  if (s.eng e).underTest then
    let s := { s with seq := { s.seq with engResets := s.seq.engResets.filter (fun i => i ≠ e) } }
    let s := s.setEng e { s.eng e with underTest := false, retest := if s.engFenced e then some pass else (s.eng e).retest }
    if s.engFenced e then s.retestShow e pass
    else if pass then
      let s := (engPages e).foldl (fun s p => if s.inFault p || decide (s.rd p Reg.BLK_STAT_state = idleHeld) then s.leaveTo p 0 else s) s
      if s.seq.checked.contains e then s else { s with seq := { s.seq with checked := e :: s.seq.checked } }
    else
      let s := (engPages e).foldl (fun s p => s.resume p) s
      s.blockFault (P.eng e) 4
  else if e < 32 && s.unitFenced (64 + e) && (s.retestOf (64 + e)).isNone then
    let s := { s with coll := { s.coll with retests := SMap.insert s.coll.retests (64 + e) pass } }
    s.retestShow (64 + e) pass
  else s

def execEngineResetDone (e : Fin 36) (pass : Bool) (s : State) : Host.Outcome State Fault Refusal :=
  fin (s.engineResetDone e pass)

/-! ### UNFENCE (R570) -/

/-- An engine returns to service: for an Anvil engine a placement change, and for both a reload of what its banks hold.
[DEDUCED: log entry 59.] -/
def State.engineReturn (s : State) (e : Nat) : State :=
  let s := if e < 32 then s.wr P.schG Reg.SCH_FENCE_mask (clrBit (s.rd P.schG Reg.SCH_FENCE_mask) e)
    else s.wr P.schG Reg.SCH_PLACE_tongs_fenced (clrBit (s.rd P.schG Reg.SCH_PLACE_tongs_fenced) (e - 32))
  let s := (engPages e).foldl (fun s p => (s.clearErr p).wr p Reg.BLK_STAT_state 0) s
  let s := if e < 32 then s.placementMove else s
  let s := (engBanks e).foldl (fun s b => s.bankPower b 2) s
  let s := s.setEng e { s.eng e with retest := none }
  let s := if s.seq.checked.contains e then s else { s with seq := { s.seq with checked := e :: s.seq.checked } }
  (s.restart (if e < 32 then s.allJobs else []) true (fun _ => none)).1

/-- A write of FLT_UNFENCE. [DEDUCED: log entry 123.] -/
def State.unfence (s : State) (v : Nat) (linkGood : Bool) : State :=
  let u := bits v 0 7
  if bits v 16 16 ≠ 0x8f2b then s.bump (P.flt + 0x838)
  else if u = 96 then s.mainReq linkGood
  else if s.unitFenced u && s.retestOf u = some true then
    if u < 36 then s.engineReturn u
    else
      let e := u - 64
      let s := s.wr P.flt Reg.FLT_FENCE_rq (clrBit (s.rd P.flt Reg.FLT_FENCE_rq) e)
      let s := s.wrb (P.anv e 0) Reg.ANV_CFG_rq_excl false
      { s with coll := { s.coll with retests := SMap.erase s.coll.retests u } }
  else s.bump (P.flt + 0x838)

def execUnfence (v : Word) (linkGood : Bool) (s : State) : Host.Outcome State Fault Refusal :=
  fin (s.onWrite (P.flt + 0x50) (fun s => s.unfence v.toNat linkGood))

/-! ### The Hearth complex (R571, R572) -/

/-- The two halves change places: the staged image runs and the running image is staged (R549, R551). -/
def State.imageSwap (s : State) : State :=
  let m := s.temper
  let s := { s with temper := { m with
    running := m.staged, runSvn := m.stagedSvn, version := m.stagedVersion
    staged := m.running, stagedSvn := m.runSvn, stagedVersion := m.version, swapped := !m.swapped } }
  s.wrb P.tmp Reg.TMP_STAT_half (!s.rdb P.tmp Reg.TMP_STAT_half)

/-- A Hearth restart ends a handover in progress: before TMP_ALIVE the old image is restarted (R553).
[DEDUCED: log entry 122.] -/
def State.handoverDrop (s : State) : State :=
  let s := if s.temper.swapped then s.imageSwap else s
  let s := { s with temper := { s.temper with handover := none, pauseRuns := false } }
  s.wrb P.tmp Reg.TMP_STAT_handover false

/-- A cause of a Hearth restart: 1 watchdog, 2 exception, 3 loss of HEARTHCLK. The cores halt; the restart is begun, or
the cores are held where three restarts have begun within 600 s. [DEDUCED: log entry 122.] -/
def State.hearthDown (s : State) (cause within600 : Nat) : State :=
  if s.coll.hearthHalted then s
  else
    let s := s.handoverDrop.bump (P.flt + 0x800)
    let s := { s with coll := { s.coll with hearthHalted := true, hearthCause := cause, kicked := 0 } }
    let src := if cause = 3 then 0x001 else 0xe00
    let code := if cause = 1 then 0xf1 else if cause = 2 then 0xf2 else 3
    if 3 ≤ within600 then
      ((s.wrb P.flt Reg.FLT_HWDG_held true).logAction src code 1 0xffff 0).raise 0xe00 0x82 (le 1 4 ++ le 3 0 ++ le 4 0)
    else
      let s := s.wr P.flt Reg.FLT_HWDG_restarts (min 255 (s.rd P.flt Reg.FLT_HWDG_restarts + 1))
      ((s.bump (P.flt + 0x830)).setBlk P.flt 10).logAction src code 4 0xffff 0

/-- HEARTH_KICK: a write of FLT_HWDG.kick; one over PCIe is ignored and counted. -/
def State.hearthKick (s : State) (cores : Nat) (who : Requester) : State :=
  match who with
  | .driver => s.bump (P.flt + 0x838)
  | .firmware =>
    if s.coll.hearthHalted then s
    else { s with coll := { s.coll with kicked := s.coll.kicked ||| cores % 16 } }

def execHearthKick (cores : BitVec 4) (who : Requester) (s : State) : Host.Outcome State Fault Refusal :=
  fin (s.onWrite (P.flt + 0x54) (fun s => s.hearthKick cores.toNat who))

/-- HEARTH_WATCHDOG_EXPIRY: the end of a watchdog period, which pauses in BANKED; every core has kicked, or one has not.
[DEDUCED: log entry 122.] -/
def State.watchdog (s : State) (within600 : Nat) : State :=
  if !s.clocked then s
  else if s.coll.kicked = 15 then { s with coll := { s.coll with kicked := 0 } }
  else s.hearthDown 1 within600

def execHearthWatchdogExpiry (within600 : BitVec 8) (s : State) : Host.Outcome State Fault Refusal :=
  fin (s.watchdog within600.toNat)

def execHearthException (within600 : BitVec 8) (s : State) : Host.Outcome State Fault Refusal :=
  fin (s.whenClocked (fun s => s.hearthDown 2 within600.toNat))

/-- HEARTH_RESTART: the firmware runs again; requests taken and not answered end with status 5 (R499).
[DEDUCED: log entry 122.] -/
def State.hearthRestart (s : State) (pauseUs : Nat) : State :=
  if !s.coll.hearthHalted || s.rdb P.flt Reg.FLT_HWDG_held then s
  else
    let s := { s with coll := { s.coll with hearthHalted := false, kicked := 0 } }
    let s := s.host.mbxTaken.foldl (fun (s : State) (r : MbxReq × Nat) => s.mbxReply r.1 r.2 5 0 []) s
    s.raise 0xe00 0x82 (le 1 s.coll.hearthCause ++ le 3 0 ++ le 4 pauseUs)

def execHearthRestart (pauseUs : BitVec 32) (s : State) : Host.Outcome State Fault Refusal :=
  fin (s.hearthRestart pauseUs.toNat)

/-- PLL_B_RELOCK_TIMEOUT: the cores stay halted (R572). -/
def execPllBRelockTimeout (s : State) : Host.Outcome State Fault Refusal :=
  if s.coll.hearthHalted && decide (s.coll.hearthCause = 3) && !s.rdb P.flt Reg.FLT_HWDG_held then
    fin ((s.wrb P.flt Reg.FLT_HWDG_held true).raise 0xe00 0x82 (le 1 4 ++ le 3 0 ++ le 4 0))
  else fin s

end Sys2Proof.Machine
end

