-- ==== Sys2Proof/Machine/Dram.lean ====
section
/-! DEFINITION. The DRAM stacks: reads and what a requester gets over an uncorrectable word, billet repair, refresh, the
patrol scrub, the stack temperature (R240 to R247, R264 to R266), and BAR2 (R119 to R121, R592). -/

namespace Sys2Proof.Machine

/-- The stacks answer: trained, clocked, powered (R69, R86). -/
def State.dramAlive (s : State) : Bool :=
  !s.inReset && !s.unpowered && decide (s.seq.power ≠ .banked)

/-- What the word's visit shows, with what it held before. [DESIGN CHOICE: log entry 119.] -/
def State.upset (s : State) (a : Nat) (up : Upset) : Upset :=
  if s.msys.poison.contains (a / 8) then .uncorrectable else up

/-- A job met an uncorrectable read of its own data: it restarts once, a second one ends it as no verdict (R246, R560,
R566). [DEDUCED: log entry 118.] -/
def State.jobDataError (s : State) (src cause j : Nat) : State :=
  match s.job j with
  | none => s
  | some x =>
    if x.ended.isSome then s
    else
      let s := s.bump (P.flt + 0x800)
      if x.dataErr then (s.jobEnd j 1).logAction src cause 2 0xffff 1
      else
        let r := (s.setJob j { x with dataErr := true }).restart [j] false (fun _ => none)
        r.1.logAction src cause 2 0xffff r.2

/-- Poisoned data reaches its requester (R246). Hearth's bus error, BAR2's EP bit and the archive decoder's corrupt
sample belong to their own commands. [DEDUCED: log entry 118.] -/
def State.poisonReach (s : State) (a : Nat) (who : DramRequester) : State :=
  match who with
  | .crop j =>
    match s.job j with
    | some x => (s.bump (P.tng x.tongs 0 + 0x820)).jobEnd j 1
    | none => s
  | .engineDma j => s.jobDataError (srcOf (P.drc (stackOf a))) 0x10 j
  | .programFetch e => s.blockFault (P.eng e) 0x16
  | _ => s

/-- The budget entry of a requester (R254); a billet's data is read by the firmware. [DESIGN CHOICE: log entry 151.] -/
def State.requesterEntry (s : State) (who : DramRequester) : Nat :=
  match who with
  | .billet | .hearth => bwHearth
  | .crop j | .engineDma j => ((s.job j).map (fun x => bwCtx x.ctx)).getD bwHearth
  | .programFetch e => ((s.eng e).cur.map bwCtx).getD bwHearth
  | .bar2 => bwHost
  | .archive => bwArch

/-- DRAM_READ: one 64-bit word. [DESIGN CHOICE: log entry 119.] -/
def State.dramRead (s : State) (a : Nat) (who : DramRequester) (up : Upset) : State :=
  let p := P.drc (stackOf a)
  if !inDram a || !s.dramAlive then s
  else
    let s := s.moved (s.requesterEntry who) a 8 0x920
    if s.inFault p then s.poisonReach a who
    else match s.upset a up with
    | .clean => s
    | .correctable => s.bump (p + 0x800 + 8 * pcOf a)
    | .uncorrectable =>
      let r := s.readBad a
      if r.2 then r.1.poisonReach a who else r.1

def execDramRead (addr : DevAddr) (who : DramRequester) (up : Upset) (s : State) : Host.Outcome State Fault Refusal :=
  fin (s.dramRead addr.toNat who up)

/-- DRAM_REFRESH: counted. -/
def execDramRefresh (stack : Fin 2) (pc : Fin 32) (s : State) : Host.Outcome State Fault Refusal :=
  let _ := pc
  if s.dramAlive then fin (s.bump (P.drc stack + 0x910)) else fin s

/-- PATROL_SCRUB: the next word of the stack, in ascending order and wrapping, charged to MAINT (R247).
[DESIGN CHOICE: log entry 119.] -/
def State.patrolScrub (s : State) (k : Nat) (up : Upset) : State :=
  let p := P.drc k
  if !s.dramAlive || s.inFault p || !s.rdb p Reg.DRC_CFG_scrub_en then s
  else
    let i := SMap.get s.msys.scrubAt k (0 : Nat)
    let a := k * 0x400000000 + 8 * i
    let s := { s with msys := { s.msys with scrubAt := SMap.set s.msys.scrubAt k ((i + 1) % 0x80000000) 0 } }
    let s := (s.bump (p + 0x918)).charge bwMaint k 8
    match s.upset a up with
    | .clean => s
    | .correctable => s.bump (p + 0x800 + 8 * pcOf a)
    | .uncorrectable => ((s.dramBad a).bump (p + 0x900)).noteCause p 0x11

def execPatrolScrub (stack : Fin 2) (up : Upset) (s : State) : Host.Outcome State Fault Refusal :=
  fin (s.patrolScrub stack up)

/-- STACK_TEMPERATURE_CHANGE: above 85 °C the refresh rate doubles, above 105 °C the stack faults. -/
def State.stackTemp (s : State) (k : Nat) (t : StackTemp) : State :=
  let p := P.drc k
  match t with
  | .normal => s.wrb p Reg.DRC_CFG_hot false
  | .hot => s.wrb p Reg.DRC_CFG_hot true
  | .above => (s.wrb p Reg.DRC_CFG_hot true).blockFault p 0x14

def execStackTemperatureChange (stack : Fin 2) (t : StackTemp) (s : State) : Host.Outcome State Fault Refusal :=
  if s.dramAlive then fin (s.stackTemp stack t) else fin s

/-! ### BAR2 (R119 to R121, R592) -/

/-- The device address behind a BAR2 offset (R119). -/
def bar2Addr (off : Nat) : Option Nat :=
  if off < 0x800000000 then some off
  else if off < 0x800600000 then some (0x1000000000 + (off - 0x800000000))
  else if 0x900000000 ≤ off ∧ off < 0x908000000 then some (0x2000000000 + (off - 0x900000000))
  else if 0xa00000000 ≤ off ∧ off < 0xa00400000 then some (0x3000000000 + (off - 0xa00000000))
  else none

/-- An access waits for what its bank is completing: a handover to HOST, a clear (R76, R233, R592). The wait is part of the
access's own command. [DESIGN CHOICE: log entry 24.] -/
def State.bankWait (s : State) (b : Nat) : State :=
  let t := if SMap.get s.msys.handovers b 0 % 8 = 3 then s.handoverDone b else s
  if t.serves b 3 then t.wrb P.bank Reg.BANK_CTL_clearing false b else s

/-- A DRAM access waits for the period boundary while HOST is held (R592). [DESIGN CHOICE: log entry 24.] -/
def State.hostWait (s : State) (a : Nat) : State :=
  if s.blwTier bwHost (stackOf a) = 4 && decide (s.seq.power ≠ .banked) then s.periodBoundary else s

/-- What a BAR2 access finds: DRAM, a bank that HOST holds, or a refusal (R120). -/
inductive Bar2Place where
  | dram (a : Nat)
  | bank (b a : Nat)
  | refused
  deriving DecidableEq, Repr, Inhabited

/-- The place of BAR2 offset off, by the access's first byte. [DESIGN CHOICE: log entry 24.] -/
def State.bar2Place (s : State) (off : Nat) : Bar2Place :=
  match bar2Addr off with
  | none => .refused
  | some a =>
    if inDram a then .dram a
    else match bankAt a with
      | some b => if s.serves b 3 then .bank b a else .refused
      | none => .refused

/-- The state in which a BAR2 access at off is decided: what it waits for has come. -/
def State.bar2Wait (s : State) (off : Nat) : State :=
  match bar2Addr off with
  | none => s
  | some a => if inDram a then s.hostWait a else match bankAt a with | some b => s.bankWait b | none => s

/-- A refused access is counted, as a non-owner's where that is why (R120, R262). -/
def State.bar2Refuse (s : State) (off : Nat) : State :=
  let s := s.bump (P.bank + 0x800)
  match (bar2Addr off).bind bankAt with
  | some b => if s.bankOwner b ≠ 3 then s.bankDeny else s
  | none => s

/-- A BAR2 write, while the module can be reached: refused without effect (R120). [DESIGN CHOICE: log entry 24.] -/
def State.bar2Write (s : State) (off : Nat) (data : List (Option Byte)) : State :=
  if !s.hostReach then s
  else
    let s := s.bar2Wait off
    match s.bar2Place off with
    | .refused => s.bar2Refuse off
    | .dram a => s.putMasked bwHost a data
    | .bank _ a => s.storeMasked a data

def execBar2Write (off : BitVec 36) (data : List (Option Byte)) (s : State) : Host.Outcome State Fault Refusal :=
  fin (s.bar2Write off.toNat data)

/-- The page of the unit that holds bank b, and its counter of corrected words (R165, R228, R262). -/
def bankPage (b : Nat) : Nat × Nat :=
  if b < 192 then (P.anv (b / 6) 0, P.anv (b / 6) 0 + 0x848)
  else if b < 198 then (P.bank, P.bank + 0x820)
  else (P.tng (b - 198) 0, P.tng (b - 198) 0 + 0x860)

/-- A word of bank b that is read shows this under its SECDED bits (R229): corrected and counted, or an uncorrectable error in
the block's own storage (R96). [DEDUCED: log entry 152.] -/
def State.bankUpset (s : State) (b : Nat) (up : Upset) : State :=
  match up with
  | .clean => s
  | .correctable => s.bump (bankPage b).2
  | .uncorrectable => s.blockFault (bankPage b).1 2

/-- What the stack reports of the first word of a read. -/
def State.dramUpset (s : State) (a : Nat) (up : Upset) : State :=
  match up with
  | .clean => s
  | .correctable => if s.msys.poison.contains (a / 8) then s else s.bump (P.drc (stackOf a) + 0x800 + 8 * pcOf a)
  | .uncorrectable => s.dramBad a

/-- The completion of a read that the host makes. -/
def State.complete2 (s : State) (data : List Byte) (ep : Bool) : State :=
  { s with host := { s.host with readData := data, readPoisoned := ep } }

/-- A BAR2 read: zero where refused (R120), a poisoned completion over an uncorrectable word that is not repaired (R121). The
image region reads as zero (R549). [DESIGN CHOICE: log entry 24.] -/
def State.bar2Read (s : State) (off n : Nat) (up : Upset) : State :=
  if !s.hostReach then s
  else
    let s := s.bar2Wait off
    match s.bar2Place off with
    | .refused => (s.bar2Refuse off).complete2 (List.replicate n 0) false
    | .dram a =>
      if inImage a then (s.bump (P.tmp + 0x828)).complete2 (List.replicate n 0) false
      else
        let r := (s.dramUpset a up).fetch bwHost a n
        r.1.complete2 (r.1.load a n) r.2
    | .bank b a => (s.bankUpset b up).complete2 (s.load a n) (up = .uncorrectable)

def execBar2Read (off : BitVec 36) (len : Nat) (s : State) (up : Upset := .clean) : Host.Outcome State Fault Refusal :=
  fin (s.bar2Read off.toNat len up)

end Sys2Proof.Machine
end

