-- ==== Sys2Proof/Machine/XCheck.lean ====
section
/-! DEFINITION. The cross-check unit's verdicts on its checks, and regeneration requests (R318 to R320, R324 to R330,
R334 to R340). The admission of copies and the digests stand in Jobs.lean and Waits.lean. -/

namespace Sys2Proof.Machine

/-! ### Traces (R327) -/

/-- Where the trace of step k of a run is stored. -/
def State.traceAt (s : State) (slot run k : Nat) : Nat :=
  s.rd2 P.xck Reg.XCK_TRACE_BASE_lo Reg.XCK_TRACE_BASE_hi / 0x100000 * 0x100000 + slot * 0x100000 + run * 0x80000 + 8 * k

def State.trace (s : State) (slot run k : Nat) : Nat := unle (s.load (s.traceAt slot run k) 8)

/-- The cross-check unit acts. -/
def State.xckActs (s : State) : Bool := s.clocked && s.works P.xck

/-- The traces of steps 0 to n - 1 of both runs of a check are read, charged to the context (R327). -/
def State.traceRead (s : State) (slot c n : Nat) : State :=
  [0, 1].foldl (fun s r => (s.fetch (bwCtx c) (s.traceAt slot r 0) (8 * n)).1) s

/-- The lowest step whose traces differ. -/
def State.firstDiff (s : State) (slot c : Nat) : Option Nat :=
  let n := match (s.ctx c).billet with
    | some b => b.stepEngines.length
    | none => 0
  (List.range n).find? (fun k => s.trace slot 0 k ≠ s.trace slot 1 k)

/-! ### Outcomes (R328, R336, R340) -/

/-- The four words of a digest, the first bytes lowest. -/
def State.wrDigest (s : State) (f : Fld) (d : List Byte) : State :=
  (List.range 4).foldl (fun s i => s.wr P.xck f (unle ((d.drop (4 * i)).take 4)) i) s

/-- A check ends: XCK_LAST, XCK_LAST_INFO, the XCK_RESULT record; its slot is free. -/
def State.checkEnd (s : State) (slot : Nat) (ck : Check) (outcome suspect step : Nat) : State :=
  let o := ck.origDigest.getD zeroDigest
  let c := ck.copyDigest.getD zeroDigest
  let s := (s.wrDigest Reg.XCK_LAST_ORIG_word o).wrDigest Reg.XCK_LAST_COPY_word c
  let s := (((s.wr P.xck Reg.XCK_LAST_INFO_outcome outcome).wr P.xck Reg.XCK_LAST_INFO_ctx ck.proto.ctx).wr P.xck
    Reg.XCK_LAST_INFO_suspect suspect).wr P.xck Reg.XCK_LAST_INFO_step step
  let obj := match ck.proto.box with
    | some b => b.object.toNat
    | none => ck.proto.tag
  let cam := match ck.proto.box with
    | some b => b.camera.val
    | none => 0
  let s := s.bump (P.xck + (if outcome = 0 then 0x810 else if outcome = 1 then 0x818 else if outcome = 2 then 0x820 else 0x828))
  let s := { s with sched := { s.sched with checks := SMap.erase s.sched.checks slot } }
  s.raise 0xe02 0x60 (le 4 obj ++ le 1 ck.proto.ctx ++ le 1 outcome ++ le 1 suspect ++ le 1 cam ++ o.take 4 ++ c.take 4)

/-- Mismatch unresolved: the page enters its fault state with cause 0x10. -/
def State.checkUnresolved (s : State) (slot : Nat) (ck : Check) (step : Nat) : State :=
  ((s.checkEnd slot ck 2 0 step).setBlk P.xck 9).blockFault P.xck 0x10

/-- XCHECK_COMPARE: both runs have completed. -/
def State.checkCompare (s : State) (slot : Nat) : State :=
  match SMap.find? s.sched.checks slot with
  | none => s
  | some ck =>
    match ck.origDigest, ck.copyDigest with
    | some o, some c =>
      if ck.arb.isSome then s
      else if o = zeroDigest ∨ c = zeroDigest then s.checkEnd slot ck 3 0 0
      else if o = c then s.checkEnd slot ck 0 0 0
      else match s.firstDiff slot ck.proto.ctx with
        | none => (s.traceRead slot ck.proto.ctx (((s.ctx ck.proto.ctx).billet.map (fun b => b.stepEngines.length)).getD 0)).checkUnresolved
            slot ck 0
        | some k =>
          let s := s.traceRead slot ck.proto.ctx (k + 1)
          let s := { s with sched := { s.sched with checks := SMap.insert s.sched.checks slot { ck with arb := some k } } }
          let x := s.ctx ck.proto.ctx
          s.setCtx ck.proto.ctx { x with hostQ := x.hostQ ++ [HostItem.arbitrate slot] }
    | _, _ => s

def execXcheckCompare (slot : Fin 4) (s : State) : Host.Outcome State Fault Refusal := fin (if s.xckActs then s.checkCompare slot else s)

/-- The physical engine that ran a step's logical engine in a run with rotation r on Tongs engine t (R277, R326). -/
def State.ranOn (s : State) (c k r t : Nat) : Nat :=
  let l := match (s.ctx c).billet with
    | some b => ((b.stepEngines[k]?).map Fin.val).getD 0
    | none => 0
  let h := s.anvFree.length
  if l < 32 then (s.anvFree[(l + r) % max 1 h]?).getD 0 else 32 + t

/-- A resolved mismatch: with fence_en the suspect is fenced by the collector (R328, R560, R569).
[DEDUCED: log entry 58.] -/
def State.checkResolved (s : State) (slot : Nat) (ck : Check) (step suspect : Nat) : State :=
  let s := (s.checkEnd slot ck 1 suspect step).setBlk P.xck 8
  if s.rdb P.xck Reg.XCK_CFG_fence_en && !s.engFenced suspect then
    let r := (s.bump (P.flt + 0x800)).fenceEngine suspect (fun _ => none)
    r.1.logAction 0xe02 0 3 suspect r.2
  else s

/-- XCHECK_ARBITRATION_DONE. -/
def State.checkArbitrate (s : State) (slot : Nat) : State :=
  match SMap.find? s.sched.checks slot with
  | none => s
  | some ck =>
    match ck.arb with
    | none => s
    | some k =>
      if !ck.arbEnded then s
      else match ck.arbTrace with
        | none => s.checkUnresolved slot ck k
        | some v =>
          let c := ck.proto.ctx
          if v = s.trace slot 1 k then s.checkResolved slot ck k (s.ranOn c k 0 ck.proto.tongs)
          else if v = s.trace slot 0 k then s.checkResolved slot ck k (s.ranOn c k (s.anvFree.length / 2) ck.copyTongs)
          else s.checkUnresolved slot ck k

def execXcheckArbitrationDone (slot : Fin 4) (s : State) : Host.Outcome State Fault Refusal := fin (if s.xckActs then s.checkArbitrate slot else s)

/-! ### Regeneration (R319, R320, R337) -/

/-- Why the request block is refused, none where it is not. [DEDUCED: log entry 61.] -/
def State.regenRefusal (s : State) (c : Nat) (b : List Byte) : Option Nat :=
  let k := unle ((b.drop 80).take 2)
  let len := unle ((b.drop 96).take 8)
  let out := unle ((b.drop 88).take 8)
  let need := match (s.ctx c).billet with
    | some x => ((x.stepBytes[k]?).map BitVec.toNat).getD 0
    | none => 0
  if (s.ctxState c ≠ ctxRunning ∧ s.ctxState c ≠ ctxStandby) ∨ s.primEn c then some 6
  else if b.take 64 ≠ padTo 64 (s.ctx c).hash then some 1
  else if (b.drop 64).take 16 ≠ s.seedBytes c then some 2
  else if !s.descValid c ((b.drop 128).take 64) then some 5
  else if len < need ∨ out % 64 ≠ 0 then some 4
  else none

/-- A write of XCK_REGEN_CTL with go = 1. -/
def State.regenRequest (s : State) (c : Nat) : State :=
  if s.rdb P.xck Reg.XCK_REGEN_CTL_busy || !s.works P.xck then s
  else
    let s := s.wr P.xck Reg.XCK_REGEN_CTL_ctx c
    let a := s.rd2 P.xck Reg.XCK_REGEN_ADDR_lo Reg.XCK_REGEN_ADDR_hi / 64 * 64
    let s := (s.fetch bwSched a 192).1
    let b := s.load a 192
    let step := unle ((b.drop 80).take 8)
    match s.regenRefusal c b with
    | some st => (s.setBlk P.xck 11).regenEnd st c step
    | none =>
      let r : Regen := { job := 65536, ctx := c, step := step, out := unle ((b.drop 88).take 8), captured := false }
      let s := { s.wrb P.xck Reg.XCK_REGEN_CTL_busy true with sched := { s.sched with regen := some r } }
      s.setCtx c { s.ctx c with hostQ := (s.ctx c).hostQ ++ [HostItem.regen (readDesc ((b.drop 128).take 64))] }

def execRegenRequest (c : Fin 8) (s : State) : Host.Outcome State Fault Refusal :=
  fin (s.onWrite (P.xck + 0x88) (fun s => s.regenRequest c))

/-- Step k of the regeneration job has ended on its engine: its tensors are copied out, and the request is done (R320). -/
def State.regenCapture (s : State) (tag k : Nat) : State :=
  match s.sched.regen with
  | none => s
  | some r =>
    if r.job = tag && decide (r.step % 65536 = k) && !r.captured then
      match (s.ctx r.ctx).billet with
      | none => s
      | some b =>
        let n := ((b.stepBytes[k]?).map BitVec.toNat).getD 0
        let a := ((b.stepAddrs[k]?).map BitVec.toNat).getD 0
        let s := (s.dmaServed a n).fetch (bwCtx r.ctx) a n
        (s.1.dmaPut (bwCtx r.ctx) r.out (s.1.load a n)).regenEnd 0 r.ctx r.step
    else s

end Sys2Proof.Machine
end

