-- ==== Sys2Proof/Machine/Engine.lean ====
section
/-! DEFINITION. What Anvil and Tongs engines share: banks and shares as commands see them, tokens, and the effects of DMA,
BARRIER, RWAIT, SATBR and STEP_END (R151, R153, R155 to R159, R190, R195, R198, R212, R288, R292, R327). When commands issue
stands in Sequencer.lean. -/

namespace Sys2Proof.Machine

/-- The opcodes an engine accepts (R151, R212). -/
def takesOp (e op : Nat) : Bool :=
  if e < 32 then ([0, 1, 2, 3, 4, 5, 6, 7, 8, 15] : List Nat).contains op
  else ([0, 3, 4, 5, 6, 15, 0x20, 0x21, 0x22, 0x23, 0x24, 0x25] : List Nat).contains op

/-! ### Banks of an engine -/

/-- Bank k of engine e as its commands see it: 0 to 3 A, 4 W0, 5 P0; X0 on a Tongs engine. -/
def ownBank (e k : Nat) : Nat := if e < 32 then bankOf e k else bankX0 (e - 32)

/-- The engine's own units may use the bank (R231, R232). -/
def State.ownServes (s : State) (e k : Nat) : Bool :=
  if e < 32 then s.serves (ownBank e k) 0 else s.servesTongs (ownBank e k) (e - 32)

/-- A command names a bank whose owner side does not serve the engine: refused, counted, fault 0x12 (R161, R232, R262). The
causes of R224 name none for a Tongs engine, for which R232 gives the same. [DEDUCED: log entry 163.] -/
def State.bankFault (s : State) (e c : Nat) : State × Bool := (s.bankDeny.engFault e c 0x12, false)

/-- n bytes at offset a of the bank lie in context c's share (R206, R212). -/
def State.inShare (s : State) (e c k a n : Nat) : Bool :=
  match s.share c (ownBank e k) with
  | some (o, m) => decide (o ≤ a) && decide (a + n ≤ o + m)
  | none => false

/-- The offset at which context c's share of the bank begins. -/
def State.shareAt (s : State) (e c k : Nat) : Nat :=
  match s.share c (ownBank e k) with
  | some (o, _) => o
  | none => 0

/-- n bytes at offset a of the bank, little-endian. -/
def State.bankRead (s : State) (e k a n : Nat) : Nat := unle (s.load (bankBase (ownBank e k) + a) n)

def State.bankStore (s : State) (e k a : Nat) (bs : List Byte) : State := s.store (bankBase (ownBank e k) + a) bs

def word (bs : List Byte) (i : Nat) : Nat := unle ((bs.drop (4 * i)).take 4)

/-! ### Tokens (R153) -/

def State.tokens (s : State) (e c t : Nat) : Nat := SMap.get (s.eng e).tokens (16 * c + t) 0

def State.setTokens (s : State) (e c t n : Nat) : State :=
  s.setEng e { s.eng e with tokens := SMap.set (s.eng e).tokens (16 * c + t) n 0 }

/-- A token is signalled; a count above 255 is fault 0x14. -/
def State.signalTok (s : State) (e c t : Nat) : State :=
  if s.tokens e c t = 255 then s.engFault e c 0x14 else s.setTokens e c t (s.tokens e c t + 1)

def State.signal (s : State) (e c : Nat) (w : Cmd) : State := if cmdSignals w then s.signalTok e c (cmdSigTok w) else s

/-! ### DMA (R158, R159) -/

/-- n bytes at a device address that context c may reach. -/
def State.dmaReach (s : State) (c a n : Nat) : Bool :=
  if inDram a then s.inWindows c a n && !inImage a
  else match bankAt a with
    | some b => match s.share c b with
      | some (o, m) => decide (bankBase b + o ≤ a) && decide (a + n ≤ bankBase b + o + m) && s.bankOn b && !s.bankTested b
      | none => false
    | none => false

/-- A DMA descriptor. -/
structure DmaDesc where
  src : Nat
  dst : Nat
  flags : Nat
  n0 : Nat
  n1 : Nat
  n2 : Nat
  srcRow : Nat
  dstRow : Nat
  srcPlane : Nat
  dstPlane : Nat

def readDma (b : List Byte) : DmaDesc :=
  let w := word b
  { src := w 0 + 2 ^ 32 * bits (w 1) 0 8, dst := w 2 + 2 ^ 32 * bits (w 1) 8 8, flags := bits (w 1) 16 16
    n0 := bits (w 3) 0 16, n1 := bits (w 3) 16 16, n2 := bits (w 4) 0 16, srcRow := w 5, dstRow := w 6
    srcPlane := 64 * bits (w 7) 0 16, dstPlane := 64 * bits (w 7) 16 16 }

/-- Source and destination of each row, in order. -/
def DmaDesc.rows (d : DmaDesc) : List (Nat × Nat) :=
  (List.range d.n2).flatMap (fun p => (List.range d.n1).map (fun r =>
    ((d.src + p * d.srcPlane + r * d.srcRow) % 2 ^ 40, (d.dst + p * d.dstPlane + r * d.dstRow) % 2 ^ 40)))

/-- A DMA row is read: as requests of the context's entry where it lies in DRAM; whether it comes back poisoned (R159, R246). -/
def State.dmaFetch (s : State) (c a n : Nat) : State × Bool := (s.dmaServed a n).fetch (bwCtx c) a n

/-- The rows are moved in order until one comes back poisoned, or the engine stops on a token count (R153, R162, R246).
[DEDUCED: log entry 118.] -/
def State.dmaRows (s : State) (e c j : Nat) (tok : Option Nat) (n : Nat) : List (Nat × Nat) → State
  | [] => s
  | (a, b) :: rows =>
    if !s.engWorks e then s
    else
      let r := s.dmaFetch c a n
      let s := r.1
      if r.2 then s.jobDataError (srcOf (P.drc (stackOf a))) 0x10 j
      else
        let s := s.dmaPut (bwCtx c) b (s.load a n)
        let s := if e < 32 then (s.bump (P.anv e 2 + 0x800) n).bump (P.anv e 2 + 0x808) n else s
        let s := match tok with
          | some t => s.signalTok e c t
          | none => s
        State.dmaRows s e c j tok n rows

/-- The effect of DMA: a reserved flag, or a count of zero, is an operand out of range. [DEDUCED: log entry 110.] -/
def State.dmaRun (s : State) (e c j : Nat) (w : Cmd) : State × Bool :=
  let d := readDma (s.descBytes e c w.w1.toNat)
  if 4 ≤ d.flags ∨ d.n0 = 0 ∨ d.n1 = 0 ∨ d.n2 = 0 then (s.engFault e c 0x11, false)
  else if d.rows.all (fun p => s.dmaReach c p.1 d.n0 && s.dmaReach c p.2 d.n0) then
    (s.dmaRows e c j (if bit d.flags 0 then some (cmdSigTok w) else none) d.n0 d.rows, true)
  else
    let s := if e < 32 then s.wr (P.anv e 2) Reg.ANV_DMA_STAT_last_bad w.w1.toNat else s
    (s.engFault e c 0x15, false)

/-- A DMA whose descriptor carries the read-only fence (R158). -/
def State.dmaFence (s : State) (e c : Nat) (w : Cmd) : Bool := bit (readDma (s.descBytes e c w.w1.toNat)).flags 1

/-! ### Barriers (R156) -/

/-- An engine's own bit in a barrier mask: a Tongs engine t is bit t of the masks that Tongs engines use.
[DEDUCED: log entry 110.] -/
def maskBit (e : Nat) : Nat := if e < 32 then e else e - 32

/-- The effect of BARRIER: one that leaves its own engine out is fault 0x11. [DEDUCED: log entry 110.] -/
def State.barrierRun (s : State) (e c : Nat) (w : Cmd) : State × Bool :=
  if !bit w.w1.toNat (maskBit e) then (s.engFault e c 0x11, false)
  else (s.setEng e { s.eng e with barrier := some (bits w.w2.toNat 0 4, w.w1.toNat) }, true)

/-- Every engine of the mask waits at the barrier. -/
def State.barrierFull (s : State) (es : List Nat) (id mask : Nat) : Bool :=
  !es.isEmpty && es.all (fun e => (s.eng e).barrier = some (id, mask))

/-- Engine e leaves the barrier: its BARRIER is complete (R151, R156). -/
def State.barrierLeave (s : State) (e : Nat) : State :=
  let g := s.eng e
  let s := s.setEng e { g with barrier := none, inflight := g.inflight.filter (fun f => cmdOp f.2 ≠ 6) }
  match g.inflight.find? (fun f => cmdOp f.2 = 6) with
  | some f => s.signal e f.1 f.2
  | none => s

/-! ### Remote waits (R292) -/

/-- The effect of RWAIT, as the first command of its step: it completes at once on a completed entry of the context's oldest
job, else the context waits and the engine names another. -/
def State.rwaitRun (s : State) (e c : Nat) (x : Job) (w : Cmd) (first : Bool) : State × Bool :=
  let ent := w.w1.toNat
  if !first || (s.waitEntry c e ent).isNone then (s.engFault e c 0x11, false)
  else if (s.oldestJob c).any (fun y => y.tag = x.tag) && s.waitDone c e ent then (s.waitTake c e ent, false)
  else
    let s := (s.wr (seqPage e) Reg.ANV_CTX_STAT_state 3 c).bump (P.schC c + 0x850)
    let g := s.eng e
    (s.setEng e { g with rwait := g.rwait ++ [(c, ent)], inflight := g.inflight ++ [(c, w)], cur := none, chain := none }, true)

/-- Context c waits on engine e for entry w, which is complete. -/
def State.waitOver (s : State) (e c w : Nat) : Bool := (s.eng e).rwait.contains (c, w) && s.waitDone c e w

/-- The RWAIT is complete and the context is ready again (R288, R292). -/
def State.remoteDone (s : State) (e c w : Nat) : State :=
  let s := s.waitTake c e w
  let g := s.eng e
  let f := g.inflight.find? (fun f => f.1 = c && cmdOp f.2 = 7)
  let s := s.setEng e { g with
    rwait := g.rwait.filter (fun r => r ≠ (c, w)), inflight := g.inflight.filter (fun f => !(f.1 = c && cmdOp f.2 = 7)) }
  let s := s.wr (seqPage e) Reg.ANV_CTX_STAT_state 1 c
  (match f with
    | some f => s.signal e c f.2
    | none => s).preempt c

/-! ### SATBR (R195, R198) -/

/-- The threshold of a count index. -/
def State.threshold (s : State) (c i : Nat) : Nat :=
  match (s.ctx c).billet with
  | some b => ((b.thresholds[i]?).map BitVec.toNat).getD 0
  | none => 0

/-- The effect of SATBR: the next step is the target where the count is above the threshold.
[DEDUCED: log entry 113.] -/
def State.satbrRun (s : State) (e c j : Nat) (x : Job) (w : Cmd) : State × Bool :=
  let i := bits w.w1.toNat 0 16
  if bits w.w1.toNat 16 16 ≠ 0 ∨ (255 < i ∧ i ≠ 0xffff) ∨ w.w2.toNat % 16 ≠ 0 then (s.engFault e c 0x11, false)
  else if i = 0xffff then (s.setEng e { s.eng e with branch := some w.w2.toNat }, false)
  else if s.threshold c i < SMap.get x.counts i (0 : Nat) then
    let s := s.setEng e { s.eng e with branch := some w.w2.toNat }
    match s.job j with
    | some y =>
      if y.taken.contains i then (s, false)
      else ((s.setJob j { y with fallback := true, taken := i :: y.taken }).bump (P.schC c + 0x840), false)
    | none => (s, false)
  else (s.setEng e { s.eng e with branch := none }, false)

/-! ### Steps (R151, R155, R190, R288, R327) -/

/-- The trace of a step of a run that the cross-check unit follows. -/
def State.traceStep (s : State) (e k : Nat) (x : Job) : State :=
  match x.check with
  | none => s
  | some n =>
    let v := crcFinal (s.eng e).crc
    match x.kind with
    | .arbitration =>
      match SMap.find? s.sched.checks n with
      | some ck =>
        if ck.arb = some k then
          { s with sched := { s.sched with checks := SMap.insert s.sched.checks n { ck with arbTrace := some v } } }
        else s
      | none => s
    | .copy => s.put (bwCtx x.ctx) (s.traceAt n 1 k) (le 8 v)
    | _ => s.put (bwCtx x.ctx) (s.traceAt n 0 k) (le 8 v)

/-- A pre-emption is taken: nothing further of context c is issued until it is named again. [DEDUCED: log entry 60.] -/
def State.preempted (s : State) (e c d : Nat) : State :=
  let s := s.setEng e { s.eng e with preReq := none }
  let s := s.wr (seqPage e) Reg.ANV_CTX_STAT_state 2 c
  ((s.bump (if e < 32 then P.anv e 0 + 0x830 else P.tng (e - 32) 0 + 0x858)).bump (P.schC c + 0x828)).bump (P.schC d + 0x830)

/-- The effect of STEP_END once nothing of the step is in flight: the next step is a SATBR's target, or the one behind. The
request that counts is the one sampled as the step's last slot entered row 0, or the present one where no PASS sampled any;
without one, the context's next step is chained (R155, R195). [DEDUCED: log entry 60.] -/
def State.stepEndRun (s : State) (e c : Nat) (x : Job) (k : Nat) : State :=
  if (s.eng e).phase ≠ 0 then s.engFault e c 0x11
  else
    let s := (s.traceStep e k x).regenCapture x.tag k
    let st := s.rd (seqPage e) Reg.ANV_CTX_STAT_step c
    let s := s.wr (seqPage e) Reg.ANV_CTX_STAT_step (min 0xffff (st + 1)) c
    let s := s.bump (if e < 32 then P.anv e 0 + 0x828 else P.tng (e - 32) 0 + 0x850)
    let g := s.eng e
    let p := s.prog e c
    let s := s.setEng e { g with cur := none, chain := none, sample := none, branch := none, preReq := none, groupRegs := [], crc := crcInit }
    if x.ended.isSome then (s.setEng e ((s.eng e).leave c x.tag)).wr (seqPage e) Reg.ANV_CTX_STAT_state 0 c
    else
      let next := match g.branch with
        | some t => t
        | none => p.start + 16 * p.cmds.length
      let s := s.setProg e c { (default : Prog) with start := next }
      let req := match g.sample with
        | some r => r
        | none => g.preReq
      match req.filter (fun d => d ≠ c) with
      | some d => if s.jobReady e x then s.preempted e c d else s
      | none => s.setEng e { s.eng e with chain := some c, preReq := g.preReq.filter (fun d => d ≠ c) }

end Sys2Proof.Machine
end

