-- ==== Sys2Proof/Machine/Anvil.lean ====
section
/-! DEFINITION. LOAD and PASS: the address generator, masked rows and columns, the array's sums and the column
accumulators with BX4 and LUT3 (R132 to R144, R152, R171, R178 to R182, R188 to R192, R203 to R207). -/

namespace Sys2Proof.Machine

/-! ### The address generator (R203 to R207) -/

/-- An address-generator descriptor. -/
structure AgDesc where
  base : Nat
  bank : Nat
  chPitch : Nat
  rowPitch : Nat
  phasePitch : Nat
  sy : Nat
  sx : Nat
  offY : Int
  offX : Int
  oy0 : Nat
  ox0 : Nat
  hIn : Nat
  wIn : Nat
  tw : Nat
  th : Nat
  zx : Nat
  /-- A reserved bit is set. -/
  bad : Bool

def readAg (b : List Byte) : AgDesc :=
  let w := word b
  { base := bits (w 0) 0 19, bank := bits (w 0) 19 2, chPitch := bits (w 1) 0 19, rowPitch := bits (w 2) 0 19
    phasePitch := bits (w 3) 0 19, sy := bits (w 3) 20 3 + 1, sx := bits (w 3) 24 3 + 1, offY := sext 16 (bits (w 4) 0 16)
    offX := sext 16 (bits (w 4) 16 16), oy0 := bits (w 5) 0 16, ox0 := bits (w 5) 16 16, hIn := bits (w 6) 0 16
    wIn := bits (w 6) 16 16, tw := bits (w 7) 0 7, th := bits (w 7) 8 7, zx := bits (w 7) 16 16
    bad := bits (w 0) 21 11 ≠ 0 || bits (w 1) 19 13 ≠ 0 || bits (w 2) 19 13 ≠ 0 || bit (w 3) 19 || bit (w 3) 23
      || bits (w 3) 27 5 ≠ 0 || bit (w 7) 7 || bit (w 7) 15 }

/-- Byte offset of row r, column c in the bank, none where it lies in padding (R204). -/
def AgDesc.addr (d : AgDesc) (r c : Nat) : Option Nat :=
  let oy := d.oy0 + c / d.tw
  let ox := d.ox0 + c % d.tw
  let iy : Int := (oy * d.sy : Nat) + d.offY
  let ix : Int := (ox * d.sx : Nat) + d.offX
  let ph := (d.offY % (d.sy : Nat) * (d.sx : Nat) + d.offX % (d.sx : Nat)).toNat
  if 0 ≤ iy ∧ iy < d.hIn ∧ 0 ≤ ix ∧ ix < d.wIn then
    some (d.base + r * d.chPitch + ph * d.phasePitch + (iy / (d.sy : Nat)).toNat * d.rowPitch + (ix / (d.sx : Nat)).toNat)
  else none

/-- Every descriptor field is within its range (R203). -/
def AgDesc.ok (d : AgDesc) (pt : Nat) (wide : Bool) : Bool :=
  !d.bad && decide (1 ≤ d.tw) && decide (d.tw ≤ 64) && decide (1 ≤ d.th) && decide (d.th ≤ 64) && decide (pt ≤ d.tw * d.th)
    && decide (1 ≤ d.hIn) && decide (1 ≤ d.wIn) && (!wide || decide (d.chPitch % 2 = 0))

/-- No two elements of a list are equal. -/
def allDistinct : List Nat → Bool
  | [] => true
  | x :: l => !l.contains x && allDistinct l

/-- The stored value of row r, column c. -/
def State.stationary (s : State) (e : Nat) (d : AgDesc) (wide : Bool) (r c : Nat) : Nat :=
  match d.addr r c with
  | some a =>
    s.bankRead e d.bank a 1 + (if wide then 256 * s.bankRead e d.bank (a + d.chPitch / 2) 1 else 0)
  | none => if wide then d.zx else d.zx % 256

/-- The effect of LOAD (R136, R139, R140, R203 to R207): it fills the shadow registers, which become active at once where no
pass is in flight. -/
def State.loadRun (s : State) (e c : Nat) (w : Cmd) : State × Bool :=
  let kt := bits w.w2.toNat 0 6
  let pt := bits w.w2.toNat 6 7
  let wide := bit w.w2.toNat 13
  let d := readAg (s.descBytes e c w.w1.toNat)
  let cols := List.range pt
  if (s.eng e).skipNext || kt = 0 || decide (32 < kt) || pt = 0 || decide (64 < pt) || !d.ok pt wide then (s.engFault e c 0x11, false)
  else if !s.ownServes e d.bank then s.bankFault e c
  else if cols.all (fun x => (d.addr 0 x).isNone) then (s.setEng e { s.eng e with skipNext := true }, false)
  else if !allDistinct ((cols.filterMap (d.addr 0)).map (· % 64)) then (s.engFault e c 0x11, false)
  else if !(List.range kt).all (fun r => cols.all (fun x => match d.addr r x with
      | some a => s.inShare e c d.bank a 1 && (!wide || s.inShare e c d.bank (a + d.chPitch / 2) 1)
      | none => true)) then (s.engFault e c 0x11, false)
  else
    let t : Tile := { loaded := true, rows := kt, cols := pt, wide := wide
                      vals := (List.range kt).flatMap (fun r => cols.map (fun x => s.stationary e d wide r x)) }
    let g := s.eng e
    let swap := !g.inflight.any (fun f => cmdOp f.2 = 2)
    (s.setEng e { g with shadow := t, active := if swap then t else g.active }, true)

/-! ### Operand pairs (R134, R143, R152) -/

/-- The activation's format of a pair. -/
def pairAct (p : Nat) : NFmt :=
  match p with
  | 0 | 2 | 4 => .int8 | 1 | 3 | 5 => .uint8 | 6 | 7 => .e4m3 | 8 | 9 => .e5m2 | 10 => .fp16 | 11 => .bf16 | _ => .int16

/-- Bits of a stored weight. -/
def pairBits (p : Nat) : Nat :=
  match p with
  | 2 | 3 => 4 | 4 | 5 => 3 | 10 | 11 | 12 => 16 | _ => 8

/-- The weight's format where it is stored whole. -/
def pairWt (p : Nat) : NFmt :=
  match p with
  | 6 | 8 => .e4m3 | 7 | 9 => .e5m2 | 10 => .fp16 | 11 => .bf16 | 12 => .int16 | _ => .int8

/-- Slots of a pass and its least number (R134). -/
def passSlots (p m : Nat) : Nat :=
  match p with
  | 2 | 3 | 4 | 5 => (m + 1) / 2 | 10 | 11 => 2 * m | 12 => 4 * m | _ => m

def passMin (p : Nat) : Nat := if 10 ≤ p then 64 else 32

/-- Bytes of the weights of a pass, the LUT3 codebook with them. -/
def passBytes (p m : Nat) : Nat := (if pairBits p = 3 then 8 else 0) + 32 * m * pairBits p / 8

/-- The weight of vector m, row r, as stored or as the codebook gives it: an integer's value, or a pattern. Row r's weights
lie in its own sub-bank (R135): of every 32 elements of the region the r-th. [DESIGN CHOICE: log entry 107.] -/
def passWeight (p mm : Nat) (region : List Byte) (m r : Nat) : Int :=
  let i := 32 * (Config.w0Slot p mm m r % max 1 mm) + r
  match pairBits p with
  | 4 => sext 4 (packed region 4 i)
  | 3 => sext 8 (unle ((region.drop (packed (region.drop 8) 3 i)).take 1))
  | 16 => (unle ((region.drop (2 * i)).take 2) : Nat)
  | _ => (unle ((region.drop i).take 1) : Nat)

/-! ### Sums (R132, R139, R141, R178, R179) -/

/-- A weight of an integer pair as an integer. -/
def intWeight (p : Nat) (x : Int) : Int :=
  match pairBits p with
  | 16 => sext 16 x.toNat
  | 8 => sext 8 x.toNat
  | _ => x

/-- The exact sum of an integer column. -/
def columnInt (p : Nat) (t : Tile) (wt : Nat → Int) (c : Nat) : Int :=
  (List.range t.rows).foldl (fun a r => a + intWeight p (wt r) * (pairAct p).toInt (t.vals.getD (r * t.cols + c) 0)) 0

/-- The product of a floating-point pair, as FP32 (R178). [DEDUCED: log entry 105.] -/
def floatProduct (p w x : Nat) : Nat × Bool :=
  fFP32.ofVal (((pairWt p).ffmt.val w).mul ((pairAct p).ffmt.val x))

/-- The sum of a floating-point column: row 0's product first, then one rounding a row. [DEDUCED: log entry 105.] -/
def columnFloat (p : Nat) (t : Tile) (wt : Nat → Int) (c : Nat) : Nat × Bool :=
  let prod := fun r => floatProduct p (wt r).toNat (t.vals.getD (r * t.cols + c) 0)
  (List.range (t.rows - 1)).foldl (fun (a : Nat × Bool) i =>
    let q := prod (i + 1)
    let b := fadd a.1 q.1
    (b.1, a.2 || q.2 || b.2)) (prod 0)

/-! ### Accumulators (R141, R180, R188, R207) -/

/-- Marks and clears the saturation mark of the P0 word at bank offset a. [DEDUCED: log entry 112.] -/
def Engine.mark (g : Engine) (a : Nat) (fresh sat : Bool) : Engine :=
  let keep := if fresh then g.satWords.filter (fun x => x ≠ a) else g.satWords
  { g with satWords := if sat && !keep.contains a then a :: keep else keep }

/-- A word of the P0 range [a, a + n) is marked pending-initialise. -/
def Engine.pending (g : Engine) (a n : Nat) : Bool := g.pendInit.any (fun p => decide (p.1 < a + n) && decide (a < p.1 + p.2))

/-- The marks outside the range [a, a + n) stand. -/
def Engine.clearPending (g : Engine) (a n : Nat) : Engine :=
  { g with pendInit := g.pendInit.flatMap (fun p =>
      [(p.1, min p.2 (a - p.1)), (max p.1 (a + n), p.1 + p.2 - max p.1 (a + n))].filter (fun q => q.2 ≠ 0)) }

/-- One word of P0 takes a result: an integer sum, or an FP32 value. [DEDUCED: log entry 112.] -/
def State.commitInt (s : State) (e a : Nat) (fresh : Bool) (x : Int) : State :=
  let r := sat32 (if fresh then x else x + sext 32 (s.bankRead e 5 a 4))
  (s.bankStore e 5 a (le 4 (wrap 32 r.1))).setEng e ((s.eng e).mark a fresh r.2)

/-- [DEDUCED: log entry 105.] -/
def State.commitFloat (s : State) (e a : Nat) (fresh : Bool) (x : Nat × Bool) : State :=
  let r := if fresh then (x.1, false) else fadd (s.bankRead e 5 a 4) x.1
  (s.bankStore e 5 a (le 4 r.1)).setEng e ((s.eng e).mark a fresh (x.2 || r.2))

/-- Passes of a BX4 group, by the group field. -/
def groupPasses (g : Nat) : Nat := match g with | 2 => 2 | 3 => 4 | _ => 1

/-- One output of a BX4 pass (R188). -/
def State.commitGroup (s : State) (e a m c last : Nat) (fresh : Bool) (sum : Int) (scale : Nat) : State :=
  let g := s.eng e
  let k := 64 * m + c
  let t := if g.phase = 0 then sum else SMap.get g.groupRegs k 0 + sum
  let s := s.setEng e { g with groupRegs := SMap.insert g.groupRegs k t }
  if g.phase = last then
    let v := match fFP16.val scale with
      | .nan => (fFP32.nan, false)
      | .fin n sm se => fFP32.ofVal ((FVal.fin n sm se).mul (.fin (decide (t < 0)) t.natAbs 0))
    s.commitFloat e a fresh v
  else s

/-- The words of w2 of a PASS. -/
structure PassArgs where
  m : Nat
  pair : Nat
  acc : Bool
  group : Nat
  w0 : Nat
  p0 : Nat

def readPass (w : Cmd) : PassArgs :=
  { m := bits w.w2.toNat 0 11, pair := bits w.w2.toNat 12 4, acc := bit w.w2.toNat 16, group := bits w.w2.toNat 17 2
    w0 := w.w1.toNat, p0 := w.w3.toNat }

/-- What a PASS's fields forbid (R134, R152, R190): a group's passes agree. [DEDUCED: log entry 111.] -/
def State.passBad (s : State) (e : Nat) (a : PassArgs) : Bool :=
  let g := s.eng e
  a.m = 0 || decide (1024 < a.m) || decide (12 < a.pair) || (a.group ≠ 0 && a.pair ≠ 2 && a.pair ≠ 3)
    || (decide (2 ≤ a.group) && decide (256 < a.m))
    || (g.phase ≠ 0 && g.groupKey ≠ a.m + 2048 * a.pair + 65536 * a.group)

/-- The tile that the pass meets: filled by a LOAD of the activation format's width, which is all of the format that a LOAD
carries (R151, R152). [DEDUCED: log entry 111.] -/
def Tile.fits (t : Tile) (pair : Nat) : Bool := t.loaded && t.wide == decide (10 ≤ pair)

/-- A BX4 pass moves the group phase; the group registers are free after a group's last pass (R188, R190). -/
def Engine.phaseStep (g : Engine) (a : PassArgs) : Engine :=
  if a.group = 0 then g
  else
    let done := decide (g.phase = groupPasses a.group - 1)
    { g with phase := if done then 0 else g.phase + 1, groupKey := a.m + 2048 * a.pair + 65536 * a.group
             groupRegs := if done then [] else g.groupRegs }

/-- The pass reads and writes P0: every pass but a BX4 pass that is not the last of its group (R188). -/
def Engine.touches (g : Engine) (a : PassArgs) : Bool := a.group = 0 || g.phase = groupPasses a.group - 1

/-- The outputs of a computed PASS: for each vector, then each unmasked column; a word marked pending-initialise acts as with
acc = 0 (R141, R207). -/
def State.passSums (s : State) (e c : Nat) (t : Tile) (a : PassArgs) : State :=
  let n := passBytes a.pair a.m
  let region := s.load (bankBase (ownBank e 4) + a.w0) n
  let scales := s.load (bankBase (ownBank e 4) + a.w0 + n) (2 * a.m)
  let last := groupPasses a.group - 1
  let base := s.shareAt e c 5 + 4 * a.p0
  let g := s.eng e
  let s := if g.touches a then s.setEng e (g.clearPending base (256 * a.m)) else s
  (List.range a.m).foldl (fun s m =>
    let wt := passWeight a.pair a.m region m
    (List.range t.cols).foldl (fun s x =>
      let at_ := base + 4 * (64 * m + x)
      let fresh := !a.acc || g.pending at_ 4
      if a.group ≠ 0 then
        s.commitGroup e at_ m x last fresh (columnInt a.pair t wt x) (unle ((scales.drop (2 * m)).take 2))
      else if (pairAct a.pair).isFloat then s.commitFloat e at_ fresh (columnFloat a.pair t wt x)
      else s.commitInt e at_ fresh (columnInt a.pair t wt x)) s) s

/-- The counters that a pass's slots move (R165). -/
def State.passCount (s : State) (e : Nat) (t : Tile) (a : PassArgs) : State :=
  let j := passSlots a.pair a.m
  let s := (s.bump (P.anv e 0 + 0x800) j).bump (P.anv e 0 + 0x808) (passMin a.pair - j)
  s.bump (P.anv e 0 + 0x810) ((32 - t.rows) * j)

/-- Bytes of W0 that a pass reads: its weights, and a group's scales behind those of its last pass (R189). -/
def Engine.passSpan (g : Engine) (a : PassArgs) : Nat :=
  passBytes a.pair a.m + (if a.group ≠ 0 ∧ g.phase = groupPasses a.group - 1 then 2 * a.m else 0)

/-- A PASS skipped with its LOAD: with acc = 0 its P0 range is marked, where it is a pass whose acc counts (R188, R207).
[DEDUCED: log entry 112.] -/
def Engine.passSkip (g : Engine) (a : PassArgs) (base : Nat) : Engine :=
  let h := { g with skipNext := false }.phaseStep a
  if a.acc || !g.touches a then h else { h with pendInit := h.pendInit ++ [(base, 256 * a.m)] }

/-- The effect of PASS (R132, R136, R141, R152, R155, R188, R207). A pass that a skipped LOAD skips takes no array cycle. -/
def State.passRun (s : State) (e c : Nat) (w : Cmd) (starved : Bool) : State × Bool :=
  let a := readPass w
  let g := s.eng e
  let base := s.shareAt e c 5 + 4 * a.p0
  if s.passBad e a then (s.engFault e c 0x11, false)
  else if !s.ownServes e 4 || !s.ownServes e 5 then s.bankFault e c
  else if !s.inShare e c 5 base (256 * a.m) then (s.engFault e c 0x18, false)
  else if g.skipNext then (s.setEng e (g.passSkip a base), false)
  else if !g.shadow.fits a.pair || !s.inShare e c 4 a.w0 (g.passSpan a) then (s.engFault e c 0x11, false)
  else
    let s := if starved then (s.bump (P.anv e 0 + 0x818)).engFault e c 0x17 else s
    if !s.engWorks e then (s, false)
    else
      let t := g.shadow
      let s := s.setEng e { s.eng e with active := t, sample := some g.preReq }
      let s := (s.passSums e c t a).passCount e t a
      (s.setEng e ((s.eng e).phaseStep a), true)

end Sys2Proof.Machine
end

