-- ==== Sys2Proof/Machine/Vector.lean ====
section
/-! DEFINITION. The vector unit's stages IN, BIAS, SCALE, ACT, ELT, OUT on one element, VEC and POOL, and the layer count
table (R145 to R147, R183 to R187, R194, R200, R207). -/

namespace Sys2Proof.Machine

/-- [DEDUCED: log entry 105.] -/
def nfmt (i : Fin 9) : NFmt :=
  ([.int8, .uint8, .int16, .int32, .e4m3, .e5m2, .fp16, .bf16, .fp32] : List NFmt).getD i.val .int32

/-- What happened to an element on its way (R194): a stage saturated, OUT saturated, the result was a NaN. -/
structure Marks where
  sat : Bool
  out : Bool
  nan : Bool
  deriving DecidableEq, Repr, Inhabited

/-! ### The table of ACT (R186) -/

/-- Integer path: entries are INT16, u = x - x0. -/
def tableInt (t : Nat → Int) (x0 : Int) (e : Nat) (x : Int) : Int :=
  let u := x - x0
  let i := (max 0 (min 255 (u / (2 ^ e : Nat)))).toNat
  let f := max 0 (min ((2 ^ e : Nat) : Int) (u - (i * 2 ^ e : Nat)))
  t i + rshift ((t (i + 1) - t i) * f) e

/-- Floating-point path: u = (x - x0) × 2^-e, rounded once. -/
def tableFloat (t : Nat → Nat) (x0 : Nat) (e : Int) (x : Nat) : Nat × Bool :=
  let u := match (fFP32.val x).add (fFP32.val x0).neg with
    | .nan => (fFP32.nan, false)
    | .fin n m k => fFP32.ofVal (.fin n m (k - e))
  if fFP32.isNan u.1 then (fFP32.nan, false)
  else
    let i := (max 0 (min 255 (ffloor u.1))).toNat
    let one := (fofInt fFP32 1).1
    let f := fmin (fmax (fsub u.1 (fofInt fFP32 i).1).1 0) one
    let d := fsub (t (i + 1)) (t i)
    let p := fmul d.1 f
    let r := fadd (t i) p.1
    (r.1, u.2 || d.2 || p.2 || r.2)

/-! ### One element -/

/-- A per-channel parameter record (R184). -/
structure Param where
  w0 : Nat
  w1 : Nat
  w2 : Nat
  w3 : Nat

/-- A nonzero bit where the record's layout gives zero. -/
def Param.bad (p : Param) (floating : Bool) : Bool :=
  p.w3 ≠ 0 || (if floating then p.w2 ≠ 0 else bit p.w1 31 || decide (64 ≤ p.w2))

/-- The integer path from BIAS to OUT (R185 to R187, R200): the stored output and what happened. The folded variant uses no
requantisation of ELT's operand. -/
def vecInt (d : VecDesc) (p : Param) (table : Nat → Int) (acc el : Int) : Nat × Marks :=
  let a := if d.biasOn then sat32 (acc + sext 32 p.w0) else (acc, false)
  let r := if d.scaleOn then sat32 (rshift (a.1 * (p.w1 % 2 ^ 31 : Nat)) (p.w2 % 64)) else (a.1, false)
  let y : Int := match d.actKind with
    | 1 => max r.1 0
    | 2 => min (max r.1 (sext 32 d.lo.toNat)) (sext 32 d.hi.toNat)
    | 3 => if 0 ≤ r.1 then r.1 else rshift (r.1 * sext 16 (d.alpha.toNat % 65536)) 15
    | 4 => tableInt table (sext 32 d.x0.toNat) d.exp.toNat r.1
    | _ => r.1
  let e2 := if d.eltScale then sat32 (rshift ((el - sext 16 d.zE.toNat) * (d.qE.toNat : Nat)) d.shE.toNat) else (el, false)
  let z := match d.eltKind with
    | 1 => sat32 (y + e2.1)
    | 2 => sat32 (rshift (y * e2.1) d.shM.toNat)
    | 3 => (max y e2.1, false)
    | 4 => (min y e2.1, false)
    | _ => (y, false)
  let o := (nfmt d.outFmt).ofInt (rshift z.1 d.outSh.toNat + sext 16 d.zY.toNat)
  (o.1, { sat := a.2 || r.2 || z.2 || (d.eltKind ≠ 0 && e2.2), out := o.2, nan := false })

/-- The floating-point path: every stage one FP32 operation, OUT a conversion. -/
def vecFloat (d : VecDesc) (p : Param) (table : Nat → Nat) (acc el : Nat) : Nat × Marks :=
  let a := if d.biasOn then fadd acc p.w0 else (acc, false)
  let r := if d.scaleOn then fmul a.1 p.w1 else (a.1, false)
  let y : Nat × Bool := match d.actKind with
    | 1 => (fmax r.1 0, false)
    | 2 => (fmin (fmax r.1 d.lo.toNat) d.hi.toNat, false)
    | 3 => if (fFP32.val r.1).lt (fFP32.val 0) then fmul r.1 d.alpha.toNat else (r.1, false)
    | 4 => tableFloat table d.x0.toNat (sext 9 d.exp.toNat) r.1
    | _ => (r.1, false)
  let e2 := if d.eltScale then fmul el d.eScale.toNat else (el, false)
  let z : Nat × Bool := match d.eltKind with
    | 1 => fadd y.1 e2.1
    | 2 => fmul y.1 e2.1
    | 3 => (fmax y.1 e2.1, false)
    | 4 => (fmin y.1 e2.1, false)
    | _ => (y.1, false)
  let o := (nfmt d.outFmt).ofFloat z.1
  let nan := fFP32.isNan acc || fFP32.isNan a.1 || fFP32.isNan r.1 || fFP32.isNan y.1 || fFP32.isNan z.1
  (o.1, { sat := a.2 || r.2 || z.2 || (d.eltKind ≠ 0 && e2.2), out := o.2, nan := nan })

/-! ### Pooling (R146) -/

/-- The pooled value of a window in raster order, and whether its sum or quotient saturated. -/
def poolInt (maxOf : Bool) (n : Nat) (xs : List Int) : Int × Bool :=
  match xs with
  | [] => (0, false)
  | x :: r =>
    if maxOf then (r.foldl max x, false)
    else
      let t := sat32 (r.foldl (· + ·) x)
      (roundDiv t.1 n, t.2)

def poolFloat (maxOf : Bool) (n : Nat) (xs : List Nat) : Nat × Bool :=
  match xs with
  | [] => (0, false)
  | x :: r =>
    if maxOf then (r.foldl fmax x, false)
    else
      let t := r.foldl (fun (a : Nat × Bool) b => let q := fadd a.1 b; (q.1, a.2 || q.2)) (x, false)
      let q := fdiv t.1 (fofInt fFP32 n).1
      (q.1, t.2 || q.2)

/-! ### Elements in the banks -/

/-- Where an element of a VEC or POOL lies: its sources (a POOL's window in raster order), its channel, its second operand,
its outputs. -/
structure VecElem where
  from_ : List Nat
  ch : Nat
  elt : Nat
  dest : List Nat
  deriving DecidableEq, Repr, Inhabited

/-- A place by channel, row and column. -/
def placeAt (base chPitch rowPitch colPitch : BitVec 20) (ch y x : Nat) : Nat :=
  base.toNat + ch * chPitch.toNat + y * rowPitch.toNat + x * colPitch.toNat

/-- A place in phase planes: plane py × sx + px holds the pixels with y mod sy = py and x mod sx = px, a dense image
(R205). -/
def phaseAt (base chPitch rowPitch colPitch phasePitch : BitVec 20) (sy sx : Nat) (ch y x : Nat) : Nat :=
  placeAt base chPitch rowPitch colPitch ch (y / sy) (x / sx) + (y % sy * sx + x % sx) * phasePitch.toNat

/-- Element i of a command: channel by channel, each row by row (R146, R205, R223). [DESIGN CHOICE: log entry 106.] -/
def vecElem (d : VecDesc) (pool : Bool) (i : Nat) : VecElem :=
  let tw := max 1 d.tw.toNat
  let n := tw * max 1 d.th.toNat
  let ch := i / n
  let y := i % n / tw
  let x := i % n % tw
  let u := 2 ^ d.up.val
  { from_ := if pool then
        (List.range (d.kh.val + 1)).flatMap (fun ky => (List.range (d.kw.val + 1)).map (fun kx =>
          placeAt d.inBase d.inCh d.inRow d.inCol ch (y * (d.stepY.val + 1) + ky) (x * (d.stepX.val + 1) + kx)))
      else [placeAt d.inBase d.inCh d.inRow d.inCol ch y x]
    ch := d.ch0.toNat + ch
    elt := placeAt d.eltBase d.eltCh d.eltRow d.eltCol ch y x
    dest := (List.range u).flatMap (fun dy => (List.range u).map (fun dx =>
      phaseAt d.outBase d.outCh d.outRow d.outCol d.outPhase (d.phY.val + 1) (d.phX.val + 1) ch
        ((d.oy0.toNat + y) * u + dy) ((d.ox0.toNat + x) * u + dx))) }

/-- The bank a descriptor's place lies in, and the offset of its zero: P0 places count from the context's share. -/
def State.inPlace (s : State) (e c : Nat) (d : VecDesc) : Nat × Nat :=
  if d.inP0 && decide (e < 32) then (5, s.shareAt e c 5) else (d.inBank.val, 0)

/-- The bytes of an n-byte element at a: a 16-bit element in an A bank lies in two byte planes, half a channel pitch apart
(R204). -/
def elemBytes (e k n pitch a : Nat) : List Nat :=
  if e < 32 ∧ k < 4 ∧ n = 2 then [a, a + pitch / 2] else (List.range n).map (a + ·)

def State.readElem (s : State) (e k n pitch a : Nat) : Nat :=
  unle ((elemBytes e k n pitch a).flatMap (fun x => s.load (bankBase (ownBank e k) + x) 1))

def State.elemInShare (s : State) (e c k n pitch a : Nat) : Bool := (elemBytes e k n pitch a).all (fun x => s.inShare e c k x 1)

/-- A source value as stored: a P0 word still marked pending-initialise reads 0 (R207). -/
def State.readIn (s : State) (e c : Nat) (d : VecDesc) (at_ : Nat) : Nat :=
  let q := s.inPlace e c d
  let n := (nfmt d.inFmt).bytes
  if q.1 = 5 && (s.eng e).pending (q.2 + at_) n then 0 else s.readElem e q.1 n d.inCh.toNat (q.2 + at_)

/-- The sum that a source word holds has saturated; a word still marked pending-initialise holds none (R194, R207). -/
def State.hot (s : State) (e c : Nat) (d : VecDesc) (x : VecElem) : Bool :=
  let q := s.inPlace e c d
  (q.1 = 5 || decide (32 ≤ e))
    && x.from_.any (fun a => (s.eng e).satWords.contains (q.2 + a) && !(s.eng e).pending (q.2 + a) 4)

/-- Where the parameter record of an element's channel lies (R183). -/
def recordAt (d : VecDesc) (cls : Nat) (x : VecElem) : Nat := d.recBase.toNat + (cls * d.chans.toNat + x.ch) * 16

def State.record (s : State) (e cls : Nat) (d : VecDesc) (x : VecElem) : Param :=
  let w := fun k => s.bankRead e d.recBank.val (recordAt d cls x + 4 * k) 4
  { w0 := w 0, w1 := w 1, w2 := w 2, w3 := w 3 }

/-- The stored value of an element at OUT, with what happened to it. -/
def State.element (s : State) (e c cls : Nat) (d : VecDesc) (x : VecElem) (pool : Bool) : Nat × Marks :=
  let f := nfmt d.inFmt
  let raw := x.from_.map (s.readIn e c d)
  let p := s.record e cls d x
  let ef := nfmt d.eltFmt
  let er := s.readElem e d.eltBank.val ef.bytes d.eltCh.toNat x.elt
  let hot := s.hot e c d x
  if d.floating then
    let xs := raw.map f.toFloat
    let acc := if pool then poolFloat d.poolMax d.poolN.toNat xs else (xs.headD 0, false)
    let r := vecFloat d p (fun i => s.bankRead e d.tabBank.val (d.tabAt.toNat + 4 * i) 4) acc.1 (ef.toFloat er)
    (r.1, { r.2 with sat := r.2.sat || hot || acc.2 })
  else
    let xs := raw.map f.toInt
    let acc := if pool then poolInt d.poolMax d.poolN.toNat xs else (xs.headD 0, false)
    let r := vecInt d p (fun i => sext 16 (s.bankRead e d.tabBank.val (d.tabAt.toNat + 2 * i) 2)) acc.1 (ef.toInt er)
    (r.1, { r.2 with sat := r.2.sat || hot || acc.2 })

/-! ### What a command meets before it does anything -/

/-- A parameter record is read. -/
def readsRecord (d : VecDesc) : Bool := d.biasOn || d.scaleOn

/-- Operands out of range or inconsistent (R145, R146, R183, R186): the ACT table's exponent outside its range, a divisor of 0,
a floating-point format on the integer path, or a stage that is excluded (R147, R200).
[DEDUCED: log entry 111.] [DESIGN CHOICE: log entry 162.] -/
def State.vecOperands (s : State) (e cls : Nat) (d : VecDesc) (pool : Bool) : Bool :=
  decide (16 ≤ cls) || (pool && d.poolN = 0)
    || (d.actKind = 4 && !(if d.floating then decide (-126 ≤ sext 9 d.exp.toNat) && decide (sext 9 d.exp.toNat ≤ 127)
          else decide (d.exp.toNat ≤ 23)))
    || (!d.floating && ((nfmt d.inFmt).isFloat || (nfmt d.outFmt).isFloat || (d.eltKind ≠ 0 && (nfmt d.eltFmt).isFloat)))
    || (decide (e < 32) && s.rdb (P.anv e 0) Reg.ANV_CFG_rq_excl && (d.scaleOn || (d.eltKind ≠ 0 && d.eltScale)))

/-- The banks that a command names. -/
def State.vecBanks (s : State) (e c : Nat) (d : VecDesc) : List Nat :=
  [(s.inPlace e c d).1, d.outBank.val] ++ (if readsRecord d then [d.recBank.val] else [])
    ++ (if d.eltKind ≠ 0 then [d.eltBank.val] else []) ++ (if d.actKind = 4 then [d.tabBank.val] else [])

/-- The sources lie in the context's share. -/
def State.vecFrom (s : State) (e c : Nat) (d : VecDesc) (xs : List VecElem) : Bool :=
  let q := s.inPlace e c d
  xs.all (fun x => x.from_.all (fun a => s.elemInShare e c q.1 (nfmt d.inFmt).bytes d.inCh.toNat (q.2 + a)))

/-- Every other place of the command lies in the context's share: outputs, second operands, parameter records and the ACT
table (R206, R212, R235). -/
def State.vecPlaces (s : State) (e c cls : Nat) (d : VecDesc) (xs : List VecElem) : Bool :=
  xs.all (fun x => x.dest.all (fun a => s.elemInShare e c d.outBank.val (nfmt d.outFmt).bytes d.outCh.toNat a)
      && (d.eltKind = 0 || s.elemInShare e c d.eltBank.val (nfmt d.eltFmt).bytes d.eltCh.toNat x.elt)
      && (!readsRecord d || s.inShare e c d.recBank.val (recordAt d cls x) 16))
    && (d.actKind ≠ 4 || s.inShare e c d.tabBank.val d.tabAt.toNat (257 * (if d.floating then 4 else 2)))

/-- The cause a VEC or POOL meets before it does anything, none where it runs. [DEDUCED: log entry 111.] -/
def State.vecCause (s : State) (e c cls : Nat) (d : VecDesc) (xs : List VecElem) (pool : Bool) : Option Nat :=
  if s.vecOperands e cls d pool then some 0x11
  else if !(s.vecBanks e c d).all (s.ownServes e) then some 0x12
  else if !s.vecFrom e c d xs then some (if (s.inPlace e c d).1 = 5 ∨ 32 ≤ e then 0x18 else 0x11)
  else if !s.vecPlaces e c cls d xs then some (if 32 ≤ e then 0x18 else 0x11)
  else if readsRecord d && xs.any (fun x => (s.record e cls d x).bad d.floating) then some 0x11
  else none

/-! ### VEC and POOL -/

/-- One element is written, in order; the trace's CRC takes its bytes (R327). -/
def State.writeElem (s : State) (e : Nat) (d : VecDesc) (x : VecElem) (v : Nat) : State :=
  let n := (nfmt d.outFmt).bytes
  let bs := le n v
  let s := x.dest.foldl (fun s a =>
    ((elemBytes e d.outBank.val n d.outCh.toNat a).zip bs).foldl (fun s p => s.bankStore e d.outBank.val p.1 [p.2]) s) s
  s.setEng e { s.eng e with crc := x.dest.foldl (fun c _ => bs.foldl crcByte c) (s.eng e).crc }

/-- A count of the job's layer count table (R194). [DEDUCED: log entry 112.] -/
def State.addCount (s : State) (j : Nat) (i : Option (BitVec 8)) (n : Nat) : State :=
  match i, s.job j with
  | some i, some x =>
    s.setJob j { x with counts := SMap.set x.counts i.toNat (min 0xffffffff (SMap.get x.counts i.toNat (0 : Nat) + n)) 0 }
  | _, _ => s

/-- The elements are computed and written in order; the elements that met a saturation or a NaN, and those saturated at
OUT, are counted. -/
def State.vecWrite (s : State) (e c cls : Nat) (d : VecDesc) (pool : Bool) (xs : List VecElem) : State × Nat × Nat :=
  xs.foldl (fun r x =>
    let v := r.1.element e c cls d x pool
    (r.1.writeElem e d x v.1, r.2.1 + b2n (v.2.sat || v.2.out || v.2.nan), r.2.2 + b2n v.2.out)) (s, 0, 0)

/-- The effect of VEC and POOL. -/
def State.vecRun (s : State) (e c j : Nat) (w : Cmd) (pool : Bool) : State × Bool :=
  let d := Config.vecDesc (s.descBytes e c w.w1.toNat)
  let xs := (List.range w.w2.toNat).map (vecElem d pool)
  let cls := w.w3.toNat
  match s.vecCause e c cls d xs pool with
  | some f => if f = 0x12 then s.bankFault e c else (s.engFault e c f, false)
  | none =>
    let r := s.vecWrite e c cls d pool xs
    let s := r.1
    let q := s.inPlace e c d
    let n := (nfmt d.inFmt).bytes
    let s := if q.1 = 5 then
        xs.foldl (fun s x => x.from_.foldl (fun s a => s.setEng e ((s.eng e).clearPending (q.2 + a) n)) s) s
      else s
    let s := s.addCount j d.count r.2.1
    let s := if e < 32 then (s.bump (P.anv e 0 + 0x838) xs.length).bump (P.anv e 0 + 0x840) r.2.2
      else s.bump (P.tng (e - 32) 0 + 0x848) r.2.2
    (s, true)

end Sys2Proof.Machine
end

