-- ==== Sys2Proof/Machine/Tongs.lean ====
section
/-! DEFINITION. The Tongs engines' own commands: CROP, EXPAND, TPASS, SOFTMAX and VERDICT (R210 to R215, R218 to R222,
R298 to R300, R315, R593). -/

namespace Sys2Proof.Machine

/-! ### CROP (R218 to R220, R593) -/

/-- What a crop reads: clamped columns and lines, channels, whether its first line is held, where the part of a line that it
reads begins and how long it is, whether a line passes its check, and a pixel. -/
structure CropSrc where
  c0 : Nat
  c1 : Nat
  l0 : Nat
  l1 : Nat
  chans : Nat
  depth : Nat
  held : Bool
  lineAt : Nat → Nat
  lineLen : Nat
  good : State → Nat → Bool
  pixel : Nat → Nat → Nat → Nat

/-- The source of a box-list job, or of a copy of one. -/
def State.ringSrc (s : State) (d : CropDesc) (x : Job) (b : Box) : CropSrc :=
  let k := b.camera.val
  let m := d.margin.toNat
  let l0 := b.first.toNat - m
  let c0 := b.col0.toNat - m
  let c1 := min (s.camWidth k - 1) (b.col1.toNat + m)
  { c0 := c0, c1 := c1, l0 := l0, l1 := min x.lastLine (b.last.toNat + m), chans := fmtChans (s.camFmt k)
    depth := if s.outBits k = 8 then 8 else fmtDepth (s.camFmt k), held := s.lineHeld k l0
    lineAt := fun n => s.slotAddr k (s.blockStart k n) + n % s.camH k * s.linePitch k + c0 * s.outBytes k
    lineLen := (c1 + 1 - c0) * s.outBytes k
    good := fun s n => s.lineGood k n
    pixel := s.ringPixel k }

/-- The source of a kind-1 host job. [DEDUCED: log entry 56.] -/
def State.imageSrc (s : State) (d : CropDesc) (h : HostJob) : CropSrc :=
  let m := d.margin.toNat
  let w := if d.inWide then 2 else 1
  let ch := max 1 d.inChans.toNat
  let pitch := align64 (h.width * ch * w)
  let c0 := h.c0 - m
  let c1 := min (h.width - 1) (h.c1 + m)
  { c0 := c0, c1 := c1, l0 := h.l0 - m, l1 := min (h.height - 1) (h.l1 + m), chans := ch
    depth := d.inDepth.toNat, held := true
    lineAt := fun n => h.input + n * pitch + c0 * ch * w
    lineLen := (c1 + 1 - c0) * ch * w
    good := fun _ _ => true
    pixel := fun n i c => unle (s.load (h.input + n * pitch + (i * ch + c) * w) w) }

/-- The lines from n on are read, n of them left, each with its check after its data (R220, R246, R251, R593): the state
after it, the first line that was not good, and whether it failed its check and not a read. -/
def State.cropFetch (s : State) (c : Nat) (q : CropSrc) : Nat → Nat → State × Option (Nat × Bool)
  | 0, _ => (s, none)
  | k + 1, n =>
    let r := s.fetch (bwCtx c) (q.lineAt n) q.lineLen
    if r.2 then (r.1, some (n, false))
    else if !q.good r.1 n then (r.1, some (n, true))
    else State.cropFetch r.1 c q k (n + 1)

/-- One output sample (R219); none where it needs a line from line `bad` on. -/
def CropSrc.sample (q : CropSrc) (d : CropDesc) (bad : Option Nat) (x y c : Nat) : Option Nat :=
  let bw := q.c1 - q.c0 + 1
  let bh := q.l1 - q.l0 + 1
  let sx := roundDiv (bw * 65536 : Nat) (max 1 d.wo.toNat)
  let sy := roundDiv (bh * 65536 : Nat) (max 1 d.ho.toNat)
  let clamp := fun (lo hi : Nat) (v : Int) => (max ((lo * 65536 : Nat) : Int) (min ((hi * 65536 : Nat) : Int) v)).toNat
  let u := clamp q.c0 q.c1 ((q.c0 * 65536 : Nat) + rshift ((2 * x + 1 : Nat) * sx - 65536) 1)
  let v := clamp q.l0 q.l1 ((q.l0 * 65536 : Nat) + rshift ((2 * y + 1 : Nat) * sy - 65536) 1)
  let i := u / 65536
  let j := v / 65536
  let ok := fun n => bad.all (fun b => decide (n < b))
  if !d.bilinear then (if ok j then some (q.pixel j i c) else none)
  else
    let fx := u % 65536 / 256
    let fy := v % 65536 / 256
    let i1 := min (i + 1) q.c1
    let j1 := min (j + 1) q.l1
    if ok j1 then
      some (rshiftN (q.pixel j i c * (256 - fx) * (256 - fy) + q.pixel j i1 c * fx * (256 - fy)
        + q.pixel j1 i c * (256 - fx) * fy + q.pixel j1 i1 c * fx * fy) 16)
    else none

/-- A sample in the output format. -/
def cropOut (d : CropDesc) (depth v : Nat) : List Byte :=
  if d.out16 then le 2 v else le 1 (min 255 (rshiftN v (depth - 8)))

/-- Where the sample at column x, row y of channel c goes: HWC, or the phase planes of R205 (R218).
[DESIGN CHOICE: log entry 106.] -/
def cropPlace (d : CropDesc) (x y c : Nat) : Nat :=
  phaseAt d.outBase d.outCh d.outRow d.outCol d.outPhase (d.phY.val + 1) (d.phX.val + 1) c y x

/-- Samples are written in order until one cannot be read; how many were. -/
def State.cropWrite (s : State) (e : Nat) (d : CropDesc) (q : CropSrc) (bad : Option Nat) : List (Nat × Nat × Nat) → Nat → State × Nat
  | [], n => (s, n)
  | (x, y, c) :: r, n =>
    match q.sample d bad x y c with
    | none => (s, n)
    | some v => State.cropWrite (s.bankStore e 0 (cropPlace d x y c) (cropOut d q.depth v)) e d q bad r (n + 1)

/-- A crop over its source: nothing is read where the first line is no longer held. A crop that fails ends the job as no
verdict and is counted, with the ring read that failed its check (R220, R251, R272). -/
def State.cropDo (s : State) (t c j : Nat) (x : Job) (d : CropDesc) (q : CropSrc) (pts : List (Nat × Nat × Nat)) : State × Bool :=
  let f := if q.held then s.cropFetch c q (q.l1 + 1 - q.l0) q.l0 else (s, some (q.l0, true))
  let r := f.1.cropWrite (32 + t) d q (f.2.map Prod.fst) (if q.held then pts else []) 0
  let s := r.1.bump (P.tng t 0 + 0x818) r.2
  match f.2 with
  | none => (s, true)
  | some b =>
    let s := match b.2, x.box with
      | true, some bx => s.bump (P.replay + 0x808 + 0x10 * bx.camera.val)
      | _, _ => s
    ((s.bump (P.tng t 0 + 0x820)).jobEnd j 1, false)

/-- The effect of CROP: the job's box is the one entry of its box list. [DEDUCED: log entry 110.] -/
def State.cropRun (s : State) (t c j : Nat) (x : Job) (w : Cmd) : State × Bool :=
  let e := 32 + t
  let d := Config.cropDesc (s.descBytes e c w.w2.toNat)
  let src := match x.box, x.desc with
    | some bx, _ => some (s.ringSrc d x bx)
    | none, some h => if h.kind = 1 then some (s.imageSrc d h) else none
    | none, none => none
  match src with
  | none => (s.engFault e c 0x11, false)
  | some q =>
    let wo := d.wo.toNat
    let ho := d.ho.toNat
    let pts := (List.range ho).flatMap (fun y => (List.range wo).flatMap (fun x => (List.range q.chans).map (fun c => (x, y, c))))
    if w.w1 ≠ 0 ∨ wo = 0 ∨ 1024 < wo ∨ ho = 0 ∨ 1024 < ho then (s.engFault e c 0x11, false)
    else if !s.ownServes e 0 then s.bankFault e c
    else if pts.any (fun p => !s.inShare e c 0 (cropPlace d p.1 p.2.1 p.2.2) (if d.out16 then 2 else 1)) then
      (s.engFault e c 0x18, false)
    else s.cropDo t c j x d q pts

/-! ### EXPAND (R213) -/

/-- An expansion descriptor. -/
structure ExpDesc where
  base : Nat
  rowPitch : Nat
  bytes : Nat
  cin : Nat
  ringBase : Nat
  ringLen : Nat
  sy : Nat
  sx : Nat
  kh : Nat
  kw : Nat
  padTop : Nat
  padLeft : Nat
  dy : Nat
  dx : Nat
  wOut : Nat
  hIn : Nat
  wIn : Nat
  zx : Nat
  bad : Bool

def readExp (b : List Byte) : ExpDesc :=
  let w := word b
  { base := bits (w 0) 0 19, rowPitch := bits (w 1) 0 19, bytes := if bit (w 1) 19 then 2 else 1, cin := bits (w 1) 20 4 + 1
    ringBase := bits (w 2) 0 19, ringLen := bits (w 3) 0 11, sy := bits (w 3) 12 3 + 1, sx := bits (w 3) 16 3 + 1
    kh := bits (w 3) 20 4 + 1, kw := bits (w 3) 24 4 + 1, padTop := bits (w 4) 0 5, padLeft := bits (w 4) 8 5
    dy := bits (w 4) 16 4 + 1, dx := bits (w 4) 20 4 + 1, wOut := bits (w 5) 0 16, hIn := bits (w 6) 0 16, wIn := bits (w 6) 16 16
    zx := bits (w 7) 16 16
    bad := bits (w 0) 19 13 ≠ 0 || bits (w 1) 24 8 ≠ 0 || bits (w 2) 19 13 ≠ 0 || bit (w 3) 11 || bit (w 3) 15 || bit (w 3) 19
      || bits (w 3) 28 4 ≠ 0 || bits (w 4) 5 3 ≠ 0 || bits (w 4) 13 3 ≠ 0 || bits (w 4) 24 8 ≠ 0 || bits (w 5) 16 16 ≠ 0
      || bits (w 7) 0 16 ≠ 0 }

/-- Elements of a vector, padded to whole k-tiles. -/
def ExpDesc.k (d : ExpDesc) : Nat := d.kh * d.kw * d.cin
def ExpDesc.kPad (d : ExpDesc) : Nat := 32 * ((d.k + 31) / 32)

def ExpDesc.ok (d : ExpDesc) : Bool :=
  !d.bad && decide (d.ringBase % 64 = 0) && decide (1 ≤ d.ringLen) && decide (d.kh ≤ 11) && decide (d.kw ≤ 11) && decide (1 ≤ d.wOut)
    && decide (1 ≤ d.hIn) && decide (1 ≤ d.wIn)

/-- X0 offset of element i of pixel p's vector; none in padding. -/
def ExpDesc.addr (d : ExpDesc) (p i : Nat) : Option Nat :=
  let ci := i % d.cin
  let kx := i / d.cin % d.kw
  let ky := i / d.cin / d.kw
  let iy : Int := (p / d.wOut * d.sy + ky * d.dy : Nat) - (d.padTop : Nat)
  let ix : Int := (p % d.wOut * d.sx + kx * d.dx : Nat) - (d.padLeft : Nat)
  if 0 ≤ iy ∧ iy < d.hIn ∧ 0 ≤ ix ∧ ix < d.wIn then
    some (d.base + iy.toNat * d.rowPitch + (ix.toNat * d.cin + ci) * d.bytes)
  else none

/-- The vector of pixel p. -/
def State.expVector (s : State) (e : Nat) (d : ExpDesc) (p : Nat) : List Byte :=
  (List.range d.kPad).flatMap (fun i =>
    if i < d.k then
      le d.bytes (match d.addr p i with
        | some a => s.bankRead e 0 a d.bytes
        | none => d.zx)
    else le d.bytes 0)

def ExpDesc.dest (d : ExpDesc) (p : Nat) : Nat := d.ringBase + p % d.ringLen * (d.kPad * d.bytes)

/-- The effect of EXPAND. -/
def State.expandRun (s : State) (t c : Nat) (w : Cmd) : State × Bool :=
  let e := 32 + t
  let d := readExp (s.descBytes e c w.w1.toNat)
  let ps := (List.range w.w3.toNat).map (· + w.w2.toNat)
  if !d.ok then (s.engFault e c 0x11, false)
  else if !s.ownServes e 0 then s.bankFault e c
  else if ps.any (fun p => !s.inShare e c 0 (d.dest p) (d.kPad * d.bytes) || (List.range d.k).any (fun i => match d.addr p i with
      | some a => !s.inShare e c 0 a d.bytes
      | none => false)) then (s.engFault e c 0x18, false)
  else
    let s := ps.foldl (fun s p => s.bankStore e 0 (d.dest p) (s.expVector e d p)) s
    let s := s.bump (P.tng t 0 + 0x810) ps.length
    (s.setEng e { s.eng e with ring := [d.ringBase, d.ringLen, d.kPad * d.bytes, w.w2.toNat, w.w3.toNat] }, true)

/-! ### TPASS (R211, R212, R215) -/

/-- The pair of R152 that a TPASS's pair field names. -/
def tpassPair (p : Nat) : Nat := match p with | 2 => 10 | 3 => 11 | p => p

/-- The effect of TPASS: its weights go through the shadow registers into the active ones. [DEDUCED: log entry 111.] -/
def State.tpassRun (s : State) (t c : Nat) (w : Cmd) : State × Bool :=
  let e := 32 + t
  let n := bits w.w2.toNat 0 11
  let fresh := !bit w.w2.toNat 16
  let pf := bits w.w2.toNat 17 3
  let p := tpassPair pf
  let b := if 2 ≤ pf then 2 else 1
  let at_ := Config.tpassAt ((s.eng e).ring ++ [w.w1.toNat, w.w2.toNat, w.w3.toNat])
  if n = 0 ∨ 1024 < n ∨ 3 < pf then (s.engFault e c 0x11, false)
  else if !s.ownServes e 0 then s.bankFault e c
  else if !s.inShare e c 0 w.w1.toNat (1024 * b) || !s.inShare e c 0 w.w3.toNat (128 * n)
      || (List.range n).any (fun i => !s.inShare e c 0 (at_ i) (32 * b)) then (s.engFault e c 0x18, false)
  else
    let ws := s.load (bankBase (ownBank e 0) + w.w1.toNat) (1024 * b)
    let wt := fun k r => ((unle ((ws.drop (b * (Config.tpassIndex r k % 1024))).take b) : Nat) : Int)
    let s := (List.range n).foldl (fun s i =>
      let v : Tile := { loaded := true, rows := 32, cols := 1, wide := decide (b = 2)
                        vals := (List.range 32).map (fun r => s.bankRead e 0 (at_ i + b * r) b) }
      (List.range 32).foldl (fun s k =>
        let a := w.w3.toNat + 4 * (32 * i + k)
        if 2 ≤ pf then s.commitFloat e a fresh (columnFloat p v (wt k) 0) else s.commitInt e a fresh (columnInt p v (wt k) 0)) s) s
    let s := s.bump (P.tng t 0 + 0x800) n
    let tile : Tile := { loaded := true, rows := 32, cols := 32, wide := decide (b = 2)
                         vals := (List.range 32).flatMap (fun r => (List.range 32).map (fun k => (wt k r).toNat)) }
    (s.setEng e { s.eng e with active := tile, shadow := tile, sample := some (s.eng e).preReq }, true)

/-! ### Heads (R221) -/

/-- Logit i as stored. -/
def State.logit (s : State) (e : Nat) (d : HeadDesc) (i : Nat) : Nat := s.bankRead e 0 (d.logitsAt.toNat + 4 * i) 4

/-- The lowest index that holds the largest logit; FP32 logits are no NaN. -/
def maxIndex (lt : Nat → Nat → Bool) (ls : List Nat) : Nat :=
  ((ls.zipIdx).foldl (fun (b : Nat × Nat) p => if lt b.1 p.1 then p else b) (ls.headD 0, 0)).2

/-- e[i] of every class, and cls; none where a logit is NaN. -/
def State.headExp (s : State) (e : Nat) (d : HeadDesc) : Option (List Nat × Nat) :=
  let ls := (List.range d.classes.toNat).map (s.logit e d)
  if d.floating && ls.any (fun l => fFP32.isNan l) then none
  else
    let lt := fun a b => if d.floating then (fFP32.val a).lt (fFP32.val b) else decide (sext 32 a < sext 32 b)
    let cls := maxIndex lt ls
    let top := ls.getD cls 0
    let diff := fun l => if d.floating then (fsub l top).1 else (fofInt fFP32 (sext 32 l - sext 32 top)).1
    let tab := fun i => s.bankRead e 0 (d.tableAt.toNat + 4 * i) 4
    some (ls.map (fun l => (tableFloat tab d.x0.toNat (sext 9 d.exp.toNat) (diff l)).1), cls)

/-- The sum in ascending order, one rounding an addition. [DEDUCED: log entry 105.] -/
def sumFloat : List Nat → Nat
  | [] => 0
  | x :: r => r.foldl (fun a b => (fadd a b).1) x

/-- The cause a head command meets, none where it runs; the table's exponent has the range of R186.
[DEDUCED: log entry 111.] -/
def State.headCause (s : State) (e c : Nat) (d : HeadDesc) (probs : Bool) : Option Nat :=
  let n := d.classes.toNat
  if n = 0 ∨ 256 < n ∨ sext 9 d.exp.toNat < -126 ∨ 127 < sext 9 d.exp.toNat then some 0x11
  else if !s.ownServes e 0 then some 0x12
  else if !s.inShare e c 0 d.logitsAt.toNat (4 * n) || !s.inShare e c 0 d.tableAt.toNat 1028
      || (probs && !s.inShare e c 0 d.probsAt.toNat (4 * n)) then some 0x18
  else none

/-- A head command meets a cause. -/
def State.headFault (s : State) (e c f : Nat) : State × Bool := if f = 0x12 then s.bankFault e c else (s.engFault e c f, false)

/-- The effect of SOFTMAX: each class's share of the sum is written; a NaN logit makes every one a NaN. -/
def State.softmaxRun (s : State) (t c : Nat) (w : Cmd) : State × Bool :=
  let e := 32 + t
  let d := Config.headDesc (s.descBytes e c w.w1.toNat)
  match s.headCause e c d true with
  | some f => s.headFault e c f
  | none =>
    let ps := match s.headExp e d with
      | none => List.replicate d.classes.toNat fFP32.nan
      | some (es, _) => es.map (fun x => (fdiv x (sumFloat es)).1)
    (s.bankStore e 0 d.probsAt.toNat (ps.flatMap (le 4)), true)

/-- Class, confidence and decision of R221 from what the head computed; no verdict where p is NaN. -/
def headVerdict (d : HeadDesc) (r : Option (List Nat × Nat)) : Verdict :=
  match r with
  | none => { (default : Verdict) with noVerdict := true }
  | some (es, cls) =>
    let p := (fdiv (es.getD cls 0) (sumFloat es)).1
    if fFP32.isNan p then { (default : Verdict) with noVerdict := true }
    else
      let conf := fscaleNat p 65535 65535
      { noVerdict := false, cls := cls, conf := conf, digest := []
        reject := if conf < d.confMin.toNat then d.lowReject else d.mask.getLsbD cls }

/-- The result digest (R315). -/
def State.resultDigest (s : State) (e : Nat) (d : HeadDesc) (x : Job) (v : Verdict) : List Byte :=
  let n := d.classes.toNat
  (sha512 (padTo 64 (s.ctx x.ctx).hash ++ padTo 16 x.identity ++ le 1 (b2n x.folded) ++ le 1 v.cls ++ le 2 v.conf
    ++ le 1 (b2n v.reject) ++ le 2 n ++ s.load (bankBase (ownBank e 0) + d.logitsAt.toNat) (4 * n))).take 16

/-- The effect of a final VERDICT; the engine goes on to the STEP_END of its step. [DEDUCED: log entry 114.] -/
def State.verdictRun (s : State) (t c j : Nat) (x : Job) (w : Cmd) : State × Bool :=
  let e := 32 + t
  let d := Config.headDesc (s.descBytes e c w.w1.toNat)
  if w.w2 ≠ 0 then (s.engFault e c 0x11, false)
  else match s.headCause e c d false with
    | some f => s.headFault e c f
    | none =>
      let v := headVerdict d (s.headExp e d)
      let v := if v.noVerdict then v else { v with digest := s.resultDigest e d x v }
      ((s.bump (P.tng t 0 + 0x838)).handVerdict e j v, true)

/-! ### Early exit (R222, R298 to R300) -/

/-- A Tongs engine may run a command that belongs to no job: a probe's or a detection program's.
[DEDUCED: log entry 115.] -/
def State.mayProbe (s : State) (e c : Nat) (w : Cmd) : Bool :=
  s.engWorks e && s.ctxRuns c && bit (s.rd (P.eng e) Reg.ANV_CFG_ctx_en) c && (s.eng e).cur.all (fun d => d = c)
    && (!(cmdWaits w) || decide (1 ≤ s.tokens e c (cmdWaitTok w)))

/-- The descriptor of such a command is fetched from the context's program on the engine; its bytes stand in memory after it
(R149, R246). -/
def State.probeFetch (s : State) (e c : Nat) (w : Cmd) : State :=
  s.progFetch e c [(s.rd2 (seqPage e) Reg.ANV_CTX_PROG_lo Reg.ANV_CTX_PROG_hi c + w.w1.toNat, 64)]

def State.probeBytes (s : State) (e c : Nat) (w : Cmd) : List Byte :=
  s.load (s.rd2 (seqPage e) Reg.ANV_CTX_PROG_lo Reg.ANV_CTX_PROG_hi c + w.w1.toNat) 64

/-- The token that such a command waits on is taken. -/
def State.probeToken (s : State) (e c : Nat) (w : Cmd) : State :=
  let s := s.setEng e { s.eng e with gated := false }
  if cmdWaits w then s.setTokens e c (cmdWaitTok w) (s.tokens e c (cmdWaitTok w) - 1) else s

/-- Undecided RTU entries of the object for context c. -/
def State.objEntries (s : State) (c k obj : Nat) : List Nat :=
  SMap.keys (s.rtu.entries.filter (fun p => p.2.ctx = c && p.2.camera = k && p.2.object = obj && p.2.decision.isNone && p.2.state = 1))

/-- A provisional result moves into entries that are written already: a reject is staged (R299, R300). -/
def State.tentEntries (s : State) (es : List Nat) (v : Verdict) : State :=
  es.foldl (fun s n =>
    match SMap.find? s.rtu.entries n with
    | none => s
    | some x =>
      { s with rtu := { s.rtu with
        entries := SMap.insert s.rtu.entries n { x with tentValid := true, tentDec := v.reject, staged := v.reject }
        tentGens := SMap.set s.rtu.tentGens n ((SMap.get s.rtu.tentGens n (0 : Nat) + 1) % 65536) 0 } }) s

/-- A provisional result reaches the scheduler. [DEDUCED: log entry 115.] -/
def State.provisional (s : State) (c k obj : Nat) (v : Verdict) : State :=
  let s := s.bump (P.schC c + 0x870)
  let s := s.setCtx c { s.ctx c with probes := (s.ctx c).probes.filter (fun p => p ≠ (obj, k)) }
  let es := s.objEntries c k obj
  let all := s.rtu.entries.filter (fun p => p.2.ctx = c && p.2.camera = k && p.2.object = obj)
  let landed := all.any (fun p => p.2.decision.isSome || p.2.nv)
  let open_ := (s.det k).openBoxes.any (fun b => b.1 = c && b.2.object.toNat = obj) || (s.det k).eyeOpen.any (fun e => e.1 = obj)
    || (s.det k).eyeDone.any (fun e => e.1 = obj)
    || (s.det k).issued.any (fun x => x.dest.contains c && decide (x.box.object.toNat = obj) && !x.box.noVerdict)
  if v.noVerdict || landed then s.bump (P.schC c + 0x890)
  else if !es.isEmpty then (s.tentEntries es v).bump (P.schC c + 0x878)
  else if !open_ then s.bump (P.schC c + 0x890)
  else match (List.range 1024).find? (fun i => !(SMap.find? s.sched.tents i).any Tent.valid) with
    | none => s.bump (P.schC c + 0x890)
    | some i =>
      let g := match SMap.find? s.sched.tents i with
        | some t => t.gen
        | none => 0
      s.setTent i { valid := true, object := obj, camera := k, ctx := c, reject := v.reject, cls := v.cls, conf := v.conf
                    gen := (g + 1) % 65536 }

/-- The effect of VERDICT with w2 = 1 in a probe that is in flight. [DEDUCED: log entry 115.] -/
def State.earlyExit (s : State) (t c obj k : Nat) (w : Cmd) : State :=
  let e := 32 + t
  if !s.mayProbe e c w || !(s.ctx c).probes.contains (obj, k) then s
  else
    let s := (s.probeToken e c w).probeFetch e c w
    let d := Config.headDesc (s.probeBytes e c w)
    if !s.engWorks e then s
    else match s.headCause e c d false with
    | some f => (s.headFault e c f).1
    | none =>
      let v := headVerdict d (s.headExp e d)
      let s := (s.bump (P.tng t 0 + 0x840)).provisional c k obj v
      s.setEng e { s.eng e with inflight := (s.eng e).inflight ++ [(c, w)] }

def execVerdictEarlyExit (t : Fin 4) (c : Fin 8) (object : BitVec 32) (camera : Fin 8) (w : Cmd) (s : State) :
    Host.Outcome State Fault Refusal :=
  if cmdOp w = 0x24 ∧ w.w2 = 1 then fin (s.earlyExit t c object.toNat camera w) else .refused .illFormed

end Sys2Proof.Machine
end

