-- ==== Sys2Proof/Machine/Boxes.lean ====
section
/-! DEFINITION. BOXES: connected components of a block's score map become boxes (R216, R217, R278, R296). -/

namespace Sys2Proof.Machine

/-- Labelling of one block: the camera's open boxes with the context that opened each, oldest first; the labels of the row
above and of this row by column; the next object ID; the row whose cell would open box 1,025. -/
structure Lab where
  boxes : List (Nat × Box)
  prev : SMap Nat
  cur : SMap Nat
  next : Nat
  stop : Option Nat

/-- The smallest box that holds both. -/
def boxJoin (a b : Box) : Box :=
  { a with first := if b.first.toNat < a.first.toNat then b.first else a.first
           last := if a.last.toNat < b.last.toNat then b.last else a.last
           col0 := if b.col0.toNat < a.col0.toNat then b.col0 else a.col0
           col1 := if a.col1.toNat < b.col1.toNat then b.col1 else a.col1 }

/-- One foreground cell at column x with rectangle r: it opens a box, or joins its neighbours' boxes into the one that was
opened first. -/
def Lab.cell (l : Lab) (c row x : Nat) (r : Box) : Lab :=
  let near := ((if 0 < x then [SMap.find? l.prev (x - 1), SMap.find? l.cur (x - 1)] else [])
    ++ [SMap.find? l.prev x, SMap.find? l.prev (x + 1)]).filterMap id
  let mine := fun (p : Nat × Box) => p.1 = c && near.contains p.2.object.toNat
  match l.boxes.find? mine with
  | none =>
    if 1024 ≤ l.boxes.length then { l with stop := some row }
    else { l with boxes := l.boxes ++ [(c, { r with object := BitVec.ofNat 32 l.next })], next := (l.next + 1) % 2 ^ 32
                  cur := SMap.insert l.cur x l.next }
  | some p =>
    let o := p.2.object.toNat
    let sum := (l.boxes.filter mine).foldl (fun a q => boxJoin a q.2) (boxJoin p.2 r)
    let name := fun (m : SMap Nat) => m.map (fun q => if near.contains q.2 then (q.1, o) else q)
    { l with boxes := (l.boxes.filter (fun q => !mine q || decide (q.2.object.toNat = o))).map (fun q => if mine q then (c, sum) else q)
             prev := name l.prev, cur := SMap.insert (name l.cur) x o }

/-- One row of cells; nothing more happens once a cell has found no place. -/
def Lab.row (l : Lab) (c row cols : Nat) (fg : Nat → Bool) (rect : Nat → Box) : Lab :=
  if l.stop.isSome then l
  else (List.range cols).foldl (fun l x => if l.stop.isNone && fg x then l.cell c row x (rect x) else l)
    { l with prev := l.cur, cur := [] }

/-- The shorter side against the ratio h : w is widened about its centre, within columns 0 to w - 1 and lines 0 to the
last of the block. [DEDUCED: log entry 116.] -/
def boxAspect (ratio : Option (BitVec 16 × BitVec 16)) (width last : Nat) (b : Box) : Box :=
  match ratio with
  | none => b
  | some (rh, rw) =>
    let h := b.last.toNat - b.first.toNat + 1
    let w := b.col1.toNat - b.col0.toNat + 1
    let rh := rh.toNat
    let rw := rw.toNat
    if rh = 0 ∨ rw = 0 then b
    else if h * rw < w * rh then
      let n := (w * rh + rw - 1) / rw - h
      { b with first := BitVec.ofNat 64 (b.first.toNat - n / 2), last := BitVec.ofNat 64 (min last (b.last.toNat + (n - n / 2))) }
    else
      let n := (h * rw + rh - 1) / rh - w
      { b with col0 := BitVec.ofNat 16 (b.col0.toNat - n / 2), col1 := BitVec.ofNat 16 (min (width - 1) (b.col1.toNat + (n - n / 2))) }

/-- The whole-width box of the remainder of a block from line f on, with the open boxes that the row touches closed into
it (R217). [DEDUCED: log entry 71.] [DEDUCED: log entry 116.] -/
def Lab.overflow (l : Lab) (k width f last : Nat) : Lab × Box :=
  let touch := fun (p : Nat × Box) => decide (f ≤ p.2.last.toNat + 1)
  let first := ((l.boxes.filter touch).map (fun p => p.2.first.toNat)).foldl min f
  ({ l with boxes := l.boxes.filter (fun p => !touch p), cur := [], next := (l.next + 1) % 2 ^ 32 },
    mkBox k first last 0 (width - 1) l.next true)

/-- The effect of BOXES on a completed block of camera k. [DEDUCED: log entry 116.] -/
def State.boxesRun (s : State) (t c k : Nat) (d : BoxDesc) (b : DoneBlk) : State :=
  let e := 32 + t
  let w := s.camWidth k
  let gy := d.gy.toNat
  let gx := d.gx.toNat
  let cols := (w + gx - 1) / gx
  let rows := (b.lines + gy - 1) / gy
  let last := b.first + b.lines - 1
  let det := s.det k
  let start : Lab := { boxes := det.openBoxes, prev := [], next := det.nextObj, stop := none
                       cur := (det.lastRow.filter (fun p => p.1 = c)).foldl (fun m p => SMap.insert m p.2.1 p.2.2) [] }
  let l := (List.range rows).foldl (fun l r =>
    l.row c r cols (fun x => decide (d.threshold.toNat ≤ s.bankRead e 0 (d.mapAt.toNat + r * cols + x) 1))
      (fun x => mkBox k (b.first + r * gy) (min last (b.first + (r + 1) * gy - 1)) (x * gx) (min (w - 1) ((x + 1) * gx - 1)) 0 false)) start
  let o := match l.stop with
    | some r => let y := l.overflow k w (b.first + r * gy) last; (y.1, [y.2])
    | none => (l, [])
  let l := o.1
  let live := l.cur.map Prod.snd
  let stays := fun (p : Nat × Box) => decide (p.1 ≠ c) || live.contains p.2.object.toNat
  let closed := (l.boxes.filter (fun p => !stays p)).map (fun p =>
    let x := boxAspect d.aspect w last p.2
    { x with noVerdict := s.touchesDropped k x.first.toNat x.last.toNat })
  let s := if o.2.isEmpty then s else s.bump (P.tng t 0 + 0x830)
  let others := if o.2.isEmpty then det.lastRow.filter (fun p => p.1 ≠ c) else []
  let s := s.setDet k { s.det k with openBoxes := l.boxes.filter stays, nextObj := l.next
                                     lastRow := others ++ l.cur.map (fun p => (c, p.1, p.2)) }
  let s := s.bump (P.tng t 0 + 0x828) (closed.length + o.2.length)
  let list := (closed ++ o.2).foldl (fun m x => boxInsert x m) []
  list.foldl (fun s x =>
    if x.noVerdict && o.2.contains x then s.issueBox k x last
    else s.issueTo k x last ((List.range 8).filter (fun i => i = c && s.receives i k x.first.toNat))) s

/-- BOXES of context c on Tongs engine t. [DEDUCED: log entry 116.] -/
def State.boxes (s : State) (t c : Nat) (w : Cmd) : State :=
  let e := 32 + t
  if !s.mayProbe e c w then s
  else
    let s0 := s
    let s := s.probeFetch e c w
    let d := Config.boxDesc (s.probeBytes e c w)
    let k := d.camera.val
    let s := s.blocksTrim k (s.pipe k).done
    match ((s.pipe k).done.takeWhile (fun b => !b.mark)).find? (fun b => !b.took.contains c && s.detects c k b.first) with
    | none => s0
    | some b =>
      let s := s.probeToken e c w
      if !s.engWorks e then s
      else
      let gy := d.gy.toNat
      let gx := d.gx.toNat
      let cols := (s.camWidth k + gx - 1) / gx
      let own := (List.range 4).find? (fun u => bit (s.rd (P.tng u 0) Reg.TNG_CFG_cams) k)
      if gy = 0 ∨ 64 < gy ∨ gx = 0 ∨ 64 < gx ∨ own ≠ some t then s.engFault e c 0x11
      else if !s.ownServes e 0 then (s.bankFault e c).1
      else if !s.inShare e c 0 d.mapAt.toNat ((b.lines + gy - 1) / gy * cols) then s.engFault e c 0x18
      else
        let s := s.boxesRun t c k d b
        let s := s.setPipe k { s.pipe k with done := (s.pipe k).done.map (fun x => if x = b then { x with took := c :: x.took } else x) }
        let s := s.blocksTrim k (s.pipe k).done
        let s := (List.range 8).foldl State.swapDrain s
        s.setEng e { s.eng e with inflight := (s.eng e).inflight ++ [(c, w)] }

def execBoxes (t : Fin 4) (c : Fin 8) (w : Cmd) (s : State) : Host.Outcome State Fault Refusal :=
  if cmdOp w = 0x25 then fin (s.boxes t c w) else .refused .illFormed

end Sys2Proof.Machine
end

