-- ==== Sys2Proof/Machine/Quench.lean ====
section
/-! DEFINITION. The Quench self-test: units, isolation and re-initialisation, waves, and the record in flash (R576 to
R581, R584). A unit is named by its index of R580. -/

namespace Sys2Proof.Machine

/-! ### Units (R578, R580) -/

/-- The pages of unit u. [DEDUCED: log entry 125.] -/
def unitPages (u : Nat) : List Nat :=
  if u < 36 then engPages u
  else if u < 52 then [P.lane (u - 36)]
  else if u = 52 then P.cfe0 :: (List.range 8).map P.cfeC
  else if u = 53 then P.lplI 0 :: (List.range 8).map P.lplC
  else if u < 57 then [P.lplI (u - 53)]
  else if u < 59 then [P.drc (u - 57)]
  else if u = 59 then [P.bank]
  else if u = 60 then P.schG :: P.schJ :: (List.range 8).map P.schC
  else if u = 61 then [P.noc]
  else if u = 62 then [P.blw, P.replay]
  else if u = 63 then [P.enc, P.ltg, P.rtu, P.rtuE]
  else if u = 64 then [P.fio]
  else if u < 67 then [P.eth (u - 65)]
  else if u = 67 then [P.ptp]
  else if u = 68 then [P.bry]
  else P.arcG :: (List.range 64).map P.arcS

/-- The group of the shutdown plan that holds unit u (R578). -/
def unitGroup (u : Nat) : Nat :=
  if u < 32 then 2 else if u < 36 then 3 else if u < 53 then 4 else if u < 57 then 5 else if u < 59 then 1
  else if u < 63 then 6 else if u < 65 then 7 else if u < 69 then 8 else 9

/-- Coverage in 0.01 %, of the unit's logic, and of the cells of a stack (R578). [DEDUCED: log entry 125.] -/
def unitCoverage (u : Nat) : Nat :=
  match unitGroup u with
  | 1 => 9980 | 2 => 9850 | 3 => 9850 | 4 => 9700 | 5 => 9800 | 6 => 9750 | 7 => 9700 | 8 => 9700 | _ => 9650

/-- The source ID of unit u's block. -/
def unitSrc (u : Nat) : Nat := srcOf ((unitPages u).headD 0)

/-! ### Isolation and re-initialisation (R577) -/

/-- An engine's requantisation unit is excluded while it is tested (R147). -/
def State.isolate (s : State) (u : Nat) : State :=
  let s := (unitPages u).foldl (fun s p => s.leaveTo p 5) s
  if u < 32 then s.wrb (P.anv u 0) Reg.ANV_CFG_rq_excl true else s

/-- A register key lies in the configuration region of the page at base. -/
def keyInConfig (base k : Nat) : Bool := decide (32 * (base + 0x40) ≤ k) && decide (k < 32 * (base + 0x800))

/-- The configuration region of a page at its reset values, with fresh parity. -/
def State.pageReinit (s : State) (base : Nat) : State :=
  let kept := s.regs.filter (fun p => !keyInConfig base p.1)
  let fresh := resetRegs.filter (fun p => keyInConfig base p.1)
  { s with regs := fresh.foldl (fun m p => SMap.insert m p.1 p.2) kept,
           parityBad := s.parityBad.filter (fun a => a / 4096 ≠ base / 4096)
           deferred := s.deferred.filter (fun p => p.1 / 4096 ≠ base / 4096) }

/-- Memory of unit u is cleared (R76). [DEDUCED: log entry 121.] -/
def State.unitMemClear (s : State) (u : Nat) : State :=
  if u < 36 then (s.engineClear u)
  else if u = 57 then s.clearMem 0 imageBase
  else if u = 58 then s.clearMem 0x400000000 0x400000000
  else if u = 59 then ([192, 193, 194, 195, 196, 197] : List Nat).foldl (fun s b => s.clearMem (bankBase b) (bankSize b)) s
  else s

/-- After its test a unit is re-initialised whatever the result. The fence bits of an engine stay: a fenced one reads
state 4 again. [DEDUCED: log entry 121.] -/
def State.unitReinit (s : State) (u : Nat) : State :=
  let mask := s.rd P.schG Reg.SCH_FENCE_mask
  let tmask := s.rd P.schG Reg.SCH_PLACE_tongs_fenced
  let s := ((unitPages u).foldl State.pageReinit s).unitMemClear u
  let s := (s.wr P.schG Reg.SCH_FENCE_mask mask).wr P.schG Reg.SCH_PLACE_tongs_fenced tmask
  let st := if u < 36 && s.engFenced u then 4 else 0
  (unitPages u).foldl (fun s p => s.leaveTo p st) s

/-! ### The record in flash (R580) -/

/-- CRC-64 of R327. -/
def crc64 (bs : List Byte) : Nat := crcFinal (bs.foldl crcByte crcInit)

def recordCopy (i : Nat) : Nat := 0x100000 + 0x80000 * i

def recordMagic : Nat := 0x51c74e02

/-- The 32-byte entry of a unit; its duration is not modelled and is a free value. [DESIGN CHOICE: log entry 126.] -/
def entryBytes (u : Nat) (e : QuenchEntry) (ms : Nat) : List Byte :=
  le 2 (unitSrc u) ++ le 1 u ++ le 1 (unitGroup u) ++ le 1 e.result ++ le 1 0 ++ le 2 e.coverage ++ le 4 ms ++ le 4 0
    ++ le 8 e.time ++ le 8 e.lastPass

/-- A copy is valid: magic and CRC match. -/
def State.recordValid (s : State) (i : Nat) : Bool :=
  let a := recordCopy i
  let h := Memory.readBytes s.flash a 64
  if unle (h.take 4) = recordMagic then
    let n := min 128 (unle ((h.drop 6).take 2))
    decide (unle ((h.drop 32).take 8) = crc64 (h.take 32 ++ le 8 0 ++ h.drop 40 ++ Memory.readBytes s.flash (a + 64) (32 * n)))
  else false

/-- The end time of a copy. -/
def State.recordEnd (s : State) (i : Nat) : Nat := unle (Memory.readBytes s.flash (recordCopy i + 24) 8)

/-- The newer valid copy. -/
def State.recordNewest (s : State) : Option Nat :=
  if s.recordValid 0 then
    (if s.recordValid 1 && decide (s.recordEnd 0 < s.recordEnd 1) then some 1 else some 0)
  else if s.recordValid 1 then some 1 else none

/-- The firmware writes the older copy at a shutdown. [DEDUCED: log entry 36.] [DESIGN CHOICE: log entry 126.] -/
def State.recordWrite (s : State) (outcome : Nat) : State :=
  let i := if s.recordNewest = some 0 then 1 else 0
  let ms := Config.freeNat s.draws
  let es := s.quench.making.flatMap (fun p => entryBytes p.1 p.2 ms)
  let head := fun c => le 4 recordMagic ++ le 1 outcome ++ le 1 0 ++ le 2 s.quench.making.length
    ++ le 8 (Config.planDigest s.temper.running) ++ le 8 s.quench.startNs ++ le 8 s.now ++ le 8 c ++ List.replicate 24 0
  let c := crc64 (head 0 ++ es)
  { s.draw with flash := Memory.writeBytes s.flash (recordCopy i) (head c ++ es)
                quench := { s.quench with making := [], endNs := s.now } }

/-- The units of a copy. -/
def State.recordEntries (s : State) (i : Nat) : SMap QuenchEntry :=
  let n := min 128 (unle (Memory.readBytes s.flash (recordCopy i + 6) 2))
  (List.range n).foldl (fun m k =>
    let b := Memory.readBytes s.flash (recordCopy i + 64 + 32 * k) 32
    let e : QuenchEntry := { result := unle ((b.drop 4).take 1) % 8, coverage := unle ((b.drop 6).take 2),
                             time := unle ((b.drop 16).take 8), lastPass := unle ((b.drop 24).take 8) }
    SMap.insert m (unle ((b.drop 2).take 1)) e) []

/-- The firmware reads the record at start (R581, R584). -/
def State.recordRead (s : State) : State :=
  match s.recordNewest with
  | none => { s with quench := { s.quench with entries := [], outcome := 2, endNs := 0 } }.wr P.qch Reg.QCH_STAT_rec 2
  | some i =>
    let o := min 1 (unle (Memory.readBytes s.flash (recordCopy i + 4) 1))
    { s with quench := { s.quench with entries := s.recordEntries i, outcome := o, endNs := s.recordEnd i } }.wr P.qch
      Reg.QCH_STAT_rec o

/-! ### Results -/

/-- The entry of unit u in the record being made. [DEDUCED: log entry 125.] -/
def State.quenchNote (s : State) (u res : Nat) : State :=
  let last := match SMap.find? s.quench.entries u with
    | some e => e.lastPass
    | none => 0
  let e : QuenchEntry := { result := res, coverage := unitCoverage u, time := s.now, lastPass := if res = 0 then s.now else last }
  { s with quench := { s.quench with making := SMap.insert s.quench.making u e } }

/-! ### When a test may run (R74, R89, R576) -/

/-- The units whose test did not complete at the last shutdown: every one where no record is valid (R89, R581).
[DEDUCED: log entry 32.] -/
def State.quenchDue (s : State) : List Nat :=
  match s.recordNewest with
  | none => List.range 70
  | some i => (List.range 70).filter (fun u => match SMap.find? (s.recordEntries i) u with
      | some e => decide (2 ≤ e.result)
      | none => true)

/-- Step 7 of a cold start runs. -/
def State.inStep7 (s : State) : Bool := decide (s.seq.phase = .coldSteps) && bit s.seq.begun 6 && !bit s.seq.ended 6

/-- A shutdown that has been asked for stops every context once the RTU holds no pending entry; a swap that has not taken
effect is withdrawn (R74). [DEDUCED: log entry 36.] -/
def State.shutdownStop (s : State) : State :=
  if s.seq.shutdownAsked && s.rtu.entries.isEmpty && !s.seq.ctxsStopped then
    let s := (List.range 8).foldl (fun s c => if (s.ctx c).swapTo.isSome && !(s.ctx c).swapped then s.swapClear c else s) s
    let s := (List.range 8).foldl (fun s c => 
      if s.ctxRuns c then (if s.ctxState c = ctxDraining then s else s.stop c).ctxDrained c else s) s
    { s with seq := { s.seq with ctxsStopped := true } }
  else s

/-- A shutdown has stopped the contexts, and none of them runs any more. [DEDUCED: log entry 36.] -/
def State.quiesced (s : State) : Bool :=
  s.seq.shutdownAsked && s.seq.ctxsStopped && s.rtu.entries.isEmpty && !(List.range 8).any s.ctxRuns

/-- A test of these units may run: in PROVISIONED and DEPLOYED only at shutdown, in MANUFACTURE and RETURNED at any time, and in
cold-start step 7 of the units whose test did not complete (R89, R576). [DEDUCED: log entry 127.] -/
def State.quenchAllowed (s : State) (us : List Nat) : Bool :=
  let lc := s.rd P.tmp Reg.TMP_LC_state
  s.clocked && (decide (lc = 1) || decide (lc = 4) || s.quiesced
    || (s.inStep7 && !s.startSet.startUntested && us.all s.quenchDue.contains))

/-- A wave of group g may hold these units: in PROVISIONED and DEPLOYED those of the shutdown plan's group (R576, R578).
[DEDUCED: log entry 127.] -/
def State.inPlan (s : State) (g : Nat) (us : List Nat) : Bool :=
  let lc := s.rd P.tmp Reg.TMP_LC_state
  decide (lc = 1) || decide (lc = 4) || us.all (fun u => unitGroup u = g)

/-- QUENCH_WAVE_START: with headroom the units are isolated and the wave runs; without it the engine waits (R579). At a
shutdown the contexts are stopped first. [DEDUCED: log entry 125.] [DEDUCED: log entry 127.] -/
def State.waveStart (s : State) (g w : Nat) (us : List Nat) (powerOk : Bool) : State :=
  let s := if s.clocked then s.shutdownStop else s
  if !s.quenchAllowed us || !s.inPlan g us || !s.quench.waveUnits.isEmpty || !powerOk then s
  else
    let s := us.foldl State.isolate s
    let s := { s with quench := { s.quench with waveUnits := us, startNs := if s.quench.making.isEmpty then s.now else s.quench.startNs } }
    ((s.wr P.qch Reg.QCH_STAT_state 1).wr P.qch Reg.QCH_STAT_group g).wr P.qch Reg.QCH_STAT_wave w

def execQuenchWaveStart (group wave : BitVec 8) (units : List (Fin 70)) (powerOk : Bool) (s : State) :
    Host.Outcome State Fault Refusal :=
  fin (s.waveStart group.toNat wave.toNat (units.map Fin.val) powerOk)

/-- QUENCH_WAVE_SKIP: no headroom within 100 ms. -/
def execQuenchWaveSkip (units : List (Fin 70)) (s : State) : Host.Outcome State Fault Refusal :=
  if !s.quenchAllowed (units.map Fin.val) || !s.quench.waveUnits.isEmpty then fin s
  else fin (units.foldl (fun s u => s.quenchNote u.val 3) s)

/-- The wave is over. [DEDUCED: log entry 121.] -/
def State.waveOver (s : State) : State :=
  let s := s.quench.waveUnits.foldl State.unitReinit s
  let s := { s with quench := { s.quench with waveUnits := [], endNs := s.now } }
  ((s.wr P.qch Reg.QCH_STAT_state 2).wr P.qch Reg.QCH_STAT_group 0).wr P.qch Reg.QCH_STAT_wave 0

/-- QUENCH_POWER_ABORT: the wave stops; the units not yet tested, of the wave and of the rest of its group, are recorded
as aborted (R579). -/
def execQuenchPowerAbort (units : List (Fin 70)) (s : State) : Host.Outcome State Fault Refusal :=
  if s.quench.waveUnits.isEmpty then fin s
  else fin ((units.foldl (fun s u => s.quenchNote u.val 3) s).waveOver)

/-- QUENCH_WAVE_END: the results of the wave's units; a unit without one was not run. [DEDUCED: log entry 125.] -/
def State.waveEnd (s : State) (rs : List (Nat × Nat)) : State :=
  if s.quench.waveUnits.isEmpty then s
  else
    let s := s.quench.waveUnits.foldl (fun s u =>
      s.quenchNote u (match List.find? (fun (p : Nat × Nat) => p.1 = u) rs with
        | some p => p.2
        | none => 2)) s
    s.waveOver

def execQuenchWaveEnd (results : List (Fin 70 × Fin 4)) (s : State) : Host.Outcome State Fault Refusal :=
  fin (s.waveEnd (results.map (fun p => (p.1.val, p.2.val))))

end Sys2Proof.Machine
end

