-- ==== Sys2Proof/Machine/Power.lean ====
section
/-! DEFINITION. Insertion and removal, board management, temperatures, clocks lost, the power states, resets and the
start-up steps (R43 to R89, R495, R549, R550, R572, R580, R581, R589 to R591). -/

namespace Sys2Proof.Machine

def State.setBoard (s : State) (b : Board) : State := { s with board := b }
def State.setSeq (s : State) (q : Seq) : State := { s with seq := q }

/-- Steps 1 and 6 of a start: the rails are up, the stacks trained. -/
abbrev stepRails : Nat := 0
abbrev stepDram : Nat := 5

/-! ### What a reset clears (R77, R90, R549, R589) -/

/-- Register fields that stand in fuses, in the always-on domain or in Temper's life-cycle state.
[DEDUCED: log entry 28.] -/
def fusedFields : List (Nat × Fld) := [
  (P.tmp, Reg.TMP_LC_state), (P.tmp, Reg.TMP_LC_count), (P.tmp, Reg.TMP_LC_floor), (P.tmp, Reg.TMP_LC_roots_revoked),
  (P.tmp, Reg.TMP_SERIAL_serial_lo), (P.tmp, Reg.TMP_SERIAL_serial_hi), (P.tmp, Reg.TMP_AUTH_CTR_count),
  (P.tmp, Reg.TMP_STAT_rec_bad), (P.chip, Reg.CHIP_WAKE_latch)]

/-- What a warm reset keeps beside them: what counts since the last cold reset, which half runs, and which owner slots are
valid (R77, R83, R549, R554, R582). [DEDUCED: log entry 28.] -/
def warmFields : List (Nat × Fld) := [
  (P.chip, Reg.CHIP_RST_CAUSE_warm_count), (P.tmp, Reg.TMP_STAT_slots), (P.tmp, Reg.TMP_STAT_half), (P.tmp, Reg.TMP_STAT_recovery),
  (P.flt, Reg.FLT_HWDG_restarts)]

/-- Device memory that a warm reset keeps: DRAM, and N0 and N1 where their setting is retention.
[DEDUCED: log entry 28.] -/
def State.warmKeeps (s : State) (a : Nat) : Bool :=
  let keepN := fun (f : Fld) => decide (s.rd P.chip f % 2 = 1)
  inDram a || (bankAt a = some 192 && keepN Reg.CHIP_PWR_n0_mode) || (bankAt a = some 193 && keepN Reg.CHIP_PWR_n1_mode)

/-- The die after the clearing of a warm or cold reset. The start sequencer is left to the caller.
[DEDUCED: log entry 6.] [DEDUCED: log entry 28.] [DEDUCED: log entry 29.] [DEDUCED: log entry 33.] -/
def State.dieReset (s : State) (warm : Bool) : State :=
  let r := State.reset
  let kept := if warm then fusedFields ++ warmFields else fusedFields
  let t : State := { r with
    board := s.board, hostMem := s.hostMem, flash := s.flash, draws := s.draws, pending := s.pending
    host := { r.host with msix := s.host.msix }
    mem := if warm then s.mem.filter (fun c => s.warmKeeps c.1) else []
    msys := { r.msys with poison := if warm then s.msys.poison.filter (fun w => s.warmKeeps (8 * w)) else [] }
    seq := { r.seq with permitShort := warm && s.seq.permitShort }
    temper := { s.temper with
      staged := [], stagedSvn := 0, stagedVersion := [], handover := none, pauseRuns := false, swapped := false
      reports := if warm then s.temper.reports else 0, testSeen := warm && s.temper.testSeen } }
  let t := kept.foldl (fun t p => t.wr p.1 p.2 (s.rd p.1 p.2)) t
  let lc := s.rd P.tmp Reg.TMP_LC_state
  t.wrb P.tmp Reg.TMP_STAT_test_open (lc = 1 || (lc = 4 && warm && s.rdb P.tmp Reg.TMP_STAT_test_open))

/-- A warm reset begins: none while the module is in reset or unpowered (R63, R78). -/
def State.warmReset (s : State) (cause lost : Nat) : State :=
  if s.unpowered || s.inReset then s
  else
    let had := s.seq.ended
    let s := s.dieReset true
    let s := s.setSeq { s.seq with phase := .warmClearing, begun := 0, ended := if bit had stepDram then 2 ^ stepDram else 0 }
    let s := (s.wr P.chip Reg.CHIP_RST_CAUSE_cause cause).wr P.chip Reg.CHIP_RST_CAUSE_clk_lost lost
    s.wr P.chip Reg.CHIP_RST_CAUSE_warm_count (min 65535 (s.rd P.chip Reg.CHIP_RST_CAUSE_warm_count + 1))

/-- A cold reset that switches the main rails off begins (R590). -/
def State.coldReset (s : State) (cause : Nat) : State :=
  if s.unpowered || s.board.thermShutdown || s.seq.phase = .railsOff then s
  else
    let s := s.dieReset false
    (s.setSeq { s.seq with phase := .railsOff, begun := 0, ended := 0 }).wr P.chip Reg.CHIP_RST_CAUSE_cause cause

/-- The hot-swap switch goes off: the die is dead, the standby section stays (R50, R53). -/
def State.powerOff (s : State) : State :=
  let s := s.dieReset false
  let s := s.setSeq { (default : Seq) with power := .off }
  s.setBoard { s.board with switch := .off, powerGood := false, thermShutdown := false, warnRegion := false,
                            alertHeld := s.board.alertHeld &&& 12#4 }

/-! ### Start steps (R63, R86, R88) -/

/-- The steps after which step n, from 1, begins. Step 3 stands before whatever follows step 6, in a warm start too, which
skips step 6 (R86, R88). [DEDUCED: log entry 30.] -/
def stepAfter : Nat → List Nat
  | 2 => [1] | 3 => [2] | 4 => [1] | 5 => [2] | 6 => [3] | 7 => [3, 6] | 8 => [3, 6] | 9 => [7] | 10 => [3, 6] | 11 => [4, 8, 9, 10]
  | _ => []

/-- Steps whose conditions hold begin; HOLD lets a cold start begin steps 1 and 2 only. -/
def State.stepsBegin (s : State) : State :=
  if s.seq.phase = .coldSteps ∨ s.seq.phase = .warmSteps then
    let ok := fun n => (stepAfter n).all (fun m => bit s.seq.ended (m - 1)) && (!s.board.smbHold || decide (n ≤ 2))
    s.setSeq { s.seq with begun := (List.range 11).foldl (fun b i => if ok (i + 1) then setBit b i else b) s.seq.begun }
  else s

/-- The warm start begins: step 1 is skipped, and the stacks that had been trained are to be retrained.
[DEDUCED: log entry 30.] -/
def State.warmBegin (s : State) : State :=
  if bit s.seq.ended stepDram then
    (s.setSeq { s.seq with phase := .warmSteps, begun := 33, ended := 1 }).stepsBegin
  else (s.setSeq { s.seq with phase := .warmSteps, begun := 1, ended := 1 }).stepsBegin

/-- WARM_RESET_END: the state is clear; the warm start begins unless HOLD keeps it. -/
def State.warmEnd (s : State) : State :=
  if s.seq.phase ≠ .warmClearing ∨ s.board.thermShutdown then s
  else if s.board.smbHold then s.setSeq { s.seq with phase := .warmHeld }
  else s.warmBegin

def execWarmResetEnd (s : State) : Host.Outcome State Fault Refusal := fin s.warmEnd

/-- WARM_START: the stacks are retrained from self-refresh; the steps after step 6 go on. [DEDUCED: log entry 30.] -/
def State.warmStart (s : State) : State :=
  if s.seq.phase = .warmSteps && bit s.seq.begun stepDram && !bit s.seq.ended stepDram then
    (s.setSeq { s.seq with ended := setBit s.seq.ended stepDram }).stepsBegin
  else s

def execWarmStart (s : State) : Host.Outcome State Fault Refusal := fin s.warmStart

/-- RAILS_ON: step 1 begins. -/
def State.railsOn (s : State) : State :=
  if s.seq.phase = .railsOff && !s.board.thermShutdown then s.setSeq { s.seq with phase := .coldSteps, begun := 1, ended := 0 } else s

def execRailsOn (s : State) : Host.Outcome State Fault Refusal := fin s.railsOn

/-! ### Effects of the steps -/

/-- No valid image: Temper holds Hearth and enters recovery (R550, R554). [DEDUCED: log entry 31.] -/
def State.enterRecovery (s : State) : State :=
  if s.rdb P.tmp Reg.TMP_STAT_recovery then s else (s.wrb P.tmp Reg.TMP_STAT_recovery true).setBlk P.tmp 11

/-- The units that step 7 finds failed: in their self-check, in the record, or in the shutdown test that the step has run
(R89, R581). [DEDUCED: log entry 32.] -/
def State.failedAt7 (s : State) (rep : StartReport) : List Nat :=
  (List.range 70).filter (fun u => rep.failedUnits.any (fun v => v.val = u)
    || (SMap.find? s.quench.making u).any (fun e => e.result = 1)
    || ((SMap.find? s.quench.making u).isNone && (SMap.find? s.quench.entries u).any (fun e => e.result = 1)))

/-- The units that go on untested: with "start untested" those whose test did not complete, else those whose test in this step
did not (R89). [DEDUCED: log entry 32.] -/
def State.untestedAt7 (s : State) : List Nat :=
  s.quenchDue.filter (fun u => s.startSet.startUntested || (SMap.find? s.quench.making u).any (fun e => 2 ≤ e.result))

/-- Every shutdown test that step 7 has to run has been run or skipped (R89). -/
def State.quenchCaughtUp (s : State) : Bool :=
  s.quench.waveUnits.isEmpty && (s.startSet.startUntested || s.quenchDue.all (fun u => (SMap.find? s.quench.making u).isSome))

/-- Step 7: the record is read, units that failed are fenced or put into their fault state, and QCH_REPORT is written; the
requantisation units that pass are no longer excluded (R89, R147, R164, R573, R581). In a warm start no record is read.
[DEDUCED: log entry 32.] -/
def State.selfCheck (s : State) (rep : StartReport) : State :=
  let cold := decide (s.seq.phase = .coldSteps)
  let s := if cold then s.recordRead else s
  let failed := s.failedAt7 rep
  let un := if cold then s.untestedAt7 else []
  let s := failed.foldl (fun s u =>
    if u < 36 then (s.fenceEngine u (fun _ => none)).1
    else
      let s := s.blockFault ((unitPages u).headD 0) 4
      { s with coll := { s.coll with failedUnits := s.coll.failedUnits ++ [u] } }) s
  let s := rep.failedRq.foldl (fun s e => (s.fenceRq e.val).1) s
  let s := (List.range 32).foldl (fun s e =>
    if failed.contains e || rep.failedRq.any (fun r => r.val = e) then s else s.wrb (P.anv e 0) Reg.ANV_CFG_rq_excl false) s
  let s := s.setSeq { s.seq with untested := un, checked := (List.range 70).filter (fun u => !failed.contains u) }
  let s := s.wrb P.chip Reg.CHIP_RST_CAUSE_untested (!un.isEmpty)
  if cold then
    s.raise 0xe01 0x84 (le 1 (s.rd P.qch Reg.QCH_STAT_rec) ++ le 1 un.length ++ le 1 failed.length ++ le 5 0 ++ le 8 s.quench.endNs)
  else s

/-- TMP_STAT.slots: the slots that hold a key and are not revoked; it shows once Temper has read its
keys, at the end of step 2 (R86, R557). -/
def State.slotsShow (s : State) : State :=
  s.wr P.tmp Reg.TMP_STAT_slots ((List.range 4).foldl (fun v i =>
    if (SMap.find? s.temper.ownerKeys i).isSome && !s.temper.revokedSlots.contains i then setBit v i else v) 0)

/-- The copy of the Temper record in force: its signature holds and its counter is TMP_AUTH_CTR (R545).
[DESIGN CHOICE: log entry 138.] -/
def State.recordInForce (s : State) : Option RecCopy :=
  List.find? (fun (r : RecCopy) => decide (r.counter = s.rd P.tmp Reg.TMP_AUTH_CTR_count)) (s.temper.copyA.toList ++ s.temper.copyB.toList)

/-- Temper reads its record: with no copy in force every slot counts as empty, and rec_bad shows it (R545). -/
def State.recordTake (s : State) : State :=
  let r := s.recordInForce
  let t := { s with temper := { s.temper with
    ownerKeys := (r.map RecCopy.keys).getD [], revokedSlots := (r.map RecCopy.revoked).getD [] } }
  (t.wrb P.tmp Reg.TMP_STAT_rec_bad r.isNone).slotsShow

/-- Step 3 of a cold start: the boot section of the flash image, behind certificate, header and image header, goes into N1
(R548, R550). -/
def State.bootCopy (s : State) : State :=
  let len := unle (Memory.readBytes s.flash (flashAt + 444) 4)
  { s with mem := copyBytes s.flash s.mem (flashAt + 496) (bankBase 193 + 0x40000) (min len 0xc0000) }

/-- Step 6 of a cold start: the flash image goes into the running half (R550). -/
def State.imageCopy (s : State) : State :=
  { s with mem := copyBytes s.flash s.mem flashAt (halfAt s.runHalf) halfSize }

/-- What the start-up set arms arms in one cycle: its claims are settled together, the permit mirror first, then RTU groups,
then LTGs (R86, R127, R130, R440). [DEDUCED: log entry 29.] [DEDUCED: log entry 31.] -/
def State.startArm (s : State) : State :=
  let t := s.startSet
  let rivals := (t.mirror.map (fun ch => mirrorArming ch.val)).toList ++ t.groups.map (fun g => s.groupArming g.val)
    ++ t.ltgs.map (fun l => s.ltgArming l.val)
  let a := match t.mirror with
    | some ch => if s.rdb P.fio Reg.FIO_GLB_mirror_en then s else (s.wr P.fio Reg.FIO_GLB_mirror_ch ch.val).mirrorOn s rivals ch.val
    | none => s
  let a := t.groups.foldl (fun a g => a.groupArmOn s rivals g.val) a
  t.ltgs.foldl (fun a l => a.ltgArmOn s rivals l.val) a

/-- Step 11: what the start-up set names is armed, the contexts that it requires are started, and consent is given (R84, R86).
[DEDUCED: log entry 31.] -/
def State.startRun (s : State) : State :=
  let lc := s.rd P.tmp Reg.TMP_LC_state
  let t := s.startSet
  let s := s.startArm
  let s := (List.range 8).foldl (fun s c => if bit t.ctxReq.toNat c && decide (s.ctxState c = ctxStopped) then s.start c false else s) s
  let s := s.wr P.chip Reg.CHIP_READY_ctx_req t.ctxReq.toNat
  let s := s.wrb P.chip Reg.CHIP_READY_permit_en (t.permitEn && (lc = 2 || lc = 3))
  s.setSeq { s.seq with phase := .started }

/-- Whether step n can end so, and what its end does. Step 3, and the second check of step 6, need a valid image; step 7 has to
run the tests that are due. [DEDUCED: log entry 6.] [DEDUCED: log entry 31.] -/
def State.stepEffect (s : State) (n : Nat) (rep : StartReport) : Option State :=
  let lc := s.rd P.tmp Reg.TMP_LC_state
  let cold := decide (s.seq.phase = .coldSteps)
  if n = 2 then some { s with ptp := { s.ptp with running := true } }.recordTake
  else if n = 3 then
    if lc = 5 ∨ s.inFault P.tmp then none
    else if !rep.imageValid then none
    else if cold then
      some ({ s with temper := { s.temper with
        running := s.temper.flashImage, runSvn := s.temper.flashSvn, version := s.temper.flashVersion } }).bootCopy
    else some s
  else if n = 4 then
    let c := rep.mainCause.toNat
    some (s.fieldStart rep.mainUp rep.fallbackUp c)
  else if n = 6 then
    if cold then (if rep.imageValid then some s.imageCopy else none) else some s
  else if n = 7 then (if cold && !s.quenchCaughtUp then none else some (s.selfCheck rep))
  else if n = 11 then some s.startRun
  else some s

/-- COLD_START_STEP_DONE, in a cold or a warm start. [DEDUCED: log entry 31.] -/
def State.stepDone (s : State) (n : Nat) (rep : StartReport) : State :=
  if s.board.thermShutdown || !bit s.seq.begun (n - 1) || bit s.seq.ended (n - 1)
      || !(s.seq.phase = .coldSteps || s.seq.phase = .warmSteps) then s
  else match s.stepEffect n rep with
    | none => if (n = 3 ∨ n = 6) ∧ !rep.imageValid then s.enterRecovery else s
    | some s => (s.setSeq { s.seq with ended := setBit s.seq.ended (n - 1) }).stepsBegin

def execColdStartStepDone (step : Fin 11) (rep : StartReport) (s : State) : Host.Outcome State Fault Refusal :=
  fin (s.stepDone (step.val + 1) rep)

/-! ### CHIP_RST (R77, R79, R82) -/

/-- A word written to CHIP_RST. -/
def State.chipRst (s : State) (v : Nat) : State :=
  let t := bits v 8 6
  if bits v 16 16 ≠ 0x5a17 then s.note P.chip .badReset
  else match bits v 0 4 with
    | 1 => s.hostSessionReset 3 false
    | 2 => if t < 8 then s.contextReset t else s.note P.chip .badReset
    | 3 => if t < 36 then (s.engineReset t).1 else s.note P.chip .badReset
    | 4 => s.warmReset 5 0
    | 5 => s.coldReset 3
    | _ => s.note P.chip .badReset

def execChipRstInvalid (v : Word) (s : State) : Host.Outcome State Fault Refusal := fin (s.onWrite 0x44 (fun s => s.chipRst v.toNat))

def execChipRstCold (s : State) : Host.Outcome State Fault Refusal := fin (s.onWrite 0x44 (fun s => s.coldReset 3))

/-- WARM_RESET by CHIP_RST, or by the firmware while it runs. -/
def execWarmReset (by_ : WarmStarter) (s : State) : Host.Outcome State Fault Refusal :=
  match by_ with
  | .chipRst => fin (s.onWrite 0x44 (fun s => s.warmReset 5 0))
  | .firmware => if s.coll.hearthHalted || s.seq.power = .banked then fin s else fin (s.warmReset 6 0)

/-! ### Insertion and removal (R43, R46, R49, R50) -/

/-- An alert condition arises: one alert, until it has ended (R62). [DEDUCED: log entry 26.] -/
def State.alert (s : State) (i : Nat) : State :=
  let b := s.board
  if b.alertHeld.getLsbD i then s
  else
    let m := BitVec.ofNat 4 (2 ^ i)
    s.setBoard { b with alertHeld := b.alertHeld ||| m, alertSrc := b.alertSrc ||| m, smbAlert := true }

/-- [DEDUCED: log entry 26.] -/
def State.alertOver (s : State) (i : Nat) : State :=
  s.setBoard { s.board with alertHeld := s.board.alertHeld &&& ~~~BitVec.ofNat 4 (2 ^ i) }

/-- A contact stage mates or breaks. With stage 2 the 12 V input appears and goes; a module that is seated anew has no
shutdown hold (R74). [DEDUCED: log entry 25.] [DEDUCED: log entry 27.] -/
def State.stageMate (s : State) (stage : Nat) (mating : Bool) : State :=
  let b := s.board
  if mating then
    if b.mated ≠ stage then s
    else
      let b := { b with mated := stage + 1 }
      if stage = 1 then s.setBoard { b with p12 := .window, standby := true }
      else if stage = 3 then s.setBoard { b with seated := true, shutdownHold := b.shutdownHold && b.seated }
      else s.setBoard b
  else if b.mated ≠ stage + 1 then s
  else if stage = 1 then
    let s := s.powerOff
    s.setBoard { s.board with mated := 1, seated := false, p12 := .absent }
  else s.setBoard { b with mated := stage }

def execStageMate (stage : Fin 4) (mating : Bool) (s : State) : Host.Outcome State Fault Refusal := fin (s.stageMate stage mating)

/-- The 12 V input stands at mv millivolts, as an SMBus transfer finds it: the standby section starts within its range, and the
alert condition of a stop ends once the input is back within the stop thresholds (R46, R49, R62).
[DEDUCED: log entry 25.] -/
def State.supplySeen (s : State) (mv : Nat) : State :=
  if s.board.mated < 2 then s
  else
    let p : P12 := if mv < 10600 then .under else if mv < 11000 then .low else if mv ≤ 13800 then .window else .above
    let s := s.setBoard { s.board with p12 := p, standby := s.board.standby || (decide (9000 ≤ mv) && decide (mv ≤ 16000)) }
    if p = .low ∨ p = .window then s.alertOver 3 else s

/-- HOT_SWAP_ON: 50 ms seated with 12 V in range have passed. [DEDUCED: log entry 25.] -/
def State.hotSwapOn (s : State) : State :=
  let b := s.board
  if b.seated && decide (b.mated = 4) && decide (b.switch = .off) && !b.breaker && !b.shutdownHold then
    (s.setBoard { b with switch := .ramping, p12 := .window, standby := true }).alertOver 3
  else s

def execHotSwapOn (s : State) : Host.Outcome State Fault Refusal := fin s.hotSwapOn

/-- POWER_GOOD: the cold start begins. -/
def State.goPowerGood (s : State) : State :=
  if s.board.switch = .ramping then
    let s := s.dieReset false
    s.setBoard { s.board with switch := .on, powerGood := true }
  else s

def execPowerGood (s : State) : Host.Outcome State Fault Refusal := fin s.goPowerGood

def execPresenceLost (s : State) : Host.Outcome State Fault Refusal :=
  if s.board.seated then
    let t := s.powerOff
    fin (t.setBoard { t.board with seated := false })
  else fin s

/-- The 12 V input leaves the stop thresholds: the module stops, and each stop is an alert of its own, since the input must have
been back within them before (R46, R62). [DEDUCED: log entry 25.] -/
def State.supplyStop (s : State) (p : P12) : State :=
  if s.board.mated < 2 then s
  else
    let s := s.powerOff
    ((s.setBoard { s.board with p12 := p, standby := true }).alertOver 3).alert 3

def execUndervoltageStop (s : State) : Host.Outcome State Fault Refusal := fin (s.supplyStop .under)
def execOvervoltageStop (s : State) : Host.Outcome State Fault Refusal := fin (s.supplyStop .above)

def execBreakerLatch (s : State) : Host.Outcome State Fault Refusal :=
  if s.board.switch = .off then fin s
  else
    let t := s.powerOff
    fin ((t.setBoard { t.board with breaker := true }).alert 2)

/-- The latch is cleared; insertion goes on from step 5. -/
def State.breakerOff (s : State) : State := (s.setBoard { s.board with breaker := false }).alertOver 2

/-- UNDERVOLTAGE_HOLD_CLEAR: 1 s below the undervoltage stop clears the breaker and the shutdown hold (R46, R74). -/
def execUndervoltageHoldClear (s : State) : Host.Outcome State Fault Refusal :=
  if s.board.switch = .off then
    let t := s.breakerOff
    fin (t.setBoard { t.board with shutdownHold := false, p12 := if t.board.p12 = .absent then .absent else .under })
  else fin s

/-- STANDBY_SECTION_POWER_LOSS: what the standby section holds is gone (R62, R63, R64, R74). -/
def execStandbySectionPowerLoss (s : State) : Host.Outcome State Fault Refusal :=
  if !s.board.standby then fin s
  else
    let t := (s.powerOff).wr P.chip Reg.CHIP_WAKE_latch 0
    fin (t.setBoard { t.board with standby := false, p12 := .absent, smbHold := false, shutdownHold := false, breaker := false
                                   alertSrc := 0, alertHeld := 0, smbAlert := false, smbReply := 0, smbPec := none })

/-! ### SMBus (R62, R63) -/

/-- The module's own 7-bit address (R62). -/
def State.smbAddr (s : State) : Nat := 0x58 + s.board.modAddr.toNat

/-- One byte into the Packet Error Code, CRC-8 of x^8 + x^2 + x + 1. [PRESUMED: log entry 166.] -/
def crc8Byte (c : Nat) (b : Byte) : Nat :=
  (List.range 8).foldl (fun c _ => if bit c 7 then (2 * c % 256) ^^^ 7 else 2 * c % 256) (c ^^^ b.toNat)

/-- The Packet Error Code of the bytes of a transfer. [PRESUMED: log entry 166.] -/
def crc8 (bs : List Byte) : Nat := bs.foldl crc8Byte 0

/-- A transfer reaches the module and is answered: its address is the module's, the standby section runs, the contacts are
mated for 20 ms; in BANKED its latch is set (R44, R62, R72). -/
def State.onSmb (s : State) (f : SmbFrame) (addr : Nat) (k : State → State) : State :=
  let s := s.supplySeen f.mv.toNat
  if !s.board.standby || decide (s.board.mated < 3) || !f.settled || decide (f.addr.toNat ≠ addr) then s
  else if s.seq.power = .banked then k (s.latch 8) else k s

/-- A read command of n bytes answers v, with its Packet Error Code where the carrier asks for one. -/
def State.smbRead (s : State) (f : SmbFrame) (code n v : Nat) : State :=
  let a := 2 * s.smbAddr
  let pec := crc8 (le 1 a ++ le 1 code ++ le 1 (a + 1) ++ le n v)
  s.setBoard { s.board with smbReply := v, smbPec := f.pec.map (fun _ => BitVec.ofNat 8 pec) }

def State.smbAnswer (s : State) (f : SmbFrame) (code n : Nat) (v : State → Nat) : State :=
  s.onSmb f s.smbAddr (fun s => s.smbRead f code n (v s))

/-- A write-byte command acts where its Packet Error Code, if it carries one, is right and its value is one that the command
knows; others are ignored. -/
def State.smbWrite (s : State) (f : SmbFrame) (code : Nat) (v want : Byte) (k : State → State) : State :=
  s.onSmb f s.smbAddr (fun s =>
    if v = want && f.pec.all (fun p => p.toNat = crc8 (le 1 (2 * s.smbAddr) ++ le 1 code ++ [v])) then k s else s)

def execModState (s : State) (f : SmbFrame := default) : Host.Outcome State Fault Refusal := fin (s.smbAnswer f 1 1 State.modState)
def execVin (f : SmbFrame) (s : State) : Host.Outcome State Fault Refusal := fin (s.smbAnswer f 2 2 (fun _ => f.mv.toNat))

def execIin (ma : BitVec 16) (s : State) (f : SmbFrame := default) : Host.Outcome State Fault Refusal :=
  fin (s.smbAnswer f 3 2 (fun _ => ma.toNat))

def execTBase (t : BitVec 16) (s : State) (f : SmbFrame := default) : Host.Outcome State Fault Refusal :=
  fin (s.smbAnswer f 4 2 (fun _ => t.toNat))

def execTJmax (t : BitVec 16) (s : State) (f : SmbFrame := default) : Host.Outcome State Fault Refusal :=
  fin (s.smbAnswer f 5 2 (fun _ => t.toNat))

def execAlertSrc (s : State) (f : SmbFrame := default) : Host.Outcome State Fault Refusal :=
  fin (s.onSmb f s.smbAddr (fun s =>
    let t := s.smbRead f 6 1 s.board.alertSrc.toNat
    t.setBoard { t.board with alertSrc := 0 }))

/-- The carrier reads the Alert Response Address, 0x0C: a module that asserts SMB_ALERT_N answers with its own address and
releases it (R62). [PRESUMED: log entry 166.] -/
def execAlertResponseRead (s : State) (f : SmbFrame := default) : Host.Outcome State Fault Refusal :=
  fin (s.onSmb f 0x0c (fun s =>
    if s.board.smbAlert then
      let a := 2 * s.smbAddr
      s.setBoard { s.board with
        smbAlert := false, smbReply := a, smbPec := f.pec.map (fun _ => BitVec.ofNat 8 (crc8 (le 1 0x19 ++ le 1 a))) }
    else s))

/-- HOLD: a warm reset where the module is not in reset, and the hold. -/
def State.smbHoldOn (s : State) : State :=
  let s := s.warmReset 10 0
  s.setBoard { s.board with smbHold := true }

def execHold (s : State) (f : SmbFrame := default) (v : Byte := 1) : Host.Outcome State Fault Refusal := fin (s.smbWrite f 0x10 v 1 State.smbHoldOn)

/-- HOLD_RELEASE: the start that was held continues. -/
def State.holdRelease (s : State) : State :=
  let s := s.setBoard { s.board with smbHold := false }
  if s.board.thermShutdown then s
  else if s.seq.phase = .warmHeld then s.warmBegin
  else s.stepsBegin

def execHoldRelease (s : State) (f : SmbFrame := default) (v : Byte := 0) : Host.Outcome State Fault Refusal :=
  fin (s.smbWrite f 0x10 v 0 State.holdRelease)

/-- SMBus COLD_RESET by the module's state (R63). -/
def State.smbCold (s : State) : State :=
  let b := s.board
  if b.thermShutdown || b.breaker then s
  else if b.shutdownHold then s.setBoard { b with shutdownHold := false }
  else match b.switch with
    | .off => s
    | .ramping => s.setBoard { b with switch := .off }
    | .on => s.coldReset 2

def execColdReset (s : State) (f : SmbFrame := default) (v : Byte := 0xa5) : Host.Outcome State Fault Refusal :=
  fin (s.smbWrite f 0x11 v 0xa5 State.smbCold)

def execBreakerClear (s : State) (f : SmbFrame := default) (v : Byte := 0xa5) : Host.Outcome State Fault Refusal :=
  fin (s.smbWrite f 0x12 v 0xa5 State.breakerOff)

/-! ### Permit switches, temperatures, clocks (R55, R56, R61, R65) -/

/-- PERMIT_SWITCH_TEST: a short is found while LINE_PERMIT is off, and recorded once. -/
def State.permitTest (s : State) (short : Bool) : State :=
  if short && !s.seq.permit && s.board.powerGood && !s.seq.permitShort then
    (s.setSeq { s.seq with permitShort := true }).noteCause P.chip 0x10
  else s

def execPermitSwitchTest (short0 short1 : Bool) (s : State) : Host.Outcome State Fault Refusal := fin (s.permitTest (short0 || short1))

def execPermitDriveStop (s : State) : Host.Outcome State Fault Refusal :=
  fin (s.setSeq { s.seq with driveRuns := false, permit := false })

/-- The THERM record (R587). -/
def State.thermRecord (s : State) (kind : Nat) (base junction : Bool) (tb tj : Nat) : State :=
  s.raise 0 3 (le 1 kind ++ le 1 (b2n base + 2 * b2n junction) ++ le 2 tb ++ le 2 tj)

def execThermalWarningEnter (base junction : Bool) (tb tj : BitVec 16) (s : State) : Host.Outcome State Fault Refusal :=
  if !s.board.powerGood || s.board.warnRegion then fin s
  else
    let s := (s.setBoard { s.board with warnRegion := true }).alert 0
    let s := if s.seq.power = .banked then s.latch 7 else s
    fin (s.thermRecord 1 base junction tb.toNat tj.toNat)

def execThermalWarningLeave (base junction : Bool) (tb tj : BitVec 16) (s : State) : Host.Outcome State Fault Refusal :=
  if !s.board.warnRegion then fin s
  else fin (((s.setBoard { s.board with warnRegion := false }).alertOver 0).thermRecord 2 base junction tb.toNat tj.toNat)

/-- THERMAL_SHUTDOWN: in reset until the recovery's cold start, every output as R53 gives; what that cold start clears is clear
from now on (R53, R61, R589). [DEDUCED: log entry 34.] -/
def execThermalShutdown (s : State) : Host.Outcome State Fault Refusal :=
  if s.unpowered || s.board.thermShutdown then fin s
  else
    let s := s.dieReset false
    let s := s.setSeq { s.seq with phase := .none, begun := 0, ended := 0 }
    fin ((s.setBoard { s.board with thermShutdown := true }).alert 1)

/-- [DEDUCED: log entry 34.] -/
def execThermalRecovery (s : State) : Host.Outcome State Fault Refusal :=
  if !s.board.thermShutdown then fin s
  else fin (((s.setBoard { s.board with thermShutdown := false }).alertOver 1).coldReset 4)

/-- The bit of CHIP_RST_CAUSE.clk_lost of a clock whose loss makes a warm reset. -/
def clockBit : ClockId → Option Nat
  | .core => some 0 | .dram => some 1 | .pix => some 2 | .enc => some 3 | .reference => some 4
  | _ => none

/-- A clock that BANKED stops is not lost there. -/
def clockStops : ClockId → Bool
  | .core | .hearth | .dram | .pix | .lane _ => true
  | _ => false

/-- A clock that makes no reset is lost; the pages that it holds do not run until it is good again (R65, R111).
[DESIGN CHOICE: log entry 159.] -/
def State.clockGone (s : State) (c : ClockId) : State :=
  if s.seq.clkLost.contains c then s else s.setSeq { s.seq with clkLost := c :: s.seq.clkLost }

/-- CLOCK_LOSS (R65). The records of a loss that resets the die are cleared with it. -/
def State.clockLoss (s : State) (clk : ClockId) (within600 : Nat) : State :=
  if s.unpowered || s.inReset || (s.seq.power = .banked && clockStops clk) then s
  else match clockBit clk with
    | some i => s.warmReset 7 (2 ^ i)
    | none => match clk with
      | .hearth => s.hearthDown 3 within600
      | .eth =>
        (s.clockGone .eth).ptpValid false 2
      | .fio => s.mainLoss 3
      | .lane n => s.laneLoss n
      | .pcie => (s.clockGone .pcie).linkDown
      | _ => s

def execClockLoss (clk : ClockId) (within600 : BitVec 8) (s : State) : Host.Outcome State Fault Refusal :=
  fin (s.clockLoss clk within600.toNat)

/-! ### BANKED (R71 to R73, R75, R76, R495) -/

/-- BANKED keeps the contents of bank b: N0 and N1 unless their setting is off. [DEDUCED: log entry 35.] -/
def State.bankedKeeps (s : State) (b : Nat) : Bool :=
  (b = 192 && decide (s.rd P.chip Reg.CHIP_PWR_n0_mode ≠ 0)) || (b = 193 && decide (s.rd P.chip Reg.CHIP_PWR_n1_mode ≠ 0))

/-- CHIP_PWR.req = 1. Every other bank goes off, and the lanes' clocks stop. [DEDUCED: log entry 35.] -/
def State.bankedRequest (s : State) : State :=
  if (List.range 8).any s.ctxRuns || !s.rtu.entries.isEmpty then s.wrb P.chip Reg.CHIP_PWR_req_err true
  else
    let s := (List.range 202).foldl (fun s b => if s.bankedKeeps b then s else s.clearMem (bankBase b) (bankSize b)) s
    let s := (List.range 8).foldl (fun s k => if s.camState k = camBound then s.camLeave k 0 else s) s
    s.setSeq { s.seq with power := .banked }

/-- A write of CHIP_PWR: its stored fields, req_err, then the request (R81). -/
def State.chipPwr (s : State) (v : Nat) : State :=
  let s := s.storePlain 0x40 v
  match bits v 4 2 with
  | 1 => s.bankedRequest
  | 2 => s.setSeq { s.seq with shutdownAsked := true }
  | _ => s

def execBankedRequest (v : Word) (s : State) : Host.Outcome State Fault Refusal := fin (s.onWrite 0x40 (fun s => s.chipPwr v.toNat))
def execShutdownRequest (v : Word) (s : State) : Host.Outcome State Fault Refusal := fin (s.onWrite 0x40 (fun s => s.chipPwr v.toNat))

def execWakeLatchSet (src : Fin 10) (s : State) : Host.Outcome State Fault Refusal :=
  if s.seq.power = .banked then fin (s.latch src) else fin s

/-- A doorbell that was kept is acted on (R495, R496). [DEDUCED: log entry 39.] -/
def State.doorbell (s : State) (off : Nat) (v : Nat) : State :=
  if off = 0xc000 then s.mbxDoorbell v
  else if 0x8000 ≤ off then s.erqConsume ((off - 0x8000) / 0x400) v
  else if off % 0x1000 = 8 then s.schCmd v (some (off / 0x1000))
  else s.jobDoorbell (off / 0x1000) v

/-- The WAKE records, then the held ones (R73, R495). -/
def State.wakeRecords (s : State) : State :=
  let l := bitsOf 10 (s.rd P.chip Reg.CHIP_WAKE_latch)
  let wake := l.map (fun i => ({ target := BitVec.ofNat 8 (s.target 0xf02), recs := [mkRec s 0xf02 0x7a (le 1 i) s.now] } : RecUnit))
  { s with host := { s.host with produced := s.host.produced ++ wake ++ s.host.held, held := [] } }

/-- BANKED_WAKE: an enabled latch wakes the chip. [DEDUCED: log entry 35.] -/
def State.bankedWake (s : State) : State :=
  if s.seq.power ≠ .banked ∨ (s.rd P.chip Reg.CHIP_WAKE_latch &&& s.rd P.chip Reg.CHIP_WAKE_en) = 0 then s
  else
    let s := (s.setSeq { s.seq with power := .active }).wakeRecords
    let s := (List.range 8).foldl (fun s c =>
      if s.ctxResident c then
        let s := s.loadResident bwMaint c
        if s.ctxState c = ctxStopped then s else s.setCtxState c ctxStopped 0
      else s) s
    let kept := s.host.keptDoorbells
    let s := { s with host := { s.host with keptDoorbells := [] } }
    kept.foldl (fun (s : State) (p : Nat × Word) => s.doorbell p.1 p.2.toNat) s

def execBankedWake (s : State) : Host.Outcome State Fault Refusal := fin s.bankedWake

/-! ### Shutdown (R74, R576, R580) -/

/-- SHUTDOWN_PROCEED: with no pending entry in the RTU the contexts are stopped; once none runs, the plan's results are
recorded and the switch goes off with the hold set; complete where every unit's test ran to its end (R74, R580).
[DEDUCED: log entry 36.] -/
def State.shutdown (s : State) (rs : List (Nat × Nat)) : State :=
  if !s.clocked || s.coll.hearthHalted || !s.quench.waveUnits.isEmpty then s
  else
    let s := s.shutdownStop
    if !s.quiesced then s
    else
      let s := rs.foldl (fun (s : State) (p : Nat × Nat) => s.quenchNote p.1 p.2) s
      let all := (List.range 70).all (fun u => match SMap.find? s.quench.making u with
        | some e => decide (e.result < 2)
        | none => false)
      let s := (s.recordWrite (b2n (!all))).powerOff
      s.setBoard { s.board with shutdownHold := true }

def execShutdownProceed (results : List (Fin 70 × Fin 4)) (s : State) : Host.Outcome State Fault Refusal :=
  fin (s.shutdown (results.map (fun p => (p.1.val, p.2.val))))

end Sys2Proof.Machine
end

