-- ==== Sys2Proof/Machine/Brynade.lean ====
section
/-! DEFINITION. Brynade: flows, acknowledgement and retransmission, send rings, and the collectives of a farm (R466 to
R475, R479 to R481). -/

namespace Sys2Proof.Machine

/-! ### Sequence numbers and packets -/

/-- Brynade is enabled and runs: its clock stops in OFF only (R64). -/
def State.bryAlive (s : State) : Bool := s.rdb P.bry Reg.BRY_CFG_en && s.works P.bry && s.hostReach

/-- Flows act while DRAM, which holds their table, answers: in BANKED only the tree's messages do.
[DEDUCED: log entry 92.] -/
def State.flowsAlive (s : State) : Bool := s.bryAlive && s.clocked

def State.moduleId (s : State) : Nat := s.rd P.bry Reg.BRY_CFG_module_id

def State.maxRetry (s : State) : Nat := max 1 (s.rd P.bry Reg.BRY_UDP_max_retry)

/-- rto in ns. -/
def State.rtoNs (s : State) : Nat := 1000 * max 1 (s.rd P.bry Reg.BRY_UDP_rto)

/-- The UDP payload of a packet (R466). [DEDUCED: log entry 91.] -/
def bryBytes (t : Nat) (p : BryPacket) : List Byte :=
  le 2 0xb7de ++ le 1 1 ++ le 1 t ++ le 2 p.src.toNat ++ le 2 p.dst.toNat ++ le 2 p.flow.toNat ++ le 1 p.flags.toNat
    ++ le 1 p.op.toNat ++ le 4 p.pseq.toNat ++ le 4 p.jseq.toNat ++ le 4 p.offset.toNat ++ le 2 p.payload.length ++ le 6 0 ++ p.payload

/-- The frame that carries it; TTL, identification, type of service and source port are not given and are drawn.
[DEDUCED: log entry 91.] -/
def State.bryFrame (s : State) (port : Nat) (ip mac : List Byte) (t : Nat) (p : BryPacket) : List Byte :=
  let u := bryBytes t p
  let v := s.freeVal
  let own := s.rd P.bry Reg.BRY_IP_addr
  let head := mac ++ s.macOf port ++ be16 0x800
  let ipv4 := [0x45#8] ++ le 1 (v / 2 ^ 40) ++ be16 (28 + u.length) ++ le 2 v ++ be16 0x4000 ++ le 1 (v / 2 ^ 16) ++ [17#8] ++ be16 0
    ++ be16 (own / 65536) ++ be16 own ++ ip
  let udp := le 2 (v / 2 ^ 24) ++ be16 (s.rd P.bry Reg.BRY_UDP_port) ++ be16 (8 + u.length) ++ be16 0
  fillUdp (fillIp (head ++ ipv4 ++ udp ++ u))

/-- A packet goes to a peer; a port that cannot send loses it. -/
def State.bryOut (s : State) (port : Nat) (ip mac : List Byte) (t : Nat) (p : BryPacket) : State :=
  if s.portDead port then s
  else
    let s := s.draw.sendFrame port (s.bryFrame port ip mac t p)
    { s with bry := { s.bry with sent := s.bry.sent ++ [(port, t, p)] } }

/-- A received packet leaves the receive path. [DESIGN CHOICE: log entry 93.] -/
def State.bryTake (s : State) (t : Nat) (p : BryPacket) : State :=
  match s.bry.rx.find? (fun f => decide (bryParse f = (t, p))) with
  | some f => { s with bry := { s.bry with rx := s.bry.rx.erase f } }
  | none => s

/-- A row that reports a received packet: nothing where Brynade cannot act; a malformed packet is counted.
[DESIGN CHOICE: log entry 93.] -/
def State.onPacket (s : State) (t : Nat) (p : BryPacket) (k : State → State) : State :=
  let s := s.bryTake t p
  if !s.bryAlive then s
  else if !p.wellFormed then s.bump (P.bry + 0x860)
  else k s

def blankPacket (s : State) (dst flow : Nat) : BryPacket :=
  { src := BitVec.ofNat 16 s.moduleId, dst := BitVec.ofNat 16 dst, flow := BitVec.ofNat 16 flow, flags := 0, op := 0, pseq := 0
    jseq := 0, offset := 0, payload := [], wellFormed := true }

/-! ### Sender (R468, R470, R471) -/

/-- Packets below the latest credit limit leave, oldest first; before the first ACK there is no limit. -/
def State.pumpList (s : State) (f : Nat) (e : FlowEntry) : List BryPacket → State
  | [] => s.setFlow f { s.flow f with unsent := [] }
  | p :: ps =>
    if (s.flow f).credit.all (fun c => decide (0 < seqDiff p.pseq.toNat c)) then
      let s := (s.bryOut e.port e.ip e.mac 1 p).bump (P.bry + 0x800)
      State.pumpList (s.setFlow f { s.flow f with unacked := (s.flow f).unacked ++ [p] }) f e ps
    else s.setFlow f { s.flow f with unsent := p :: ps }

/-- [DEDUCED: log entry 94.] -/
def State.pump (s : State) (f : Nat) (e : FlowEntry) : State :=
  if (s.flow f).faulted then s else s.pumpList f e (s.flow f).unsent

/-- A transfer cut into packets of up to 1,408 bytes in ascending offset; a transfer of no byte is one empty packet. -/
def cutTransfer (b : BryPacket) (bs : List Byte) : List BryPacket :=
  let n := max 1 ((bs.length + 1407) / 1408)
  (List.range n).map (fun i =>
    { b with offset := BitVec.ofNat 32 (1408 * i), payload := (bs.drop (1408 * i)).take 1408, pseq := b.pseq + BitVec.ofNat 32 i
             flags := if i + 1 = n then 1 else 0 })

/-- A transfer of a job starts on send flow f. -/
def State.transfer (s : State) (f : Nat) (e : FlowEntry) (bs : List Byte) : State :=
  let x := s.flow f
  let ps := cutTransfer { blankPacket s e.peer f with pseq := BitVec.ofNat 32 x.txPseq, jseq := BitVec.ofNat 32 x.txJseq } bs
  (s.setFlow f { x with txPseq := (x.txPseq + ps.length) % 2 ^ 32, txJseq := (x.txJseq + 1) % 2 ^ 32, unsent := x.unsent ++ ps }).pump f e

/-- The flow is faulted: it sends nothing further. -/
def State.flowFault (s : State) (f : Nat) : State :=
  let old := ((s.flow f).unacked.head?.map (fun p => p.pseq.toNat)).getD (s.flow f).txPseq
  let s := s.setFlow f { s.flow f with faulted := true }
  let n := (s.bry.flows.filter (fun p => p.2.faulted)).length
  let s := if n = 1 then s.wr P.bry Reg.BRY_STAT_first f else s
  ((s.wr P.bry Reg.BRY_STAT_faulted n).bump (P.bry + 0x840)).raise (srcOf P.bry) 0x53 (le 2 f ++ le 1 1 ++ le 1 0 ++ le 4 old)

/-- The packets from pseq n on are sent again, or the flow is faulted after max_retry resends without an advance.
[DEDUCED: log entry 94.] -/
def State.resend (s : State) (f : Nat) (e : FlowEntry) (n : Nat) : State :=
  let x := s.flow f
  let ps := x.unacked.filter (fun p => decide (0 ≤ seqDiff n p.pseq.toNat))
  if x.faulted || ps.isEmpty then s
  else if s.maxRetry ≤ x.retries then s.flowFault f
  else
    let s := s.setFlow f { x with retries := x.retries + 1 }
    ps.foldl (fun s p => (s.bryOut e.port e.ip e.mac 1 { p with flags := p.flags ||| 2 }).bump (P.bry + 0x810)) s

/-- An ACK covers the packets below its pseq and carries the credit limit. [DEDUCED: log entry 94.] -/
def State.ackFlow (s : State) (f : Nat) (e : FlowEntry) (p : BryPacket) : State :=
  let x := s.flow f
  let n := p.pseq.toNat
  let base := (x.unacked.head?.map (fun q => q.pseq.toNat)).getD ((x.unsent.head?.map (fun q => q.pseq.toNat)).getD x.txPseq)
  if x.faulted || decide (seqDiff base n < 0) then s
  else
    let left := x.unacked.filter (fun q => decide (0 ≤ seqDiff n q.pseq.toNat))
    let adv := decide (left.length < x.unacked.length)
    (s.setFlow f { x with unacked := left, credit := some p.jseq.toNat, retries := if adv then 0 else x.retries }).pump f e

/-- The entry of a flow of this kind. -/
def State.flowKind (s : State) (f kind : Nat) : Option FlowEntry :=
  match s.flowEntry f with
  | some e => if e.kind = kind then some e else none
  | none => none

/-- The entry of flow f is read from DRAM (R254, R467). -/
def State.flowTouch (s : State) (f : Nat) : State :=
  if f < s.rd P.bry Reg.BRY_FLOW_N_n then
    (s.fetch bwNet (s.rd2 P.bry Reg.BRY_FLOW_BASE_addr_lo Reg.BRY_FLOW_BASE_addr_hi + 64 * f) 64).1
  else s

/-- A packet of a flow of this kind acts, where flows act at all; one that names no such flow is discarded and counted. -/
def State.onFlow (s : State) (f kind : Nat) (k : State → FlowEntry → State) : State :=
  if !s.flowsAlive then s
  else
    let s := s.flowTouch f
    match s.flowKind f kind with
    | some e => k s e
    | none => s.note P.bry .discarded

/-! ### Send rings (R468) -/

def State.sqBase (s : State) (c : Nat) : Nat := 0x1000000000 + s.rd P.bry Reg.BRY_SQ_addr c / 64 * 64

def State.sqSize (s : State) (c : Nat) : Nat :=
  let n := s.rd P.bry Reg.BRY_SQ_size_log2 c
  2 ^ (if 4 ≤ n ∧ n ≤ 10 then n else 4)

/-- The whole ring lies in one bank that is on and not under test (R75, R232). -/
def State.sqReach (s : State) (c : Nat) : Bool :=
  match bankAt (s.sqBase c) with
  | some b => s.bankOn b && !s.bankTested b && decide (bankAt (s.sqBase c + 64 + 16 * s.sqSize c - 1) = some b)
  | none => false

/-- The oldest request of context c's ring, its consumer index advanced. -/
def State.sqNext (s : State) (c : Nat) : Option (State × List Byte) :=
  let a := s.sqBase c
  let n := s.sqSize c
  let prod := unle (s.load a 4) % n
  let cons := unle (s.load (a + 4) 4) % n
  if s.rdb P.bry Reg.BRY_SQ_en c && s.sqReach c && decide (prod ≠ cons) then
    let s := s.dmaServed (a + 64 + 16 * cons) 16
    some (s.dmaPut bwNet (a + 4) (le 4 ((cons + 1) % n)), s.load (a + 64 + 16 * cons) 16)
  else none

/-! ### Receiver (R469, R470) -/

/-- An ACK (2) or NAK (3) with the next pseq expected and the credit limit. -/
def State.sendAck (s : State) (f : Nat) (e : FlowEntry) (t : Nat) : State :=
  let x := s.flow f
  let p := { blankPacket s e.peer f with
    pseq := BitVec.ofNat 32 x.rxPseq, jseq := BitVec.ofNat 32 (x.rxPseq + (e.lb - x.landing.length)) }
  let s := s.bryOut e.port e.ip e.mac t p
  if t = 2 then s.setFlow f { s.flow f with sinceAck := 0 } else s

/-- The payload's place lies where DMA for the context may write (R159, R291). [DEDUCED: log entry 96.] -/
def State.landReach (s : State) (e : FlowEntry) (off n : Nat) : Bool :=
  match s.waitEntry e.ctx e.engine e.wait with
  | some w => s.dmaReach e.ctx (w.1 + off) n
  | none => false

/-- An accepted packet lands, waits in the landing buffer, or belongs to a job that has ended.
[DEDUCED: log entry 96.] -/
def State.landPacket (s : State) (f : Nat) (e : FlowEntry) (p : BryPacket) : State :=
  let d := seqDiff (s.expectJseq e.ctx) p.jseq.toNat
  if s.jseqOver e.ctx p.jseq.toNat then s.bump (P.bry + 0x828)
  else if !s.landReach e p.offset.toNat p.payload.length then s.note P.bry .discarded
  else if d = 0 then s.waitLand e.ctx e.engine e.wait p.offset.toNat p.payload
  else (s.setFlow f { s.flow f with landing := (s.flow f).landing ++ [p] }).bump (P.bry + 0x838)

/-- A DATA packet on receive flow f. One that would overrun the landing buffer is taken as not arrived.
[DEDUCED: log entry 96.] -/
def State.dataFlow (s : State) (f : Nat) (e : FlowEntry) (p : BryPacket) : State :=
  let s := s.bump (P.bry + 0x808)
  let x := s.flow f
  let d := seqDiff x.rxPseq p.pseq.toNat
  if d < 0 then (s.bump (P.bry + 0x830)).sendAck f e 2
  else if 0 < d then
    if x.nakAt.all (fun t => decide (t + s.rtoNs ≤ s.now)) then
      ((s.sendAck f e 3).setFlow f { x with nakAt := some s.now }).bump (P.bry + 0x818)
    else s
  else if !s.jseqOver e.ctx p.jseq.toNat ∧ 0 < seqDiff (s.expectJseq e.ctx) p.jseq.toNat ∧ e.lb ≤ x.landing.length then s.note P.bry .discarded
  else
    let s := s.setFlow f { x with rxPseq := (x.rxPseq + 1) % 2 ^ 32, sinceAck := x.sinceAck + 1 }
    let s := s.landPacket f e p
    if e.ackN ≤ (s.flow f).sinceAck then s.sendAck f e 2 else s

def execBrynadeData (p : Fin 2) (pkt : BryPacket) (s : State) : Host.Outcome State Fault Refusal :=
  let _ := p
  fin (s.onPacket 1 pkt (fun s => s.onFlow pkt.flow.toNat 1 (fun s e =>
    if s.ctxResident e.ctx then s.dataFlow pkt.flow.toNat e pkt else s.note P.bry .discarded)))

/-- ACK_TIMER: 2 us after the first accepted packet that is not acknowledged. -/
def execAckTimer (flow : BitVec 12) (s : State) : Host.Outcome State Fault Refusal :=
  let f := flow.toNat
  match s.flowKind f 1 with
  | some e => if s.flowsAlive && decide (0 < (s.flow f).sinceAck) then fin (s.sendAck f e 2) else fin s
  | none => fin s

/-! ### The tree (R472) -/

/-- Neighbour k: 0 parent, 1 and 2 children; the neighbour's module number. -/
def State.nbr (s : State) (k : Nat) : Bool := s.rdb P.bry Reg.BRY_NBR_valid k

def State.nbrModule (s : State) (k : Nat) : Nat :=
  let i := s.moduleId
  if k = 0 then (i - 1) / 2 else 2 * i + k

/-- [DEDUCED: log entry 95.] -/
def State.nbrOf (s : State) (m : Nat) : Option Nat := (List.range 3).find? (fun k => s.nbr k && decide (s.nbrModule k = m))

/-- A packet to neighbour k. -/
def State.nbrOut (s : State) (k t : Nat) (p : BryPacket) : State :=
  let ip := s.rd P.bry Reg.BRY_NBR_ip k
  let mac := le 4 (s.rd P.bry Reg.BRY_NBR_mac_lo k) ++ le 2 (s.rd P.bry Reg.BRY_NBR_mac_hi k)
  s.bryOut (s.rd P.bry Reg.BRY_NBR_port k) (be16 (ip / 65536) ++ be16 ip) mac t p

/-- A message on the edge to neighbour k: it takes the edge's pseq and is held until it is acknowledged. -/
def State.edgeSend (s : State) (k : Nat) (p : BryPacket) : State :=
  if !s.nbr k || s.bry.edgeFaulted.contains k then s
  else
    let n := SMap.get s.bry.edgePseq k (0 : Nat)
    let p := { p with src := BitVec.ofNat 16 s.moduleId, dst := BitVec.ofNat 16 (s.nbrModule k), pseq := BitVec.ofNat 32 n, wellFormed := true }
    let b := s.bry
    let s := { s with bry := { b with edgePseq := SMap.set b.edgePseq k ((n + 1) % 2 ^ 32) 0
                                      edgeUnacked := SMap.set b.edgeUnacked k (SMap.get b.edgeUnacked k [] ++ [p]) [] } }
    s.nbrOut k 16 p

/-- Messages on the edge from n on are sent again; an edge gives up as a flow does. The flow its record names is not
given and is drawn. [DEDUCED: log entry 95.] -/
def State.edgeResend (s : State) (k : Nat) : State :=
  let b := s.bry
  let ps := SMap.get b.edgeUnacked k []
  let r := SMap.get b.edgeRetries k (0 : Nat)
  if b.edgeFaulted.contains k then s
  else match ps with
    | [] => s
    | p :: _ =>
      if s.maxRetry ≤ r then
        let s := { s with bry := { b with edgeFaulted := k :: b.edgeFaulted } }
        (s.draw.bump (P.bry + 0x840)).raise (srcOf P.bry) 0x53 (le 2 s.freeVal ++ le 1 1 ++ le 1 0 ++ le 4 p.pseq.toNat)
      else
        let s := { s with bry := { b with edgeRetries := SMap.set b.edgeRetries k (r + 1) 0 } }
        ps.foldl (fun s p => (s.nbrOut k 16 { p with flags := p.flags ||| 2 }).bump (P.bry + 0x810)) s

/-- An ACK with flag bit 3: it covers the messages of the edge below its pseq. -/
def State.edgeAck (s : State) (p : BryPacket) : State :=
  match s.nbrOf p.src.toNat with
  | none => s.note P.bry .discarded
  | some k =>
    let old := SMap.get s.bry.edgeUnacked k []
    let left := old.filter (fun q => decide (0 ≤ seqDiff p.pseq.toNat q.pseq.toNat))
    let b := s.bry
    { s with bry := { b with edgeUnacked := SMap.set b.edgeUnacked k left []
                             edgeRetries := if left.length < old.length then SMap.set b.edgeRetries k 0 0 else b.edgeRetries } }

def execBrynadeAck (p : Fin 2) (pkt : BryPacket) (s : State) : Host.Outcome State Fault Refusal :=
  let _ := p
  fin (s.onPacket 2 pkt (fun s =>
    if bit pkt.flags.toNat 3 then s.edgeAck pkt
    else s.onFlow pkt.flow.toNat 0 (fun s e => s.ackFlow pkt.flow.toNat e pkt)))

/-- A NAK resends from its pseq; its credit limit is the latest. -/
def execBrynadeNak (p : Fin 2) (pkt : BryPacket) (s : State) : Host.Outcome State Fault Refusal :=
  let _ := p
  let f := pkt.flow.toNat
  fin (s.onPacket 3 pkt (fun s => s.onFlow f 0 (fun s e =>
    if (s.flow f).faulted then s
    else ((s.setFlow f { s.flow f with credit := some pkt.jseq.toNat }).resend f e pkt.pseq.toNat).pump f e)))

/-- RETRANSMIT_TIMEOUT of a flow, or, from 4,096 on, of the tree edge to a neighbour. [DEDUCED: log entry 95.] -/
def State.retransmit (s : State) (f : Nat) : State :=
  if !s.bryAlive then s
  else if f < 4096 then
    match (if s.clocked then s.flowKind f 0 else none) with
    | some e => s.resend f e (((s.flow f).unacked.head?.map (fun p => p.pseq.toNat)).getD 0)
    | none => s
  else if f < 4099 then s.edgeResend (f - 4096)
  else s

def execRetransmitTimeout (flow : BitVec 13) (s : State) : Host.Outcome State Fault Refusal := fin (s.retransmit flow.toNat)

/-! ### Collectives (R473, R474) -/

/-- [DEDUCED: log entry 97.] -/
def State.coll1 (s : State) (id : Nat) : Coll := SMap.get s.bry.colls id default
def State.setColl (s : State) (id : Nat) (x : Coll) : State :=
  { s with bry := { s.bry with colls := SMap.set s.bry.colls id x default } }

/-- A COLL message: op, phase, instance, origin, payload. -/
def collPacket (s : State) (id op : Nat) (down : Bool) (inst origin : Nat) (bs : List Byte) : BryPacket :=
  { blankPacket s 0 id with op := BitVec.ofNat 8 op, flags := if down then 4 else 0, jseq := BitVec.ofNat 32 inst
                            offset := BitVec.ofNat 32 origin, payload := bs }

/-- The collective flow entry of an ID. -/
def State.collEntry (s : State) (id : Nat) : Option FlowEntry :=
  (List.range (s.rd P.bry Reg.BRY_FLOW_N_n)).findSome? (fun f => match s.flowKind f 2 with
    | some e => if e.peer = id then some e else none
    | none => none)

/-- A completed collective: its remote wait entry, its payload, its record. -/
def State.collDone (s : State) (id op inst : Nat) (bs : List Byte) (refused : Bool) : State :=
  let s := match s.collEntry id with
    | some e =>
      if 32 ≤ e.engine || op = 3 then s
      else
        let s := match s.waitEntry e.ctx e.engine e.wait with
          | some w => if op = 2 && s.dmaReach e.ctx w.1 bs.length then s.dmaPut bwNet w.1 bs else s
          | none => s
        s.waitMark e.ctx e.engine e.wait
    | none => s
  (s.bump (P.bry + 0x848)).raise (srcOf P.bry) 0x54 (le 1 id ++ le 1 op ++ le 2 0 ++ le 4 inst ++ le 1 (b2n refused))

/-- A farm-wide reset is refused here (R474). -/
def State.resetRefused (s : State) (bs : List Byte) : Bool :=
  let cmd := unle (bs.take 1)
  let c := unle ((bs.drop 1).take 1)
  let req := s.rd P.chip Reg.CHIP_READY_ctx_req
  !s.rdb P.bry Reg.BRY_CFG_coll_reset_en
    || (cmd = 4 && (decide (req ≠ 0) || (List.range 8).any (fun d => s.primEn d && s.ctxRuns d)))
    || (cmd = 2 && (bit req c || (s.primEn c && s.ctxRuns c)))

/-- Every child gets the down message; the module completes. A reset is applied after it has been forwarded. -/
def State.collDown (s : State) (id op inst origin : Nat) (bs : List Byte) : State :=
  let m := collPacket s id op true inst origin bs
  let s := (s.edgeSend 1 m).edgeSend 2 m
  let x := s.coll1 id
  let s := s.setColl id { x with instance_ := (inst + 1) % 2 ^ 32, joined := x.joined && op ≠ 1, upSent := x.upSent && op ≠ 1
                                 ups := x.ups.filter (fun u => u.2 ≠ inst || op ≠ 1), busy := x.busy && op = 1 }
  if op = 3 then
    let no := s.resetRefused bs
    let s := if no then s.bump (P.bry + 0x858) else s
    let s := s.collDone id op inst bs no
    if no then s
    else if unle (bs.take 1) = 2 then (let c := unle ((bs.drop 1).take 1); if c < 8 then s.contextReset c else s)
    else if unle (bs.take 1) = 4 then s.warmReset 5 0
    else s
  else s.collDone id op inst bs false

/-- A barrier goes up once the module and all its children have joined; the root turns it round. -/
def State.barrierGo (s : State) (id : Nat) : State :=
  let x := s.coll1 id
  let kids := ([1, 2] : List Nat).filter s.nbr
  if x.joined && !x.upSent && kids.all (fun k => x.ups.contains (k, x.instance_)) then
    if s.nbr 0 then
      (s.setColl id { x with upSent := true }).edgeSend 0 (collPacket s id 1 false x.instance_ 0 [])
    else s.collDown id 1 x.instance_ 0 []
  else s

/-- The module joins a barrier; a join of one that it has joined already is refused. [DEDUCED: log entry 97.] -/
def State.barrierJoin (s : State) (id : Nat) : State :=
  let x := s.coll1 id
  if x.joined || x.busy then s.bump (P.bry + 0x850) else (s.setColl id { x with joined := true }).barrierGo id

/-- A broadcast or reset starts at this module and goes up to the root. [DEDUCED: log entry 97.] -/
def State.collStart (s : State) (id op : Nat) (bs : List Byte) : State :=
  let x := s.coll1 id
  if x.joined || x.busy then s.bump (P.bry + 0x850)
  else
    let s := s.setColl id { x with busy := true }
    if s.nbr 0 then s.edgeSend 0 (collPacket s id op false x.instance_ s.moduleId bs)
    else s.collDown id op x.instance_ s.moduleId bs

/-- Only a module with coll_reset_en starts a reset, and only one of R474's two. [DEDUCED: log entry 98.] -/
def State.resetStart (s : State) (id arg : Nat) : State :=
  if s.rdb P.bry Reg.BRY_CFG_coll_reset_en && (arg % 256 = 2 || arg % 256 = 4) then s.collStart id 3 (le 2 arg)
  else s.bump (P.bry + 0x858)

/-- A message that arrived in order on the edge of neighbour k. -/
def State.collMessage (s : State) (k : Nat) (p : BryPacket) : State :=
  let id := p.flow.toNat % 256
  let op := p.op.toNat
  let inst := p.jseq.toNat
  if bit p.flags.toNat 2 then
    if k = 0 then s.collDown id op inst p.offset.toNat p.payload else s.note P.bry .discarded
  else if k = 0 then s.note P.bry .discarded
  else if op = 1 then
    (s.setColl id { s.coll1 id with ups := (s.coll1 id).ups ++ [(k, inst)] }).barrierGo id
  else if s.nbr 0 then s.edgeSend 0 { p with flags := 0 }
  else s.collDown id op inst p.offset.toNat p.payload

/-- BRYNADE_COLL: in pseq order on its edge, and acknowledged; a duplicate is acknowledged again. -/
def State.collPacketIn (s : State) (p : BryPacket) : State :=
  match s.nbrOf p.src.toNat with
  | none => s.note P.bry .discarded
  | some k =>
    let n := SMap.get s.bry.edgeRx k (0 : Nat)
    let d := seqDiff n p.pseq.toNat
    let ack := fun (s : State) (m : Nat) =>
      s.nbrOut k 2 { blankPacket s p.src.toNat p.flow.toNat with flags := 8, pseq := BitVec.ofNat 32 m }
    if d < 0 then ack (s.bump (P.bry + 0x830)) n
    else if 0 < d then s.note P.bry .discarded
    else
      let m := (n + 1) % 2 ^ 32
      let s := { s with bry := { s.bry with edgeRx := SMap.set s.bry.edgeRx k m 0 } }
      (ack s m).collMessage k p

def execBrynadeColl (p : Fin 2) (pkt : BryPacket) (s : State) : Host.Outcome State Fault Refusal :=
  let _ := p
  fin (s.onPacket 16 pkt (fun s => s.collPacketIn pkt))

/-- A word written to BRY_COLL with go = 1 (R473, R474, R479); a broadcast started so carries no payload.
[DEDUCED: log entry 98.] -/
def State.bryColl (s : State) (v arg : Nat) : State :=
  let id := v % 256
  if !bit v 12 || !s.bryAlive then s
  else match bits v 8 2 with
    | 1 => s.barrierJoin id
    | 2 => s.collStart id 2 []
    | 3 => s.resetStart id arg
    | _ => s

def execBarrierJoin (id : BitVec 8) (s : State) : Host.Outcome State Fault Refusal :=
  fin (s.onWrite (P.bry + 0xf0) (fun s => if s.bryAlive then s.barrierJoin id.toNat else s))

def execBroadcast (id : BitVec 8) (payload : List Byte) (s : State) : Host.Outcome State Fault Refusal :=
  if 1408 < payload.length then .refused .illFormed
  else if s.bryAlive then fin (s.collStart id.toNat 2 payload) else fin s

def execCollReset (id : BitVec 8) (arg : BitVec 16) (s : State) : Host.Outcome State Fault Refusal :=
  fin (s.onWrite (P.bry + 0xf0) (fun s => if s.bryAlive then s.resetStart id.toNat arg.toNat else s))

/-- The source of a request is read as DMA requests, where the context may (R232, R468); none where it may not, or where it comes
back poisoned. -/
def State.sendSource (s : State) (c a n : Nat) : State × Option (List Byte) :=
  if s.dmaReach c a n then
    let r := (s.dmaServed a n).fetch bwNet a n
    (r.1, if r.2 then none else some (r.1.load a n))
  else (s, none)

/-- A request of a send ring, on its flow: a transfer, a barrier join or a broadcast (R468). [DEDUCED: log entry 92.] -/
def State.sendRequest (s : State) (c f : Nat) (e : FlowEntry) (kind n a : Nat) : State :=
  if e.ctx ≠ c then s.note P.bry .discarded
  else if kind = 0 ∧ e.kind = 0 then
    (if (s.flow f).faulted then s
     else match s.sendSource c a n with
      | (s, some bs) => s.transfer f e bs
      | (s, none) => s.note P.bry .discarded)
  else if kind = 1 ∧ e.kind = 2 then s.barrierJoin e.peer
  else if kind = 2 ∧ e.kind = 2 ∧ n ≤ 1408 then
    (match s.sendSource c a n with
      | (s, some bs) => s.collStart e.peer 2 bs
      | (s, none) => s.note P.bry .discarded)
  else s.note P.bry .discarded

/-- The oldest request of a send ring. One that names no flow of its context, or whose source DMA may not read, is passed over
and counted. [DEDUCED: log entry 92.] -/
def State.sendTransfer (s : State) (c : Nat) : State :=
  if !s.flowsAlive then s
  else match s.sqNext c with
    | none => s
    | some (s, r) =>
      let f := unle (r.take 2)
      let s := s.flowTouch f
      match s.flowEntry f with
      | none => s.note P.bry .discarded
      | some e => s.sendRequest c f e (unle ((r.drop 2).take 1)) (unle ((r.drop 4).take 4)) (unle ((r.drop 8).take 5))

def execSendTransfer (c : Fin 8) (s : State) : Host.Outcome State Fault Refusal := fin (s.sendTransfer c)

end Sys2Proof.Machine
end

