-- ==== Sys2Proof/Machine/Archive.lean ====
section
/-! DEFINITION. The archive decoder: datasets, samples, batches, manifests, streams (R512 to R531). -/

namespace Sys2Proof.Machine

def State.arcState (s : State) (i : Nat) : Nat := s.rd (P.arcS i) Reg.ARC_SSTAT_state

/-! ### Dataset entries (R518) -/

structure DsEntry where
  addr : Nat
  len : Nat
  fmt : Nat
  whole : Bool
  c0 : Nat
  c1 : Nat
  l0 : Nat
  l1 : Nat
  pics : Nat
  bad : Bool

def readEntry (b : List Byte) : DsEntry :=
  let at_ := fun i n => unle ((b.drop i).take n)
  { addr := at_ 0 8 % 2 ^ 40, len := at_ 8 4, fmt := at_ 12 1, whole := bit (at_ 13 1) 0, c0 := at_ 16 2, c1 := at_ 18 2
    l0 := at_ 20 2, l1 := at_ 22 2, pics := at_ 24 1
    bad := decide (at_ 5 3 ≠ 0) || decide (2 < at_ 12 1) || decide (1 < at_ 13 1) || decide (at_ 14 2 ≠ 0) || decide (at_ 25 7 ≠ 0)
      || (decide (at_ 12 1 ≠ 2) && decide (at_ 24 1 ≠ 0)) }

def State.dsAddr (s : State) (i n : Nat) : Nat :=
  s.rd2 (P.arcS i) Reg.ARC_DS_BASE_addr_lo Reg.ARC_DS_BASE_addr_hi + 32 * n

def State.dsEntry (s : State) (i n : Nat) : DsEntry := readEntry (s.load (s.dsAddr i n) 32)

/-! ### Geometry (R513, R524) -/

def State.arcC (s : State) (i : Nat) : Nat := if s.rd (P.arcS i) Reg.ARC_SCFG_fmt % 2 = 1 then 3 else 1
def State.arcB (s : State) (i : Nat) : Nat := if 2 ≤ s.rd (P.arcS i) Reg.ARC_SCFG_fmt then 2 else 1

/-- B, the slots of a batch. -/
def State.arcSlots (s : State) (i : Nat) : Nat := s.rd (P.arcS i) Reg.ARC_SCFG_b_m1 + 1

/-- Positions of the batch ring. -/
def State.arcRing (s : State) (i : Nat) : Nat :=
  let n := s.rd (P.arcS i) Reg.ARC_SCFG_nbat_log2
  2 ^ (if n = 0 ∨ n = 7 then 1 else n)

/-- Z_a: L_p of the largest width by the largest height, rounded up to 4 KiB. -/
def State.arcZ (s : State) (i : Nat) : Nat :=
  let lp := align64 (s.rd (P.arcS i) Reg.ARC_GEOM_wmax * s.arcC i * s.arcB i)
  (lp * s.rd (P.arcS i) Reg.ARC_GEOM_hmax + 4095) / 4096 * 4096

/-- Ring position of the batch being filled. -/
def State.arcPos (s : State) (i : Nat) : Nat := s.rd (P.arcS i) Reg.ARC_BATCH_CUR_batch % s.arcRing i

def State.slotBase (s : State) (i j : Nat) : Nat :=
  s.rd2 (P.arcS i) Reg.ARC_OUT_BASE_addr_lo Reg.ARC_OUT_BASE_addr_hi + (s.arcPos i * s.arcSlots i + j) * s.arcZ i

/-! ### Validation and decoding (R512 to R517) -/

/-- The features and limits of R512. -/
def inLimits (fmt : Nat) (h : SampleHeader) : Bool :=
  let w := h.width.toNat
  let l := h.height.toNat
  let n := h.comps.toNat
  let p := h.precision.toNat
  h.supported && decide (1 ≤ w) && decide (1 ≤ l) &&
    (if fmt = 0 then decide (w ≤ 32768) && decide (l ≤ 65535) && decide (p = 8) && (n = 1 || n = 3)
    else if fmt = 1 then decide (w ≤ 32768) && decide (l ≤ 65535) && decide (2 ≤ p) && decide (p ≤ 16) && (n = 1 || n = 3)
    else decide (w ≤ 8444) && decide (l ≤ 8444) && decide (w * l ≤ 8912896))

/-- The declared content is more than the bitstream can fill (R516). [DEDUCED: log entry 100.] -/
def overfull (fmt : Nat) (h : SampleHeader) : Bool :=
  let l := h.dataBytes.toNat
  decide ((if fmt = 0 then 4 * l else if fmt = 1 then 8 * l else 2 ^ 20 * l) < h.content.toNat)

/-- Component count and precision fit C and b (R513). [DEDUCED: log entry 100.] -/
def fitsFmt (c b fmt : Nat) (h : SampleHeader) : Bool :=
  (decide (h.precision.toNat ≤ 8) || b = 2) && (decide (h.comps.toNat = c) || (c = 1 && fmt ≠ 1 && decide (h.comps.toNat = 3)))

/-- The corrupt cause of a sample, 0 where it is good: the entry's own, then in the order of R517.
[DEDUCED: log entry 100.] -/
def State.arcCause (s : State) (i : Nat) (e : DsEntry) (h : SampleHeader) (tableOk dataRead : Bool) : Nat :=
  let w := h.width.toNat
  let l := h.height.toNat
  if !tableOk then 6
  else if e.bad then 1
  else if !h.readOk || !dataRead then 6
  else if !h.syntaxOk then 1
  else if !inLimits e.fmt h then 2
  else if overfull e.fmt h then 3
  else if s.rd (P.arcS i) Reg.ARC_GEOM_wmax < w ∨ s.rd (P.arcS i) Reg.ARC_GEOM_hmax < l ∨ !fitsFmt (s.arcC i) (s.arcB i) e.fmt h then 4
  else if !h.dataOk then (if e.fmt = 2 then 7 else 5)
  else if !e.whole && (decide (e.c1 < e.c0) || decide (e.l1 < e.l0) || decide (w ≤ e.c1) || decide (l ≤ e.l1)) then 8
  else 0

/-- R, G, B of a pixel from Y, Cb, Cr at precision p (R514). [DESIGN CHOICE: log entry 103.] -/
def toRgb (p c : Nat) (y cb cr : Int) : Nat :=
  let o : Int := (2 ^ (p - 1) : Nat)
  let top : Int := (2 ^ p - 1 : Nat)
  let v := if c = 0 then y + rshift (91881 * (cr - o)) 16
    else if c = 1 then y - rshift (22554 * (cb - o) + 46802 * (cr - o)) 16
    else y + rshift (116130 * (cb - o)) 16
  (max 0 (min top v)).toNat

/-- Channel c of pixel x, y of a decoded sample. [DESIGN CHOICE: log entry 103.] -/
def decoded (bs : List Byte) (e : DsEntry) (q : Position) (chans x y c : Nat) : Nat :=
  let sub := Config.archSub bs
  let pl := fun k => if k = 0 then Config.archPlane bs e.fmt e.pics 0 x y
    else Config.archPlane bs e.fmt e.pics k (x / max 1 sub.1) (y / max 1 sub.2)
  if chans = 1 then pl 0
  else if e.fmt = 1 || (e.fmt = 0 && Config.archRaw bs) then Config.archPlane bs e.fmt e.pics c x y
  else toRgb q.prec c (pl 0 : Nat) (pl 1 : Nat) (pl 2 : Nat)

/-- The sample's lines go into slot j of the batch. [DESIGN CHOICE: log entry 103.] -/
def State.slotStore (s : State) (i j : Nat) (q : Position) : State :=
  let e := s.dsEntry i q.sample
  let bs := s.load e.addr e.len
  let ch := s.arcC i
  let b := s.arcB i
  let a := s.slotBase i j
  let lp := align64 (q.width * ch * b)
  let s := (List.range q.height).foldl (fun s y =>
    s.put bwArch (a + y * lp) ((List.range q.width).flatMap (fun x => (List.range ch).flatMap (fun c => le b (decoded bs e q ch x y c))))) s
  s.bump (P.arcG + 0x810) (q.width * q.height)

/-! ### The cache (R526) -/

/-- Bytes that a cached sample takes; a corrupt one takes none. [DESIGN CHOICE: log entry 102.] -/
def State.cacheBytes (s : State) (i : Nat) (q : Position) : Nat :=
  if q.cause = 0 then align64 (q.width * s.arcC i * s.arcB i) * q.height else 0

/-- The most recently used entries that fit. [DESIGN CHOICE: log entry 102.] -/
def cacheFit (size : Position → Nat) : Nat → List (Nat × Position) → List (Nat × Position)
  | _, [] => []
  | n, p :: ps => if size p.2 ≤ n then p :: cacheFit size (n - size p.2) ps else []

def State.cacheKey (s : State) (i n : Nat) : Nat := s.rd (P.arcS i) Reg.ARC_DS_ID_id * 2 ^ 32 + n

/-- [DESIGN CHOICE: log entry 102.] -/
def State.cacheUse (s : State) (i : Nat) (q : Position) : State :=
  let size := 2 ^ 20 * s.rd P.arcG Reg.ARC_CACHE_SIZE_size
  let k := s.cacheKey i q.sample
  if size = 0 ∨ q.cause = 6 then s
  else { s with cache := cacheFit (s.cacheBytes i) size ((k, q) :: s.cache.filter (fun p => p.1 ≠ k)) }

/-- The resolution of a position: from the cache, or from the decoder.
[DEDUCED: log entry 100.] [DESIGN CHOICE: log entry 102.] -/
def State.arcResolve (s : State) (i n : Nat) (h : SampleHeader) : State × Position :=
  let hit := if s.rd P.arcG Reg.ARC_CACHE_SIZE_size = 0 then none
    else List.find? (fun (p : Nat × Position) => p.1 = s.cacheKey i n) s.cache
  match hit with
  | some p => ((s.cacheUse i p.2).bump (P.arcG + 0x808), p.2)
  | none =>
    let t := s.fetch bwArch (s.dsAddr i n) 32
    let s := t.1
    let e := s.dsEntry i n
    let d := if t.2 || e.bad then (s, false) else s.fetch bwArch e.addr e.len
    let s := d.1
    let q : Position := { sample := n, cause := s.arcCause i e h (!t.2) (!d.2), width := h.width.toNat
                          height := h.height.toNat, comps := h.comps.toNat, prec := h.precision.toNat }
    let s := s.bump (P.arcG + (if q.cause = 0 then 0x800 else 0x818))
    (s.cacheUse i q, q)

/-! ### Walking (R523, R524) -/

def Stream.good (x : Stream) : Nat := x.walked.countP (fun p => p.2.cause = 0)

/-- The position of the batch being filled is free. [DEDUCED: log entry 101.] -/
def State.arcFree (s : State) (i : Nat) : Bool := !(s.stream i).closed.any (fun p => p.2 = s.arcPos i)

/-- Positions are walked in order while they are resolved and the batch has room. [DEDUCED: log entry 104.] -/
def State.arcWalk (s : State) (i : Nat) : Nat → State
  | 0 => s
  | n + 1 =>
    let x := s.stream i
    match SMap.find? x.resolved x.next with
    | none => s.clrBlk (P.arcS i) 8
    | some q =>
      if s.arcSlots i ≤ x.good then s
      else
        let y := { x with next := x.next + 1, resolved := SMap.erase x.resolved x.next, walked := x.walked ++ [(x.first + x.next, q)] }
        if q.cause ≠ 0 then
          State.arcWalk ((s.setStream i { y with corrupt := y.corrupt + 1 }).bump (P.arcS i + 0x808)) i n
        else if !s.arcFree i then s.setBlk (P.arcS i) 8
        else State.arcWalk (((s.clrBlk (P.arcS i) 8).setStream i y).slotStore i x.good q |>.bump (P.arcS i + 0x800)) i n

/-- The stream walks positions now. -/
def State.arcRuns (s : State) (i : Nat) : Bool := (s.arcState i = 2 || s.arcState i = 3) && s.clocked && s.works P.arcG

/-- SAMPLE_DECODED: up to 64 positions ahead. -/
def State.sampleDecoded (s : State) (i pos : Nat) (h : SampleHeader) : State :=
  let x := s.stream i
  let k := pos - x.first
  if !s.arcRuns i || decide (pos < x.first) || decide (k < x.next) || decide (x.next + 64 ≤ k) || decide (x.order.length ≤ k)
      || (SMap.find? x.resolved k).isSome then s
  else
    let r := s.arcResolve i (x.order.getD k 0) h
    (r.1.setStream i { x with resolved := SMap.insert x.resolved k r.2 }).arcWalk i 65

def execSampleDecoded (s : Fin 64) (pos : BitVec 25) (h : SampleHeader) (st : State) : Host.Outcome State Fault Refusal :=
  fin (st.sampleDecoded s pos.toNat h)

/-! ### Epochs (R521, R522, R527) -/

def State.arcRecord (s : State) (i status : Nat) : State :=
  s.raise 0xc00 0x69 (le 1 i ++ le 1 status ++ le 2 0 ++ le 4 (s.stream i).corrupt ++ le 4 (s.rd (P.arcS i) Reg.ARC_EPOCH_CUR_epoch))

/-- The stream enters idle. -/
def State.arcIdle (s : State) (i : Nat) : State :=
  let p := P.arcS i
  let s := ((s.clrBlk p 8).clrBlk p 9).clrBlk p 10
  ((s.wr p Reg.ARC_SSTAT_state 0).wr p Reg.ARC_SSTAT_res 0).setStream i default

/-- An epoch begins: its order table is to be written. -/
def State.epochStart (s : State) (i epoch : Nat) : State :=
  let p := P.arcS i
  let x := s.stream i
  let s := s.setStream i { x with order := [], first := 0, next := 0, resolved := [], walked := [], corrupt := 0 }
  ((((s.wr p Reg.ARC_EPOCH_CUR_epoch epoch).wr p Reg.ARC_BATCH_CUR_batch 0).wr p Reg.ARC_SSTAT_state 1).setBlk p 10)

/-- An epoch is done: the next one begins, or the stream enters idle. -/
def State.epochEnd (s : State) (i : Nat) : State :=
  let s := s.arcRecord i 0
  let x := s.stream i
  if x.stopAsked || decide (x.epochs = 0) then s.arcIdle i
  else (s.setStream i { x with epochs := x.epochs - 1 }).epochStart i ((s.rd (P.arcS i) Reg.ARC_EPOCH_CUR_epoch + 1) % 2 ^ 32)

/-- Put an index into a list that rises by key. [DEDUCED: log entry 104.] -/
def keyInsert (p : Nat × Nat) : List (Nat × Nat) → List (Nat × Nat)
  | [] => [p]
  | q :: l => if p.1 < q.1 ∨ (p.1 = q.1 ∧ p.2 < q.2) then p :: q :: l else q :: keyInsert p l

/-- The order of an epoch's samples. [DEDUCED: log entry 104.] -/
def State.orderTable (s : State) (i : Nat) : List Nat :=
  let p := P.arcS i
  let n := s.rd p Reg.ARC_DS_N_n
  if s.rdb p Reg.ARC_SCFG_shuffle then
    let seed := s.seedBytes (s.rd p Reg.ARC_SCFG_ctx)
    let key := fun k => unle ((sha512 (seed ++ le 4 (s.rd p Reg.ARC_DS_ID_id) ++ le 4 (s.rd p Reg.ARC_EPOCH_CUR_epoch) ++ le 4 k)).take 8)
    ((List.range n).foldl (fun l k => keyInsert (key k, k) l) []).map Prod.snd
  else List.range n

/-- ORDER_TABLE_DONE: the firmware has written the order table (R521); walking begins over the positions this module
takes; an empty shard closes the epoch. -/
def State.orderDone (s : State) (i : Nat) : State :=
  let p := P.arcS i
  if s.arcState i ≠ 1 || !s.hearthRuns then s
  else
    let l := s.orderTable i
    let n := l.length
    let k := max 1 (s.rd P.bry Reg.BRY_FARM_n)
    let sz := (n + k - 1) / k
    let a := if s.rdb p Reg.ARC_SCFG_shard then min n (s.moduleId * sz) else 0
    let b := if s.rdb p Reg.ARC_SCFG_shard then min n ((s.moduleId + 1) * sz) else n
    let s := (s.setStream i { s.stream i with order := (l.drop a).take (b - a), first := a }).clrBlk p 10
    let s := s.wr p Reg.ARC_SSTAT_state (if (s.stream i).stopAsked then 3 else 2)
    if b ≤ a then s.epochEnd i else s

def execOrderTableDone (s : Fin 64) (st : State) : Host.Outcome State Fault Refusal := fin (st.orderDone s)

/-! ### Batches and manifests (R520, R525, R531) -/

def State.manLog (s : State) (i : Nat) : Nat :=
  let n := s.rd (P.arcS i) Reg.ARC_MAN_CFG_size_log2
  if 8 ≤ n ∧ n ≤ 16 then n else 12

/-- Free entries of the manifest ring. [DEDUCED: log entry 101.] -/
def State.manFree (s : State) (i : Nat) : Nat :=
  let n := 2 ^ s.manLog i
  n - 1 - (s.rd (P.arcS i) Reg.ARC_MAN_CFG_prod + n - s.rd (P.arcS i) Reg.ARC_MAN_CONS_cons % n) % n

/-- Manifest entries from the producer index on. -/
def State.manPut (s : State) (i : Nat) : List (List Byte) → State
  | [] => s
  | e :: es =>
    let p := P.arcS i
    let k := s.rd p Reg.ARC_MAN_CFG_prod
    let s := s.put bwArch (s.rd2 p Reg.ARC_MAN_BASE_addr_lo Reg.ARC_MAN_BASE_addr_hi + 16 * k) e
    State.manPut (s.wr p Reg.ARC_MAN_CFG_prod ((k + 1) % 2 ^ s.manLog i)) i es

/-- The entries of the positions walked, numbering the slots from j on. -/
def manSamples : Nat → List (Nat × Position) → List (List Byte)
  | _, [] => []
  | j, p :: ps =>
    if p.2.cause = 0 then (le 1 2 ++ le 1 j ++ le 2 0 ++ le 4 p.1 ++ le 6 p.2.sample ++ le 2 0) :: manSamples (j + 1) ps
    else (le 1 3 ++ le 1 0xff ++ le 2 p.2.cause ++ le 4 p.1 ++ le 6 p.2.sample ++ le 2 0) :: manSamples j ps

/-- The batch's manifest. -/
def State.manifest (s : State) (i : Nat) : List (List Byte) :=
  let x := s.stream i
  let good := x.good
  let bad := x.walked.length - good
  let pads := s.arcSlots i - good
  [le 1 1 ++ le 1 i ++ le 2 good ++ le 4 (s.rd (P.arcS i) Reg.ARC_BATCH_CUR_batch) ++ le 2 bad ++ le 2 pads ++ le 2 0
      ++ le 2 (s.rd (P.arcS i) Reg.ARC_EPOCH_CUR_epoch)]
    ++ manSamples 0 x.walked ++ (List.range pads).map (fun j => le 1 4 ++ le 1 0 ++ le 2 (good + j) ++ le 12 0)

/-- The descriptor of the sample in slot j (R520). -/
def State.arcDesc (s : State) (i j : Nat) (q : Position) : List Byte :=
  let p := P.arcS i
  let e := s.dsEntry i q.sample
  let c := if e.whole then (0, q.width - 1, 0, q.height - 1) else (e.c0, e.c1, e.l0, e.l1)
  let res := s.rd2 p Reg.ARC_RES_BASE_addr_lo Reg.ARC_RES_BASE_addr_hi + (s.arcPos i * s.arcSlots i + j) * 64
  le 8 (s.slotBase i j) ++ le 2 q.width ++ le 2 q.height ++ le 2 c.1 ++ le 2 c.2.1 ++ le 2 c.2.2.1 ++ le 2 c.2.2.2 ++ le 4 0 ++ le 8 res
    ++ le 4 (s.rd p Reg.ARC_BATCH_CUR_batch) ++ le 2 j ++ le 2 i ++ le 1 1 ++ le 1 (2 * s.rd p Reg.ARC_SCFG_done_evt) ++ le 6 0
    ++ le 6 q.sample ++ le 1 0 ++ le 1 2 ++ le 4 (s.rd p Reg.ARC_DS_ID_id) ++ le 4 (s.rd p Reg.ARC_EPOCH_CUR_epoch)

/-- Free places of context c's host job ring. [DEDUCED: log entry 101.] -/
def State.hqFree (s : State) (c : Nat) : Nat :=
  let n := 2 ^ s.hqLog c
  n - 1 - ((s.ctx c).hostProd % n + n - s.rd (P.schC c) Reg.SCH_CTX_HQ_cons) % n

/-- One descriptor goes into the ring and is announced. -/
def State.hqPut (s : State) (c : Nat) (d : List Byte) : State :=
  let i := (s.ctx c).hostProd % 2 ^ s.hqLog c
  let s := s.put bwArch (s.rd2 (P.schC c) Reg.SCH_CTX_HQ_BASE_lo Reg.SCH_CTX_HQ_BASE_hi / 64 * 64 + 64 * i) d
  s.setCtx c { s.ctx c with hostQ := (s.ctx c).hostQ ++ [HostItem.ring], hostProd := (i + 1) % 2 ^ s.hqLog c }

/-- BATCH_CLOSE: a full batch, or the last of the epoch; it waits for manifest space and for the job ring.
[DEDUCED: log entry 101.] -/
def State.batchClose (s : State) (i : Nat) : State :=
  let p := P.arcS i
  let x := s.stream i
  let c := s.rd p Reg.ARC_SCFG_ctx
  let done := x.order.length ≤ x.next
  if !s.arcRuns i || !(decide (s.arcSlots i ≤ x.good) || (done && !x.walked.isEmpty)) || !s.arcFree i then s
  else
    let m := s.manifest i
    if s.manFree i < m.length then s.setBlk p 9
    else if s.hqFree c < x.good then s
    else
      let s := (s.clrBlk p 9).manPut i m
      let js := (x.walked.filter (fun q => q.2.cause = 0)).zipIdx
      let s := (js.map (fun q => s.arcDesc i q.2 q.1.2)).foldl (fun s d => s.hqPut c d) s
      let n := s.rd p Reg.ARC_BATCH_CUR_batch
      let s := s.raise 0xc00 0x68 (le 1 i ++ le 1 0 ++ le 2 x.good ++ le 4 n ++ le 4 (s.rd p Reg.ARC_EPOCH_CUR_epoch)
        ++ le 2 (x.walked.length - x.good))
      let s := (s.bump (p + 0x810) (s.arcSlots i - x.good)).bump (p + 0x818)
      let s := s.setStream i { x with walked := [], total := x.total + 1, closed := x.closed ++ [(x.total, s.arcPos i)] }
      let s := s.wr p Reg.ARC_BATCH_CUR_batch (n + 1)
      if done then s.epochEnd i
      else if x.stopAsked then (s.arcRecord i 1).arcIdle i
      else s.arcWalk i 65

def execBatchClose (s : Fin 64) (st : State) : Host.Outcome State Fault Refusal := fin (st.batchClose s)

/-! ### ARC_SCTL (R527, R530) -/

/-- The result code of START. [DEDUCED: log entry 99.] -/
def State.arcCode (s : State) (i : Nat) : Nat :=
  let p := P.arcS i
  let c := s.rd p Reg.ARC_SCFG_ctx
  let n := s.rd p Reg.ARC_DS_N_n
  let w := s.rd p Reg.ARC_GEOM_wmax
  let al := fun (lo hi : Fld) (k : Nat) => decide (s.rd2 p lo hi % k = 0)
  if s.arcState i ≠ 0 then 4
  else if s.inFault P.arcG then 7
  else if (s.ctxState c ≠ ctxRunning ∧ s.ctxState c ≠ ctxStandby) ∨ s.primEn c then 1
  else if n = 0 ∨ 16777216 < n ∨ w = 0 ∨ 32768 < w ∨ s.rd p Reg.ARC_GEOM_hmax = 0 then 2
  else if !al Reg.ARC_DS_BASE_addr_lo Reg.ARC_DS_BASE_addr_hi 64 || !al Reg.ARC_OUT_BASE_addr_lo Reg.ARC_OUT_BASE_addr_hi 4096
      || !al Reg.ARC_MAN_BASE_addr_lo Reg.ARC_MAN_BASE_addr_hi 4096 || !al Reg.ARC_RES_BASE_addr_lo Reg.ARC_RES_BASE_addr_hi 64
      || decide (2 ^ s.manLog i ≤ s.arcSlots i + 1) || decide (2 ^ s.hqLog c ≤ s.arcSlots i) then 3
  else 0

/-- START; an accepted one also takes up a decoder that was held idle after a fault (R105). [DEDUCED: log entry 99.] -/
def State.arcStart (s : State) (i : Nat) : State :=
  let p := P.arcS i
  match s.arcCode i with
  | 0 =>
    let s := ((s.resume P.arcG).wr p Reg.ARC_SSTAT_res 0).setStream i { (default : Stream) with epochs := max 1 (s.rd p Reg.ARC_EPN_count) - 1 }
    s.epochStart i (s.rd p Reg.ARC_EP0_epoch)
  | code => s.wr p Reg.ARC_SSTAT_res code

/-- STOP: at the next batch close; a stream in state 4 returns to idle. [DEDUCED: log entry 99.] -/
def State.arcStop (s : State) (i : Nat) : State :=
  let p := P.arcS i
  if s.arcState i = 4 then s.arcIdle i
  else if s.arcState i = 0 then s.wr p Reg.ARC_SSTAT_res 4
  else
    let s := s.setStream i { s.stream i with stopAsked := true }
    if s.arcState i = 1 then s else s.wr p Reg.ARC_SSTAT_state 3

/-- ABORT: the batch being filled is discarded. [DEDUCED: log entry 99.] -/
def State.arcAbort (s : State) (i : Nat) : State :=
  if s.arcState i = 4 then s.arcIdle i
  else if s.arcState i = 0 then s.wr (P.arcS i) Reg.ARC_SSTAT_res 4
  else (s.arcRecord i 1).arcIdle i

/-- A word written to ARC_SCTL. -/
def State.arcCtl (s : State) (i v : Nat) : State :=
  if bits v 16 16 ≠ 0xa4c7 then s.note (P.arcS i) .ignoredWrite
  else match v % 4 with
    | 1 => s.arcStart i
    | 2 => s.arcStop i
    | 3 => s.arcAbort i
    | _ => s

def execArcStart (s : Fin 64) (v : Word) (st : State) : Host.Outcome State Fault Refusal :=
  fin (st.onWrite (P.arcS s + 0x7c) (fun st => st.arcCtl s v.toNat))
def execArcStop (s : Fin 64) (v : Word) (st : State) : Host.Outcome State Fault Refusal :=
  fin (st.onWrite (P.arcS s + 0x7c) (fun st => st.arcCtl s v.toNat))
def execArcAbort (s : Fin 64) (v : Word) (st : State) : Host.Outcome State Fault Refusal :=
  fin (st.onWrite (P.arcS s + 0x7c) (fun st => st.arcCtl s v.toNat))

/-- A write of ARC_BCONS: positions it has passed are free. [DEDUCED: log entry 101.] -/
def State.bconsWrite (s : State) (i v : Nat) : State :=
  let s := s.wr (P.arcS i) Reg.ARC_BCONS_batches v
  let x := s.stream i
  let s := s.setStream i { x with closed := x.closed.filter (fun p => decide (v ≤ p.1 % 2 ^ 32)) }
  if s.arcRuns i then s.arcWalk i 65 else s

def execArcBconsWrite (s : Fin 64) (v : Word) (st : State) : Host.Outcome State Fault Refusal :=
  fin (st.onWrite (P.arcS s + 0x78) (fun st => st.bconsWrite s v.toNat))

/-- A write of ARC_MAN_CONS: a batch that waits for manifest space closes. -/
def State.manConsWrite (s : State) (i v : Nat) : State :=
  let s := s.wr (P.arcS i) Reg.ARC_MAN_CONS_cons v
  if bit (s.rd (P.arcS i) Reg.BLK_STAT_blk) 1 then s.batchClose i else s

def execArcManConsWrite (s : Fin 64) (v : Word) (st : State) : Host.Outcome State Fault Refusal :=
  fin (st.onWrite (P.arcS s + 0x74) (fun st => st.manConsWrite s v.toNat))

end Sys2Proof.Machine
end

