-- ==== Sys2Proof/Machine/Ed25519.lean ====
section
/-! DEFINITION. Ed25519 as R532 uses it (the algorithm itself is RFC 8032's, log entry 128, PRESUMED): the check of
a signature by the cofactored equation with canonical encodings, and signing, over natural numbers modulo 2^255 - 19. -/

namespace Sys2Proof.Machine

/-- The field's prime and the group's order. -/
abbrev edP : Nat := 0x7fffffffffffffffffffffffffffffffffffffffffffffffffffffffffffffed
abbrev edL : Nat := 0x1000000000000000000000000000000014def9dea2f79cd65812631a5cf5d3ed

/-- The curve's constant d, and a square root of -1. -/
abbrev edD : Nat := 0x52036cee2b6ffe738cc740797779e89800700a4d4141d8ab75eb4dca135978a3
abbrev edI : Nat := 0x2b8324804fc1df0b2b4d00993dfbd7a72f431806ad2fe478c4ee1b274a0ea0b0

/-- A point x = X/Z, y = Y/Z, xy = T/Z. -/
structure EdPoint where
  x : Nat
  y : Nat
  z : Nat
  t : Nat
  deriving DecidableEq, Repr

def edSub (a b : Nat) : Nat := (a + (edP - b % edP)) % edP

def edAdd (p q : EdPoint) : EdPoint :=
  let a := edSub p.y p.x * edSub q.y q.x % edP
  let b := (p.y + p.x) * (q.y + q.x) % edP
  let c := 2 * p.t * q.t * edD % edP
  let d := 2 * p.z * q.z % edP
  let e := edSub b a
  let f := edSub d c
  let g := (d + c) % edP
  let h := (b + a) % edP
  { x := e * f % edP, y := g * h % edP, z := f * g % edP, t := e * h % edP }

def edZero : EdPoint := ⟨0, 1, 1, 0⟩

/-- acc + [k]p over n bits of k, lowest first. -/
def edMul : Nat → Nat → EdPoint → EdPoint → EdPoint
  | 0, _, _, acc => acc
  | n + 1, k, p, acc => edMul n (k / 2) (edAdd p p) (if k % 2 = 1 then edAdd acc p else acc)

/-- [8]p. -/
def edEight (p : EdPoint) : EdPoint :=
  let p2 := edAdd p p
  let p4 := edAdd p2 p2
  edAdd p4 p4

/-- b^k modulo the prime over n bits of k. -/
def edPow : Nat → Nat → Nat → Nat → Nat
  | 0, _, _, acc => acc
  | n + 1, b, k, acc => edPow n (b * b % edP) (k / 2) (if k % 2 = 1 then acc * b % edP else acc)

def edInv (a : Nat) : Nat := edPow 255 a (edP - 2) 1

def edBase : EdPoint :=
  let x := 0x216936d3cd6e53fec0a4e231fdd6dc5c692cc7609525a7b2c9562d608f25d51a
  let y := 0x6666666666666666666666666666666666666666666666666666666666666658
  { x := x, y := y, z := 1, t := x * y % edP }

/-- A square root of u / v modulo the prime, where there is one. -/
def edRoot (u v : Nat) : Option Nat :=
  let v3 := v * v % edP * v % edP
  let v7 := v3 * v3 % edP * v % edP
  let x := u * v3 % edP * edPow 252 (u * v7 % edP) ((edP - 5) / 8) 1 % edP
  let w := v * x % edP * x % edP
  if w = u % edP then some x
  else if w = edSub 0 u then some (x * edI % edP)
  else none

/-- The point of a canonical 32-byte encoding. -/
def edDecode (b : List Byte) : Option EdPoint :=
  let n := unle b
  let y := n % 2 ^ 255
  if b.length ≠ 32 ∨ edP ≤ y then none
  else
    match edRoot (edSub (y * y) 1) (edD * (y * y % edP) % edP + 1) with
    | none => none
    | some x =>
      if x = 0 ∧ bit n 255 then none
      else
        let x := if x % 2 = b2n (bit n 255) then x else edP - x
        some { x := x, y := y, z := 1, t := x * y % edP }

def edEncode (p : EdPoint) : List Byte :=
  let i := edInv p.z
  let x := p.x * i % edP
  let y := p.y * i % edP
  le 32 (y + 2 ^ 255 * (x % 2))

/-- The same point. -/
def edEq (p q : EdPoint) : Bool :=
  decide (p.x * q.z % edP = q.x * p.z % edP) && decide (p.y * q.z % edP = q.y * p.z % edP)

/-- R532: the key and the point are canonical, S lies below the group order, and [8][S]B = [8]P + [8][k]A.
[PRESUMED: log entry 128.] -/
def edVerify (key msg sig : List Byte) : Bool :=
  let pb := sig.take 32
  let sv := unle (sig.drop 32)
  match edDecode key, edDecode pb with
  | some a, some p =>
    if sig.length ≠ 64 ∨ edL ≤ sv then false
    else
      let k := unle (sha512 (pb ++ key ++ msg)) % edL
      edEq (edMul 253 sv (edEight edBase) edZero) (edMul 253 k (edEight a) (edEight p))
  | _, _ => false

/-- The secret scalar of a seed. -/
def edScalar (seed : List Byte) : Nat :=
  let n := unle ((sha512 seed).take 32)
  n / 8 % 2 ^ 251 * 8 + 2 ^ 254

/-- The public key of a seed. [PRESUMED: log entry 128.] -/
def edPublic (seed : List Byte) : List Byte := edEncode (edMul 255 (edScalar seed) edBase edZero)

/-- The signature of a message under a seed. [PRESUMED: log entry 128.] -/
def edSign (seed msg : List Byte) : List Byte :=
  let key := edPublic seed
  let r := unle (sha512 ((sha512 seed).drop 32 ++ msg)) % edL
  let pb := edEncode (edMul 253 r edBase edZero)
  let k := unle (sha512 (pb ++ key ++ msg)) % edL
  pb ++ le 32 ((r + k * edScalar seed) % edL)

end Sys2Proof.Machine
end

