-- ==== Sys2Proof/Machine/Temper.lean ====
section
/-! DEFINITION. Temper: signed objects, device identity, life cycle, owner keys, the firmware images and their handover,
attestation (R532 to R558). -/

namespace Sys2Proof.Machine

/-! ### Signed objects (R533 to R536) -/

/-- A signed object as it lies in a blob. -/
structure SignedObj where
  header : List Byte
  kind : Nat
  bodyLen : Nat
  svn : Nat
  bind : Nat
  mask : Nat
  digest : List Byte
  key : List Byte
  sig : List Byte
  /-- The body, as far as the blob holds it. -/
  body : List Byte
  deriving DecidableEq, Repr

/-- n bytes at offset a as a number. -/
def numAt (l : List Byte) (a n : Nat) : Nat := unle ((l.drop a).take n)

/-- The object at the start of a blob. -/
def SignedObj.parse (blob : List Byte) : SignedObj :=
  { header := blob.take 192, kind := numAt blob 4 2, bodyLen := numAt blob 8 4, svn := numAt blob 12 4
    bind := numAt blob 16 8, mask := numAt blob 24 4, digest := (blob.drop 32).take 64, key := (blob.drop 96).take 32
    sig := (blob.drop 128).take 64, body := (blob.drop 192).take (numAt blob 8 4) }

/-- What a blob holds: a key certificate where one comes first, the object, and what length that makes. -/
structure SignedBlob where
  cert : Option SignedObj
  obj : SignedObj
  deriving DecidableEq, Repr

/-- A certificate of 240 bytes precedes the object where the blob begins with kind 4. [DEDUCED: log entry 129.] -/
def SignedBlob.parse (blob : List Byte) : SignedBlob :=
  let o := SignedObj.parse blob
  if o.kind = 4 ∧ 240 < blob.length then { cert := some o, obj := SignedObj.parse (blob.drop 240) }
  else { cert := none, obj := o }

def SignedBlob.objs (b : SignedBlob) : List SignedObj :=
  match b.cert with
  | some c => [c, b.obj]
  | none => [b.obj]

/-- The reserved bytes of a body of this kind are zero, and its length is the kind's (R535, R544, R537, R548).
[DEDUCED: log entry 129.] -/
def bodyShape (o : SignedObj) : Bool :=
  if o.kind = 1 then
    decide (64 ≤ o.bodyLen) && decide (numAt o.body 12 4 ≠ 0) && decide (numAt o.body 12 4 ≤ 768 * 1024)
      && decide (numAt o.body 16 48 = 0)
  else if o.kind = 3 then decide (o.bodyLen = 64) && decide (numAt o.body 48 16 = 0)
  else if o.kind = 4 then decide (o.bodyLen = 48) && decide (numAt o.body 36 4 = 0)
  else if o.kind = 7 ∨ o.kind = 8 then
    decide (o.bodyLen = 48) && (decide (numAt o.body 8 2 = 2) || decide (numAt o.body 16 32 = 0))
  else true

/-- Code 1: magic, header version, reserved bytes, lengths. [DEDUCED: log entry 129.] -/
def headerOk (o : SignedObj) : Bool :=
  decide (o.header.length = 192) && decide (numAt o.header 0 4 = 0x4b317e3a) && decide (numAt o.header 6 2 = 1)
    && decide (numAt o.header 28 4 = 0) && (decide (o.kind = 1) || decide (o.svn = 0))
    && decide (o.body.length = o.bodyLen) && bodyShape o

/-- Code 4: the signature over SHA-512 of bytes 0 to 127 of the header. -/
def sigOk (o : SignedObj) : Bool := edVerify o.key (sha512 (o.header.take 128)) o.sig

/-- TMP_LC.state, and the states in which owners sign (R534, R538). -/
def State.lcState (s : State) : Nat := s.rd P.tmp Reg.TMP_LC_state

def State.ownerRules (s : State) : Bool := s.lcState = 2 || s.lcState = 3

def State.serial (s : State) : Nat := s.rd2 P.tmp Reg.TMP_SERIAL_serial_lo Reg.TMP_SERIAL_serial_hi

/-- The root slot whose hash is a key's, where it is not revoked (R534). -/
def State.rootSlot (s : State) (key : List Byte) : Option Nat :=
  let h := sha512 key
  (List.range 4).find? (fun i => decide (s.temper.roots.getD i [] = h) && !bit (s.rd P.tmp Reg.TMP_LC_roots_revoked) i)

/-- The valid owner slot that holds a key (R545). -/
def State.ownerSlot (s : State) (key : List Byte) : Option Nat :=
  (List.range 4).find? (fun i => bit (s.rd P.tmp Reg.TMP_STAT_slots) i && decide (SMap.get s.temper.ownerKeys i [] = key))

/-- Who must sign an object (R534). -/
inductive Signer where
  | certified | owner | root
  deriving DecidableEq, Repr

def State.signerOf (s : State) (kind : Nat) : Signer :=
  if kind = 1 ∨ kind = 3 ∨ kind = 6 then .certified
  else if kind = 2 then (if s.ownerRules then .owner else .certified)
  else if kind = 8 then .owner
  else .root

/-- Code 5: the signer is the key that the table of R534 gives. [DEDUCED: log entry 129.] -/
def State.signerOk (s : State) (b : SignedBlob) : Bool :=
  match s.signerOf b.obj.kind with
  | .certified => match b.cert with
    | some c => (s.rootSlot c.key).isSome && bit (numAt c.body 32 4) b.obj.kind && decide (b.obj.key = c.body.take 32)
    | none => false
  | .owner => b.cert.isNone && s.ownerRules && (s.ownerSlot b.obj.key).isSome
  | .root => b.cert.isNone && (s.rootSlot b.obj.key).isSome

/-- A device binding names this device or any. -/
def State.bindOk (s : State) (v : Nat) : Bool := v = 0 || v = s.serial

/-- Code 7: the bindings of the object, of its certificate and in the certificate's body. -/
def State.bindsOk (s : State) (b : SignedBlob) : Bool :=
  b.objs.all (fun o => s.bindOk o.bind && (decide (o.kind ≠ 4) || s.bindOk (numAt o.body 40 8)))

/-- The result code of a verification, the first check that fails in the order of R536: the kinds that the operation
permits, whether the data read are good, and the room the object may take. [DEDUCED: log entry 129.] -/
def State.objCode (s : State) (b : SignedBlob) (kinds : List Nat) (good : Bool) (len room : Nat) : Nat :=
  let os := b.objs
  if !os.all headerOk then 1
  else if !kinds.contains b.obj.kind then 2
  else if !(good && os.all (fun o => decide (o.digest = sha512 o.body))) then 3
  else if !os.all sigOk then 4
  else if !s.signerOk b then 5
  else if !os.all (fun o => bit o.mask s.lcState) then 6
  else if !s.bindsOk b then 7
  else if b.obj.kind = 1 ∧ b.obj.svn < s.rd P.tmp Reg.TMP_LC_floor then 8
  else if room < len then 9
  else 0

/-- A Temper event record; it sets the wake latch of Temper events. -/
def State.tmpRaise (s : State) (typ : Nat) (payload : List Byte) : State :=
  let s := if s.seq.power = .banked then s.latch 9 else s
  s.raise 0xd00 typ payload

/-- A verification leaves its result: the register, the counters, the record. [DEDUCED: log entry 131.] -/
def State.verified (s : State) (o : SignedObj) (code : Nat) : State :=
  let s := (s.wr P.tmp Reg.TMP_STAT_res code).bump (P.tmp + 0x800)
  let s := if code = 0 then s else (s.bump (P.tmp + 0x808)).setBlk P.tmp 8
  s.tmpRaise 0x7c (le 1 o.kind ++ le 1 code ++ le 6 0 ++ padTo 8 o.digest)

/-- Verify the blob of len bytes at a device address: the state after it, the code, the blob as parsed. -/
def State.verify (s : State) (a len : Nat) (kinds : List Nat) (room : Nat) : State × Nat × SignedBlob :=
  let r := s.fetch bwHearth a len
  let s := r.1
  let b := SignedBlob.parse (s.load a len)
  let code := s.objCode b kinds (!r.2) len room
  (s.verified b.obj code, code, b)

/-! ### Mailbox answers of Temper (R556) -/

/-- A blob or a report lies in DRAM outside the image region. [DEDUCED: log entry 130.] -/
def blobPlace (a len : Nat) : Bool := decide (a + len ≤ 0x800000000) && (decide (a + len ≤ imageBase) || decide (0x400000000 ≤ a))

/-- Any length a blob may have. -/
abbrev anyRoom : Nat := 2 ^ 32

/-- The operation ends with a result code: 0 is status 0, any other status 3 with that detail.
[DEDUCED: log entry 131.] -/
def State.tmpReply (s : State) (r : MbxReq) (op code : Nat) : State :=
  (s.wr P.tmp Reg.TMP_STAT_res code).mbxReply r op (if code = 0 then 0 else 3) code []

/-- An operation of Temper: in its fault state it refuses with code 13; malformed arguments are status 2.
[DEDUCED: log entry 130.] [DEDUCED: log entry 131.] -/
def State.tmpOp (s : State) (r : MbxReq) (op : Nat) (wellFormed : Bool) (k : State → State) : State :=
  s.mbxOp r op (fun s =>
    if !s.works P.tmp then s.tmpReply r op 13
    else if !wellFormed then s.mbxReply r op 2 0 []
    else k s)

/-! ### Images (R547 to R550, R554) -/

/-- FW_STAGE: the blob is copied into the staged half and verified there. [DEDUCED: log entry 132.] -/
def State.stage (s : State) (r : MbxReq) (a len : Nat) : State :=
  let v := s.verify a len [1] halfSize
  let s := v.1
  let half := halfAt (!s.runHalf)
  let s :=
    if halfSize < len || s.stackDead half then s
    else
      let s := { s.moved bwHearth half len 0x928 with mem := copyBytes s.mem s.mem a half len }
      if v.2.1 = 0 then
        ({ s with temper := { s.temper with
            staged := v.2.2.obj.digest, stagedSvn := v.2.2.obj.svn, stagedVersion := v.2.2.obj.body.take 4 } }).wrb
          P.tmp Reg.TMP_STAT_staged true
      else
        ({ s with temper := { s.temper with staged := [], stagedSvn := 0, stagedVersion := [] } }).wrb
          P.tmp Reg.TMP_STAT_staged false
  s.tmpReply r 0x40 v.2.1

def execFwStage (r : MbxReq) (addr : DevAddr) (len : BitVec 32) (s : State) : Host.Outcome State Fault Refusal :=
  fin (s.tmpOp r 0x40 (blobPlace addr.toNat len.toNat) (fun s => s.stage r addr.toNat len.toNat))

/-! ### Handover (R551 to R553) -/

/-- FW_HANDOVER: the request waits for a quiet point. [DESIGN CHOICE: log entry 133.] -/
def execFwHandover (r : MbxReq) (timeout : BitVec 32) (s : State) : Host.Outcome State Fault Refusal :=
  fin (s.tmpOp r 0x41 (decide (1 ≤ timeout.toNat) && decide (timeout.toNat ≤ 10000)) (fun s =>
    if !s.rdb P.tmp Reg.TMP_STAT_staged || s.temper.handover.isSome then s.tmpReply r 0x41 13
    else { s with temper := { s.temper with handover := some r } }))

/-- The quiet point of R551 step 3. -/
def State.quiet (s : State) (r : MbxReq) : Bool :=
  decide (s.host.mbxTaken.filter (fun q => q ≠ (r, 0x41)) = [])
    && (List.range 8).all (fun c => decide (s.ctxState c ≠ ctxLoading) && decide (s.ctxState c ≠ ctxEvicting))
    && (List.range 8).all (fun k => decide (s.camState k ≠ camDiscovering)
      && decide (s.rd (P.lplC k) Reg.LPL_PLOAD_STAT_state ≠ 1))

/-- The header of the handover record; its record length and its CRC depend on the firmware's own format (R552).
[DESIGN CHOICE: log entry 133.] -/
def State.handoverHeader (s : State) : List Byte :=
  le 4 0x48a10c5e ++ le 4 s.freeVal ++ padTo 8 s.temper.running ++ padTo 8 s.temper.staged ++ le 8 s.draw.freeVal
    ++ List.replicate 32 0

/-- QUIET_POINT: the pause starts; the record is written into N1 and the HANDOVER command goes to Temper.
[DESIGN CHOICE: log entry 133.] -/
def State.quietPoint (s : State) : State :=
  match s.temper.handover with
  | none => s
  | some r =>
    if s.hearthRuns && s.quiet r then
      let s := (if s.serves 193 2 then s.store (bankBase 193) s.handoverHeader else s).draw.draw
      let s := { s with temper := { s.temper with pauseRuns := true } }
      s.wrb P.tmp Reg.TMP_STAT_handover true
    else s

def execQuietPoint (s : State) : Host.Outcome State Fault Refusal := fin s.quietPoint

/-- The pause is over, or the wait is: the request is answered. -/
def State.handoverEnd (s : State) (status code : Nat) : State :=
  match s.temper.handover with
  | none => s
  | some r =>
    let s := { s with temper := { s.temper with handover := none, pauseRuns := false, swapped := false } }
    (s.wrb P.tmp Reg.TMP_STAT_handover false).mbxReply r 0x41 status code []

/-- HANDOVER_TIMEOUT: no quiet point within the timeout; status 4, and nothing changes. -/
def execHandoverTimeout (s : State) : Host.Outcome State Fault Refusal :=
  fin (if s.temper.pauseRuns || !s.hearthRuns then s else s.handoverEnd 4 0)

/-- TEMPER_HANDOVER: Temper checks that the staged half still holds the image, swaps the halves and releases core 0 at the
new entry point (R551). Only its own copier writes there (R549), so that a word gone bad is all that it can find.
[DESIGN CHOICE: log entry 133.] -/
def State.temperHandover (s : State) : State :=
  if !s.temper.pauseRuns || s.temper.swapped || !s.clocked then s
  else if !s.works P.tmp || !s.rdb P.tmp Reg.TMP_STAT_staged || s.poisoned (halfAt (!s.runHalf)) halfSize then
    (s.wr P.tmp Reg.TMP_STAT_res 13).handoverEnd 3 13
  else s.imageSwap.bump (P.tmp + 0x810)

def execTemperHandover (s : State) : Host.Outcome State Fault Refusal := fin s.temperHandover

/-- The FW_HANDOVER record. -/
def State.handoverRecord (s : State) (outcome pauseUs : Nat) (new : List Byte) : State :=
  s.tmpRaise 0x7e (le 1 outcome ++ le 3 0 ++ le 4 pauseUs ++ padTo 8 new)

/-- TMP_ALIVE: the new image has taken over; one over PCIe is ignored and counted (R557).
[DESIGN CHOICE: log entry 133.] -/
def State.tmpAlive (s : State) (who : Requester) (pauseUs : Nat) : State :=
  match who with
  | .driver => s.bump (P.tmp + 0x828)
  | .firmware =>
    if s.temper.pauseRuns && s.temper.swapped && !s.coll.hearthHalted then
      let s := (s.handoverRecord 0 pauseUs s.temper.running).wrb P.tmp Reg.TMP_STAT_staged false
      let s := { s with temper := { s.temper with staged := [], stagedSvn := 0, stagedVersion := [] } }
      (s.wr P.tmp Reg.TMP_STAT_res 0).handoverEnd 0 0
    else s

def execTmpAlive (who : Requester) (pauseUs : BitVec 32) (s : State) : Host.Outcome State Fault Refusal :=
  fin (s.onWrite (P.tmp + 0x68) (fun s => s.tmpAlive who pauseUs.toNat))

/-- HANDOVER_FALLBACK: the old image is restored and replies. [DESIGN CHOICE: log entry 133.] -/
def State.handoverFallback (s : State) (pauseUs : Nat) : State :=
  if s.temper.pauseRuns && s.temper.swapped && s.clocked then
    let new := s.temper.running
    let s := ((s.imageSwap).bump (P.tmp + 0x818)).setBlk P.tmp 10
    ((s.wr P.tmp Reg.TMP_STAT_res 12).handoverEnd 3 12).handoverRecord 1 pauseUs new
  else s

def execHandoverFallback (pauseUs : BitVec 32) (s : State) : Host.Outcome State Fault Refusal :=
  fin (s.handoverFallback pauseUs.toNat)

/-! ### Flash (R541, R547, R554) -/

/-- FW_COMMIT: the running half is copied into flash. [DEDUCED: log entry 134.] -/
def State.fwCommit (s : State) : State :=
  { s with
    flash := copyBytes s.mem s.flash (halfAt s.runHalf) flashAt halfSize
    temper := { s.temper with
      flashImage := s.temper.running, flashSvn := s.temper.runSvn, flashVersion := s.temper.version } }

def execFwCommit (r : MbxReq) (s : State) : Host.Outcome State Fault Refusal :=
  fin (s.tmpOp r 0x42 true (fun s => s.fwCommit.tmpReply r 0x42 0))

/-- SVN_COMMIT: the floor rises to the running image's security version, which flash holds. [DEDUCED: log entry 134.] -/
def State.svnCommit (s : State) (r : MbxReq) : State :=
  if s.temper.running ≠ s.temper.flashImage then s.tmpReply r 0x43 13
  else (s.wr P.tmp Reg.TMP_LC_floor (max (s.rd P.tmp Reg.TMP_LC_floor) (min 64 s.temper.runSvn))).tmpReply r 0x43 0

def execSvnCommit (r : MbxReq) (s : State) : Host.Outcome State Fault Refusal :=
  fin (s.tmpOp r 0x43 true (fun s => s.svnCommit r))

/-- RECOVERY_GO: a write of TMP_RCV_CTL; an accepted blob goes into flash and a cold start begins (R554).
[DEDUCED: log entry 130.] -/
def State.recoveryGo (s : State) (v : Nat) : State :=
  if !s.rdb P.tmp Reg.TMP_STAT_recovery || decide (bits v 16 16 ≠ 0x3e91) then s.bump (P.tmp + 0x828)
  else if !bit v 0 then s
  else if !s.works P.tmp then s.wr P.tmp Reg.TMP_STAT_res 13
  else
    let a := s.rd2 P.tmp Reg.TMP_RCV_ADDR_addr_lo Reg.TMP_RCV_ADDR_addr_hi / 64 * 64
    let len := s.rd P.tmp Reg.TMP_RCV_LEN_len
    let v := s.verify a len (if s.lcState = 5 ∨ !blobPlace a len then [] else [1]) halfSize
    if v.2.1 ≠ 0 then v.1
    else
      let s := v.1
      let s := { s with
        flash := copyBytes s.mem s.flash a flashAt len
        temper := { s.temper with
          flashImage := v.2.2.obj.digest, flashSvn := v.2.2.obj.svn, flashVersion := v.2.2.obj.body.take 4 } }
      s.coldReset 9

def execRecoveryGo (v : Word) (s : State) : Host.Outcome State Fault Refusal :=
  fin (s.onWrite (P.tmp + 0x64) (fun s => s.recoveryGo v.toNat))

/-! ### Identity and attestation (R537, R555) -/

/-- The private seed of the device identity key, and its public key. -/
def State.dikSeed (s : State) : List Byte := (sha512 (s.temper.secret ++ [1])).take 32

def State.dikKey (s : State) : List Byte := edPublic s.dikSeed

/-- An object signed by the device identity key and bound to the serial. [DESIGN CHOICE: log entry 139.] -/
def State.signObject (s : State) (kind mask : Nat) (body : List Byte) : List Byte :=
  let head := le 4 0x4b317e3a ++ le 2 kind ++ le 2 1 ++ le 4 body.length ++ le 4 0 ++ le 8 s.serial ++ le 4 mask ++ le 4 0
    ++ sha512 body ++ s.dikKey
  head ++ edSign s.dikSeed (sha512 head) ++ body

/-- The first 16 bytes of a valid owner slot's key hash, or zero. -/
def State.slotHash (s : State) (i : Nat) : List Byte :=
  if bit (s.rd P.tmp Reg.TMP_STAT_slots) i then (sha512 (SMap.get s.temper.ownerKeys i [])).take 16 else List.replicate 16 0

/-- The part of a report about context c. -/
def State.reportCtx (s : State) (c : Nat) : List Byte :=
  let x := s.ctx c
  le 1 (s.ctxState c) ++ le 1 (b2n (s.primEn c)) ++ le 1 (x.signer.getD 0xff) ++ le 1 0 ++ padTo 64 x.hash ++ List.replicate 12 0

/-- The digest of the identity certificate: its own body digest field, zero where none is stored. -/
def State.certDigest (s : State) : List Byte :=
  if s.temper.cert.isEmpty then List.replicate 64 0 else padTo 64 (SignedBlob.parse s.temper.cert).obj.digest

/-- The body of an attestation report. [DESIGN CHOICE: log entry 139.] -/
def State.reportBody (s : State) (nonce : List Byte) : List Byte :=
  let flags := b2n s.temper.testSeen + 2 * b2n (s.rd P.chip Reg.CHIP_RST_CAUSE_cause = 9)
    + 4 * b2n (s.temper.running ≠ s.temper.flashImage) + 8 * b2n (s.rdb P.chip Reg.CHIP_RST_CAUSE_untested)
    + 16 * b2n (s.rdb P.tmp Reg.TMP_STAT_rec_bad)
  padTo 32 nonce ++ le 8 s.serial ++ le 1 s.lcState ++ le 1 (s.rd P.tmp Reg.TMP_LC_count) ++ le 1 (s.rd P.tmp Reg.TMP_LC_floor)
    ++ le 1 flags ++ le 4 (s.rd P.tmp Reg.TMP_AUTH_CTR_count) ++ padTo 64 s.temper.running ++ s.certDigest
    ++ (List.range 4).flatMap s.slotHash ++ le 8 s.now ++ le 4 s.temper.reports
    ++ le 1 (s.rd P.tmp Reg.TMP_LC_roots_revoked) ++ le 3 0 ++ (List.range 8).flatMap s.reportCtx

/-- ATTEST: the report is written; the life-cycle mask in its header is not given. [DESIGN CHOICE: log entry 139.] -/
def State.attest (s : State) (r : MbxReq) (nonce : List Byte) (a : Nat) : State :=
  let s := { s with temper := { s.temper with reports := (s.temper.reports + 1) % 2 ^ 32 } }
  let report := s.signObject 5 s.freeVal (s.reportBody nonce)
  ((s.draw.put bwHearth a report).bump (P.tmp + 0x820)).tmpReply r 0x44 0

def execAttest (r : MbxReq) (nonce : List Byte) (addr : DevAddr) (s : State) : Host.Outcome State Fault Refusal :=
  if nonce.length ≠ 32 then .refused .illFormed
  else
    fin (s.tmpOp r 0x44 (decide (addr.toNat % 64 = 0) && blobPlace addr.toNat 1088) (fun s => s.attest r nonce addr.toNat))

/-- What a certificate to store must be, beside a verified kind 3 object: bound to the serial, with this device's key.
[DEDUCED: log entry 140.] -/
def State.certFits (s : State) (o : SignedObj) : Bool :=
  decide (o.bind = s.serial) && decide (numAt o.body 0 8 = s.serial) && decide ((o.body.drop 8).take 32 = s.dikKey)

/-- IDENTITY writes the certificate and then the public key. [DEDUCED: log entry 140.] -/
def State.identityWrite (s : State) (r : MbxReq) (a : Nat) : State := (s.put bwHearth a (s.temper.cert ++ s.dikKey)).tmpReply r 0x47 0

/-- [DEDUCED: log entry 140.] -/
def State.identity (s : State) (r : MbxReq) (a : Nat) (cert : Option (Nat × Nat)) : State :=
  match cert with
  | none => s.identityWrite r a
  | some (ca, len) =>
    if s.lcState ≠ 1 then s.tmpReply r 0x47 13
    else
      let d := s.fetch bwHearth ca len
      let s := d.1
      let b := SignedBlob.parse (s.load ca len)
      let code := s.objCode b [3] (!d.2) len 0x10000
      let code := if code = 0 ∧ !s.certFits b.obj then 7 else code
      let t := s.verified b.obj code
      if code ≠ 0 then t.tmpReply r 0x47 code
      else ({ t with temper := { t.temper with cert := s.load ca len } }).identityWrite r a

def execIdentity (r : MbxReq) (addr : DevAddr) (cert : Option (DevAddr × BitVec 32)) (s : State) :
    Host.Outcome State Fault Refusal :=
  let c := cert.map (fun p => (p.1.toNat, p.2.toNat))
  let placed := match c with
    | some (a, n) => blobPlace a n
    | none => true
  fin (s.tmpOp r 0x47 (blobPlace addr.toNat 0x10020 && placed) (fun s => s.identity r addr.toNat c))

/-! ### Authorisations (R539, R542 to R545) -/

/-- What an authorisation body says. -/
def authAction (o : SignedObj) : Nat := numAt o.body 8 2
def authTarget (o : SignedObj) : Nat := numAt o.body 10 2

/-- The body names this device (code 7): a zero serial only where allowed; a token that must be bound carries it in its
header too. [DEDUCED: log entry 135.] -/
def State.authBound (s : State) (o : SignedObj) (zeroOk bound : Bool) : Bool :=
  (numAt o.body 0 8 = s.serial || (zeroOk && numAt o.body 0 8 = 0)) && (!bound || decide (o.bind = s.serial))

/-- Action and counter match, and a counter bit is left (code 11). [DEDUCED: log entry 135.] -/
def State.authMatches (s : State) (o : SignedObj) (action : Nat) : Bool :=
  decide (authAction o = action) && decide (numAt o.body 12 4 = s.rd P.tmp Reg.TMP_AUTH_CTR_count)
    && decide (s.rd P.tmp Reg.TMP_AUTH_CTR_count < 4096)

/-- The record as it is to stand is written, signed for a counter value, into the copy that is not in force (R545).
[DEDUCED: log entry 136.] -/
def State.copyWrite (s : State) (keys : SMap (List Byte)) (revoked : List Nat) (ctr : Nat) : State :=
  let r : RecCopy := { keys := keys, revoked := revoked, counter := ctr }
  if s.temper.copyA.isSome && decide (s.recordInForce = s.temper.copyA) then { s with temper := { s.temper with copyB := some r } }
  else { s with temper := { s.temper with copyA := some r } }

/-- An accepted authorisation: the record as it stands after the operation is written first, then one bit is burned (R544,
R545). [DEDUCED: log entry 136.] -/
def State.authBurn (s : State) (keys : SMap (List Byte) := s.temper.ownerKeys) (revoked : List Nat := s.temper.revokedSlots) : State :=
  let n := s.rd P.tmp Reg.TMP_AUTH_CTR_count + 1
  ((s.copyWrite keys revoked n).wr P.tmp Reg.TMP_AUTH_CTR_count n).recordTake

/-- Verification of an authorisation: codes 1 to 7 as for any object. -/
def State.authVerify (s : State) (a len kind : Nat) : State × Nat × SignedObj :=
  let v := s.verify a len [kind] anyRoom
  (v.1, v.2.1, v.2.2.obj)

/-- Slot i holds neither a key nor the mark of a revoked one. -/
def State.slotEmpty (s : State) (i : Nat) : Bool :=
  (SMap.find? s.temper.ownerKeys i).isNone && !s.temper.revokedSlots.contains i

/-- The owner keys with slot i's. -/
def State.withKey (s : State) (i : Nat) (key : List Byte) : SMap (List Byte) := SMap.set s.temper.ownerKeys i key []

/-- The first key, which no authorisation installs: both copies hold it for the counter as it stands.
[DESIGN CHOICE: log entry 138.] -/
def State.firstKey (s : State) (i : Nat) (key : List Byte) : State :=
  let r : RecCopy :=
    { keys := s.withKey i key, revoked := s.temper.revokedSlots, counter := s.rd P.tmp Reg.TMP_AUTH_CTR_count }
  ({ s with temper := { s.temper with copyA := some r, copyB := some r } }).recordTake

/-- The code of an OWNER_KEY authorisation that has verified; a revoked key's slot must not be the signer's.
[DEDUCED: log entry 135.] -/
def State.ownerCode (s : State) (o : SignedObj) : Nat :=
  let slot := authTarget o
  let valid := s.rd P.tmp Reg.TMP_STAT_slots
  if authAction o = 3 ∧ s.lcState = 3 ∧ valid = 2 ^ slot then 10
  else if authAction o = 3 ∧ s.ownerSlot o.key = some slot then 5
  else if !s.authBound o false false then 7
  else if !(s.authMatches o 2 || s.authMatches o 3) ∨ 4 ≤ slot then 11
  else if authAction o = 2 ∧ !s.slotEmpty slot then 13
  else if authAction o = 3 ∧ !bit valid slot then 13
  else 0

/-- OWNER_KEY (R545). [DEDUCED: log entry 136.] -/
def State.ownerKey (s : State) (r : MbxReq) (a len slot : Nat) (key : List Byte) : State :=
  if len = 0 then
    if s.lcState = 2 && (List.range 4).all s.slotEmpty && !s.rdb P.tmp Reg.TMP_STAT_rec_bad then
      (s.firstKey slot key).tmpReply r 0x45 0
    else s.tmpReply r 0x45 13
  else
    let v := s.authVerify a len 8
    let o := v.2.2
    if v.2.1 ≠ 0 then v.1.tmpReply r 0x45 v.2.1
    else
      let code := s.ownerCode o
      if code ≠ 0 then v.1.tmpReply r 0x45 code
      else
        let s := v.1
        let t := if authAction o = 2 then s.authBurn (s.withKey (authTarget o) ((o.body.drop 16).take 32))
          else s.authBurn s.temper.ownerKeys (authTarget o :: s.temper.revokedSlots)
        t.tmpReply r 0x45 0

def execOwnerKey (r : MbxReq) (addr : DevAddr) (len : BitVec 32) (slot : Fin 4) (key : List Byte) (s : State) :
    Host.Outcome State Fault Refusal :=
  if len.toNat = 0 ∧ key.length ≠ 32 then .refused .illFormed
  else
    fin (s.tmpOp r 0x45 (blobPlace addr.toNat len.toNat) (fun s => s.ownerKey r addr.toNat len.toNat slot.val key))

/-- TEST_OPEN: a token with action 4 opens the test engine in RETURNED (R543). -/
def State.testOpen (s : State) (r : MbxReq) (a len : Nat) : State :=
  if s.lcState ≠ 4 then s.tmpReply r 0x48 13
  else
    let v := s.authVerify a len 7
    let o := v.2.2
    let code := if v.2.1 ≠ 0 then v.2.1 else if !s.authBound o false true then 7 else if !s.authMatches o 4 then 11 else 0
    if code ≠ 0 then v.1.tmpReply r 0x48 code
    else
      let t := v.1.authBurn.wrb P.tmp Reg.TMP_STAT_test_open true
      ({ t with temper := { t.temper with testSeen := true } }).tmpReply r 0x48 0

def execTestOpen (r : MbxReq) (addr : DevAddr) (len : BitVec 32) (s : State) : Host.Outcome State Fault Refusal :=
  fin (s.tmpOp r 0x48 (blobPlace addr.toNat len.toNat) (fun s => s.testOpen r addr.toNat len.toNat))

/-- The code of a ROOT_REVOKE token that has verified: signed by a different root; the last one stays (R542).
[DEDUCED: log entry 135.] -/
def State.rootCode (s : State) (o : SignedObj) : Nat :=
  let gone := s.rd P.tmp Reg.TMP_LC_roots_revoked
  let slot := authTarget o
  if slot < 4 ∧ setBit gone slot = 15 then 10
  else if s.rootSlot o.key = some slot then 5
  else if !s.authBound o false false then 7
  else if !s.authMatches o 5 ∨ 4 ≤ slot then 11
  else if bit gone slot then 13
  else 0

def State.rootRevoke (s : State) (r : MbxReq) (a len : Nat) : State :=
  let v := s.authVerify a len 7
  let o := v.2.2
  let code := if v.2.1 ≠ 0 then v.2.1 else s.rootCode o
  if code ≠ 0 then v.1.tmpReply r 0x49 code
  else
    let t := v.1.authBurn
    (t.wr P.tmp Reg.TMP_LC_roots_revoked (setBit (t.rd P.tmp Reg.TMP_LC_roots_revoked) (authTarget o))).tmpReply r 0x49 0

def execRootRevoke (r : MbxReq) (addr : DevAddr) (len : BitVec 32) (s : State) : Host.Outcome State Fault Refusal :=
  fin (s.tmpOp r 0x49 (blobPlace addr.toNat len.toNat) (fun s => s.rootRevoke r addr.toNat len.toNat))

/-! ### Life cycle (R538, R539) -/

/-- The state of a fuse count. -/
def lcOf (c : Nat) : Nat :=
  if c = 0 then 0 else if c = 1 then 1
  else if c = 2 ∨ c = 5 ∨ c = 8 then 2 else if c = 3 ∨ c = 6 ∨ c = 9 then 3 else if c = 4 ∨ c = 7 ∨ c = 10 then 4 else 5

/-- The kinds of the objects that authorise an advance from a state to a target, in the order in which they are passed. -/
def lcKinds (from_ dest : Nat) : Option (List Nat) :=
  if from_ = 5 then none
  else if dest = 5 then some (if from_ = 2 ∨ from_ = 3 then [8] else [7])
  else if from_ = 0 ∧ dest = 1 then some [7]
  else if from_ = 1 ∧ dest = 2 then some [7]
  else if from_ = 2 ∧ dest = 3 then some [8]
  else if from_ = 3 ∧ dest = 4 then some [7, 8]
  else if from_ = 4 ∧ dest = 2 then some [7]
  else none

/-- The transition is permitted (code 10). -/
def State.lcPermitted (s : State) (dest : Nat) (kinds : List Nat) : Bool :=
  decide (lcKinds s.lcState dest = some kinds)
    && !(s.lcState = 1 && dest = 2 && s.temper.cert.isEmpty)
    && !(s.lcState = 2 && dest = 3 && decide (s.rd P.tmp Reg.TMP_STAT_slots = 0))
    && !(s.lcState = 4 && dest = 2 && !(s.rd P.tmp Reg.TMP_LC_count = 4 || s.rd P.tmp Reg.TMP_LC_count = 7))

/-- A context with prim_en runs. -/
def State.inspecting (s : State) : Bool := (List.range 8).any (fun c => s.primEn c && s.ctxRuns c)

/-- The code of the authorisations that have verified, all for one target. [DEDUCED: log entry 135.] -/
def State.lcCode (s : State) (os : List SignedObj) : Nat :=
  let dest := authTarget (os.headD (SignedObj.parse []))
  let zeroOk := s.lcState = 0 && dest = 1
  if !os.all (fun o => s.authBound o zeroOk (decide (o.kind = 7) && !zeroOk)) then 7
  else if !s.lcPermitted dest (os.map SignedObj.kind) then 10
  else if !os.all (fun o => s.authMatches o 1 && decide (authTarget o = dest)) then 11
  else if s.inspecting then 13
  else 0

/-- Clear n bytes of flash. [DEDUCED: log entry 137.] -/
def State.flashErase (s : State) (a n : Nat) : State := { s with flash := Memory.clear s.flash a n }

/-- What entry into a state erases. [DEDUCED: log entry 137.] -/
def State.lcErase (s : State) (dest : Nat) : State :=
  let logs := fun (s : State) => (s.flashErase startupAt startupSize).flashErase 0x3000000 0x1000000
  if dest = 4 then logs s
  else if dest = 5 then
    let s := { s with temper := { s.temper with
      secret := List.replicate 32 0, cert := [], flashImage := [], flashSvn := 0, flashVersion := [] } }
    (logs s).flashErase flashAt halfSize
  else s

/-- Fuses are burned, what the table lists is erased, the reply goes out, and a cold reset begins.
[DEDUCED: log entry 137.] -/
def State.lcEnter (s : State) (r : MbxReq) (dest : Nat) : State :=
  let old := s.lcState
  let c := if dest = 5 then 12 else s.rd P.tmp Reg.TMP_LC_count + 1
  let s := if dest = 4 ∨ dest = 5 then s.authBurn [] [] else s.authBurn
  let s := ((s.wr P.tmp Reg.TMP_LC_count c).wr P.tmp Reg.TMP_LC_state (lcOf c)).lcErase dest
  let s := (s.setBlk P.tmp 9).tmpRaise 0x7d
    (le 1 old ++ le 1 dest ++ le 1 c ++ le 1 0 ++ le 4 (s.rd P.tmp Reg.TMP_AUTH_CTR_count))
  let s := s.tmpReply r 0x46 0
  let s := s.host.produced.foldl (fun s _ => s.eventWrite) s
  s.coldReset 8

/-- LC_ADVANCE with one blob or two. [DEDUCED: log entry 137.] -/
def State.lcAdvance (s : State) (r : MbxReq) (a len a2 len2 : Nat) : State :=
  let k1 := if len2 ≠ 0 then 7 else if s.ownerRules then 8 else 7
  let v := s.authVerify a len k1
  if v.2.1 ≠ 0 then v.1.tmpReply r 0x46 v.2.1
  else
    let w := if len2 = 0 then (v.1, 0, v.2.2) else v.1.authVerify a2 len2 8
    if w.2.1 ≠ 0 then w.1.tmpReply r 0x46 w.2.1
    else
      let os := if len2 = 0 then [v.2.2] else [v.2.2, w.2.2]
      let code := s.lcCode os
      if code ≠ 0 then w.1.tmpReply r 0x46 code
      else w.1.lcEnter r (authTarget v.2.2)

def execLcAdvance (r : MbxReq) (addr : DevAddr) (len : BitVec 32) (addr2 : DevAddr) (len2 : BitVec 32) (s : State) :
    Host.Outcome State Fault Refusal :=
  fin (s.tmpOp r 0x46 (blobPlace addr.toNat len.toNat && blobPlace addr2.toNat len2.toNat)
    (fun s => s.lcAdvance r addr.toNat len.toNat addr2.toNat len2.toNat))

/-! ### Billets (R274, R534, R540) -/

/-- Verification of a billet: its code, its hash, the owner slot that signed it. Temper in its fault state verifies
nothing (R557). -/
def State.verifyBillet (s : State) (a len : Nat) : State × Nat × List Byte × Option Nat :=
  if !s.works P.tmp then (s.wr P.tmp Reg.TMP_STAT_res 13, 13, [], none)
  else
    let admits := s.ownerRules || s.lcState = 1 || s.lcState = 4
    let v := s.verify a len (if admits then [2] else []) anyRoom
    (v.1, v.2.1, v.2.2.obj.digest, if s.ownerRules then s.ownerSlot v.2.2.obj.key else none)

end Sys2Proof.Machine
end

