-- ==== Sys2Proof/Machine/Mailbox.lean ====
section
/-! DEFINITION. The mailbox operations that act on contexts, cameras, ports and the start-up set (R274, R275, R348, R379,
R467, R498), which the firmware also runs of itself in the steps of a start (R86). -/

namespace Sys2Proof.Machine

/-- An operation of the firmware: for a request that it takes from the mailbox, or of its own within start step n, where
no reply is written. -/
def State.fwOp (s : State) (r : MbxReq) (op step : Nat) (k : State → State) : State :=
  if s.mbxCanTake then k (s.mbxTake r op)
  else if s.hearthRuns && bit s.seq.begun (step - 1) && !bit s.seq.ended (step - 1) then k s
  else s

/-! ### ADMIT (R274, R275) -/

/-- The lowest base at which n units fit beside what is taken: base and size of each. [DESIGN CHOICE: log entry 48.] -/
def firstFit (cap n : Nat) (taken : List (Nat × Nat)) : Option Nat :=
  (List.range (cap + 1)).find? (fun b => decide (b + n ≤ cap) &&
    taken.all (fun t => decide (t.2 = 0) || decide (b + n ≤ t.1) || decide (t.1 + t.2 ≤ b)))

/-- What the other contexts' billets hold: base and size by two projections. -/
def State.takenBy (s : State) (base : Ctx → Nat) (size : Billet → Nat) : List (Nat × Nat) :=
  (List.range 8).filterMap (fun c => ((s.ctx c).billet).map (fun b => (base (s.ctx c), size b)))

/-- Two ranges of DRAM do not meet. -/
def apart (a n b m : Nat) : Bool := decide (a + n ≤ b) || decide (b + m ≤ a)

/-- A copy at a lies in free DRAM of stack k, outside the image region and the other billets' copies. -/
def State.copyFits (s : State) (k a n : Nat) : Bool :=
  decide (stackOf a = k) && decide (a + n ≤ (if k = 0 then imageBase else 0x800000000)) &&
    (List.range 8).all (fun c => match (s.ctx c).billet with
      | some b => apart a n b.copy0.toNat b.len.toNat && apart a n b.copy1.toNat b.len.toNat
      | none => true)

/-- Every flow that the billet names has a legal engine (R467). [DESIGN CHOICE: log entry 47.] -/
def flowsLegal (x : Billet) : Bool :=
  x.flows.all (fun f =>
    let kind := numAt f.2 0 1
    let e := numAt f.2 18 1
    decide (kind = 0) || decide (e < 32) || (decide (kind = 2) && decide (e = 0xff)))

/-- The bases of a context's shares: A, W0, P0, X0, N4, N5 and the two program buffers. -/
structure Bases where
  a : Nat
  w : Nat
  p : Nat
  x : Nat
  n4 : Nat
  n5 : Nat
  anv : Nat
  tng : Nat
  deriving DecidableEq, Repr, Inhabited

/-- Bases where everything fits; else the number of the condition that fails: 3 banks, 4 buffers, 5 Nimbus.
[DESIGN CHOICE: log entry 48.] -/
def State.findBases (s : State) (b : Billet) : Nat ⊕ Bases :=
  match firstFit 128 b.aUnits.toNat (s.takenBy Ctx.aBase (fun x => x.aUnits.toNat)),
        firstFit 128 b.wUnits.toNat (s.takenBy Ctx.wBase (fun x => x.wUnits.toNat)),
        firstFit 64 b.pUnits.toNat (s.takenBy Ctx.pBase (fun x => x.pUnits.toNat)),
        firstFit 128 b.xUnits.toNat (s.takenBy Ctx.xBase (fun x => x.xUnits.toNat)) with
  | some a, some w, some p, some x =>
    match firstFit 2048 b.anvCmds.toNat (s.takenBy Ctx.anvBuf (fun x => x.anvCmds.toNat)),
          firstFit 1024 b.tngCmds.toNat (s.takenBy Ctx.tngBuf (fun x => x.tngCmds.toNat)) with
    | some anv, some tng =>
      if b.anvCmds.toNat < 256 ∨ b.tngCmds.toNat < 128 then .inl 4
      else
        match firstFit 16 b.n4Units.toNat (s.takenBy Ctx.n4Base (fun x => x.n4Units.toNat)),
              firstFit 16 b.n5Units.toNat (s.takenBy Ctx.n5Base (fun x => x.n5Units.toNat)) with
        | some n4, some n5 => .inr { a := a, w := w, p := p, x := x, n4 := n4, n5 := n5, anv := anv, tng := tng }
        | _, _ => .inl 5
    | _, _ => .inl 4
  | _, _, _, _ => .inl 3

/-- The quotas of the resident contexts and of those being admitted, with this one's. -/
def State.quotaSum (s : State) (b : Billet) : Nat :=
  ((s.takenBy (fun _ => 0) (fun x => x.quota.toNat)).map Prod.snd).foldl (· + ·) b.quota.toNat

/-- The condition of R274 that fails, numbered in its order; else the bases. [DESIGN CHOICE: log entry 47.] -/
def State.admitCode (s : State) (b : Billet) (verified : Bool) : Nat ⊕ Bases :=
  if !verified then .inl 1
  else if !b.formatKnown then .inl 2
  else match s.findBases b with
    | .inl n => .inl n
    | .inr x =>
      if 512 < s.quotaSum b then .inl 6
      else if !(s.copyFits 0 b.copy0.toNat b.len.toNat && s.copyFits 1 b.copy1.toNat b.len.toNat) then .inl 7
      else .inr x

/-- The admission begins: shares reserved and cleared, the billet copied into both stacks (R275 steps 1 and 2).
[DESIGN CHOICE: log entry 47.] [DESIGN CHOICE: log entry 48.] -/
def State.admitBegin (s : State) (r : MbxReq) (c : Nat) (b : Billet) (x : Bases) (hash : List Byte) (signer : Option Nat) :
    State :=
  let s := s.setCtx c { (default : Ctx) with
    billet := some b, hash := hash, signer := signer, aBase := x.a, wBase := x.w, pBase := x.p, xBase := x.x, n4Base := x.n4
    n5Base := x.n5, anvBuf := x.anv, tngBuf := x.tng, req := some r }
  let s := (s.setCtxState c ctxLoading 0).clearShares c
  let blob := s.load b.addr.toNat b.len.toNat
  (s.put bwHearth b.copy0.toNat blob).put bwHearth b.copy1.toNat blob

/-- ADMIT. A context that is not EMPTY is answered with status 4. [DESIGN CHOICE: log entry 57.] -/
def State.admitCtx (s : State) (r : MbxReq) (c : Nat) (b : Billet) : State :=
  if !blobPlace b.addr.toNat b.len.toNat then s.mbxReply r 0x10 2 0 []
  else if s.ctxState c ≠ ctxEmpty then s.mbxReply r 0x10 4 0 []
  else
    let v := s.verifyBillet b.addr.toNat b.len.toNat
    let s := v.1
    match s.admitCode b (v.2.1 = 0) with
    | .inl n => s.mbxReply r 0x10 3 n []
    | .inr x =>
      if !flowsLegal b then s.draw.mbxReply r 0x10 3 s.freeVal []
      else s.admitBegin r c b x v.2.2.1 v.2.2.2

def execAdmitContext (r : MbxReq) (c : Fin 8) (b : Billet) (s : State) : Host.Outcome State Fault Refusal :=
  fin (s.fwOp r 0x10 9 (fun s => s.admitCtx r c b))

/-! ### CONTEXT_ADMITTED (R275 steps 3 to 7) -/

/-- The context page as the manifest gives it. -/
def State.pageSet (s : State) (c : Nat) (b : Billet) : State :=
  let p := P.schC c
  let s := ((s.wr p Reg.SCH_CTX_CFG_prio b.prio.toNat).wrb p Reg.SCH_CTX_CFG_spec_en b.specEn).wrb p Reg.SCH_CTX_CFG_failsafe
    b.failsafe
  let s := ((s.wr p Reg.SCH_CTX_CFG_ref b.refLine.toNat).wr p Reg.SCH_CTX_CFG_prim_cam b.primCam.val).wrb p
    Reg.SCH_CTX_CFG_prim_en b.primEn
  let s := s.wr p Reg.SCH_CTX_CFG_quota b.quota.toNat
  let s := (List.range 8).foldl (fun s g =>
    match b.actMap[g]? with
    | some m =>
      let s := (s.wr p Reg.SCH_CTX_ACT_COLS_first m.1.toNat g).wr p Reg.SCH_CTX_ACT_COLS_last m.2.1.toNat g
      let s := (s.wr p Reg.SCH_CTX_ACT_GRP_grp m.2.2.1.toNat g).wrb p Reg.SCH_CTX_ACT_GRP_valid true g
      s.wr p Reg.SCH_CTX_ACT_OFF_c_off m.2.2.2.toNat g
    | none => s.wrb p Reg.SCH_CTX_ACT_GRP_valid false g) s
  let bud := s.nextWord (clsAddr (8 + c) 0)
  ((s.clsWrite (8 + c) 2 b.decl0.toNat).clsWrite (8 + c) 3 b.decl1.toNat).clsWrite (8 + c) 0 (putBit bud 24 b.prot)

/-- The flow table entries of the billet, which begin anew. -/
def State.flowsSet (s : State) (b : Billet) : State :=
  let base := s.rd2 P.bry Reg.BRY_FLOW_BASE_addr_lo Reg.BRY_FLOW_BASE_addr_hi
  b.flows.foldl (fun s f =>
    if f.1.toNat < s.rd P.bry Reg.BRY_FLOW_N_n then
      (s.put bwHearth (base + 64 * f.1.toNat) (padTo 64 f.2)).setFlow f.1.toNat default
    else s) s

/-- CONTEXT_ADMITTED: the loading steps end and the context enters STOPPED. [DESIGN CHOICE: log entry 48.] -/
def State.admitted (s : State) (c : Nat) : State :=
  let x := s.ctx c
  match x.billet with
  | none => s
  | some b =>
    if s.ctxState c ≠ ctxLoading then s
    else
      let s := ((s.programSet c).loadResident bwHearth c).pageSet c b
      let s := (s.flowsSet b).flowsReset c
      let s := s.setCtx c { s.ctx c with req := none }
      let s := s.setCtxState c ctxStopped 0
      match x.req with
      | some r => s.mbxReply r 0x10 0 0 []
      | none => s

def execContextAdmitted (c : Fin 8) (s : State) : Host.Outcome State Fault Refusal :=
  if s.hearthRuns then fin (s.admitted c) else fin s

/-! ### Cameras (R348, R349, R379) -/

/-- The registers that the firmware writes for a binding: CFE_CAM_BIND, FMT, BLK, WIN, LOSS, REPLAY_BASE in two words,
REPLAY_GEOM, REPLAY_SLOT. -/
def bindAddrs (k : Nat) : List Nat :=
  let c := P.cfeC k
  let r := P.replay + 16 * k
  [c + 0x40, c + 0x44, c + 0x48, c + 0x4c, c + 0x50, r + 0x40, r + 0x44, r + 0x48, r + 0x4c]

/-- The firmware's write of a register of an operation, which stores fresh parity (R103). -/
def State.fwWrite (s : State) (addr v : Nat) : State := (s.storeParity addr).writeWord addr v

/-- BIND_CAM: the camera's registers, then the command; the binding's end replies. A camera that is bound or is being bound
is answered with status 4. [DESIGN CHOICE: log entry 46.] -/
def State.bindCam (s : State) (r : MbxReq) (k : Nat) (regs : List Nat) (rmax : Nat) : State :=
  if s.camState k = camBound ∨ s.camState k = camDiscovering then s.mbxReply r 0x20 4 0 []
  else
    let s := ((bindAddrs k).zip regs).foldl (fun s p => s.fwWrite p.1 p.2) s
    (s.setCam k { s.cam k with req := some r }).camBind k rmax

def execBindCam (r : MbxReq) (k : Fin 8) (regs : List Word) (rmax : BitVec 32) (s : State) : Host.Outcome State Fault Refusal :=
  if regs.length ≠ 9 then .refused .illFormed
  else fin (s.fwOp r 0x20 8 (fun s => s.bindCam r k (regs.map BitVec.toNat) rmax.toNat))

/-- [DESIGN CHOICE: log entry 46.] -/
def execUnbindCam (r : MbxReq) (k : Fin 8) (s : State) : Host.Outcome State Fault Refusal :=
  fin (s.fwOp r 0x21 8 (fun s => (s.camUnbind k).mbxReply r 0x21 0 0 []))

/-- PARAM_LOAD: the registers, then go; the reply tells whether the load was accepted. [DEDUCED: log entry 43.] -/
def State.paramLoad (s : State) (r : MbxReq) (k a line : Nat) : State :=
  let p := P.lplC k
  let busy := s.rd p Reg.LPL_PLOAD_STAT_state ≠ 0
  let s := if busy then s else
    (s.wr2 p Reg.LPL_PLOAD_SRC_lo Reg.LPL_PLOAD_SRC_hi a).wr2 p Reg.LPL_PLOAD_LINE_lo Reg.LPL_PLOAD_LINE_hi line
  let s := s.ploadGo k 0x7b1e0001
  if busy ∨ s.rd p Reg.LPL_PLOAD_STAT_state = 0 then s.mbxReply r 0x28 3 (s.rd p Reg.LPL_PLOAD_STAT_res) []
  else s.mbxReply r 0x28 0 0 []

def execParamLoad (r : MbxReq) (k : Fin 8) (addr : DevAddr) (line : BitVec 64) (s : State) : Host.Outcome State Fault Refusal :=
  fin (s.fwOp r 0x28 8 (fun s => s.paramLoad r k addr.toNat line.toNat))

/-! ### NET_CFG and STARTUP_SET (R498) -/

/-- Port p carries the frames of an armed group. -/
def State.portArmed (s : State) (p : Nat) : Bool :=
  (List.range 32).any (fun g => s.rdb P.rtu Reg.RTU_GRP_CFG_armed g && s.groupRemote g && decide (s.groupPort g = p))

/-- NET_CFG: refused where a reserved bit is set, or where the port serves an armed group.
[DESIGN CHOICE: log entry 44.] -/
def State.netCfg (s : State) (r : MbxReq) (p cfg macLo macHi corr ip : Nat) : State :=
  if bits cfg 4 4 ≠ 0 ∨ bits cfg 9 23 ≠ 0 ∨ bits macHi 16 16 ≠ 0 then s.mbxReply r 0x30 3 1 []
  else if s.portArmed p then s.mbxReply r 0x30 3 2 []
  else
    let b := P.eth p
    let s := ((s.portCfg p cfg).fwWrite (b + 0xc8) macLo).fwWrite (b + 0xcc) macHi
    ((s.fwWrite (b + 0xd0) corr).fwWrite (P.bry + 0x4c) ip).mbxReply r 0x30 0 0 []

def execNetCfg (r : MbxReq) (p : Fin 2) (cfg macLo macHi corr ip : Word) (s : State) : Host.Outcome State Fault Refusal :=
  fin (s.fwOp r 0x30 10 (fun s => s.netCfg r p cfg.toNat macLo.toNat macHi.toNat corr.toNat ip.toNat))

/-- STARTUP_SET: a valid set replaces the one in flash. [DESIGN CHOICE: log entry 45.] -/
def State.startupSet (s : State) (r : MbxReq) (a len : Nat) (valid : Bool) : State :=
  if !blobPlace a len then s.mbxReply r 0x38 2 0 []
  else
    let d := s.fetch bwHearth a len
    if !valid || d.2 || decide (startupSize < len) then d.1.mbxReply r 0x38 3 1 []
    else
      let f := copyBytes d.1.mem (Memory.clear s.flash startupAt startupSize) a startupAt len
      ({ d.1 with flash := f }).mbxReply r 0x38 0 0 []

def execStartupSet (r : MbxReq) (addr : DevAddr) (len : BitVec 32) (valid : Bool) (s : State) :
    Host.Outcome State Fault Refusal :=
  fin (s.mbxOp r 0x38 (fun s => s.startupSet r addr.toNat len.toNat valid))

end Sys2Proof.Machine
end

