-- ==== Sys2Proof/Machine/RegWrite.lean ====
section
/-! DEFINITION. REGISTER_WRITE: a register write over PCIe or by a Hearth core, with the rule that governs the register
written (R90 to R106 and each block's register tables). A fact about the outside world that the word does not carry is a
free value. -/

namespace Sys2Proof.Machine

/-- The bits of v with field f's replaced by what it holds. -/
def State.keepField (s : State) (base : Nat) (v : Nat) (f : Fld) (i : Nat := 0) : Nat :=
  v - bits v f.lo f.width * 2 ^ f.lo + s.rd base f i * 2 ^ f.lo

/-- The bits of v with field f's replaced by x. [DEDUCED: log entry 17.] -/
def putField (v : Nat) (f : Fld) (x : Nat) : Nat := v - bits v f.lo f.width * 2 ^ f.lo + x % 2 ^ f.width * 2 ^ f.lo

/-- A plain write that a condition must allow; ignored and counted where it does not. -/
def State.storeIf (s : State) (ok : Bool) (addr v : Nat) : State :=
  if ok then s.storePlain addr v else s.note (addr / 4096 * 4096) .ignoredWrite

/-- A free fact: one bit of the next free value. [DESIGN CHOICE: log entry 16.] -/
def State.freeFact (s : State) : Bool := decide (s.freeVal % 2 = 1)

/-! ### The page header (R90 to R105) -/

/-- The chapter of the page's block gives it an enabling sequence of its own: a binding, an arming, an enable bit, a START, a
return to service. [DESIGN CHOICE: log entry 148.] -/
def ownSequence (k : PKind) : Bool :=
  match k with
  | .anv0 | .anv1 | .anv2 | .tng0 | .tng1 | .lane | .cfeC | .lplI | .lplC | .replay | .ltg | .rtu | .fio | .eth | .bry | .arcG
  | .xck => true
  | .chip | .clk | .pwr | .schG | .schC | .schJ | .noc | .drc | .blw | .bank | .cfe0 | .enc | .rtuE | .ptp | .pcie | .erq | .arcS
  | .tmp | .flt | .qch => false

/-- BLK_CTRL: its stored fields; fault_clr under R105. Another write with en = 1 takes up a page that was held idle after a
fault and has no enabling sequence of its own. [DESIGN CHOICE: log entry 148.] -/
def State.ctrlWrite (s : State) (k : PKind) (base v : Nat) : State :=
  let t := s.writeWord (base + 8) v
  if bit v 8 then t.draw.faultClr base s.freeFact
  else if bit v 0 && !ownSequence k then t.resume base
  else t

/-- The bits of BLK_ERR_MASK.blk that the block's chapter assigns; the others are reserved (R97, R161, R224, R265). -/
def blkMaskBits (k : PKind) : Nat :=
  match k with
  | .anv0 => 1
  | .drc => 3
  | _ => 0

/-- BLK_ERR_MASK; an engine's ANV_CFG.stall_cnt_only is a copy of its bit 16 (R164). -/
def State.maskWrite (s : State) (k : PKind) (base v : Nat) : State :=
  let s := s.writeWord (base + 0x14) (v % 65536 + 65536 * (v / 65536 &&& blkMaskBits k))
  if k = .anv0 then s.wrb base Reg.ANV_CFG_stall_cnt_only (bit v 16) else s

/-- BLK_SNAP.take, and the broadcast of the chip page (R109 to R111). -/
def State.snapWrite (s : State) (base v : Nat) : State :=
  if !bit v 0 then s else if base = P.chip then s.draw.chipSnap s.freeFact else s.capture base

/-- [DESIGN CHOICE: log entry 165.] -/
def State.hdrWrite (s : State) (k : PKind) (base o v : Nat) : State :=
  if o = 8 then s.ctrlWrite k base v
  else if o = 0x14 then s.maskWrite k base v
  else if o = 0x18 then s.snapWrite base v
  else if o = 0x1c then (if bit v 30 then s.parityInject (base / 4096) else s)
  else s.writeWord (base + o) v

/-! ### Pages -/

/-- CHIP_PWR, CHIP_RST and CHIP_READY (R77, R80, R81, R540). -/
def State.chipWrite (s : State) (o v : Nat) : State :=
  if o = 0x40 then s.chipPwr v
  else if o = 0x44 then s.chipRst v
  else if o = 0x50 then s.storePlain 0x50 (if s.ownerRules then v else putField v Reg.CHIP_READY_permit_en 0)
  else s.storePlain o v

/-- ANV_CFG: stall_cnt_only changes BLK_ERR_MASK.blk bit 16 with it (R164).
[DEDUCED: log entry 17.] [DEDUCED: log entry 49.] -/
def State.anvWrite (s : State) (base o v : Nat) : State :=
  let s := s.storePlain (base + o) v
  if o = 0x40 then s.wr base Reg.BLK_ERR_MASK_blk (putBit (s.rd base Reg.BLK_ERR_MASK_blk) 0 (s.rdb base Reg.ANV_CFG_stall_cnt_only))
  else s

/-- The Bellows page (R257, R258, R267, R268). -/
def State.blwWrite (s : State) (o v : Nat) : State :=
  if o = 0x40 then s.periodWrite v
  else if 0x80 ≤ o ∧ o < 0x180 then s.clsWrite ((o - 0x80) / 16) (o % 16 / 4) v
  else s.storePlain (P.blw + o) v

/-- A context page: quota is written by admission only, the seed in STOPPED only; a change of prim_en fails the streams
that feed the context (R307, R309, R528). -/
def State.ctxWrite (s : State) (c o v : Nat) : State :=
  let b := P.schC c
  if o = 0x40 then
    let was := s.primEn c
    let s := s.storePlain (b + o) (s.keepField b v Reg.SCH_CTX_CFG_quota)
    if s.primEn c = was then s else s.arcLose c
  else if 0x60 ≤ o ∧ o < 0x70 then s.storeIf (decide (s.ctxState c = ctxStopped)) (b + o) v
  else s.storePlain (b + o) v

/-- CXP_PRBS_CFG: ignored while the lane is bound; inj_one inverts one bit (R362). -/
def State.laneWrite (s : State) (n o v : Nat) : State :=
  let b := P.lane n
  if o = 0x50 then
    if s.rdb b Reg.CXP_LANE_STAT_bound then s.note b .ignoredWrite
    else
      let s := s.writeWord (b + o) v
      let s := if s.rdb b Reg.CXP_PRBS_CFG_chk_en then s else s.wrb b Reg.CXP_PRBS_CFG_chk_lock false
      if bit v 24 then s.prbsInject n 1 else s
  else s.storePlain (b + o) v

/-- A line pipeline's camera page (R386 to R388). -/
def State.lplWrite (s : State) (k o v : Nat) : State :=
  let b := P.lplC k
  if o = 0x70 then s.ploadGo k v
  else if o = 0x5c then (s.storePlain (b + o) v).statLevel k
  else if o = 0x50 ∨ o = 0x54 then
    if s.rdb b Reg.LPL_CAM_CFG_stat_en then s.note b .ignoredWrite else s.writeWord (b + o) v
  else s.storePlain (b + o) v

/-- The encoder page: counts, clr_flt, timers (R398, R400, R407). -/
def State.encWrite (s : State) (o v : Nat) : State :=
  if 0x40 ≤ o ∧ o < 0xc0 then
    let e := (o - 0x40) / 32
    if o % 32 = 12 then s.encCntWrite e v
    else if o % 32 = 4 then (if bit v 0 then s.draw.draw.clrFlt e s.freeFact s.draw.freeVal else s)
    else s.storePlain (P.enc + o) v
  else if 0x140 ≤ o ∧ o < 0x180 then (s.storePlain (P.enc + o) v).timerRun ((o - 0x140) / 8)
  else s.storePlain (P.enc + o) v

/-- LTG_CTRL arms and disarms (R402, R403). -/
def State.ltgWrite (s : State) (o v : Nat) : State :=
  let l := (o - 0x40) / 64
  if P.ltg + o = ltgCtrl l then
    if bit v 0 then s.ltgArm l
    else if s.rd P.ltg Reg.LTG_STAT_state l = ltgDisarmed then s else s.ltgDisarm l
  else s.storePlain (P.ltg + o) v

/-- RTU_CTRL, and RTU_GRPg_CFG whose arm bit arms and disarms (R418, R419). -/
def State.rtuRegWrite (s : State) (o v : Nat) : State :=
  if o = 0x40 then s.ovfClear v
  else
    let g := (o - 0x100) / 32
    if 0x100 ≤ o ∧ P.rtu + o = groupCfg g then
      let s := s.storePlain (P.rtu + o) (s.keepField P.rtu v Reg.RTU_GRP_CFG_arm g)
      if bit v 4 then s.groupArm g else s.groupDisarm g
    else s.storePlain (P.rtu + o) v

/-- A channel's register: dir, smode and OUTCFG only while its claim is free (R447, R448). -/
def State.chanWrite (s : State) (n r v : Nat) (who : Requester) : State :=
  let a := P.fio + 0x100 + 0x20 * n + r
  let free := s.rd P.fio Reg.CLAIM_FIO_owner n = ownFree
  let fixed : Option Fld := if r = 0 then some Reg.FIO_CH_CFG_dir else if r = 4 then some Reg.FIO_CH_IN_smode else none
  if r = 12 then s.gpLevel n (bit v 0) who
  else if r = 20 then (if bit v 0 then s.outputClr n else s)
  else if r = 8 then (if free then s.writeWord a v else s.bump (P.fio + 0x900))
  else match fixed with
    | none => s.storePlain a v
    | some f =>
      let new := bits v f.lo f.width
      let t := s.storePlain a (s.keepField P.fio v f n)
      if free then t.wr P.fio f new n
      else if new = s.rd P.fio f n then t
      else t.bump (P.fio + 0x900)

/-- A photo-eye's registers: not while a running context with prim_en has camera k (R447, R449). -/
def State.eyeWrite (s : State) (k o v : Nat) : State :=
  if (List.range 8).any (fun c => s.ctxRuns c && s.primEn c && decide (s.primCam c = k)) then s.bump (P.fio + 0x900)
  else s.writeWord (P.fio + o) v

def State.fioWrite (s : State) (o v : Nat) (who : Requester) : State :=
  if o = 0x80 then
    let s := s.mirrorWrite v
    if bit v 4 then s.draw.mainReq s.freeFact else s
  else if o = 0x8c then s.measReq v
  else if 0x100 ≤ o ∧ o < 0x300 then s.chanWrite ((o - 0x100) / 32) (o % 32) v who
  else if 0x300 ≤ o ∧ o < 0x380 then s.eyeWrite ((o - 0x300) / 16) o v
  else s.storePlain (P.fio + o) v

/-- A port page (R454, R461, R462, R477). -/
def State.ethWrite (s : State) (p o v : Nat) (who : Requester) : State :=
  if o = 0xc0 then s.portCfg p v
  else if o = 0xec then (if bit v 0 then s.tsqPop p else s)
  else if 0x200 ≤ o ∧ o < 0x600 then
    let i := (o - 0x200) / 32
    if P.eth p + o = slotCtrlAddr p i then s.slotCtrl p i v who else s.slotWrite p i (P.eth p + o) v who
  else s.storePlain (P.eth p + o) v

/-- Brynade: BRY_CFG, whose en = 1 is its enabling sequence (R105); BRY_COLL and its argument (R474). -/
def State.bryWrite (s : State) (o v : Nat) : State :=
  if o = 0x40 then
    let s := s.storePlain (P.bry + o) v
    if bit v 16 then s.resume P.bry else s
  else if o = 0xf0 then s.bryColl v (s.rd P.bry Reg.BRY_COLL_ARG_arg)
  else if o = 0xf4 then s.wr P.bry Reg.BRY_COLL_ARG_arg (bits v 0 16)
  else s.storePlain (P.bry + o) v

/-- The ERQ page (R489, R492, R494, R507, R508). -/
def State.erqWrite (s : State) (o v : Nat) : State :=
  if 0x40 ≤ o ∧ o < 0x240 then
    let q := (o - 0x40) / 32
    if o % 32 = 8 then s.erqCfg q v
    else if s.rdb P.erq Reg.ERQ_QCFG_en q then s.bump (P.erq + 0x908)
    else s.writeWord (P.erq + o) v
  else if o = 0x240 ∨ o = 0x244 then
    if s.rdb P.erq Reg.MBX_CFG_en then s.bump (P.erq + 0x908) else s.writeWord (P.erq + o) v
  else if o = 0x248 then s.mbxCfg v
  else if o = 0x264 then s.targetWrite v
  else if 0x400 ≤ o ∧ o < 0x500 ∧ o % 16 = 12 then
    let q := (o - 0x400) / 16
    let s := s.writeWord (P.erq + o) v
    if bit v 0 then s else s.msixRelease q
  else s.writeWord (P.erq + o) v

/-- The decoder's pages (R524, R525, R528, R529). -/
def State.arcWrite (s : State) (o v : Nat) : State :=
  if o = 0x48 then s.storeIf ((List.range 64).all (fun i => s.rd (P.arcS i) Reg.ARC_SSTAT_state = 0)) (P.arcG + o) v
  else s.storePlain (P.arcG + o) v

def State.streamWrite (s : State) (i o v : Nat) : State :=
  if o = 0x7c then s.arcCtl i v
  else if o = 0x78 then s.bconsWrite i v
  else if o = 0x74 then s.manConsWrite i v
  else s.storePlain (P.arcS i + o) v

/-- Temper (R554, R557): the recovery registers only in recovery, nothing else during a handover but TMP_ALIVE. -/
def State.tmpWrite (s : State) (o v : Nat) (who : Requester) : State :=
  if o = 0x64 then s.recoveryGo v
  else if o = 0x68 then (if bit v 0 then s.draw.tmpAlive who (s.freeVal % 2 ^ 32) else s)
  else if 0x58 ≤ o ∧ o < 0x64 then
    if s.rdb P.tmp Reg.TMP_STAT_recovery then s.writeWord (P.tmp + o) v else s.bump (P.tmp + 0x828)
  else if s.rdb P.tmp Reg.TMP_STAT_handover then s.bump (P.tmp + 0x828)
  else s.storePlain (P.tmp + o) v

/-- The fault collector (R570, R571). -/
def State.fltWrite (s : State) (o v : Nat) (who : Requester) : State :=
  if o = 0x50 then s.draw.unfence v s.freeFact
  else if o = 0x54 then
    let s := s.storePlain (P.flt + o) v
    if bits v 16 4 = 0 then s else s.hearthKick (bits v 16 4) who
  else s.storePlain (P.flt + o) v

/-- The cross-check unit: XCK_CFG, whose en = 1 is its enabling sequence (R105); its other registers (R333, R337, R338). -/
def State.xckWrite (s : State) (o v : Nat) : State :=
  let en := s.rdb P.xck Reg.XCK_AUD_CFG_en
  if o = 0x40 then
    let s := s.storePlain (P.xck + o) v
    if bit v 0 then s.resume P.xck else s
  else if o = 0x88 then
    if bit v 0 then s.regenRequest (bits v 4 3)
    else if s.rdb P.xck Reg.XCK_REGEN_CTL_busy then s
    else s.wr P.xck Reg.XCK_REGEN_CTL_ctx (bits v 4 3)
  else if (o = 0x90 ∨ o = 0x94) ∧ en then s.note P.xck .ignoredWrite
  else if o = 0x98 then
    let asked := bits v 8 8
    let old := s.rd P.xck Reg.XCK_AUD_CFG_force_fold
    let ff := (List.range 8).foldl (fun m c => putBit m c (if bit asked c && s.primEn c then bit old c else bit asked c)) 0
    let v := putField v Reg.XCK_AUD_CFG_force_fold ff
    let v := if en then s.keepField P.xck v Reg.XCK_AUD_CFG_size_log2 else v
    s.writeWord (P.xck + o) v
  else s.storePlain (P.xck + o) v

/-! ### The write -/

/-- A write of a page's own registers; bits 3 to 0 of a program base read as zero (R166). -/
def State.pageWrite (s : State) (k : PKind) (base o v : Nat) (who : Requester) : State :=
  match k with
  | .chip => s.chipWrite o v
  | .anv0 => s.anvWrite base o v
  | .bank => if o < 0x368 then s.bankWrite ((o - 0x40) / 4) v else s.storePlain (base + o) v
  | .blw => s.blwWrite o v
  | .schG => if o = 0x50 then (if s.works base then s.schCmd v none else s) else s.storePlain (base + o) v
  | .schC => s.ctxWrite ((base - P.schC 0) / 4096) o v
  | .lane => s.laneWrite ((base - P.lane 0) / 4096) o v
  | .cfe0 => if o = 0x60 then s.gpTrigger v who else s.storePlain (base + o) v
  | .cfeC => if o = 0x58 then s.draw.camCmd ((base - P.cfeC 0) / 4096) v s.freeVal else s.storePlain (base + o) v
  | .lplC => s.lplWrite ((base - P.lplC 0) / 4096) o v
  | .enc => s.encWrite o v
  | .ltg => s.ltgWrite o v
  | .rtu => s.rtuRegWrite o v
  | .fio => s.fioWrite o v who
  | .eth => s.ethWrite ((base - P.eth 0) / 4096) o v who
  | .ptp => if o = 0x54 then s.ptpCtl v else s.storePlain (base + o) v
  | .bry => s.bryWrite o v
  | .erq => s.erqWrite o v
  | .arcG => s.arcWrite o v
  | .arcS => s.streamWrite ((base - P.arcS 0) / 4096) o v
  | .tmp => s.tmpWrite o v who
  | .flt => s.fltWrite o v who
  | .xck => s.xckWrite o v
  | .anv1 | .tng1 => s.storePlain (base + o) (if o % 16 = 0 then v / 16 * 16 else v)
  | .clk | .pwr | .anv2 | .tng0 | .drc | .noc | .replay | .schJ | .lplI | .rtuE | .pcie | .qch =>
    s.storePlain (base + o) v

/-- A register write that reaches its page: no effect and counted where no register stands (R9, R13, R114).
[DESIGN CHOICE: log entry 16.] [DESIGN CHOICE: log entry 165.] -/
def State.regWrite (s : State) (addr v : Nat) (who : Requester) : State :=
  let base := addr / 4096 * 4096
  let o := addr % 4096
  match pageInfo (addr / 4096) with
  | none => s.note P.chip .reservedAccess
  | some p =>
    match resAt addr with
    | some r => s.claimWrite r v
    | none =>
      if (fieldsAt p.kind o).isEmpty then s.note base .invalidAccess
      else if o < 0x3c then s.hdrWrite p.kind base o v
      else if o = 0x3c then s.writeWord addr v
      else s.pageWrite p.kind base o v who

/-- REGISTER_WRITE. -/
def execRegisterWrite (addr : Bar0Addr) (v : Word) (who : Requester) (s : State) : Host.Outcome State Fault Refusal :=
  fin (s.onWrite addr.toNat (fun s => s.regWrite addr.toNat v.toNat who))

end Sys2Proof.Machine
end

