-- ==== Sys2Proof/Machine/Sequencer.lean ====
section
/-! DEFINITION. The sequencer of an engine: which command of a job's step it issues next, the unit queues in which commands wait,
the P0 scoreboard, and the rows of the engines' commands (R70, R137, R142, R149, R151, R153 to R157, R168, R212, R292). -/

namespace Sys2Proof.Machine

/-! ### What waits in a queue (R142, R154) -/

/-- The bytes of P0 that a command of context c reads or writes: a PASS its range, a VEC or POOL its sources in P0, a DMA its
rows there (R142). -/
def State.p0Spans (s : State) (e c : Nat) (w : Cmd) : List (Nat × Nat) :=
  let d := s.descBytes e c w.w1.toNat
  match cmdOp w with
  | 2 => let a := readPass w; [(s.shareAt e c 5 + 4 * a.p0, 256 * a.m)]
  | 3 | 4 =>
    let v := Config.vecDesc d
    let q := s.inPlace e c v
    if q.1 = 5 then
      (List.range w.w2.toNat).flatMap (fun i =>
        (vecElem v (cmdOp w = 4) i).from_.map (fun a => (q.2 + a, (nfmt v.inFmt).bytes)))
    else []
  | 5 =>
    let m := readDma d
    (m.rows.flatMap (fun p => [p.1, p.2])).filterMap (fun a =>
      if bankAt a = some (ownBank e 5) then some (a - bankBase (ownBank e 5), m.n0) else none)
  | _ => []

/-- Two lists of ranges have a byte in common. -/
def overlap (l m : List (Nat × Nat)) : Bool :=
  l.any (fun a => m.any (fun b => decide (a.1 < b.1 + b.2) && decide (b.1 < a.1 + a.2)))

/-- Nothing in flight on an Anvil engine stands against the command: a PASS waits for the VEC, POOL and DMA commands over its
range, and the reverse (R142). -/
def State.scoreboard (s : State) (e c : Nat) (w : Cmd) : Bool :=
  let against : List Nat := match cmdOp w with
    | 2 => [3, 4, 5]
    | 3 | 4 | 5 => [2]
    | _ => []
  decide (32 ≤ e) || (s.eng e).inflight.all (fun f =>
    !against.contains (cmdOp f.2) || !overlap (s.p0Spans e c w) (s.p0Spans e f.1 f.2))

/-- A DMA finds one of the 8, or 4, places; one whose descriptor carries the read-only fence runs alone (R158, R159, R210).
[DESIGN CHOICE: log entry 109.] -/
def State.dmaPlace (s : State) (e c : Nat) (w : Cmd) : Bool :=
  decide (s.flying e [5] < (if e < 32 then 8 else 4))
    && (!s.dmaFence e c w || decide (s.flying e [5] = 0))
    && (s.eng e).inflight.all (fun f => cmdOp f.2 ≠ 5 || !s.dmaFence e f.1 f.2)

/-- A command that belongs to no step: a probe's or a detection program's (R216, R298). -/
def stepless (w : Cmd) : Bool := decide (cmdOp w = 0x25) || (decide (cmdOp w = 0x24) && decide (w.w2 = 1))

/-- A STEP_END waits for every earlier command of its step (R151). -/
def Engine.stepDrained (g : Engine) (q : Waiting) : Bool :=
  g.queued.all (fun r => decide (r = q) || decide (r.ctx ≠ q.ctx)) && g.inflight.all (fun f => decide (f.1 ≠ q.ctx) || stepless f.2)

/-- The command at the head of its queue can execute: its token is there, and nothing it must wait for stands.
[DESIGN CHOICE: log entry 109.] -/
def State.canRun (s : State) (e : Nat) (q : Waiting) : Bool :=
  !s.tokWait e q && (cmdUnit (cmdOp q.cmd) ≠ 0 || (s.eng e).barrier.isNone) && s.scoreboard e q.ctx q.cmd
    && (match cmdOp q.cmd with
      | 5 => s.dmaPlace e q.ctx q.cmd
      | 15 => (s.eng e).stepDrained q
      | _ => true)

/-! ### What a command does -/

/-- A STEP_END, and its signal (R150, R151). -/
def State.stepEndDo (s : State) (e : Nat) (x : Job) (q : Waiting) : State :=
  let s := s.stepEndRun e q.ctx x q.arg
  if s.engWorks e then s.signal e q.ctx q.cmd else s

/-- The effect of a command of job x, and whether it stays in flight until COMMAND_COMPLETE; an opcode that the engine does not
accept is fault 0x10 (R151, R212). -/
def State.effect (s : State) (e : Nat) (x : Job) (q : Waiting) : State × Bool :=
  let c := q.ctx
  let w := q.cmd
  if !takesOp e (cmdOp w) then (s.engFault e c 0x10, false)
  else match cmdOp w with
    | 0x01 => s.loadRun e c w
    | 0x02 => s.passRun e c w (q.arg = 1)
    | 0x03 => s.vecRun e c q.job w false
    | 0x04 => s.vecRun e c q.job w true
    | 0x05 => s.dmaRun e c q.job w
    | 0x06 => s.barrierRun e c w
    | 0x07 => s.rwaitRun e c x w (q.arg = 1)
    | 0x08 => s.satbrRun e c q.job x w
    | 0x0f => (s.stepEndDo e x q, false)
    | 0x20 => s.cropRun (e - 32) c q.job x w
    | 0x21 => s.expandRun (e - 32) c w
    | 0x22 => s.tpassRun (e - 32) c w
    | 0x23 => s.softmaxRun (e - 32) c w
    | 0x24 => s.verdictRun (e - 32) c q.job x w
    | _ => (s, false)

/-- The token that a command waits on is taken as it executes (R150). -/
def State.takeToken (s : State) (e : Nat) (q : Waiting) : State :=
  if cmdWaits q.cmd then s.setTokens e q.ctx (cmdWaitTok q.cmd) (s.tokens e q.ctx (cmdWaitTok q.cmd) - 1) else s

/-- A command has had its effect: it stays in flight, or is complete at once. The step's end and a job that has left the engine
leave nothing to complete. -/
def State.settleCmd (s : State) (e : Nat) (q : Waiting) (stays : Bool) : State :=
  if !s.engWorks e || (s.eng e).cur ≠ some q.ctx then s
  else if stays then s.setEng e { s.eng e with inflight := (s.eng e).inflight ++ [(q.ctx, q.cmd)] }
  else s.signal e q.ctx q.cmd

/-- A command leaves its queue and executes. -/
def State.runQueued (s : State) (e : Nat) (q : Waiting) : State :=
  let s := (s.setEng e { s.eng e with queued := (s.eng e).queued.erase q }).takeToken e q
  match s.job q.job with
  | none => s
  | some x =>
    let r := s.effect e x q
    r.1.settleCmd e q r.2

/-- The first command that can execute among those at the heads of their queues. -/
def State.runnable (s : State) (e : Nat) : Option Waiting :=
  let l := (s.eng e).queued
  l.find? (fun q => l.find? (fun r => cmdUnit (cmdOp r.cmd) = cmdUnit (cmdOp q.cmd)) = some q && s.canRun e q)

/-- The queues execute, each in order, until none of their heads can. -/
def State.drain (s : State) (e : Nat) : Nat → State
  | 0 => s
  | n + 1 =>
    if !s.engWorks e then s
    else match s.runnable e with
      | none => s
      | some q => State.drain (s.runQueued e q) e n

def State.drainAll (s : State) (e : Nat) : State := s.drain e (s.eng e).queued.length

/-! ### Issue (R149, R155, R168, R287) -/

/-- SCH_JOB_STAT.phase that a command of the job shows (R310). -/
def phaseOf (e op : Nat) : Nat := if e < 32 then 2 else if op = 0x23 ∨ op = 0x24 then 3 else 1

/-- The engine may issue a command of the job in slot j, of context c: it is in the midst of a step of it, or is between steps and
this is the job whose step it takes next (R155, R284, R287). [DESIGN CHOICE: log entry 109.] -/
def State.mayTake (s : State) (e c j : Nat) : Option Job :=
  (s.job j).filter (fun x =>
    s.engWorks e && decide (x.ctx = c) && x.runsOn e
      && (match (s.eng e).cur with
        | some d => decide (d = c) && s.onJob e x
        | none => decide (s.nextCtx e = some c) && x.ended.isNone && decide (x.phase ≠ 4) && s.jobTurn e x && s.jobReady e x))

/-- The engine takes up a step of job x, or goes on with it: tokens and the step count begin at zero with each job, which begins
at the start of its program (R149, R153, R168, R288). [DESIGN CHOICE: log entry 109.] -/
def State.takeUp (s : State) (e c : Nat) (x : Job) : State :=
  let g := s.eng e
  let fresh := !s.onJob e x
  let first := g.cur.isNone
  let start : Prog := { (default : Prog) with start := s.progStart e x }
  let s := s.setEng e { g with
    cur := some c, lastNamed := c, chain := none, gated := false, jobOf := SMap.set g.jobOf c (x.tag + 1) 0
    preReq := if first && decide (g.preReq = some c) then none else g.preReq
    begun := if fresh then x.tag :: g.begun else g.begun
    progs := if fresh then SMap.set g.progs c start default else g.progs
    tokens := if fresh then g.tokens.filter (fun t => t.1 / 16 ≠ c) else g.tokens
    sample := if first then none else g.sample
    crc := if first then crcInit else g.crc }
  let p := seqPage e
  let s := s.wr p Reg.ANV_CTX_STAT_state 1 c
  if fresh then (s.wr p Reg.ANV_CTX_STAT_step 0 c).wr p Reg.ANV_CTX_STAT_pc (s.rd p Reg.ANV_CTX_BUF_base c) c else s

/-- The buffer slot of the next command: the next of the context's share, wrapping (R168). -/
def State.nextPc (s : State) (e c : Nat) : State :=
  let b := s.rd (seqPage e) Reg.ANV_CTX_BUF_base c
  let n := max 1 (s.rd (seqPage e) Reg.ANV_CTX_BUF_size c)
  let pc := s.rd (seqPage e) Reg.ANV_CTX_STAT_pc c
  s.wr (seqPage e) Reg.ANV_CTX_STAT_pc (b + (pc - b + 1) % n) c

/-- The command goes into its unit queue (R154). -/
def State.enqueue (s : State) (e c j : Nat) (w : Cmd) (arg : Nat) : State :=
  let p := s.prog e c
  let s := (s.setProg e c { p with pos := p.pos + 1 }).nextPc e c
  let s := match s.job j with
    | some y => s.setJob j { y with phase := phaseOf e (cmdOp w) }
    | none => s
  s.setEng e { s.eng e with queued := (s.eng e).queued ++ [{ ctx := c, job := j, cmd := w, arg := arg }] }

/-- What the row says beside the words; of an RWAIT, whether it is the first command of its step (R292). -/
def rowArg (p : Prog) (w : Cmd) (arg : Nat) : Nat := if cmdOp w = 7 then b2n (p.pos = 0) else arg

/-- The engine issues the command w of the job in slot j where it is the next of the job's step; the queues then execute what they
can. A command that is not the next, or that the engine may not issue now, is not issued.
[DESIGN CHOICE: log entry 109.] -/
def State.command (s : State) (e c j : Nat) (w : Cmd) (arg : Nat) : State :=
  match s.mayTake e c j with
  | none => s
  | some x =>
    let t := (s.takeUp e c x).stepFetch e x
    if !t.engWorks e then t
    else
      let p := t.prog e c
      if p.cmds[p.pos]? = some w then (t.enqueue e c j w (rowArg p w arg)).drainAll e else s

/-- A row's command: its opcode is the row's. -/
def State.row (s : State) (e c j : Nat) (w : Cmd) (op : Nat) (arg : Nat := 0) : Host.Outcome State Fault Refusal :=
  if cmdOp w = op then fin (s.command e c j w arg) else .refused .illFormed

/-! ### The rows -/

/-- NOP; an opcode that the engine does not accept is fault 0x10 (R151, R212). -/
def execNop (e : Fin 36) (c : Fin 8) (j : Fin 512) (w : Cmd) (s : State) : Host.Outcome State Fault Refusal :=
  if cmdOp w = 0 ∨ !takesOp e (cmdOp w) then fin (s.command e c j w 0) else .refused .illFormed

def execLoad (e : Fin 32) (c : Fin 8) (j : Fin 512) (w : Cmd) (s : State) : Host.Outcome State Fault Refusal :=
  s.row e c j w 1

def execPass (e : Fin 32) (c : Fin 8) (j : Fin 512) (w : Cmd) (starved : Bool) (s : State) : Host.Outcome State Fault Refusal :=
  s.row e c j w 2 (b2n starved)

def execVec (e : Fin 36) (c : Fin 8) (j : Fin 512) (w : Cmd) (s : State) : Host.Outcome State Fault Refusal :=
  s.row e c j w 3

def execPool (e : Fin 36) (c : Fin 8) (j : Fin 512) (w : Cmd) (s : State) : Host.Outcome State Fault Refusal :=
  s.row e c j w 4

def execDma (e : Fin 36) (c : Fin 8) (j : Fin 512) (w : Cmd) (s : State) : Host.Outcome State Fault Refusal :=
  s.row e c j w 5

def execBarrier (e : Fin 36) (c : Fin 8) (j : Fin 512) (w : Cmd) (s : State) : Host.Outcome State Fault Refusal :=
  s.row e c j w 6

def execRwait (e : Fin 32) (c : Fin 8) (j : Fin 512) (w : Cmd) (_u : Unit) (s : State) : Host.Outcome State Fault Refusal :=
  s.row e c j w 7

def execSatbr (e : Fin 32) (c : Fin 8) (j : Fin 512) (w : Cmd) (s : State) : Host.Outcome State Fault Refusal :=
  s.row e c j w 8

/-- STEP_END; k is the number of the step in the manifest's table (R318). -/
def execStepEnd (e : Fin 36) (c : Fin 8) (j : Fin 512) (k : BitVec 16) (w : Cmd) (s : State) : Host.Outcome State Fault Refusal :=
  s.row e c j w 15 k.toNat

def execCrop (t : Fin 4) (c : Fin 8) (j : Fin 512) (w : Cmd) (s : State) : Host.Outcome State Fault Refusal :=
  s.row (32 + t) c j w 0x20

def execExpand (t : Fin 4) (c : Fin 8) (j : Fin 512) (w : Cmd) (s : State) : Host.Outcome State Fault Refusal :=
  s.row (32 + t) c j w 0x21

def execTpass (t : Fin 4) (c : Fin 8) (j : Fin 512) (w : Cmd) (s : State) : Host.Outcome State Fault Refusal :=
  s.row (32 + t) c j w 0x22

def execSoftmax (t : Fin 4) (c : Fin 8) (j : Fin 512) (w : Cmd) (s : State) : Host.Outcome State Fault Refusal :=
  s.row (32 + t) c j w 0x23

def execVerdictFinal (t : Fin 4) (c : Fin 8) (j : Fin 512) (w : Cmd) (s : State) : Host.Outcome State Fault Refusal :=
  if w.w2 = 1 then .refused .illFormed else s.row (32 + t) c j w 0x24

/-! ### Completions and the rest -/

/-- COMMAND_COMPLETE: a command in flight completes and signals; a bank word that it read may show an error under its SECDED
bits. A BARRIER completes by its release, an RWAIT by its data (R150, R151, R165, R228, R229). -/
def State.complete (s : State) (e c : Nat) (w : Cmd) (up : Upset) : State :=
  let g := s.eng e
  let held := (cmdOp w = 6 && g.barrier.isSome) || (cmdOp w = 7 && g.rwait.contains (c, w.w1.toNat))
  if g.inflight.contains (c, w) && !held && s.engWorks e then
    let s := s.bankUpset (ownBank e 0) up
    if !s.engWorks e then s
    else
      let s := s.setEng e { s.eng e with inflight := g.inflight.erase (c, w) }
      let s := if cmdOp w = 2 then s.bump (P.anv e 0 + 0x820) else if cmdOp w = 0x22 then s.bump (P.tng (e - 32) 0 + 0x808) else s
      (s.signal e c w).drainAll e
  else s

def execCommandComplete (e : Fin 36) (c : Fin 8) (w : Cmd) (s : State) (up : Upset := .clean) : Host.Outcome State Fault Refusal :=
  fin (s.complete e c w up)

/-- The engines of a list leave the barrier together, once every one of them waits at it (R156). -/
def State.barrierOpen (s : State) (es : List Nat) (id mask : Nat) : State :=
  if s.barrierFull es id mask then es.foldl State.drainAll (es.foldl State.barrierLeave s) else s

/-- BARRIER_RELEASE: the mask names Anvil engines, or Tongs engines. [DEDUCED: log entry 110.] -/
def State.barrierRelease (s : State) (id mask : Nat) : State :=
  (s.barrierOpen (bitsOf 32 mask) id mask).barrierOpen ((bitsOf 4 mask).map (· + 32)) id mask

def execBarrierRelease (id : Fin 16) (mask : Word) (s : State) : Host.Outcome State Fault Refusal :=
  fin (s.whenClocked (fun s => s.barrierRelease id mask.toNat))

/-- REMOTE_WAIT_COMPLETE (R292). -/
def execRemoteWaitComplete (e : Fin 32) (c : Fin 8) (ent : Fin 16) (s : State) : Host.Outcome State Fault Refusal :=
  fin (s.whenClocked (fun s => if s.waitOver e c ent then (s.remoteDone e c ent).drainAll e else s))

/-- STEP_WATCHDOG (R157): time in RWAIT and pre-empted is not counted. -/
def execStepWatchdog (e : Fin 36) (s : State) : Host.Outcome State Fault Refusal :=
  match (s.eng e).cur with
  | some c => if s.engWorks e then fin (s.engFault e c 0x13) else fin s
  | none => fin s

/-- ENGINE_CLOCK_GATE (R70): an engine without a step gates its clock. -/
def execEngineClockGate (e : Fin 36) (s : State) : Host.Outcome State Fault Refusal :=
  let g := s.eng e
  if g.cur.isNone && g.inflight.isEmpty && g.queued.isEmpty && !g.underTest && s.clocked then fin (s.setEng e { g with gated := true })
  else fin s

end Sys2Proof.Machine
end

