-- ==== Sys2Proof/Machine/Dispatch.lean ====
section
/-! DEFINITION. One arm per command, each a direct call of its meaning. -/

namespace Sys2Proof.Machine

open Sys2Proof

/-- The effect of a command on everything but the queue. -/
def exec (i : Instr) (s : State) : Host.Outcome State Fault Refusal :=
  match i with
  | .stageMate stage mating => Sys2Proof.Machine.execStageMate stage mating s
  | .hotSwapOn => Sys2Proof.Machine.execHotSwapOn s
  | .powerGood => Sys2Proof.Machine.execPowerGood s
  | .presenceLost => Sys2Proof.Machine.execPresenceLost s
  | .undervoltageStop => Sys2Proof.Machine.execUndervoltageStop s
  | .overvoltageStop => Sys2Proof.Machine.execOvervoltageStop s
  | .breakerLatch => Sys2Proof.Machine.execBreakerLatch s
  | .undervoltageHoldClear => Sys2Proof.Machine.execUndervoltageHoldClear s
  | .modState f => Sys2Proof.Machine.execModState s f
  | .vin f => Sys2Proof.Machine.execVin f s
  | .iin ma f => Sys2Proof.Machine.execIin ma s f
  | .tBase t f => Sys2Proof.Machine.execTBase t s f
  | .tJmax t f => Sys2Proof.Machine.execTJmax t s f
  | .alertSrc f => Sys2Proof.Machine.execAlertSrc s f
  | .alertResponseRead f => Sys2Proof.Machine.execAlertResponseRead s f
  | .hold f v => Sys2Proof.Machine.execHold s f v
  | .holdRelease f v => Sys2Proof.Machine.execHoldRelease s f v
  | .coldReset f v => Sys2Proof.Machine.execColdReset s f v
  | .breakerClear f v => Sys2Proof.Machine.execBreakerClear s f v
  | .permitSwitchTest short0 short1 => Sys2Proof.Machine.execPermitSwitchTest short0 short1 s
  | .permitDriveStop => Sys2Proof.Machine.execPermitDriveStop s
  | .thermalWarningEnter base junction tb tj => Sys2Proof.Machine.execThermalWarningEnter base junction tb tj s
  | .thermalWarningLeave base junction tb tj => Sys2Proof.Machine.execThermalWarningLeave base junction tb tj s
  | .thermalShutdown => Sys2Proof.Machine.execThermalShutdown s
  | .thermalRecovery => Sys2Proof.Machine.execThermalRecovery s
  | .clockLoss clk within600 => Sys2Proof.Machine.execClockLoss clk within600 s
  | .engineClockGate e => Sys2Proof.Machine.execEngineClockGate e s
  | .bankedRequest v => Sys2Proof.Machine.execBankedRequest v s
  | .shutdownRequest v => Sys2Proof.Machine.execShutdownRequest v s
  | .shutdownProceed results => Sys2Proof.Machine.execShutdownProceed results s
  | .wakeLatchSet src => Sys2Proof.Machine.execWakeLatchSet src s
  | .bankedWake => Sys2Proof.Machine.execBankedWake s
  | .stoppedPageAccess addr isRead => Sys2Proof.Machine.execStoppedPageAccess addr isRead s
  | .bankClearDone b => Sys2Proof.Machine.execBankClearDone b s
  | .hostSessionReset => Sys2Proof.Machine.execHostSessionReset s
  | .contextReset c => Sys2Proof.Machine.execContextReset c s
  | .engineReset e => Sys2Proof.Machine.execEngineReset e s
  | .engineResetDone e pass => Sys2Proof.Machine.execEngineResetDone e pass s
  | .warmReset by_ => Sys2Proof.Machine.execWarmReset by_ s
  | .chipRstCold => Sys2Proof.Machine.execChipRstCold s
  | .chipRstInvalid v => Sys2Proof.Machine.execChipRstInvalid v s
  | .warmResetEnd => Sys2Proof.Machine.execWarmResetEnd s
  | .railsOn => Sys2Proof.Machine.execRailsOn s
  | .coldStartStepDone step rep => Sys2Proof.Machine.execColdStartStepDone step rep s
  | .warmStart => Sys2Proof.Machine.execWarmStart s
  | .configParityScan addr => Sys2Proof.Machine.execConfigParityScan addr s
  | .faultClr page causesGone => Sys2Proof.Machine.execFaultClr page causesGone s
  | .parityInject page => Sys2Proof.Machine.execParityInject page s
  | .blkSnap page within256 => Sys2Proof.Machine.execBlkSnap page s within256
  | .chipSnap within256 => Sys2Proof.Machine.execChipSnap within256 s
  | .snapCapture page => Sys2Proof.Machine.execSnapCapture page s
  | .counterLowRead addr => Sys2Proof.Machine.execCounterLowRead addr s
  | .registerAccessInvalid addr isRead => Sys2Proof.Machine.execRegisterAccessInvalid addr isRead s
  | .registerWrite addr v who => Sys2Proof.Machine.execRegisterWrite addr v who s
  | .claim addr v => Sys2Proof.Machine.execClaim addr v s
  | .release addr v => Sys2Proof.Machine.execRelease addr v s
  | .bar2Write off data => Sys2Proof.Machine.execBar2Write off data s
  | .bar2Read off len up => Sys2Proof.Machine.execBar2Read off len s up
  | .nop e c j w => Sys2Proof.Machine.execNop e c j w s
  | .load e c j w => Sys2Proof.Machine.execLoad e c j w s
  | .pass e c j w starved => Sys2Proof.Machine.execPass e c j w starved s
  | .vec e c j w => Sys2Proof.Machine.execVec e c j w s
  | .pool e c j w => Sys2Proof.Machine.execPool e c j w s
  | .dma e c j w => Sys2Proof.Machine.execDma e c j w s
  | .barrier e c j w => Sys2Proof.Machine.execBarrier e c j w s
  | .barrierRelease id mask => Sys2Proof.Machine.execBarrierRelease id mask s
  | .rwait e c j w u => Sys2Proof.Machine.execRwait e c j w u s
  | .satbr e c j w => Sys2Proof.Machine.execSatbr e c j w s
  | .stepEnd e c j k w => Sys2Proof.Machine.execStepEnd e c j k w s
  | .commandComplete e c w up => Sys2Proof.Machine.execCommandComplete e c w s up
  | .stepWatchdog e => Sys2Proof.Machine.execStepWatchdog e s
  | .crop t c j w => Sys2Proof.Machine.execCrop t c j w s
  | .expand t c j w => Sys2Proof.Machine.execExpand t c j w s
  | .tpass t c j w => Sys2Proof.Machine.execTpass t c j w s
  | .softmax t c j w => Sys2Proof.Machine.execSoftmax t c j w s
  | .verdictFinal t c j w => Sys2Proof.Machine.execVerdictFinal t c j w s
  | .verdictEarlyExit t c object camera w => Sys2Proof.Machine.execVerdictEarlyExit t c object camera w s
  | .boxes t c w => Sys2Proof.Machine.execBoxes t c w s
  | .bankHandover b v => Sys2Proof.Machine.execBankHandover b v s
  | .bankHandoverDone b => Sys2Proof.Machine.execBankHandoverDone b s
  | .bankPower b v => Sys2Proof.Machine.execBankPower b v s
  | .bellowsPeriodBoundary => Sys2Proof.Machine.execBellowsPeriodBoundary s
  | .bellowsGrant stack waiting cycles => Sys2Proof.Machine.execBellowsGrant stack waiting s cycles
  | .bellowsAdmission entry reg v => Sys2Proof.Machine.execBellowsAdmission entry reg v s
  | .periodChange v => Sys2Proof.Machine.execPeriodChange v s
  | .fieldBudgetReload => Sys2Proof.Machine.execFieldBudgetReload s
  | .dramRead addr who up => Sys2Proof.Machine.execDramRead addr who up s
  | .dramRefresh stack pc => Sys2Proof.Machine.execDramRefresh stack pc s
  | .patrolScrub stack up => Sys2Proof.Machine.execPatrolScrub stack up s
  | .stackTemperatureChange stack t => Sys2Proof.Machine.execStackTemperatureChange stack t s
  | .admitContext r c b => Sys2Proof.Machine.execAdmitContext r c b s
  | .contextAdmitted c => Sys2Proof.Machine.execContextAdmitted c s
  | .start c standby => Sys2Proof.Machine.execStart c standby s
  | .stop c => Sys2Proof.Machine.execStop c s
  | .swap c c2 => Sys2Proof.Machine.execSwap c c2 s
  | .evict c => Sys2Proof.Machine.execEvict c s
  | .cancelSwap c => Sys2Proof.Machine.execCancelSwap c s
  | .schCmdInvalid v => Sys2Proof.Machine.execSchCmdInvalid v s
  | .evictionDone c => Sys2Proof.Machine.execEvictionDone c s
  | .swapEffective c => Sys2Proof.Machine.execSwapEffective c s
  | .contextDrained c => Sys2Proof.Machine.execContextDrained c s
  | .boxAdmit c b => Sys2Proof.Machine.execBoxAdmit c b s
  | .jobAdmit c => Sys2Proof.Machine.execJobAdmit c s
  | .hostJobDoorbell c v => Sys2Proof.Machine.execHostJobDoorbell c v s
  | .jobComplete j => Sys2Proof.Machine.execJobComplete j s
  | .verdictLanding j => Sys2Proof.Machine.execVerdictLanding j s
  | .remoteWaitComplete e c ent => Sys2Proof.Machine.execRemoteWaitComplete e c ent s
  | .remoteWaitTimeout e c ent j => Sys2Proof.Machine.execRemoteWaitTimeout e c ent j s
  | .probeStart c object camera => Sys2Proof.Machine.execProbeStart c object camera s
  | .regenRequest c => Sys2Proof.Machine.execRegenRequest c s
  | .xcheckCompare slot => Sys2Proof.Machine.execXcheckCompare slot s
  | .xcheckArbitrationDone slot => Sys2Proof.Machine.execXcheckArbitrationDone slot s
  | .laneLoss n => Sys2Proof.Machine.execLaneLoss n s
  | .laneLocked n ctle dfe eye => Sys2Proof.Machine.execLaneLocked n ctle s dfe eye
  | .streamPacket n p => Sys2Proof.Machine.execStreamPacket n p s
  | .packetSkewTimeout k => Sys2Proof.Machine.execPacketSkewTimeout k s
  | .controlEventPacket n data => Sys2Proof.Machine.execControlEventPacket n data s
  | .imageHeader k xsize fmt => Sys2Proof.Machine.execImageHeader k xsize fmt s
  | .lineComplete k pixels => Sys2Proof.Machine.execLineComplete k pixels s
  | .triggerWindowExpiry k => Sys2Proof.Machine.execTriggerWindowExpiry k s
  | .cameraBind k v rmax => Sys2Proof.Machine.execCameraBind k v rmax s
  | .discoveryAnswer n device conn fastUplink => Sys2Proof.Machine.execDiscoveryAnswer n device conn fastUplink s
  | .bindTimeout k ph => Sys2Proof.Machine.execBindTimeout k ph s
  | .cameraUnbind k v => Sys2Proof.Machine.execCameraUnbind k v s
  | .cameraLossTimeout k n => Sys2Proof.Machine.execCameraLossTimeout k n s
  | .gpTrigger v who => Sys2Proof.Machine.execGpTrigger v who s
  | .prbsInjectOne n => Sys2Proof.Machine.execPrbsInjectOne n s
  | .prbsInjectPeriodic n => Sys2Proof.Machine.execPrbsInjectPeriodic n s
  | .prbsLock n => Sys2Proof.Machine.execPrbsLock n s
  | .prbsLockLost n => Sys2Proof.Machine.execPrbsLockLost n s
  | .lplLine k ovf => Sys2Proof.Machine.execLplLine k ovf s
  | .lineStage k => Sys2Proof.Machine.execLineStage k s
  | .lineReadback n => Sys2Proof.Machine.execLineReadback n s
  | .statsRecord k => Sys2Proof.Machine.execStatsRecord k s
  | .lplPloadGo k v => Sys2Proof.Machine.execLplPloadGo k v s
  | .paramArm k readOk => Sys2Proof.Machine.execParamArm k readOk s
  | .encoderCount e a b interval illInWindow => Sys2Proof.Machine.execEncoderCount e a b interval illInWindow s
  | .cableCheckTimeout e pair => Sys2Proof.Machine.execCableCheckTimeout e pair s
  | .indexEdge e => Sys2Proof.Machine.execIndexEdge e s
  | .encoderStop e => Sys2Proof.Machine.execEncoderStop e s
  | .clrFlt e pairAgrees illInWindow => Sys2Proof.Machine.execClrFlt e pairAgrees illInWindow s
  | .encCntWrite e v => Sys2Proof.Machine.execEncCntWrite e v s
  | .encZrouteWrite v => Sys2Proof.Machine.execEncZrouteWrite v s
  | .ltgArm l => Sys2Proof.Machine.execLtgArm l s
  | .ltgDisarm l => Sys2Proof.Machine.execLtgDisarm l s
  | .ltgHit l => Sys2Proof.Machine.execLtgHit l s
  | .ltgPulseEnd l => Sys2Proof.Machine.execLtgPulseEnd l s
  | .eventTimerExpiry t => Sys2Proof.Machine.execEventTimerExpiry t s
  | .rtuDeadline ent => Sys2Proof.Machine.execRtuDeadline ent s
  | .commitPoint ent => Sys2Proof.Machine.execCommitPoint ent s
  | .launch ent => Sys2Proof.Machine.execLaunch ent s
  | .targetCompare ent => Sys2Proof.Machine.execTargetCompare ent s
  | .actuatorOff ch => Sys2Proof.Machine.execActuatorOff ch s
  | .maxOnCutoff ch => Sys2Proof.Machine.execMaxOnCutoff ch s
  | .rtuOvfClear v => Sys2Proof.Machine.execRtuOvfClear v s
  | .rtuGroupArm g => Sys2Proof.Machine.execRtuGroupArm g s
  | .rtuGroupDisarm g => Sys2Proof.Machine.execRtuGroupDisarm g s
  | .groupClaimRelease g => Sys2Proof.Machine.execGroupClaimRelease g s
  | .isolationMainLoss cause => Sys2Proof.Machine.execIsolationMainLoss cause s
  | .fieldSlotTimeout => Sys2Proof.Machine.execFieldSlotTimeout s
  | .mainReq linkGood => Sys2Proof.Machine.execMainReq linkGood s
  | .pickPhaseEnd ch => Sys2Proof.Machine.execPickPhaseEnd ch s
  | .outputDiagnostic ch kind arose => Sys2Proof.Machine.execOutputDiagnostic ch kind arose s
  | .outputRetry ch => Sys2Proof.Machine.execOutputRetry ch s
  | .outputClr ch => Sys2Proof.Machine.execOutputClr ch s
  | .gpOutputChange ch lvl who => Sys2Proof.Machine.execGpOutputChange ch lvl who s
  | .measureRequest v => Sys2Proof.Machine.execMeasureRequest v s
  | .measureResult ch value => Sys2Proof.Machine.execMeasureResult ch value s
  | .mirrorEnable v => Sys2Proof.Machine.execMirrorEnable v s
  | .mirrorDisable v => Sys2Proof.Machine.execMirrorDisable v s
  | .inputEdge ch level age count nearSwitch restart errored => Sys2Proof.Machine.execInputEdge ch level age count nearSwitch restart s errored
  | .wireBreak ch => Sys2Proof.Machine.execWireBreak ch s
  | .supplyMeasurement vin iin => Sys2Proof.Machine.execSupplyMeasurement vin iin s
  | .sensorSupplyOverload k => Sys2Proof.Machine.execSensorSupplyOverload k s
  | .sensorSupplyRetry k => Sys2Proof.Machine.execSensorSupplyRetry k s
  | .frameReceive p frame fcsOk => Sys2Proof.Machine.execFrameReceive p frame fcsOk s
  | .sfpOvercurrent p => Sys2Proof.Machine.execSfpOvercurrent p s
  | .sfpRst p v => Sys2Proof.Machine.execSfpRst p v s
  | .plugInModuleChange p inserted => Sys2Proof.Machine.execPlugInModuleChange p inserted s
  | .linkStateChange p up => Sys2Proof.Machine.execLinkStateChange p up s
  | .ptpRateWrite v => Sys2Proof.Machine.execPtpRateWrite v s
  | .ptpStep v => Sys2Proof.Machine.execPtpStep v s
  | .ptpKick v => Sys2Proof.Machine.execPtpKick v s
  | .ptpHoldoverExpiry => Sys2Proof.Machine.execPtpHoldoverExpiry s
  | .ppsInEdge => Sys2Proof.Machine.execPpsInEdge s
  | .ppsOutPulse => Sys2Proof.Machine.execPpsOutPulse s
  | .tsqPop p => Sys2Proof.Machine.execTsqPop p s
  | .lslotGo p n v who => Sys2Proof.Machine.execLslotGo p n v who s
  | .lslotCopyDone p n readOk => Sys2Proof.Machine.execLslotCopyDone p n readOk s
  | .lslotCancel p n v who => Sys2Proof.Machine.execLslotCancel p n v who s
  | .launchFetch p n => Sys2Proof.Machine.execLaunchFetch p n s
  | .frameTransmit p src => Sys2Proof.Machine.execFrameTransmit p src s
  | .sendTransfer c => Sys2Proof.Machine.execSendTransfer c s
  | .brynadeData p pkt => Sys2Proof.Machine.execBrynadeData p pkt s
  | .brynadeAck p pkt => Sys2Proof.Machine.execBrynadeAck p pkt s
  | .brynadeNak p pkt => Sys2Proof.Machine.execBrynadeNak p pkt s
  | .ackTimer flow => Sys2Proof.Machine.execAckTimer flow s
  | .retransmitTimeout flow => Sys2Proof.Machine.execRetransmitTimeout flow s
  | .brynadeColl p pkt => Sys2Proof.Machine.execBrynadeColl p pkt s
  | .barrierJoin id => Sys2Proof.Machine.execBarrierJoin id s
  | .broadcast id payload => Sys2Proof.Machine.execBroadcast id payload s
  | .collReset id arg => Sys2Proof.Machine.execCollReset id arg s
  | .eventRecordWrite => Sys2Proof.Machine.execEventRecordWrite s
  | .erqConsumerDoorbell q v => Sys2Proof.Machine.execErqConsumerDoorbell q v s
  | .msixUnmask q => Sys2Proof.Machine.execMsixUnmask q s
  | .erqEnable q v => Sys2Proof.Machine.execErqEnable q v s
  | .targetWrite v => Sys2Proof.Machine.execTargetWrite v s
  | .mailboxEnable v => Sys2Proof.Machine.execMailboxEnable v s
  | .mailboxDoorbell v => Sys2Proof.Machine.execMailboxDoorbell v s
  | .getInfo r => Sys2Proof.Machine.execGetInfo r s
  | .bindCam r k regs rmax => Sys2Proof.Machine.execBindCam r k regs rmax s
  | .unbindCam r k => Sys2Proof.Machine.execUnbindCam r k s
  | .paramLoad r k addr line => Sys2Proof.Machine.execParamLoad r k addr line s
  | .netCfg r p cfg macLo macHi corr ip => Sys2Proof.Machine.execNetCfg r p cfg macLo macHi corr ip s
  | .startupSet r addr len valid => Sys2Proof.Machine.execStartupSet r addr len valid s
  | .perstAssert => Sys2Proof.Machine.execPerstAssert s
  | .perstDeassert => Sys2Proof.Machine.execPerstDeassert s
  | .functionLevelReset => Sys2Proof.Machine.execFunctionLevelReset s
  | .linkDown => Sys2Proof.Machine.execLinkDown s
  | .hostSessionResetDone => Sys2Proof.Machine.execHostSessionResetDone s
  | .pcieReplay aer => Sys2Proof.Machine.execPcieReplay s aer
  | .arcStart n v => Sys2Proof.Machine.execArcStart n v s
  | .arcStop n v => Sys2Proof.Machine.execArcStop n v s
  | .arcAbort n v => Sys2Proof.Machine.execArcAbort n v s
  | .orderTableDone n => Sys2Proof.Machine.execOrderTableDone n s
  | .sampleDecoded n pos h => Sys2Proof.Machine.execSampleDecoded n pos h s
  | .batchClose n => Sys2Proof.Machine.execBatchClose n s
  | .fwStage r addr len => Sys2Proof.Machine.execFwStage r addr len s
  | .fwHandover r timeout => Sys2Proof.Machine.execFwHandover r timeout s
  | .quietPoint => Sys2Proof.Machine.execQuietPoint s
  | .handoverTimeout => Sys2Proof.Machine.execHandoverTimeout s
  | .temperHandover => Sys2Proof.Machine.execTemperHandover s
  | .tmpAlive who pauseUs => Sys2Proof.Machine.execTmpAlive who pauseUs s
  | .handoverFallback pauseUs => Sys2Proof.Machine.execHandoverFallback pauseUs s
  | .fwCommit r => Sys2Proof.Machine.execFwCommit r s
  | .svnCommit r => Sys2Proof.Machine.execSvnCommit r s
  | .attest r nonce addr => Sys2Proof.Machine.execAttest r nonce addr s
  | .ownerKey r addr len slot key => Sys2Proof.Machine.execOwnerKey r addr len slot key s
  | .lcAdvance r addr len addr2 len2 => Sys2Proof.Machine.execLcAdvance r addr len addr2 len2 s
  | .identity r addr cert => Sys2Proof.Machine.execIdentity r addr cert s
  | .testOpen r addr len => Sys2Proof.Machine.execTestOpen r addr len s
  | .rootRevoke r addr len => Sys2Proof.Machine.execRootRevoke r addr len s
  | .recoveryGo v => Sys2Proof.Machine.execRecoveryGo v s
  | .faultReceived f => Sys2Proof.Machine.execFaultReceived f s
  | .placementReloadDone => Sys2Proof.Machine.execPlacementReloadDone s
  | .unfence v linkGood => Sys2Proof.Machine.execUnfence v linkGood s
  | .hearthKick cores who => Sys2Proof.Machine.execHearthKick cores who s
  | .hearthWatchdogExpiry within600 => Sys2Proof.Machine.execHearthWatchdogExpiry within600 s
  | .hearthException within600 => Sys2Proof.Machine.execHearthException within600 s
  | .hearthRestart pauseUs => Sys2Proof.Machine.execHearthRestart pauseUs s
  | .quenchWaveStart group wave units powerOk => Sys2Proof.Machine.execQuenchWaveStart group wave units powerOk s
  | .quenchWaveSkip units => Sys2Proof.Machine.execQuenchWaveSkip units s
  | .quenchPowerAbort units => Sys2Proof.Machine.execQuenchPowerAbort units s
  | .quenchWaveEnd results => Sys2Proof.Machine.execQuenchWaveEnd results s
  | .fallbackPathLoss => Sys2Proof.Machine.execFallbackPathLoss s
  | .wireBreakClear ch => Sys2Proof.Machine.execWireBreakClear ch s
  | .totalFieldCurrentHigh => Sys2Proof.Machine.execTotalFieldCurrentHigh s
  | .laneRetrainFail n => Sys2Proof.Machine.execLaneRetrainFail n s
  | .pcieLinkUp speed width => Sys2Proof.Machine.execPcieLinkUp speed width s
  | .configurationSpaceWrite bme msixEn funcMask pmeEn bar => Sys2Proof.Machine.execConfigurationSpaceWrite bme msixEn funcMask pmeEn s bar
  | .standbySectionPowerLoss => Sys2Proof.Machine.execStandbySectionPowerLoss s
  | .pllBRelockTimeout => Sys2Proof.Machine.execPllBRelockTimeout s
  | .arcBconsWrite n v => Sys2Proof.Machine.execArcBconsWrite n v s
  | .arcManConsWrite n v => Sys2Proof.Machine.execArcManConsWrite n v s

end Sys2Proof.Machine
end

