-- ==== Sys2Proof/Machine/Idle.lean ====
section
/-! DEFINITION. What a step does on an empty queue: one ETHCLK cycle of the PTP clock passes (R455). -/

namespace Sys2Proof.Machine

/-- The long cycles of the pattern of 25: all but n of them, picked one after another (R455).
[DESIGN CHOICE: log entry 5.] -/
def ptpLong : Nat → List Nat
  | 0 => List.range 25
  | n + 1 => (ptpLong n).eraseIdx (Config.ptpShortPick n % (ptpLong n).length)

/-- The increment of cycle i of the pattern, in 2^-32 ns, without PTP_RATE: 19 cycles of 25 are long (R455).
[DESIGN CHOICE: log entry 5.] -/
def ptpIncrement (i : Nat) : Nat := 2 * 2 ^ 32 + (if (ptpLong 6).contains i then 2405181686 else 2405181685)

/-- PTP_RATE in force: magnitudes above 5,497,558 act as that value (R478). -/
def ptpRate (v : Nat) : Int := max (-5497558) (min 5497558 (sext 32 v))

/-- The clock one ETHCLK cycle later, with the signed rate in 2^-32 ns (R455). [DESIGN CHOICE: log entry 4.] -/
def ptpTick (rate : Int) (p : Ptp) : Ptp :=
  let t := wrap 96 ((p.ns * 2 ^ 32 + p.frac + ptpIncrement p.cycle : Nat) + rate)
  { p with ns := t / 2 ^ 32, frac := t % 2 ^ 32, cycle := (p.cycle + 1) % 25 }

/-- One idle cycle: the clock runs from the end of cold-start step 2 while ETHCLK does (R455, R457).
[DESIGN CHOICE: log entry 4.] [DESIGN CHOICE: log entry 141.] -/
def State.tick (s : State) : State :=
  if s.ptp.running && !s.seq.clkLost.contains .eth then
    let q := ptpTick (ptpRate (s.rd P.ptp Reg.PTP_RATE_rate)) s.ptp
    { s with ptp := { q with pps := q.pps && s.ppsOn && decide (q.ns % 1000000000 < 1000000 * max 1 (s.rd P.ptp Reg.PTP_PPS_pw)) } }
  else s

/-- [DESIGN CHOICE: log entry 4.] -/
def idle (s : State) : Host.Outcome State Fault Refusal := fin s.tick

end Sys2Proof.Machine
end

