-- ==== Sys2Proof/WellFormed.lean ====
section
/-! DEFINITION. Which commands can be given at all: operands that the types allow and no command of the spec can
carry. -/

namespace Sys2Proof

/-- A claim register's BAR0 offset (R123). -/
def isClaimAddr (a : Nat) : Bool :=
  a % 4 = 0 &&
    ((decide (0x900040 ≤ a) && decide (a < 0x900080)) || (decide (0xa00040 ≤ a) && decide (a < 0xa000c0))
      || (decide (0xa01040 ≤ a) && decide (a < 0xa010c0)) || (decide (0x610040 ≤ a) && decide (a < 0x610060))
      || (decide (0x800100 ≤ a) && decide (a < 0x800120)))

/-- The opcode of an engine command (R150). -/
def Cmd.opcode (w : Cmd) : Nat := w.w0.toNat % 256

/-- The opcodes that Anvil engines, numbers 0 to 31, and Tongs engines, 32 to 35, accept (R151, R212). -/
def knownOpcode (e op : Nat) : Bool :=
  if e < 32 then op < 9 || op = 15 else op = 0 || (2 < op && op < 7) || op = 15 || (0x1f < op && op < 0x26)

/-- A command that the spec's rows can carry. [DESIGN CHOICE: log entry 9.] -/
def Instr.wf : Instr → Bool
  | .claim addr _ => isClaimAddr addr.toNat
  | .release addr _ => isClaimAddr addr.toNat
  | .nop e _ _ w => w.opcode = 0 || !knownOpcode e w.opcode
  | .load _ _ _ w => w.opcode = 1
  | .pass _ _ _ w _ => w.opcode = 2
  | .vec _ _ _ w => w.opcode = 3
  | .pool _ _ _ w => w.opcode = 4
  | .dma _ _ _ w => w.opcode = 5
  | .barrier _ _ _ w => w.opcode = 6
  | .rwait _ _ _ w _ => w.opcode = 7
  | .satbr _ _ _ w => w.opcode = 8
  | .stepEnd _ _ _ _ w => w.opcode = 15
  | .crop _ _ _ w => w.opcode = 0x20
  | .expand _ _ _ w => w.opcode = 0x21
  | .tpass _ _ _ w => w.opcode = 0x22
  | .softmax _ _ _ w => w.opcode = 0x23
  | .verdictFinal _ _ _ w => w.opcode = 0x24 && w.w2 ≠ 1
  | .verdictEarlyExit _ _ _ _ w => w.opcode = 0x24 && w.w2 = 1
  | .boxes _ _ w => w.opcode = 0x25
  | .broadcast _ payload => payload.length ≤ 1408
  | .bindCam _ _ regs _ => regs.length = 9
  | .attest _ nonce _ => nonce.length = 32
  | .ownerKey _ _ len _ key => len ≠ 0 || key.length = 32
  | _ => true

end Sys2Proof
end

