-- ==== Sys2Proof/Safety.lean ====
section
/-! DEFINITION. What counts as a safe run, and the words statements are made of: the parts of the state, what a command
leaves as it was, the record it produces, the conditions under which a register write reaches its page. -/

namespace Sys2Proof.Machine

/-- The three byte memories hold their canonical form. -/
abbrev State.memOk (s : State) : Prop :=
  Memory.wf s.mem = true ∧ Memory.wf s.hostMem = true ∧ Memory.wf s.flash = true

/-- A run of n steps answers next states throughout. -/
def runsSafely (n : Nat) (s : State) : Prop := ∃ t, Host.Core.run Sys2Proof.core n s = .next t

/-- The permit rule and the output rule of R55, R56, R80, R431, R433, R437, R439 and R440 as levels: readiness is what
R80 computes, the permit conducts only then, and every field output is as its owner, its path and the protection have
it. -/
abbrev State.settled (s : State) : Prop :=
  s.seq.ready = s.isReady ∧ (s.seq.permit = true → s.seq.ready = true) ∧ ∀ n < 16, (s.chan n).on = s.driveOn n

/-- The parts of the state beside the register fields and the counters. -/
inductive Part where
  | snaps | openCtrs | parity | deferred | board | seq | host | mem | hostMem | flash | engines | ctxs | sched | cams
  | pipes | detect | lanes | encs | rtu | field | ports | ptp | bry | streams | cache | temper | coll | quench | msys
  | draws | pending
  deriving DecidableEq, Repr

/-- A part is in t as it is in s. Readiness, the permit and the switches of the field outputs follow from any command
(`State.settled`) and are not compared. -/
def Part.same (p : Part) (s t : State) : Prop :=
  match p with
  | .snaps => t.snaps = s.snaps ∧ t.snapWait = s.snapWait
  | .openCtrs => t.openCtrs = s.openCtrs
  | .parity => t.parityBad = s.parityBad ∧ t.injectArmed = s.injectArmed
  | .deferred => t.deferred = s.deferred
  | .board => t.board = s.board
  | .seq => { t.seq with ready := s.seq.ready, wasReady := s.seq.wasReady, permit := s.seq.permit } = s.seq
  | .host => t.host = s.host
  | .mem => t.mem = s.mem
  | .hostMem => t.hostMem = s.hostMem
  | .flash => t.flash = s.flash
  | .engines => t.engines = s.engines
  | .ctxs => t.ctxs = s.ctxs
  | .sched => t.sched = s.sched
  | .cams => t.cams = s.cams
  | .pipes => t.pipes = s.pipes
  | .detect => t.detect = s.detect
  | .lanes => t.lanes = s.lanes
  | .encs => t.encs = s.encs
  | .rtu => t.rtu = s.rtu
  | .field => { t.field with chans := s.field.chans } = s.field ∧
      ∀ n, (t.chan n).demand = (s.chan n).demand ∧ (t.chan n).prot = (s.chan n).prot ∧
        (t.chan n).lastCount = (s.chan n).lastCount
  | .ports => t.ports = s.ports
  | .ptp => t.ptp = s.ptp
  | .bry => t.bry = s.bry
  | .streams => t.streams = s.streams
  | .cache => t.cache = s.cache
  | .temper => t.temper = s.temper
  | .coll => t.coll = s.coll
  | .quench => t.quench = s.quench
  | .msys => t.msys = s.msys
  | .draws => t.draws = s.draws
  | .pending => t.pending = s.pending

/-- A is the counter of switchings of a field output (R450), which follows the switches. -/
def isSwitchCtr (a : Nat) : Prop := ∃ n < 16, a = P.fio + 0x800 + 0x10 * n

/-- t is s but for the register fields (by their keys), the counters and the parts listed. -/
structure Frame (s t : State) (regs ctrs : List Nat) (parts : List Part) : Prop where
  regs : ∀ base f i, f.key base i ∉ regs → t.rd base f i = s.rd base f i
  ctrs : ∀ a, a ∉ ctrs → ¬ isSwitchCtr a → t.ctr a = s.ctr a
  parts : ∀ p, p ∉ parts → p.same s t

/-- t is s but for the pages listed (by page number, BAR0 offset / 4096), their registers and counters, and the parts
listed. -/
structure PageFrame (s t : State) (pages : List Nat) (parts : List Part) : Prop where
  regs : ∀ base f i, f.key base i / 131072 ∉ pages → t.rd base f i = s.rd base f i
  ctrs : ∀ a, a / 4096 ∉ pages → ¬ isSwitchCtr a → t.ctr a = s.ctr a
  parts : ∀ p, p ∉ parts → p.same s t

/-- One more record than before, of this source and type, with this payload (cut or filled to 16 bytes). -/
def recorded (s t : State) (src : BitVec 12) (typ : BitVec 8) (payload : List Byte) : Prop :=
  ∃ u r, t.host.produced = s.host.produced ++ [u] ∧ u.target = BitVec.ofNat 8 (s.target src.toNat) ∧ u.recs = [r] ∧
    r.src = src ∧ r.typ = typ ∧ r.payload = padTo 16 payload

/-- Every field output is off. -/
abbrev State.outputsOff (s : State) : Prop := ∀ n < 16, (s.chan n).on = false

/-- The die is as a cold reset leaves it (R53, R77): every output is off, every memory of the die is clear, every register field
holds its reset value but for the fuses and the wake latches; flash and host memory are as they were. -/
structure DieCleared (s t : State) : Prop where
  outputs : t.outputsOff
  mem : t.mem = [] ∧ t.flash = s.flash ∧ t.hostMem = s.hostMem
  regs : ∀ base f i, (∀ p ∈ fusedFields, f.key base i ≠ p.2.key p.1 0) →
    f.key base i ≠ Reg.TMP_STAT_test_open.key P.tmp 0 → t.rd base f i = State.reset.rd base f i

/-- The die has lost its power (R50, R53). -/
structure PoweredOff (s t : State) : Prop extends DieCleared s t where
  board : t.board.switch = .off ∧ t.board.powerGood = false
  seq : t.seq.power = .off ∧ t.seq.phase = .none ∧ t.seq.permit = false

/-- Nothing is left over for the end of a command: no write waits for a block to leave active (R106), no register mismatches its
parity, and none is to be stored with inverted parity (R103). -/
abbrev State.atRest (s : State) : Prop := s.deferred = [] ∧ s.parityBad = [] ∧ s.injectArmed = []

/-- At rest and not BANKED, and no PERST_N with PME_En is past (R503): what a command does is then what its own rule says, and a
record goes the way of R487. -/
abbrev State.calm (s : State) : Prop := s.atRest ∧ s.seq.power = .active ∧ s.host.pmeLatched = false

/-- Calm, powered and out of reset: every clock of the device runs (R53, R64). -/
abbrev State.live (s : State) : Prop := s.calm ∧ s.hostReach = true

/-- No active block uses a register that mismatches its parity, so the end of a command finds none (R103). -/
abbrev State.parityIdle (s : State) : Prop :=
  ∀ a ∈ s.parityBad, (pageInfo (a / 4096)).all (fun p => !s.pageActive (a / 4096 * 4096) p.kind) = true

/-- A register write reaches its register (R53, R72, R94, R577): the module is powered and out of reset, the page's clock
runs, the page is not under test and, for a register of the configuration region, that region is not locked. -/
abbrev State.reaches (s : State) (addr : Nat) : Prop :=
  s.hostReach = true ∧ s.pageStopped addr = false ∧ s.underTest (addr / 4096 * 4096) = false ∧
    (inConfig addr && s.rdb (addr / 4096 * 4096) Reg.BLK_CTRL_cfg_lock) = false

/-- One capture in the page at base (R109): every live counter's copy holds its value, and the sequence counts it. -/
def captured (base : Nat) (s t : State) : Prop :=
  (∀ a, base + 0x800 ≤ a → a < base + 0xc00 → SMap.get t.snaps a 0 = s.ctr a) ∧
  t.rd base Reg.BLK_SNAP_seq = (s.rd base Reg.BLK_SNAP_seq + 1) % 2 ^ 16

/-- A count at no offset the spec gives went up by one: page n, reason w. -/
def counted (n : Nat) (w : Why) (s t : State) : Prop :=
  t.openCtrs = SMap.set s.openCtrs (64 * n + w.code) ((SMap.get s.openCtrs (64 * n + w.code) 0 + 1) % 2 ^ 64) 0

/-- These records and no others were produced, one after another: source, type, payload. -/
def records (s t : State) (l : List (BitVec 12 × BitVec 8 × List Byte)) : Prop :=
  ∃ us, t.host.produced = s.host.produced ++ us ∧
    us.map (fun u => (u.target, u.recs.map (fun r => (r.src, r.typ, r.payload)))) =
      l.map (fun x => (BitVec.ofNat 8 (s.target x.1.toNat), [(x.1, x.2.1, padTo 16 x.2.2)]))

/-- These records were produced first, one after another. -/
abbrev recordsFirst (s t : State) (l : List (BitVec 12 × BitVec 8 × List Byte)) : Prop :=
  records s { t with host := { t.host with produced := t.host.produced.take (s.host.produced.length + l.length) } } l

/-- These records were produced last, one after another. -/
abbrev recordsLast (s t : State) (l : List (BitVec 12 × BitVec 8 × List Byte)) : Prop :=
  records { s with host := { s.host with produced := t.host.produced.take (t.host.produced.length - l.length) } } t l

/-! ### Contexts and the mailbox -/

/-- SCH_CMD_RES of a command that has ended (R305). -/
structure CmdDone (s t : State) (op c code : Nat) : Prop where
  code : t.rd P.schG Reg.SCH_CMD_RES_code = code
  op : t.rd P.schG Reg.SCH_CMD_RES_op = op
  ctx : t.rd P.schG Reg.SCH_CMD_RES_ctx = c
  seq : t.rd P.schG Reg.SCH_CMD_RES_seq = (s.rd P.schG Reg.SCH_CMD_RES_seq + 1) % 65536

/-- The registers of SCH_CMD_RES. -/
def resKeys : List Nat :=
  [Reg.SCH_CMD_RES_code.key P.schG 0, Reg.SCH_CMD_RES_op.key P.schG 0, Reg.SCH_CMD_RES_ctx.key P.schG 0,
    Reg.SCH_CMD_RES_seq.key P.schG 0]

/-- The CMD_DONE record (R311). -/
def cmdRec (s : State) (op c code : Nat) : BitVec 12 × BitVec 8 × List Byte :=
  (0x500, 0x41, le 4 (code + 16 * op + 256 * c + 65536 * ((s.rd P.schG Reg.SCH_CMD_RES_seq + 1) % 65536)))

/-- The state registers of context c. -/
def stateKeys (c : Nat) : List Nat := [Reg.SCH_CTX_STAT_state.key (P.schC c) 0, Reg.SCH_CTX_STAT_fcause.key (P.schC c) 0]

/-- The CTX_STATE record (R311). -/
def ctxRec (c st fcause : Nat) : BitVec 12 × BitVec 8 × List Byte := (0x500, 0x42, le 1 c ++ le 1 st ++ le 1 fcause)

/-- The firmware has taken request r and answered it (R497, R498). -/
structure Answered (s t : State) (r : MbxReq) (op status detail : Nat) (data : List Byte) : Prop where
  cons : t.rd P.erq Reg.MBX_STAT_cons = (s.rd P.erq Reg.MBX_STAT_cons + 1) % 2 ^ s.mbxLog
  count : t.ctr (P.erq + 0x920) = (s.ctr (P.erq + 0x920) + 1) % 2 ^ 64
  taken : t.host.mbxTaken = (s.host.mbxTaken ++ [(r, op)]).erase (r, op)
  busy : t.rdb P.erq Reg.MBX_STAT_busy = !t.host.mbxTaken.isEmpty
  area : t.hostMem = if s.bme then Memory.writeBytes s.hostMem r.reply.toNat
    (padTo 64 (le 4 r.tag.toNat ++ le 1 status ++ le 1 detail ++ le 2 data.length ++ data)) else s.hostMem

/-- The MBX_DONE record (R511). -/
def mbxRec (r : MbxReq) (op status detail : Nat) : BitVec 12 × BitVec 8 × List Byte :=
  (0xf00, 0x78, le 4 r.tag.toNat ++ le 1 status ++ le 1 detail ++ le 2 op ++ le 8 r.reply.toNat)

/-- The record of a verification (R558). -/
def verRec (o : SignedObj) (code : Nat) : BitVec 12 × BitVec 8 × List Byte :=
  (0xd00, 0x7c, le 1 o.kind ++ le 1 code ++ le 6 0 ++ padTo 8 o.digest)

/-- The mailbox registers that taking a request moves. -/
def mbxKeys : List Nat := [Reg.MBX_STAT_cons.key P.erq 0, Reg.MBX_STAT_busy.key P.erq 0]

/-- The CAM_STATE record (R371); before the first line of a binding its line number is a free value. -/
def camRec (s : State) (k st res : Nat) : BitVec 12 × BitVec 8 × List Byte :=
  (0x610, 0x20, le 1 k ++ le 1 st ++ le 1 res ++ le 5 0 ++
    le 8 (if (s.cam k).nextLine = 0 then s.freeVal else (s.cam k).nextLine - 1))

/-- Bit b of BLK_STAT, 8 to 15, of the page at base (R95). -/
def State.blkBit (s : State) (base b : Nat) : Bool := bit (s.rd base Reg.BLK_STAT_blk) (b - 8)

/-- The firmware's request r to Temper ends with a result code: 0 is status 0, any other status 3 with that detail (R556). -/
def TmpEnd (s t : State) (r : MbxReq) (op code : Nat) : Prop :=
  Answered s t r op (if code = 0 then 0 else 3) code [] ∧ t.rd P.tmp Reg.TMP_STAT_res = code

/-- The MBX_DONE record of such an end. -/
def tmpRec (r : MbxReq) (op code : Nat) : BitVec 12 × BitVec 8 × List Byte := mbxRec r op (if code = 0 then 0 else 3) code

/-- The running and the staged image have changed places (R549). -/
def Temper.exchanged (m : Temper) : Temper :=
  { m with running := m.staged, runSvn := m.stagedSvn, version := m.stagedVersion, staged := m.running, stagedSvn := m.runSvn
           stagedVersion := m.version }

/-- The registers that a Temper operation moves beside its effect. -/
def tmpKeys : List Nat := Reg.TMP_STAT_res.key P.tmp 0 :: mbxKeys

/-- An authorisation burned one bit of the counter (R544, R545): the record with these keys and revoked slots, signed for the new
value, is the one in force and what Temper holds, and the copy that was in force before still stands. -/
structure Burned (s t : State) (keys : SMap (List Byte)) (revoked : List Nat) : Prop where
  count : t.rd P.tmp Reg.TMP_AUTH_CTR_count = s.rd P.tmp Reg.TMP_AUTH_CTR_count + 1
  record : t.recordInForce = some ⟨keys, revoked, s.rd P.tmp Reg.TMP_AUTH_CTR_count + 1⟩
  kept : ∀ r, s.recordInForce = some r → some r = t.temper.copyA ∨ some r = t.temper.copyB
  keys : t.temper.ownerKeys = keys
  revoked : t.temper.revokedSlots = revoked
  good : t.rdb P.tmp Reg.TMP_STAT_rec_bad = false

/-- The registers that burning moves. -/
def burnKeys : List Nat :=
  [Reg.TMP_AUTH_CTR_count.key P.tmp 0, Reg.TMP_STAT_slots.key P.tmp 0, Reg.TMP_STAT_rec_bad.key P.tmp 0]

/-- A verification counted: one, and one refused where its code is not 0 (R557). -/
def verCounted (s t : State) (code : Nat) : Prop :=
  t.ctr (P.tmp + 0x800) = (s.ctr (P.tmp + 0x800) + 1) % 2 ^ 64 ∧
    (code ≠ 0 → t.ctr (P.tmp + 0x808) = (s.ctr (P.tmp + 0x808) + 1) % 2 ^ 64 ∧ bit (t.rd P.tmp Reg.BLK_STAT_blk) 0 = true)

/-! ### Brynade -/

/-- The packets of a flow that may leave under a credit limit, oldest first (R470). -/
def mayLeave (credit : Option Nat) (l : List BryPacket) : List BryPacket :=
  l.takeWhile (fun p => credit.all (fun c => decide (0 < seqDiff p.pseq.toNat c)))

/-- These packets went to the port, or were lost there (R466, R465). -/
def sentOn (s t : State) (port typ : Nat) (ps : List BryPacket) : Prop :=
  t.bry.sent = if s.portDead port = true then s.bry.sent else s.bry.sent ++ ps.map (fun p => (port, typ, p))

/-- Flow f's packets that the credit allows have left; the others wait. -/
def FlowMoved (s t : State) (f port : Nat) (credit : Option Nat) (unacked waiting : List BryPacket) : Prop :=
  (t.flow f).unacked = unacked ++ mayLeave credit waiting ∧ (t.flow f).unsent = waiting.drop (mayLeave credit waiting).length ∧
    t.ctr (P.bry + 0x800) = (s.ctr (P.bry + 0x800) + (mayLeave credit waiting).length) % 2 ^ 64 ∧
    sentOn s t port 1 (mayLeave credit waiting)

/-- A message of the tree went out on the edge to neighbour k: it takes the edge's number and is held (R472). -/
def edgeSent (s t : State) (k op flags inst origin id : Nat) (bs : List Byte) : Prop :=
  let ok := s.nbr k = true ∧ k ∉ s.bry.edgeFaulted
  let n := SMap.get s.bry.edgePseq k 0
  let p : BryPacket := ⟨BitVec.ofNat 16 s.moduleId, BitVec.ofNat 16 (s.nbrModule k), BitVec.ofNat 16 id, BitVec.ofNat 8 flags, BitVec.ofNat 8 op,
    BitVec.ofNat 32 n, BitVec.ofNat 32 inst, BitVec.ofNat 32 origin, bs, true⟩
  SMap.get t.bry.edgeUnacked k [] = SMap.get s.bry.edgeUnacked k [] ++ (if ok then [p] else []) ∧
    SMap.get t.bry.edgePseq k 0 = if ok then (n + 1) % 2 ^ 32 else n

/-- The pages in which an access to DRAM is counted and its uncorrectable words are recorded (R244, R254, R266, R271). -/
def trafficPages : List Nat := [P.blw, P.drc 0, P.drc 1].map (· / 4096)

/-- Device memory takes byte i of a write at a: a stack in its fault state takes none (R265), the image region only Temper's
copy (R549). -/
abbrev State.takes (s : State) (a i : Nat) : Prop := s.stackDead a = false ∧ inImage (a + i) = false

/-! ### Engine commands -/

/-- The engine has taken up the step of job x, and the step is in its program buffer (R149, R168). -/
def State.taken (s : State) (e c : Nat) (x : Job) : State := (s.takeUp e c x).stepFetch e x

/-- Command w of the job x in slot j as it stands in its unit queue on engine e (R154). -/
def State.waiting (s : State) (e c j : Nat) (w : Cmd) (x : Job) (arg : Nat) : Waiting :=
  { ctx := c, job := j, cmd := w, arg := rowArg ((s.taken e c x).prog e c) w arg }

/-- The state in which the command stands in its unit queue and has done nothing yet (R154). -/
def State.staged (s : State) (e c j : Nat) (w : Cmd) (x : Job) (arg : Nat := 0) : State :=
  (s.taken e c x).enqueue e c j w (rowArg ((s.taken e c x).prog e c) w arg)

/-- The engine may issue a command of job x, and w is the next of the job's step (R149, R155, R284, R287). -/
abbrev State.nextIs (s : State) (e c j : Nat) (w : Cmd) (x : Job) : Prop :=
  s.mayTake e c j = some x ∧ (s.taken e c x).engWorks e = true ∧
    ((s.taken e c x).prog e c).cmds[((s.taken e c x).prog e c).pos]? = some w

/-- The same, and the command executes as it is issued: nothing waits in the engine's queues, and what the command waits for is
there (R142, R150, R154, R159). -/
abbrev State.issues (s : State) (e c j : Nat) (w : Cmd) (x : Job) (arg : Nat := 0) : Prop :=
  s.nextIs e c j w x ∧ ((s.taken e c x).eng e).queued = [] ∧
    (s.staged e c j w x arg).canRun e (s.waiting e c j w x arg) = true

/-- Token n once the token that the command waits on is taken (R153). -/
def State.tokenAt (s : State) (e c : Nat) (w : Cmd) (n : Nat) : Nat :=
  s.tokens e c n - (if cmdWaits w = true ∧ n = cmdWaitTok w then 1 else 0)

/-- The command's signal leaves its token within 255 (R153). -/
abbrev State.signalFits (s : State) (e c : Nat) (w : Cmd) : Prop := cmdSignals w = true → s.tokenAt e c w (cmdSigTok w) ≠ 255

/-- What a row does with a command before any effect: one that the engine may not take, or that is not the next of the step, is not
issued; a step whose words stay uncorrectable is no step to issue from; the next command goes into its unit queue, and the
queues then execute what they can (R149, R154, R284, R287). -/
structure RowQueues (s : State) (i : Instr) (e c j : Nat) (w : Cmd) (arg : Nat) : Prop where
  barred : s.mayTake e c j = none → ∃ t, exec i s = .next t ∧ Frame s t [] [] []
  fetch : ∀ x, s.mayTake e c j = some x → (s.taken e c x).engWorks e = false →
    ∃ t, exec i s = .next t ∧ Frame (s.taken e c x) t [] [] []
  other : ∀ x, s.mayTake e c j = some x → (s.taken e c x).engWorks e = true →
    ((s.taken e c x).prog e c).cmds[((s.taken e c x).prog e c).pos]? ≠ some w → ∃ t, exec i s = .next t ∧ Frame s t [] [] []
  waits : ∀ x, s.nextIs e c j w x →
    (∀ q ∈ ((s.staged e c j w x arg).eng e).queued, (s.staged e c j w x arg).canRun e q = false) →
    ∃ t, exec i s = .next t ∧ Frame (s.staged e c j w x arg) t [] [] []
  runs : ∀ x, s.nextIs e c j w x → ∃ t, exec i s = .next t ∧ Frame ((s.staged e c j w x arg).drainAll e) t [] [] []

/-- The registers of context c on engine e that issuing a command moves. -/
def ctxKeys (e c : Nat) : List Nat :=
  [Reg.ANV_CTX_STAT_pc.key (seqPage e) c, Reg.ANV_CTX_STAT_state.key (seqPage e) c, Reg.ANV_CTX_STAT_step.key (seqPage e) c]

/-- The command stands in its unit queue, its step in the program buffer, and nothing else of the engine has moved (R149, R153,
R154, R168, R288, R310). -/
structure Queued (s u : State) (e c j : Nat) (w : Cmd) (x : Job) (arg : Nat) : Prop where
  cur : (u.eng e).cur = some c ∧ (u.eng e).lastNamed = c ∧ (u.eng e).chain = none
  queued : (u.eng e).queued = (s.eng e).queued ++ [s.waiting e c j w x arg]
  inflight : (u.eng e).inflight = (s.eng e).inflight
  others : ∀ d, d ≠ e → u.eng d = s.eng d
  state : u.rd (seqPage e) Reg.ANV_CTX_STAT_state c = 1
  step : u.rd (seqPage e) Reg.ANV_CTX_STAT_step c = if s.onJob e x = true then s.rd (seqPage e) Reg.ANV_CTX_STAT_step c else 0
  tokens : ∀ n < 16, u.tokens e c n = if s.onJob e x = true then s.tokens e c n else 0
  pos : 0 < (u.prog e c).pos ∧ (u.prog e c).cmds[(u.prog e c).pos - 1]? = some w
  job : u.job j = some { x with phase := phaseOf e (cmdOp w) }
  held : (s.jobProg e x).cmds ≠ [] →
    u.prog e c = { s.jobProg e x with pos := (s.jobProg e x).pos + 1 } ∧ Frame s u (ctxKeys e c) [] [.engines, .sched]
  fetched : (s.jobProg e x).cmds = [] → (u.prog e c).pos = 1 ∧
    u.stepCmds (s.stepLimit e c) (s.progBase e x + (s.jobProg e x).start) = some (u.prog e c).cmds ∧
    PageFrame s u (seqPage e / 4096 :: trafficPages) [.engines, .sched, .host, .mem, .msys, .draws]

/-- A command has left its queue; its effect is in the engine, or seen by it alone. -/
structure HasRun (s t : State) (e c : Nat) : Prop where
  queued : (t.eng e).queued = []
  cur : (t.eng e).cur = some c
  others : ∀ d, d ≠ e → t.eng d = s.eng d

/-- It is complete at once: its token is signalled (R150, R151). -/
structure AtOnce (s t : State) (e c : Nat) (w : Cmd) : Prop extends HasRun s t e c where
  inflight : (t.eng e).inflight = (s.eng e).inflight
  tokens : ∀ n < 16, t.tokens e c n = s.tokenAt e c w n + if cmdSignals w = true ∧ n = cmdSigTok w then 1 else 0

/-- It stays in flight until COMMAND_COMPLETE, its own token not signalled yet (R151, R153). -/
structure InFlight (s t : State) (e c : Nat) (w : Cmd) : Prop extends HasRun s t e c where
  inflight : (t.eng e).inflight = (s.eng e).inflight ++ [(c, w)]
  tokens : ∀ n < 16, t.tokens e c n = s.tokenAt e c w n

/-- The pages that the end of a job may touch beside its own (R168, R293): the engines' sequencers, and what the landing of data
that waited costs. -/
def endPages : List Nat :=
  ((List.range 36).map seqPage ++ [P.bry, P.blw, P.bank, P.drc 0, P.drc 1, P.tmp]).map (· / 4096)

/-- The parts that the end of a job may touch. -/
def endParts : List Part := [.engines, .sched, .rtu, .ctxs, .bry, .mem, .msys, .host, .draws]

/-- A command met a fault (R161, R162): the engine's page is in its fault state with this cause, the context shows it, nothing
is in flight and nothing waits. -/
structure EngineFault (s t : State) (e c cause : Nat) (regs ctrs : List Nat) : Prop where
  state : t.inFault (P.eng e) = true
  cause : s.rd (P.eng e) Reg.BLK_ERR_cause = 0 → t.rd (P.eng e) Reg.BLK_ERR_cause = cause
  ctx : t.rd (seqPage e) Reg.ANV_CTX_STAT_state c = 4
  idle : (t.eng e).inflight = [] ∧ (t.eng e).queued = []
  frame : Frame s t (regs ++ [Reg.ANV_CTX_STAT_state.key (seqPage e) c, Reg.BLK_STAT_state.key (P.eng e) 0,
    Reg.BLK_ERR_cause.key (P.eng e) 0, Reg.BLK_ERR_more.key (P.eng e) 0, Reg.BLK_ERR_count.key (P.eng e) 0]) ctrs [.engines, .host]

end Sys2Proof.Machine
end

