-- ==== Sys2Proof/Certificates/Slice0/Obligations.lean ====
section
/-! DEFINITION. The statements for the provers. Each statement about a command says, for every state and operands that meet its
hypotheses, that exec answers a next state, what that state holds, and its frame: the register fields, the counters and the parts of
the state that may differ (`Frame`, `PageFrame`); everything else is as before. -/

section

open Sys2Proof Sys2Proof.Machine

/-! ### Register pages, claims, BAR2 -/

/-- FAULT_CLR (R96, R105): the block leaves its fault state only when no register of its page mismatches and the causes
have gone, and is then idle, held there until its enabling sequence, with BLK_ERR and BLK_PARITY clear; a write it
refuses is counted in the page; a write made outside the fault state clears BLK_ERR. What a block holds until its
BLK_ERR is cleared (a stack's first bad address, an engine's bad descriptor) is clear with it. CONFIG_PARITY_SCAN and
PARITY_INJECT (R100, R103): a mismatching register of a configuration region whose clock runs is counted, its word
offset held if none is, cause 0x01 held if no cause is, and the block is in its fault state, or stays fenced; a
register that does not mismatch changes nothing. An injection is armed in MANUFACTURE and RETURNED only, and inverts
the parity of the next configuration write, whose register an active block finds in use. -/
def Obligations.FaultStatesAreEnteredAndLeft : Prop :=
  (∀ (s : State) (page : BitVec 14) (gone : Bool), s.deferred = [] → s.parityIdle → s.reaches (page.toNat * 4096 + 8) →
    (pageInfo page.toNat).isSome = true →
    let base := page.toNat * 4096
    let parity := s.parityBad.any (fun a => a / 4096 = page.toNat)
    let cleared := [Reg.BLK_ERR_cause.key base 0, Reg.BLK_ERR_more.key base 0, Reg.BLK_ERR_count.key base 0,
      Reg.BLK_PARITY_first_off.key base 0, Reg.BLK_PARITY_count.key base 0, Reg.DRC_ERR_ADDR_lo.key base 0,
      Reg.DRC_ERR_ADDR_hi.key base 0, Reg.DRC_ERR_ADDR_held.key base 0, Reg.ANV_DMA_STAT_last_bad.key (base + 0x2000) 0]
    ∃ t, exec (.faultClr page gone) s = .next t ∧
      (s.inFault base = true → gone = false ∨ parity = true →
        counted page.toNat .clrRefused s t ∧ Frame s t [] [] [.openCtrs]) ∧
      (s.inFault base = true → gone = true → parity = false →
        t.rd base Reg.BLK_STAT_state = idleHeld ∧ t.works base = false ∧
          Frame s t (Reg.BLK_STAT_state.key base 0 :: cleared) [] []) ∧
      (s.inFault base = false → Frame s t cleared [] []) ∧
      (s.inFault base = false ∨ (gone = true ∧ parity = false) →
        t.rd base Reg.BLK_ERR_cause = 0 ∧ t.rd base Reg.BLK_ERR_more = 0 ∧ t.rd base Reg.BLK_ERR_count = 0 ∧
        t.rd base Reg.BLK_PARITY_first_off = 0 ∧ t.rd base Reg.BLK_PARITY_count = 0)) ∧
  ((∀ (s : State) (addr : Bar0Addr), s.deferred = [] → s.seq.power = .active → s.host.pmeLatched = false →
    s.pageStopped addr.toNat = false → inConfig addr.toNat = true →
    (∀ a ∈ s.parityBad, a / 4096 = addr.toNat / 4096 ∨
      (pageInfo (a / 4096)).all (fun p => !s.pageActive (a / 4096 * 4096) p.kind) = true) →
    (s.parityBad.contains addr.toNat = false → s.parityIdle) → engineOfPage (addr.toNat / 4096) = none →
    let base := addr.toNat / 4096 * 4096
    ∃ t, exec (.configParityScan addr) s = .next t ∧
      (s.parityBad.contains addr.toNat = false → Frame s t [] [] []) ∧
      (s.parityBad.contains addr.toNat = true →
        t.rd base Reg.BLK_PARITY_count = min 255 (s.rd base Reg.BLK_PARITY_count + 1) ∧
        t.rd base Reg.BLK_PARITY_first_off =
          (if s.rd base Reg.BLK_PARITY_count = 0 then addr.toNat % 4096 / 4 else s.rd base Reg.BLK_PARITY_first_off) ∧
        (s.rd base Reg.BLK_ERR_cause = 0 → t.rd base Reg.BLK_ERR_cause = 1 ∧
          t.rd base Reg.BLK_ERR_more = s.rd base Reg.BLK_ERR_more) ∧
        (s.rd base Reg.BLK_ERR_cause ≠ 0 → t.rd base Reg.BLK_ERR_cause = s.rd base Reg.BLK_ERR_cause ∧
          t.rd base Reg.BLK_ERR_more = 1) ∧
        t.rd base Reg.BLK_ERR_count = min 255 (s.rd base Reg.BLK_ERR_count + 1) ∧
        t.rd base Reg.BLK_STAT_state = (if s.isFenced base then 4 else 3) ∧
        Frame s t [Reg.BLK_PARITY_count.key base 0, Reg.BLK_PARITY_first_off.key base 0, Reg.BLK_ERR_cause.key base 0,
          Reg.BLK_ERR_more.key base 0, Reg.BLK_ERR_count.key base 0, Reg.BLK_STAT_state.key base 0] [] [.host])) ∧
  (∀ (s : State) (addr : Bar0Addr) (e : Nat), s.deferred = [] → s.seq.power = .active → s.host.pmeLatched = false →
    s.parityBad = [addr.toNat] → inConfig addr.toNat = true → engineOfPage (addr.toNat / 4096) = some e →
    s.rd (addr.toNat / 4096 * 4096) Reg.BLK_STAT_state < 3 →
    ∃ t, exec (.configParityScan addr) s = .next t ∧ t.inFault (addr.toNat / 4096 * 4096) = true ∧
      (t.eng e).inflight = [] ∧ (t.eng e).queued = [] ∧ PageFrame s t [addr.toNat / 4096] [.host, .engines]) ∧
  (∀ (s : State) (page : BitVec 14), s.deferred = [] → s.parityIdle → s.reaches (page.toNat * 4096 + 0x1c) →
    (pageInfo page.toNat).isSome = true →
    ∃ t, exec (.parityInject page) s = .next t ∧ Frame s t [] [] [.parity] ∧ t.parityBad = s.parityBad ∧
      (s.rd P.tmp Reg.TMP_LC_state = 1 ∨ s.rd P.tmp Reg.TMP_LC_state = 4 → page.toNat ∈ t.injectArmed ∧
        ∀ n, n ≠ page.toNat → (n ∈ t.injectArmed ↔ n ∈ s.injectArmed)) ∧
      (s.rd P.tmp Reg.TMP_LC_state ≠ 1 → s.rd P.tmp Reg.TMP_LC_state ≠ 4 → t.injectArmed = s.injectArmed)) ∧
  (∀ (s : State) (v : Word) (who : Requester), s.deferred = [] → s.parityBad = [] → s.injectArmed = [0] →
    s.seq.power = .active → s.host.pmeLatched = false → s.reaches 0x60 → s.works P.chip = true →
    s.rdb P.chip Reg.BLK_CTRL_en = true →
    ∃ t, exec (.registerWrite 0x60 v who) s = .next t ∧ t.rd P.chip Reg.CHIP_WAKE_en = v.toNat / 2 ^ 16 % 2 ^ 10 ∧
      t.parityBad = [0x60] ∧ t.injectArmed = [] ∧ t.inFault P.chip = true ∧
      (s.rd P.chip Reg.BLK_PARITY_count = 0 → t.rd P.chip Reg.BLK_PARITY_first_off = 0x18) ∧
      (s.rd P.chip Reg.BLK_ERR_cause = 0 → t.rd P.chip Reg.BLK_ERR_cause = 1) ∧ PageFrame s t [0] [.parity, .host]))

/-- BLK_SNAP, CHIP_SNAP and SNAP_CAPTURE (R109 to R112): a capture copies every live counter of its page and counts; the
chip page's broadcast does so in every CORECLK page at once and stamps the PTP time, or is ignored within 256 cycles
of the last; each page of another clock that runs makes that capture once, and one whose clock is stopped makes none. -/
def Obligations.CaptureCopiesEveryCounterOfThePage : Prop :=
  (∀ (s : State) (page : BitVec 14) (near : Bool), s.atRest → s.reaches (page.toNat * 4096 + 0x18) → page ≠ 0 →
    (pageInfo page.toNat).isSome = true →
    ∃ t, exec (.blkSnap page near) s = .next t ∧ captured (page.toNat * 4096) s t ∧
      (∀ a, ¬ (page.toNat * 4096 + 0x800 ≤ a ∧ a < page.toNat * 4096 + 0xc00) → SMap.get t.snaps a 0 = SMap.get s.snaps a 0) ∧
      t.snapWait = s.snapWait ∧ Frame s t [Reg.BLK_SNAP_seq.key (page.toNat * 4096) 0] [] [.snaps]) ∧
  (∀ (s : State) (c : Instr), s.atRest → s.reaches 0x18 → c = .chipSnap false ∨ c = .blkSnap 0 false →
    let late := otherPages.filter (fun b => s.snapWait.contains (b / 4096) && !s.clockStopped b)
    ∃ t, exec c s = .next t ∧ (∀ base ∈ coreclkPages, captured base s t) ∧ (∀ base ∈ late, captured base s t) ∧
      t.snapWait = (otherPages.filter (fun b => !s.clockStopped b)).map (fun b => b / 4096) ∧
      t.rd P.chip Reg.CHIP_SNAP_TIME_lo = (if s.timeInvalid then 0 else s.now) % 2 ^ 32 ∧
      t.rd P.chip Reg.CHIP_SNAP_TIME_hi = (if s.timeInvalid then 0 else s.now) / 2 ^ 32 % 2 ^ 32 ∧
      Frame s t (Reg.CHIP_SNAP_TIME_lo.key P.chip 0 :: Reg.CHIP_SNAP_TIME_hi.key P.chip 0 ::
        (coreclkPages ++ late).map (fun b => Reg.BLK_SNAP_seq.key b 0)) [] [.snaps]) ∧
  (∀ (s : State) (c : Instr), s.atRest → s.reaches 0x18 → c = .chipSnap true ∨ c = .blkSnap 0 true →
    ∃ t, exec c s = .next t ∧ counted 0 .snapIgnored s t ∧ Frame s t [] [] [.openCtrs]) ∧
  (∀ (s : State) (page : BitVec 14), s.atRest →
    ∃ t, exec (.snapCapture page) s = .next t ∧ t.snapWait = s.snapWait.filter (fun n => n ≠ page.toNat) ∧
      (page.toNat ∈ s.snapWait → s.clockStopped (page.toNat * 4096) = false → captured (page.toNat * 4096) s t ∧
        Frame s t [Reg.BLK_SNAP_seq.key (page.toNat * 4096) 0] [] [.snaps]) ∧
      (page.toNat ∉ s.snapWait ∨ s.clockStopped (page.toNat * 4096) = true → t.snaps = s.snaps ∧ Frame s t [] [] [.snaps]))

/-- COUNTER_LOW_READ, REGISTER_ACCESS_INVALID and STOPPED_PAGE_ACCESS (R9, R72, R108): the lower word of a live counter is
returned and its upper word latched, the next read of its page returns that word where it is the upper word's, and any
read ends the page's latch; an access without a register reads zero and is counted by its block; an access to a page
whose clock is stopped reads zero and sets the register-access latch. A register write that does not reach its
register (R72, R94, R577, R589): nothing happens while the module cannot be reached; a page whose clock is stopped
sets the register-access latch; a page under test, or a configuration region that is locked, ignores the write and
counts it. The writes of CLAIM, RELEASE and REGISTER_WRITE alike. -/
def Obligations.AccessesAnswerOrChangeNothing : Prop :=
  ((∀ (s : State) (a : Bar0Addr), s.hostReach = true → s.pageStopped a.toNat = false → s.atRest →
    let o := a.toNat % 4096
    let low := 0x800 ≤ o ∧ o < 0xc00 ∧ o % 8 = 0
    let l := SMap.find? s.host.upperLatch (a.toNat / 4096)
    ∃ t, exec (.counterLowRead a) s = .next t ∧ t.host.readPoisoned = false ∧ t.host.produced = s.host.produced ∧
      (low → (pageInfo (a.toNat / 4096)).isSome = true → l.all (fun x => x.1 ≠ a.toNat) = true →
        t.host.readData = le 4 (s.ctr a.toNat % 2 ^ 32) ∧
        SMap.find? t.host.upperLatch (a.toNat / 4096) = some (a.toNat + 4, s.ctr a.toNat / 2 ^ 32)) ∧
      (¬ low → o % 4 = 0 → a.toNat ≠ P.ptp + 0x40 →
        t.host.readData = le 4 ((l.map (fun x => if x.1 = a.toNat then x.2 else s.readWord a.toNat)).getD (s.readWord a.toNat)) ∧
        SMap.find? t.host.upperLatch (a.toNat / 4096) = none) ∧
      Frame s t [] [] [.host]) ∧
  (∀ (s : State) (a : Bar0Addr), s.hostReach = true → s.pageStopped a.toNat = false → s.atRest →
    ∃ t, exec (.registerAccessInvalid a true) s = .next t ∧ t.host.readData = [0, 0, 0, 0] ∧
      t.host.produced = s.host.produced ∧ ((pageInfo (a.toNat / 4096)).isSome = true → counted (a.toNat / 4096) .invalidAccess s t) ∧
      Frame s t [] [] [.host, .openCtrs]) ∧
  (∀ (s : State) (a : Bar0Addr), s.hostReach = true → s.pageStopped a.toNat = false → s.atRest →
    ∃ t, exec (.registerAccessInvalid a false) s = .next t ∧
      ((pageInfo (a.toNat / 4096)).isSome = true → counted (a.toNat / 4096) .invalidAccess s t) ∧ Frame s t [] [] [.openCtrs]) ∧
  (∀ (s : State) (a : Bar0Addr) (isRead : Bool), s.pageStopped a.toNat = true → s.atRest →
    ∃ t, exec (.stoppedPageAccess a isRead) s = .next t ∧
      bit (t.rd P.chip Reg.CHIP_WAKE_latch) 2 = true ∧ (isRead = true → t.host.readData = [0, 0, 0, 0]) ∧
      (isRead = false → t.host = s.host) ∧ t.host.produced = s.host.produced ∧
      Frame s t [Reg.CHIP_WAKE_latch.key P.chip 0] [] [.host])) ∧
  (∀ (s : State) (a : Bar0Addr) (v : Word) (c : Instr), s.atRest →
    (c = .registerWrite a v .driver ∨ c = .registerWrite a v .firmware ∨ (isClaimAddr a.toNat = true ∧ (c = .claim a v ∨ c = .release a v))) →
    let base := a.toNat / 4096 * 4096
    ∃ t, exec c s = .next t ∧
      (s.hostReach = false → Frame s t [] [] []) ∧
      (s.hostReach = true → s.pageStopped a.toNat = true →
        bit (t.rd P.chip Reg.CHIP_WAKE_latch) 2 = true ∧ Frame s t [Reg.CHIP_WAKE_latch.key P.chip 0] [] []) ∧
      (s.hostReach = true → s.pageStopped a.toNat = false →
        (s.underTest base = true ∨ (inConfig a.toNat && s.rdb base Reg.BLK_CTRL_cfg_lock) = true) →
        counted (a.toNat / 4096) .ignoredWrite s t ∧ Frame s t [] ((ignoredCtr base).toList) [.openCtrs]))

/-- CLAIM (R123, R125, R129): a free launch slot, trigger path, event timer or field channel goes to the class and unit of
the request where the resource permits the class (a channel that is an input permits no class but GP); a resource
owned already stays with its owner, and a class not permitted is refused first (log entry 22, the model's own), each
failure in CLAIM_ERR, counted and recorded. RELEASE (R128, R129): the owner's class and unit, with no pending use,
free the resource; a release by another, or with a use pending, changes no owner and is recorded with code 2 or 3. -/
def Obligations.ClaimsAndReleasesFollowTheOwner : Prop :=
  (∀ (s : State) (a : Bar0Addr) (v : Word) (r : Res), s.calm → s.reaches a.toNat → resAt a.toNat = some r →
    v.toNat / 2 ^ 30 = 1 →
    let cls := v.toNat / 2 ^ 16 % 8
    let unit := v.toNat / 2 ^ 20 % 256
    let allowed : Bool := match r.kind with
      | .chan => cls = 4 || (s.rdb P.fio Reg.FIO_CH_CFG_dir r.idx && (cls = 1 || cls = 2 || cls = 3))
      | .slot => cls = 2 || cls = 4
      | .path => cls = 3 || cls = 4
      | .timer => cls = 3 || cls = 4
    let err := [Reg.CLAIM_ERR_code.key r.base 0, Reg.CLAIM_ERR_resource.key r.base 0, Reg.CLAIM_ERR_req.key r.base 0]
    ∃ t, exec (.claim a v) s = .next t ∧
      (allowed = true → s.rd r.base r.ownerF r.idx = 0 →
        t.rd r.base r.ownerF r.idx = cls ∧ t.rd r.base r.unitF r.idx = unit ∧ t.host = s.host ∧
        Frame s t [r.ownerF.key r.base r.idx, r.unitF.key r.base r.idx, Reg.TMR_CTL_run.key P.enc r.idx] []
          [.parity, .field]) ∧
      (allowed = false ∨ s.rd r.base r.ownerF r.idx ≠ 0 →
        t.rd r.base r.ownerF r.idx = s.rd r.base r.ownerF r.idx ∧ t.rd r.base r.unitF r.idx = s.rd r.base r.unitF r.idx ∧
        t.rd r.base Reg.CLAIM_ERR_code = (if allowed then 1 else 4) ∧ t.rd r.base Reg.CLAIM_ERR_resource = r.idx ∧
        t.rd r.base Reg.CLAIM_ERR_req = cls ∧ counted (r.base / 4096) .claimFailed s t ∧
        recorded s t (BitVec.ofNat 12 (srcOf r.base)) 0x02
          (le 4 ((if allowed then 1 else 4) + 16 * r.idx + 65536 * cls) ++ [1, BitVec.ofNat 8 unit]) ∧
        Frame s t err [] [.parity, .host, .openCtrs])) ∧
  (∀ (s : State) (a : Bar0Addr) (v : Word) (r : Res), s.calm → s.reaches a.toNat → resAt a.toNat = some r →
    v.toNat / 2 ^ 30 = 2 →
    let cls := v.toNat / 2 ^ 16 % 8
    let unit := v.toNat / 2 ^ 20 % 256
    let owner := s.rd r.base r.ownerF r.idx
    let mine : Bool := owner = cls && s.rd r.base r.unitF r.idx = unit && owner ≠ 0
    let waits (p : Nat × RtuEntry) : Bool := p.2.group = s.rd r.base r.unitF r.idx && p.2.state = 1
    let busy := (r.kind = .chan ∧ ((owner = 2 ∧ ((∃ p ∈ s.rtu.entries, waits p = true ∧ r.idx ∈ s.entryChans p.2) ∨
          SMap.get s.rtu.pulses r.idx [] ≠ [])) ∨ (owner = 3 ∧ (s.chan r.idx).demand = true))) ∨
      (r.kind = .slot ∧ (2 ≤ s.rd r.base Reg.LSLOT_CTRL_state r.idx ∨
          (owner = 2 ∧ ∃ p ∈ s.rtu.entries, waits p = true)))
    ∃ t, exec (.release a v) s = .next t ∧
      (mine = true → ¬ busy → t.rd r.base r.ownerF r.idx = 0 ∧ t.rd r.base r.unitF r.idx = 0 ∧ t.host = s.host ∧
        Frame s t [r.ownerF.key r.base r.idx, r.unitF.key r.base r.idx, Reg.TMR_CTL_run.key P.enc r.idx] []
          [.parity, .field]) ∧
      (mine = false ∨ busy → t.rd r.base r.ownerF r.idx = owner ∧
        t.rd r.base Reg.CLAIM_ERR_code = (if mine then 3 else 2) ∧ counted (r.base / 4096) .claimFailed s t ∧
        recorded s t (BitVec.ofNat 12 (srcOf r.base)) 0x02
          (le 4 ((if mine then 3 else 2) + 16 * r.idx + 65536 * cls) ++ [2, BitVec.ofNat 8 unit]) ∧
        Frame s t [Reg.CLAIM_ERR_code.key r.base 0, Reg.CLAIM_ERR_resource.key r.base 0, Reg.CLAIM_ERR_req.key r.base 0] []
          [.parity, .host, .openCtrs]))

/-- REGISTER_WRITE (R10, R13, R106): every write of a state in which nothing waits answers a next state. On a page whose
registers have no rule of their own, a stored field takes its bits at once, or waits for its block to leave active and
is counted, and a read shows what was last written in both cases; nothing else changes. CHIP_WAKE.latch clears where 1
is written; a read-only register keeps its value; a write where no page stands is counted by the chip page;
LTG_CFG.enc of an LTG that acts is stored for later, and takes effect at once of one that is disarmed. -/
def Obligations.RegisterWriteFollowsTheAccessCodes : Prop :=
  ∀ (s : State) (v : Word) (who : Requester), s.atRest →
  (∀ a : Bar0Addr, s.reaches a.toNat → 0x40 ≤ a.toNat % 4096 → a.toNat % 4096 < 0x800 →
    ∀ p, pageInfo (a.toNat / 4096) = some p →
    p.kind = .clk ∨ p.kind = .pwr ∨ p.kind = .anv2 ∨ p.kind = .drc ∨ p.kind = .noc ∨ p.kind = .replay ∨ p.kind = .lplI ∨
      p.kind = .pcie ∨ p.kind = .rtuE ∨ p.kind = .schJ ∨ p.kind = .qch →
    let base := a.toNat / 4096 * 4096
    let l := fieldsAt p.kind (a.toNat % 4096)
    l ≠ [] →
    ∃ t, exec (.registerWrite a v who) s = .next t ∧
      (∀ fi ∈ l, fi.1.acc = .rw → t.shown a.toNat p.kind fi = bits v.toNat fi.1.lo fi.1.width ∧
        t.rd base fi.1 fi.2 = if s.heldField base p.kind fi then s.rd base fi.1 fi.2 else bits v.toNat fi.1.lo fi.1.width) ∧
      (s.heldBack a.toNat = true → t.deferred = [(a.toNat, v.toNat)] ∧ counted (a.toNat / 4096) .deferredWrite s t) ∧
      (s.heldBack a.toNat = false → t.deferred = [] ∧ t.openCtrs = s.openCtrs) ∧
      Frame s t ((l.filter (fun fi => fi.1.acc = .rw || fi.1.acc = .w1c)).map (fun fi => fi.1.key base fi.2))
        ((ignoredCtr base).toList) [.deferred, .openCtrs]) ∧
  (s.reaches 0x60 → ∃ t, exec (.registerWrite 0x60 v who) s = .next t ∧
    t.rd P.chip Reg.CHIP_WAKE_en = v.toNat / 2 ^ 16 % 2 ^ 10 ∧
    (s.rd P.chip Reg.CHIP_WAKE_latch < 2 ^ 10 → ∀ i < 10,
      bit (t.rd P.chip Reg.CHIP_WAKE_latch) i = (bit (s.rd P.chip Reg.CHIP_WAKE_latch) i && !bit v.toNat i)) ∧
    Frame s t [Reg.CHIP_WAKE_en.key P.chip 0, Reg.CHIP_WAKE_latch.key P.chip 0] [] []) ∧
  (s.reaches 0x48 → ∃ t, exec (.registerWrite 0x48 v who) s = .next t ∧ Frame s t [] [] []) ∧
  (∀ a : Bar0Addr, s.reaches a.toNat → pageInfo (a.toNat / 4096) = none → ∃ t, exec (.registerWrite a v who) s = .next t ∧
    counted 0 .reservedAccess s t ∧ Frame s t [] [] [.openCtrs]) ∧
  (∀ l : Fin 4, s.reaches (P.ltg + 0x40 + 64 * l) →
    ∃ t, exec (.registerWrite (BitVec.ofNat 26 (P.ltg + 0x40 + 64 * l)) v who) s = .next t ∧
      t.shown (P.ltg + 0x40 + 64 * l) .ltg (Reg.LTG_CFG_enc, l) = v.toNat % 4 ∧
      (s.rd P.ltg Reg.LTG_STAT_state l = 0 ∨ s.works P.ltg = false → t.rd P.ltg Reg.LTG_CFG_enc l = v.toNat % 4) ∧
      (s.rd P.ltg Reg.LTG_STAT_state l ≠ 0 → s.works P.ltg = true → t.rd P.ltg Reg.LTG_CFG_enc l = s.rd P.ltg Reg.LTG_CFG_enc l ∧
        t.deferred = [(P.ltg + 0x40 + 64 * l, v.toNat)] ∧ counted 0x801 .deferredWrite s t))

/-- BAR2_WRITE and BAR2_READ (R119, R120, R121, R592). Over DRAM outside the image region, with the HOST entry not held:
exactly the bytes present are stored, and none by a stack in its fault state; a read returns the bytes, poisoned where
a word of the range is uncorrectable and not repaired. While HOST is held the access waits for the period boundary,
and while a handover to HOST runs for its end. Over a bank that HOST owns: the bytes are stored, and returned. An
access to an unmapped offset, to a bank whose owner is not HOST or to a bank in retention or off has no effect, reads
as zero and is counted by the Nimbus page; no bank has HOST as its owner after reset. -/
def Obligations.Bar2ReachesDramAndRefusesTheUnmapped : Prop :=
  let free (s : State) (off : BitVec 36) : Prop := s.hostReach = true ∧ s.atRest ∧ s.blwTier bwHost (stackOf off.toNat) < 4 ∧
    s.blwProt bwHost = false ∧ off.toNat < 0x800000000
  let unitCtr (off : BitVec 36) (n : Nat) : List Nat := (stackParts off.toNat n).map (fun p => P.blw + 0x800 + 0x30 * bwHost + 8 * p.1)
  (∀ (s : State) (off : BitVec 36) (data : List (Option Byte)), free s off → off.toNat + data.length ≤ 0x400000000 ∨ 0x400000000 ≤ off.toNat →
    off.toNat + data.length ≤ 0x800000000 → (∀ i < data.length, inImage (off.toNat + i) = false) →
    ∃ t, exec (.bar2Write off data) s = .next t ∧
      (s.inFault (P.drc (stackOf off.toNat)) = false →
        (∀ i b, data.getD i none = some b → Memory.read t.mem (off.toNat + i) = b) ∧
        (∀ x, x < off.toNat ∨ data.getD (x - off.toNat) none = none → Memory.read t.mem x = Memory.read s.mem x)) ∧
      (s.inFault (P.drc (stackOf off.toNat)) = true → t.mem = s.mem) ∧
      (Memory.wf s.mem = true → Memory.wf t.mem = true) ∧
      Frame s t [] (unitCtr off data.length ++ (stackParts off.toNat data.length).map (fun p => P.drc p.1 + 0x928)) [.mem, .msys]) ∧
  (∀ (s : State) (off : BitVec 36) (n : Nat), free s off → off.toNat + n ≤ 0x400000000 ∨ 0x400000000 ≤ off.toNat →
    inImage off.toNat = false →
    ∃ t, exec (.bar2Read off n .clean) s = .next t ∧
      (s.inFault (P.drc (stackOf off.toNat)) = false → s.badWords off.toNat n = [] → t.host.produced = s.host.produced ∧
        t.host.readData = (List.range n).map (fun i => Memory.read s.mem (off.toNat + i)) ∧ t.host.readPoisoned = false) ∧
      (s.inFault (P.drc (stackOf off.toNat)) = true → t.host.readPoisoned = true) ∧
      (s.inFault (P.drc (stackOf off.toNat)) = true ∨ s.badWords off.toNat n = [] →
        Frame s t [] (unitCtr off n ++ (stackParts off.toNat n).map (fun p => P.drc p.1 + 0x920)) [.host, .msys])) ∧
  (∀ (s : State) (off : BitVec 36) (n : Nat) (up : Upset), free s off → off.toNat + n ≤ 0x400000000 ∨ 0x400000000 ≤ off.toNat →
    inImage off.toNat = false → s.inFault (P.drc (stackOf off.toNat)) = false → 0 < n → s.calm →
    (s.badWords off.toNat n = [off.toNat / 8] ∧ up = .clean) ∨ (s.badWords off.toNat n = [] ∧ up = .uncorrectable) →
    let p := P.drc (stackOf off.toNat)
    ∃ t, exec (.bar2Read off n up) s = .next t ∧ t.ctr (p + 0x900) = (s.ctr (p + 0x900) + 1) % 2 ^ 64 ∧
      (s.billetTwin (off.toNat / 8 * 8) = none → t.host.readPoisoned = true ∧ t.mem = s.mem ∧ off.toNat / 8 ∈ t.msys.poison) ∧
      (∀ a, s.billetTwin (off.toNat / 8 * 8) = some a → s.stackDead a = false → a / 8 ∉ s.msys.poison → a / 8 ≠ off.toNat / 8 → a % 8 = 0 →
        t.host.readPoisoned = false ∧ t.mem = Memory.writeBytes s.mem (off.toNat / 8 * 8) (Memory.readBytes s.mem a 8) ∧
        off.toNat / 8 ∉ t.msys.poison) ∧
      PageFrame s t [P.drc 0 / 4096, P.drc 1 / 4096, P.blw / 4096, P.flt / 4096] [.mem, .host, .msys, .openCtrs]) ∧
  (∀ (s : State) (off : BitVec 36) (n : Nat), free s off → off.toNat + n ≤ 0x400000000 ∨ 0x400000000 ≤ off.toNat →
    inImage off.toNat = false → s.inFault (P.drc (stackOf off.toNat)) = false → 0 < n → s.badWords off.toNat n = [] →
    let a := P.drc (stackOf off.toNat) + 0x800 + 8 * pcOf off.toNat
    ∃ t, exec (.bar2Read off n .correctable) s = .next t ∧ t.ctr a = (s.ctr a + 1) % 2 ^ 64 ∧ t.host.readPoisoned = false ∧
      t.host.readData = (List.range n).map (fun i => Memory.read s.mem (off.toNat + i))) ∧
  (∀ (s : State) (off : BitVec 36) (data : List (Option Byte)) (n : Nat) (up : Upset), s.hostReach = true →
    (off.toNat < 0x800000000 → s.seq.power = .active → s.blwTier bwHost (stackOf off.toNat) = 4 →
      s.periodBoundary.blwTier bwHost (stackOf off.toNat) < 4 →
      exec (.bar2Write off data) s = exec (.bar2Write off data) s.periodBoundary ∧
      exec (.bar2Read off n up) s = exec (.bar2Read off n up) s.periodBoundary) ∧
    (∀ b, (bar2Addr off.toNat).bind bankAt = some b → 0x800000000 ≤ off.toNat → SMap.get s.msys.handovers b 0 % 8 = 3 →
      s.rdb P.bank Reg.BANK_CTL_pend b = true → (s.handoverDone b).serves b 3 = true →
      exec (.bar2Write off data) s = exec (.bar2Write off data) (s.handoverDone b) ∧
      exec (.bar2Read off n up) s = exec (.bar2Read off n up) (s.handoverDone b))) ∧
  (∀ (s : State) (off : BitVec 36) (a : Nat), bar2Addr off.toNat = some a → ∀ b, bankAt a = some b → s.hostReach = true → s.atRest → inDram a = false →
    SMap.get s.msys.handovers b 0 % 8 ≠ 3 → s.serves b 3 = true →
    (∀ data, ∃ t, exec (.bar2Write off data) s = .next t ∧ t.mem = Memory.writeMasked s.mem a data ∧
      Frame s t [Reg.BANK_CTL_clearing.key P.bank b] [] [.mem, .msys]) ∧
    (∀ n, ∃ t, exec (.bar2Read off n .clean) s = .next t ∧ t.host.readData = Memory.readBytes s.mem a n ∧ t.host.readPoisoned = false ∧
      Frame s t [Reg.BANK_CTL_clearing.key P.bank b] [] [.host]) ∧
    (∀ n, ∃ t, exec (.bar2Read off n .uncorrectable) s = .next t ∧ t.host.readPoisoned = true)) ∧
  (∀ (s : State) (off : BitVec 36) (data : List (Option Byte)) (n : Nat) (up : Upset), s.hostReach = true → s.atRest →
    (0x800600000 ≤ off.toNat ∧ off.toNat < 0x900000000 ∨ 0x908000000 ≤ off.toNat ∧ off.toNat < 0xa00000000 ∨
      0xa00400000 ≤ off.toNat ∨ (bar2Addr off.toNat).any (fun a => !inDram a && (match bankAt a with
        | some b => decide (SMap.get s.msys.handovers b 0 % 8 ≠ 3) && (decide (s.bankOwner b ≠ 3) ||
            decide (s.rd P.bank Reg.BANK_CTL_pwr b ≠ 2) || decide (s.seq.power = .banked))
        | none => true)) = true) →
    (∃ t, exec (.bar2Write off data) s = .next t ∧ t.ctr (P.bank + 0x800) = (s.ctr (P.bank + 0x800) + 1) % 2 ^ 64 ∧
      Frame s t [] [P.bank + 0x800, P.bank + 0x808] []) ∧
    (∃ t, exec (.bar2Read off n up) s = .next t ∧ t.host.readData = List.replicate n 0 ∧
      t.ctr (P.bank + 0x800) = (s.ctr (P.bank + 0x800) + 1) % 2 ^ 64 ∧ Frame s t [] [P.bank + 0x800, P.bank + 0x808] [.host])) ∧
  ∀ b < 202, State.reset.bankOwner b ≠ 3

/-! ### Insertion, board management, temperatures -/

/-- STAGE_MATE, HOT_SWAP_ON and POWER_GOOD (R43, R46, R49): the contact stages mate in order, the fourth seats the module;
a seated module without a latched breaker or a shutdown hold switches on after its 50 ms; power-good begins the cold
start with step 1. A stage that breaks unmates it; with stage 2 the 12 V input, and the die with it, goes.
PRESENCE_LOST, UNDERVOLTAGE_STOP, OVERVOLTAGE_STOP, BREAKER_LATCH, STANDBY_SECTION_POWER_LOSS and
UNDERVOLTAGE_HOLD_CLEAR (R46, R49, R50, R62, R64, R74): the switch goes off with the die, and its cause is held in
ALERT_SRC; a second below the undervoltage stop clears the breaker and the shutdown hold. -/
def Obligations.InsertionRemovalAndSupplyStops : Prop :=
  ((∀ (s : State) (stage : Fin 4), s.atRest → s.board.mated = stage.val →
    ∃ t, exec (.stageMate stage true) s = .next t ∧ t.board.mated = stage.val + 1 ∧
      t.board.seated = (s.board.seated || stage.val == 3) ∧ t.board.switch = s.board.switch ∧
      t.board.breaker = s.board.breaker ∧ (stage.val = 1 → t.board.p12 = .window ∧ t.board.standby = true) ∧
      Frame s t [] [] [.board]) ∧
  (∀ (s : State) (stage : Fin 4), s.atRest → s.board.mated = stage.val + 1 →
    ∃ t, exec (.stageMate stage false) s = .next t ∧ t.board.mated = stage.val ∧
      (stage.val = 1 → PoweredOff s t ∧ t.board.p12 = .absent ∧ t.board.seated = false) ∧
      (stage.val ≠ 1 → t.board = { s.board with mated := stage.val } ∧ Frame s t [] [] [.board])) ∧
  (∀ s : State, s.atRest → s.board.seated = true → s.board.mated = 4 → s.board.switch = .off →
    s.board.breaker = false → s.board.shutdownHold = false →
    ∃ t, exec .hotSwapOn s = .next t ∧ t.board.switch = .ramping ∧ t.board.p12 = .window ∧ t.board.seated = true ∧
      Frame s t [] [] [.board]) ∧
  (∀ s : State, s.board.switch = .ramping →
    ∃ t, exec .powerGood s = .next t ∧ t.board = { s.board with switch := .on, powerGood := true } ∧
      t.seq.phase = .coldSteps ∧ t.seq.begun = 1 ∧ t.seq.ended = 0 ∧ t.mem = [] ∧ t.flash = s.flash ∧
      t.hostMem = s.hostMem ∧ t.rd P.chip Reg.CHIP_RST_CAUSE_cause = 1)) ∧
  ((∀ s : State, s.board.seated = true → ∃ t, exec .presenceLost s = .next t ∧ PoweredOff s t ∧ t.board.seated = false ∧
    t.board.breaker = s.board.breaker) ∧
  (∀ s : State, 2 ≤ s.board.mated →
    (∃ t, exec .undervoltageStop s = .next t ∧ PoweredOff s t ∧ t.board.p12 = .under ∧
      t.board.alertSrc = s.board.alertSrc ||| 8 ∧ t.board.smbAlert = true ∧ t.board.breaker = s.board.breaker) ∧
    ∃ t, exec .overvoltageStop s = .next t ∧ PoweredOff s t ∧ t.board.p12 = .above ∧
      t.board.alertSrc = s.board.alertSrc ||| 8 ∧ t.board.smbAlert = true ∧ t.board.breaker = s.board.breaker) ∧
  (∀ s : State, s.board.switch ≠ .off → s.board.alertHeld.getLsbD 2 = false →
    ∃ t, exec .breakerLatch s = .next t ∧ PoweredOff s t ∧ t.board.breaker = true ∧
      t.board.alertSrc = s.board.alertSrc ||| 4 ∧ t.board.smbAlert = true ∧ t.board.p12 = s.board.p12) ∧
  (∀ s : State, s.board.standby = true → ∃ t, exec .standbySectionPowerLoss s = .next t ∧ PoweredOff s t ∧
    t.board.standby = false ∧ t.board.p12 = .absent ∧ t.board.breaker = false ∧ t.board.shutdownHold = false ∧
    t.board.smbHold = false ∧ t.board.alertSrc = 0 ∧ t.board.smbAlert = false ∧ t.rd P.chip Reg.CHIP_WAKE_latch = 0) ∧
  (∀ s : State, s.atRest → s.board.switch = .off →
    ∃ t, exec .undervoltageHoldClear s = .next t ∧ t.board.breaker = false ∧ t.board.shutdownHold = false ∧
      t.board.switch = .off ∧ t.board.alertSrc = s.board.alertSrc ∧ Frame s t [] [] [.board]))

/-- The SMBus reads (R44, R62) of a standby section that runs, addressed at 0x58 plus the straps with its contacts mated
for 20 ms: MOD_STATE by the priority of its codes, the measured voltage, current and temperatures, ALERT_SRC which the
read clears, each with its Packet Error Code where the carrier asks for one; the alert response, with the module's own
address, which releases SMB_ALERT_N. In BANKED the transfer also sets its wake latch. Without the standby section's
supply, its contacts, their 20 ms or its address nothing answers. HOLD, HOLD_RELEASE, COLD_RESET and BREAKER_CLEAR
over SMBus (R62, R63), with a right Packet Error Code or none: a hold makes a warm reset, where the module is powered
and not in one, and keeps its start from beginning, its release begins that start; a cold reset takes the main rails
off, or cancels a soft start, or clears a shutdown hold; the breaker's latch is cleared. A value that the command does
not know, or a wrong Packet Error Code, is ignored. -/
def Obligations.SmbusReadsAndCommandsAnswer : Prop :=
  (∀ (s : State) (f : SmbFrame) (v : BitVec 16), s.atRest →
  let u := s.supplySeen f.mv.toNat
  let a := 2 * (0x58 + s.board.modAddr.toNat)
  let pec (code n x : Nat) : Option (BitVec 8) := f.pec.map (fun _ => BitVec.ofNat 8 (crc8 (le 1 a ++ le 1 code ++ le 1 (a + 1) ++ le n x)))
  let woken (t : State) : Prop := (s.seq.power = .banked → bit (t.rd P.chip Reg.CHIP_WAKE_latch) 8 = true) ∧
    Frame s t (if s.seq.power = .banked then [Reg.CHIP_WAKE_latch.key P.chip 0] else []) [] [.board]
  (2 ≤ s.board.mated → s.board.standby = true → u.board = { s.board with
    p12 := if f.mv.toNat < 10600 then .under else if f.mv.toNat < 11000 then .low else if f.mv.toNat ≤ 13800 then .window else .above
    alertHeld := if 10600 ≤ f.mv.toNat ∧ f.mv.toNat ≤ 13800 then s.board.alertHeld &&& 7#4 else s.board.alertHeld }) ∧
  (u.board.standby = true → 3 ≤ s.board.mated → f.settled = true → f.addr.toNat = 0x58 + s.board.modAddr.toNat →
    (∃ t, exec (.modState f) s = .next t ∧
      (s.board.switch = .off → t.board.smbReply =
        if s.board.breaker then 7 else if u.board.p12 = .window then 0 else 8) ∧
      (s.board.switch = .ramping → t.board.smbReply = 1) ∧
      (s.board.switch = .on → s.board.powerGood = false → t.board.smbReply = 1) ∧
      (s.board.switch = .on → s.board.powerGood = true → s.board.thermShutdown = true → t.board.smbReply = 6) ∧
      (s.board.switch = .on → s.board.powerGood = true → s.board.thermShutdown = false → t.board.smbReply =
        if s.inReset then 2 else if s.isReady then 4 else if s.seq.wasReady then 5 else 3) ∧
      t.board = { u.board with smbReply := t.board.smbReply, smbPec := pec 1 1 t.board.smbReply } ∧ woken t) ∧
    (∃ t, exec (.vin f) s = .next t ∧ t.board = { u.board with smbReply := f.mv.toNat, smbPec := pec 2 2 f.mv.toNat } ∧ woken t) ∧
    (∃ t, exec (.iin v f) s = .next t ∧ t.board = { u.board with smbReply := v.toNat, smbPec := pec 3 2 v.toNat } ∧ woken t) ∧
    (∃ t, exec (.tBase v f) s = .next t ∧ t.board = { u.board with smbReply := v.toNat, smbPec := pec 4 2 v.toNat } ∧ woken t) ∧
    (∃ t, exec (.tJmax v f) s = .next t ∧ t.board = { u.board with smbReply := v.toNat, smbPec := pec 5 2 v.toNat } ∧ woken t) ∧
    (∃ t, exec (.alertSrc f) s = .next t ∧ t.board = { u.board with
        smbReply := s.board.alertSrc.toNat, smbPec := pec 6 1 s.board.alertSrc.toNat, alertSrc := 0 } ∧ woken t)) ∧
  (u.board.standby = true → 3 ≤ s.board.mated → f.settled = true → f.addr.toNat = 0x0c →
    ∃ t, exec (.alertResponseRead f) s = .next t ∧ woken t ∧
      (s.board.smbAlert = true → t.board = { u.board with
        smbAlert := false, smbReply := a, smbPec := f.pec.map (fun _ => BitVec.ofNat 8 (crc8 (le 1 0x19 ++ le 1 a))) }) ∧
      (s.board.smbAlert = false → t.board = u.board)) ∧
  (∀ (b : Byte) (c : Instr), c ∈ [Instr.modState f, .vin f, .iin v f, .tBase v f, .tJmax v f, .alertSrc f, .hold f b, .holdRelease f b,
      .coldReset f b, .breakerClear f b] →
    u.board.standby = false ∨ s.board.mated < 3 ∨ f.settled = false ∨ f.addr.toNat ≠ 0x58 + s.board.modAddr.toNat →
    ∃ t, exec c s = .next t ∧ t.board = u.board ∧ Frame s t [] [] [.board]) ∧
  (u.board.standby = false ∨ s.board.mated < 3 ∨ f.settled = false ∨ f.addr.toNat ≠ 0x0c →
    ∃ t, exec (.alertResponseRead f) s = .next t ∧ t.board = u.board ∧ Frame s t [] [] [.board])) ∧
  (∀ (s : State) (f : SmbFrame),
  let u := s.supplySeen f.mv.toNat
  let right (code : Nat) (b : Byte) : Bool := f.pec.all (fun p => p.toNat = crc8 (le 1 (2 * (0x58 + s.board.modAddr.toNat)) ++ le 1 code ++ [b]))
  u.board.standby = true → 3 ≤ s.board.mated → s.seq.power ≠ .banked → f.settled = true → f.addr.toNat = 0x58 + s.board.modAddr.toNat →
  (right 0x10 1 = true →
    (s.unpowered = false → s.inReset = false → ∃ t, exec (.hold f 1) s = .next t ∧ t.board = { u.board with smbHold := true } ∧
      t.seq.phase = .warmClearing ∧ t.seq.permit = false ∧ t.outputsOff ∧ t.rd P.chip Reg.CHIP_RST_CAUSE_cause = 10 ∧
      t.rd P.chip Reg.CHIP_RST_CAUSE_warm_count = min 65535 (s.rd P.chip Reg.CHIP_RST_CAUSE_warm_count % 2 ^ 16 + 1) ∧
      t.flash = s.flash ∧ t.hostMem = s.hostMem) ∧
    (s.atRest → s.unpowered = true ∨ s.inReset = true → ∃ t, exec (.hold f 1) s = .next t ∧
      t.board = { u.board with smbHold := true } ∧ Frame s t [] [] [.board])) ∧
  (s.atRest → right 0x10 0 = true →
    (s.board.thermShutdown = false → s.seq.phase = .warmHeld → ∃ t, exec (.holdRelease f 0) s = .next t ∧
      t.board = { u.board with smbHold := false } ∧ t.seq.phase = .warmSteps ∧ t.seq.ended = 1 ∧ Frame s t [] [] [.board, .seq]) ∧
    (s.board.thermShutdown = true → ∃ t, exec (.holdRelease f 0) s = .next t ∧ t.board = { u.board with smbHold := false } ∧
      Frame s t [] [] [.board])) ∧
  (right 0x11 0xa5 = true → s.board.thermShutdown = false → s.board.breaker = false →
    (s.board.shutdownHold = false → s.board.switch = .on → s.board.powerGood = true → s.seq.phase ≠ .railsOff →
      ∃ t, exec (.coldReset f 0xa5) s = .next t ∧
      t.seq.phase = .railsOff ∧ t.seq.permit = false ∧ t.outputsOff ∧ t.rd P.chip Reg.CHIP_RST_CAUSE_cause = 2 ∧
      t.mem = [] ∧ t.flash = s.flash ∧ t.hostMem = s.hostMem ∧ t.board = u.board) ∧
    (s.atRest → s.board.shutdownHold = false → s.board.switch = .ramping → ∃ t, exec (.coldReset f 0xa5) s = .next t ∧
      t.board = { u.board with switch := .off } ∧ Frame s t [] [] [.board]) ∧
    (s.atRest → s.board.shutdownHold = true → ∃ t, exec (.coldReset f 0xa5) s = .next t ∧
      t.board = { u.board with shutdownHold := false } ∧ Frame s t [] [] [.board])) ∧
  (s.atRest → right 0x12 0xa5 = true → ∃ t, exec (.breakerClear f 0xa5) s = .next t ∧ t.board.breaker = false ∧
    t.board.switch = s.board.switch ∧ t.board.alertHeld = u.board.alertHeld &&& 11#4 ∧ Frame s t [] [] [.board]) ∧
  (s.atRest → ∀ (b : Byte) (code : Nat) (want : Byte) (c : Instr), (c, code, want) ∈ [(Instr.hold f b, 0x10, 1#8), (.holdRelease f b, 0x10, 0#8),
      (.coldReset f b, 0x11, 0xa5#8), (.breakerClear f b, 0x12, 0xa5#8)] → b ≠ want ∨ right code b = false →
    ∃ t, exec c s = .next t ∧ t.board = u.board ∧ Frame s t [] [] [.board]))

/-- THERMAL_WARNING_ENTER and LEAVE, THERMAL_SHUTDOWN and RECOVERY (R61, R62, R587): the warning raises an alert and a
THERM record and its end a record; the shutdown clears the die and holds the module in reset with its outputs off; the
recovery makes a cold reset, cause 4. PERMIT_SWITCH_TEST, PERMIT_DRIVE_STOP, CLOCK_LOSS, ENGINE_CLOCK_GATE and
PLL_B_RELOCK_TIMEOUT (R55, R56, R65, R70, R572): a short is recorded once and withdraws readiness until a cold reset;
without its drive the permit is off; a clock whose loss resets does so with its bit, ETHCLK's loss marks PTP time
invalid; an idle engine is gated. -/
def Obligations.TemperaturesPermitAndClocksAct : Prop :=
  ((∀ (s : State) (b j : Bool) (tb tj : BitVec 16), s.calm → s.board.powerGood = true → s.board.warnRegion = false →
    s.board.alertHeld.getLsbD 0 = false →
    ∃ t, exec (.thermalWarningEnter b j tb tj) s = .next t ∧ t.board.warnRegion = true ∧
      t.board.alertSrc = s.board.alertSrc ||| 1 ∧ t.board.smbAlert = true ∧
      recorded s t 0 3 (le 1 1 ++ le 1 (b2n b + 2 * b2n j) ++ le 2 tb.toNat ++ le 2 tj.toNat) ∧
      Frame s t [] [] [.board, .host]) ∧
  (∀ (s : State) (b j : Bool) (tb tj : BitVec 16), s.calm → s.board.warnRegion = true →
    ∃ t, exec (.thermalWarningLeave b j tb tj) s = .next t ∧ t.board.warnRegion = false ∧
      t.board.alertSrc = s.board.alertSrc ∧
      recorded s t 0 3 (le 1 2 ++ le 1 (b2n b + 2 * b2n j) ++ le 2 tb.toNat ++ le 2 tj.toNat) ∧
      Frame s t [] [] [.board, .host]) ∧
  (∀ s : State, s.unpowered = false → s.board.thermShutdown = false → s.board.alertHeld.getLsbD 1 = false →
    ∃ t, exec .thermalShutdown s = .next t ∧ t.board = { s.board with
        thermShutdown := true, alertSrc := s.board.alertSrc ||| 2, alertHeld := s.board.alertHeld ||| 2, smbAlert := true } ∧
      t.inReset = true ∧ t.seq.permit = false ∧ t.seq.phase = .none ∧ DieCleared s t) ∧
  (∀ s : State, s.unpowered = false → s.board.thermShutdown = true → s.seq.phase ≠ .railsOff →
    ∃ t, exec .thermalRecovery s = .next t ∧ t.board.thermShutdown = false ∧ t.seq.phase = .railsOff ∧
      t.rd P.chip Reg.CHIP_RST_CAUSE_cause = 4 ∧ t.mem = [] ∧ t.flash = s.flash ∧ t.hostMem = s.hostMem ∧ t.outputsOff)) ∧
  ((∀ s : State, s.calm → s.seq.permit = false → s.board.powerGood = true → s.seq.permitShort = false →
    ∀ a b : Bool, (a || b) = true → ∃ t, exec (.permitSwitchTest a b) s = .next t ∧ t.seq.permitShort = true ∧
      t.seq.ready = false ∧ t.seq.permit = false ∧ Frame s t [Reg.BLK_ERR_cause.key P.chip 0, Reg.BLK_ERR_more.key P.chip 0,
        Reg.BLK_ERR_count.key P.chip 0] [] [.seq, .host]) ∧
  (∀ s : State, s.atRest → ∃ t, exec (.permitSwitchTest false false) s = .next t ∧ Frame s t [] [] []) ∧
  (∀ s : State, s.atRest → ∃ t, exec .permitDriveStop s = .next t ∧ t.seq.driveRuns = false ∧ t.seq.permit = false ∧
    Frame s t [] [] [.seq]) ∧
  (∀ (s : State) (c : ClockId) (i : Nat) (n : BitVec 8), s.unpowered = false → s.inReset = false → s.seq.power = .active →
    (c, i) ∈ [(ClockId.core, 1), (.dram, 2), (.pix, 4), (.enc, 8), (.reference, 16)] →
    ∃ t, exec (.clockLoss c n) s = .next t ∧ t.seq.phase = .warmClearing ∧ t.seq.permit = false ∧ t.outputsOff ∧
      t.rd P.chip Reg.CHIP_RST_CAUSE_cause = 7 ∧ t.rd P.chip Reg.CHIP_RST_CAUSE_clk_lost = i ∧ t.board = s.board) ∧
  (∀ (s : State) (n : BitVec 8), s.calm → s.unpowered = false → s.inReset = false →
    ∃ t, exec (.clockLoss .eth n) s = .next t ∧ t.rdb P.ptp Reg.PTP_CTL_valid = false ∧ t.seq.clkLost.contains .eth = true ∧
      Frame s t [Reg.PTP_CTL_valid.key P.ptp 0, Reg.BLK_STAT_blk.key P.ptp 0] [] [.seq, .host]) ∧
  (∀ (s : State) (e : Fin 36), s.atRest → (s.eng e).cur = none → (s.eng e).inflight = [] → (s.eng e).queued = [] →
    (s.eng e).underTest = false → s.inReset = false → s.unpowered = false → s.seq.power = .active →
    ∃ t, exec (.engineClockGate e) s = .next t ∧ (t.eng e).gated = true ∧ (∀ d, d ≠ e.val → t.eng d = s.eng d) ∧
      Frame s t [] [] [.engines]) ∧
  (∀ s : State, s.calm → s.coll.hearthHalted = true → s.coll.hearthCause = 3 → s.rdb P.flt Reg.FLT_HWDG_held = false →
    ∃ t, exec .pllBRelockTimeout s = .next t ∧ t.rdb P.flt Reg.FLT_HWDG_held = true ∧ t.coll.hearthHalted = true ∧
      recorded s t 0xe00 0x82 (le 1 4) ∧ Frame s t [Reg.FLT_HWDG_held.key P.flt 0] [] [.host]))

/-! ### Power states, resets, starts -/

/-- BANKED_REQUEST, WAKE_LATCH_SET and BANKED_WAKE (R71 to R73, R75, R81, R495): a request with a context running or an
RTU entry held sets req_err; else the module is BANKED, every bank but a retained N0 or N1 clear; a latch is set while
BANKED only (log entry 35, the model's own); an enabled latch wakes it, with a WAKE record per latched source before
the records held, and every resident context STOPPED. SHUTDOWN_REQUEST and SHUTDOWN_PROCEED (R74, R81, R580): the
request is held; while the RTU holds an entry nothing is stopped; then every context is stopped, and once none runs,
with no wave in progress and the firmware running, the plan's results go to flash and the module switches off and
holds itself off. -/
def Obligations.BankedAndShutdownAreEnteredAndLeft : Prop :=
  (let pwr := [Reg.CHIP_PWR_req_err.key P.chip 0, Reg.CHIP_PWR_n0_mode.key P.chip 0, Reg.CHIP_PWR_n1_mode.key P.chip 0,
    Reg.CHIP_PWR_idle_delay.key P.chip 0]
  (∀ (s : State) (v : Word), s.atRest → s.reaches 0x40 → bits v.toNat 4 2 = 1 →
    (∃ c < 8, s.ctxRuns c = true) ∨ s.rtu.entries ≠ [] →
    ∃ t, exec (.bankedRequest v) s = .next t ∧ t.rd P.chip Reg.CHIP_PWR_req_err = 1 ∧ t.seq.power = s.seq.power ∧
      Frame s t pwr [] []) ∧
  (∀ (s : State) (v : Word), s.atRest → s.reaches 0x40 → bits v.toNat 4 2 = 1 →
    (∀ c < 8, s.ctxRuns c = false) → s.rtu.entries = [] →
    ∃ t, exec (.bankedRequest v) s = .next t ∧ t.seq.power = .banked ∧ t.seq.ready = false ∧ t.seq.permit = false ∧
      t.rd P.chip Reg.CHIP_PWR_n0_mode = bits v.toNat 16 2 ∧ t.rd P.chip Reg.CHIP_PWR_n1_mode = bits v.toNat 18 2 ∧
      (∀ a : Nat, Memory.read t.mem a = match bankAt a with
        | some b => if (b = 192 ∧ bits v.toNat 16 2 ≠ 0) ∨ (b = 193 ∧ bits v.toNat 18 2 ≠ 0) then Memory.read s.mem a else 0
        | none => Memory.read s.mem a) ∧
      ((∀ k < 8, s.camState k ≠ camBound) → Frame s t pwr [] [.mem, .seq])) ∧
  (∀ (s : State) (i : Fin 10), s.atRest →
    ∃ t, exec (.wakeLatchSet i) s = .next t ∧
      (s.seq.power = .banked → bit (t.rd P.chip Reg.CHIP_WAKE_latch) i.val = true ∧
        (∀ j < 10, j ≠ i.val → bit (t.rd P.chip Reg.CHIP_WAKE_latch) j = bit (s.rd P.chip Reg.CHIP_WAKE_latch) j) ∧
        Frame s t [Reg.CHIP_WAKE_latch.key P.chip 0] [] []) ∧
      (s.seq.power ≠ .banked → Frame s t [] [] [])) ∧
  (∀ s : State, s.atRest → s.seq.power = .banked →
    ((s.rd P.chip Reg.CHIP_WAKE_latch &&& s.rd P.chip Reg.CHIP_WAKE_en) = 0 →
      ∃ t, exec .bankedWake s = .next t ∧ Frame s t [] [] []) ∧
    ((s.rd P.chip Reg.CHIP_WAKE_latch &&& s.rd P.chip Reg.CHIP_WAKE_en) ≠ 0 →
      ∃ t, exec .bankedWake s = .next t ∧ t.seq.power = .active ∧ t.host.keptDoorbells = [] ∧ t.host.held = [] ∧
        (s.host.keptDoorbells = [] → (s.host.produced ++ (bitsOf 10 (s.rd P.chip Reg.CHIP_WAKE_latch)).map (fun i =>
            ({ target := BitVec.ofNat 8 (s.target 0xf02), recs := [mkRec s 0xf02 0x7a (le 1 i) s.now] } : RecUnit))
            ++ s.host.held) <+: t.host.produced ∧
          ∀ c < 8, t.ctxState c = if s.ctxResident c then ctxStopped else s.ctxState c)))) ∧
  ((∀ (s : State) (v : Word), s.atRest → s.reaches 0x40 → bits v.toNat 4 2 = 2 →
    ∃ t, exec (.shutdownRequest v) s = .next t ∧ t.seq.shutdownAsked = true ∧ t.seq.phase = s.seq.phase ∧
      t.seq.power = s.seq.power ∧ Frame s t [Reg.CHIP_PWR_req_err.key P.chip 0, Reg.CHIP_PWR_n0_mode.key P.chip 0,
        Reg.CHIP_PWR_n1_mode.key P.chip 0, Reg.CHIP_PWR_idle_delay.key P.chip 0] [] [.seq]) ∧
  (∀ (s : State) (rs : List (Fin 70 × Fin 4)), s.clocked = true → s.quench.waveUnits = [] → s.coll.hearthHalted = false →
    (s.seq.shutdownAsked = true → s.rtu.entries = [] → s.shutdownStop.quiesced = true → s.quench.making.length ≤ 70 →
      ∃ t, exec (.shutdownProceed rs) s = .next t ∧ t.board.shutdownHold = true ∧
      t.board.switch = .off ∧ t.board.powerGood = false ∧ t.seq.power = .off ∧ t.seq.permit = false ∧ t.outputsOff ∧
      t.mem = [] ∧ t.hostMem = s.hostMem ∧
      (∀ a, ¬ (0x100000 ≤ a ∧ a < 0x200000) → Memory.read t.flash a = Memory.read s.flash a) ∧
      t.recordNewest.isSome = true) ∧
    (s.seq.shutdownAsked = true → s.rtu.entries = [] → (∀ c < 8, s.ctxRuns c = false ∧ (s.ctx c).swapTo = none) →
      s.shutdownStop.quiesced = true) ∧
    (s.seq.shutdownAsked = true → s.rtu.entries = [] → s.seq.ctxsStopped = false → s.shutdownStop.quiesced = false →
      ∃ t, exec (.shutdownProceed rs) s = .next t ∧ t.seq.ctxsStopped = true ∧ t.board = s.board ∧ t.flash = s.flash ∧ t.mem = s.mem ∧
        (s.atRest → (∀ c < 8, (s.ctx c).swapTo = none) → ∀ c < 8, t.ctxState c ≠ ctxRunning ∧ t.ctxState c ≠ ctxStandby)) ∧
    (s.atRest → s.seq.shutdownAsked = false ∨ s.rtu.entries ≠ [] → ∃ t, exec (.shutdownProceed rs) s = .next t ∧ Frame s t [] [] [])))

/-- WARM_RESET and CHIP_RST_COLD (R77, R78, R82, R83, R589, R590): a warm reset takes the outputs and the permit off,
counts, keeps the stacks and a retained N0 and N1 and puts every register that is not kept at its reset value (what is
kept is log entry 28, the model's own); a cold reset takes the main rails off. -/
def Obligations.WarmAndColdResetsClearAndKeep : Prop :=
  (∀ (s : State) (by_ : WarmStarter), s.unpowered = false → s.inReset = false →
    (match by_ with
      | .chipRst => s.reaches 0x44
      | .firmware => s.coll.hearthHalted = false ∧ s.seq.power ≠ .banked) →
    ∃ t, exec (.warmReset by_) s = .next t ∧ t.seq.phase = .warmClearing ∧ t.seq.permit = false ∧ t.outputsOff ∧
      t.rd P.chip Reg.CHIP_RST_CAUSE_cause = (match by_ with | .chipRst => 5 | .firmware => 6) ∧
      t.rd P.chip Reg.CHIP_RST_CAUSE_clk_lost = 0 ∧
      t.rd P.chip Reg.CHIP_RST_CAUSE_warm_count = min 65535 (s.rd P.chip Reg.CHIP_RST_CAUSE_warm_count % 2 ^ 16 + 1) ∧
      t.board = s.board ∧ t.flash = s.flash ∧ t.hostMem = s.hostMem ∧
      (∀ a, Memory.read t.mem a = if s.warmKeeps a then Memory.read s.mem a else 0) ∧
      ∀ base f i, (∀ p ∈ fusedFields ++ warmFields, f.key base i ≠ p.2.key p.1 0) →
        f.key base i ≠ Reg.TMP_STAT_test_open.key P.tmp 0 → f.key base i ≠ Reg.CHIP_RST_CAUSE_cause.key P.chip 0 →
        f.key base i ≠ Reg.CHIP_RST_CAUSE_clk_lost.key P.chip 0 → t.rd base f i = State.reset.rd base f i) ∧
  (∀ s : State, s.reaches 0x44 → ∃ t, exec .chipRstCold s = .next t ∧ t.seq.phase = .railsOff ∧ t.seq.permit = false ∧
    t.outputsOff ∧ t.rd P.chip Reg.CHIP_RST_CAUSE_cause = 3 ∧ t.mem = [] ∧ t.flash = s.flash ∧ t.hostMem = s.hostMem ∧
    t.board = s.board)

/-- CHIP_RST_INVALID (R79): a word written to CHIP_RST without the key 0x5A17, with a cmd that is not defined or a target
that is not defined for its cmd changes nothing and is counted by the chip page. -/
def Obligations.UndefinedResetWordsAreOnlyCounted : Prop :=
  ∀ (s : State) (v : Word), s.atRest → s.reaches 0x44 →
  bits v.toNat 16 16 ≠ 0x5a17 ∨ bits v.toNat 0 4 = 0 ∨ 5 < bits v.toNat 0 4 ∨
    (bits v.toNat 0 4 = 2 ∧ 8 ≤ bits v.toNat 8 6) ∨ (bits v.toNat 0 4 = 3 ∧ 36 ≤ bits v.toNat 8 6) →
  ∃ t, exec (.chipRstInvalid v) s = .next t ∧ counted 0 .badReset s t ∧ Frame s t [] [] [.openCtrs]

/-- WARM_RESET_END, RAILS_ON and WARM_START (R63, R86, R88): a warm start begins with step 1 done and, where the stacks
had been trained, their retraining begun, unless HOLD keeps it; main rails that are on begin step 1; the end of the
retraining ends step 6 and lets what waits for it begin. COLD_START_STEP_DONE (R84, R86, R88, R89, R545, R550, R554,
R581): a step that has begun ends once, and then every step whose conditions have ended has begun; the PTP clock runs
and Temper has read its keys from the end of step 2, the boot image is Temper's to accept in step 3, the image stands
in the running half from the end of step 6, step 7 ends once the tests that are due have been run or skipped and
records what was checked, step 11 ends the start with permit_en and ctx_req as the start-up set has them; without a
valid image the module enters recovery. -/
def Obligations.StartsBeginAndEndTheirSteps : Prop :=
  ((∀ s : State, s.atRest → s.seq.phase = .warmClearing → s.board.thermShutdown = false →
    ∃ t, exec .warmResetEnd s = .next t ∧ Frame s t [] [] [.seq] ∧
      (s.board.smbHold = true → t.seq.phase = .warmHeld ∧ t.seq.ended = s.seq.ended) ∧
      (s.board.smbHold = false → t.seq.phase = .warmSteps ∧ t.seq.ended = 1 ∧
        t.seq.begun = if bit s.seq.ended 5 then 43 else 11)) ∧
  (∀ s : State, s.atRest → s.seq.phase = .railsOff → s.board.thermShutdown = false →
    ∃ t, exec .railsOn s = .next t ∧ t.seq.phase = .coldSteps ∧ t.seq.begun = 1 ∧ t.seq.ended = 0 ∧ Frame s t [] [] [.seq]) ∧
  (∀ s : State, s.atRest → s.seq.phase = .warmSteps → bit s.seq.begun 5 = true → bit s.seq.ended 5 = false →
    ∃ t, exec .warmStart s = .next t ∧ t.seq.ended = s.seq.ended + 32 ∧ t.seq.phase = .warmSteps ∧
      (s.board.smbHold = false → ∀ m < 11, bit t.seq.begun m =
        (bit s.seq.begun m || (stepAfter (m + 1)).all (fun k => bit t.seq.ended (k - 1)))) ∧
      (s.board.smbHold = false → bit s.seq.ended 2 = true → bit t.seq.begun 6 = true ∧ bit t.seq.begun 7 = true ∧ bit t.seq.begun 9 = true) ∧
      Frame s t [] [] [.seq])) ∧
  (∀ (s : State) (n : Fin 11) (rep : StartReport), s.atRest → s.board.thermShutdown = false → s.board.smbHold = false →
  s.seq.phase = .coldSteps ∨ s.seq.phase = .warmSteps → bit s.seq.begun n.val = true → bit s.seq.ended n.val = false →
  let cold := s.seq.phase = .coldSteps
  let u := if cold then s.recordRead else s
  let failed := u.failedAt7 rep
  let un := if cold then u.untestedAt7 else []
  (((n.val = 2 → s.rd P.tmp Reg.TMP_LC_state ≠ 5 ∧ s.inFault P.tmp = false ∧ rep.imageValid = true) ∧
      (n.val = 5 → cold → rep.imageValid = true) ∧ (n.val = 6 → cold → s.quenchCaughtUp = true)) →
    ∃ t, exec (.coldStartStepDone n rep) s = .next t ∧ t.seq.ended = s.seq.ended + 2 ^ n.val ∧
      (n.val ≠ 10 → ∀ m < 11, bit t.seq.begun m = (bit s.seq.begun m || (stepAfter (m + 1)).all (fun k => bit t.seq.ended (k - 1)))) ∧
      (n.val ≠ 10 → t.seq.phase = s.seq.phase) ∧
      (n.val ∈ [0, 4, 7, 8, 9] → Frame s t [] [] [.seq]) ∧
      (n.val = 1 → t.ptp = { s.ptp with running := true } ∧
        t.temper.ownerKeys = (s.recordInForce.map RecCopy.keys).getD [] ∧
        t.temper.revokedSlots = (s.recordInForce.map RecCopy.revoked).getD [] ∧
        t.rdb P.tmp Reg.TMP_STAT_rec_bad = s.recordInForce.isNone ∧
        (∀ i < 4, bit (t.rd P.tmp Reg.TMP_STAT_slots) i =
          ((SMap.find? t.temper.ownerKeys i).isSome && !t.temper.revokedSlots.contains i)) ∧
        Frame s t [Reg.TMP_STAT_rec_bad.key P.tmp 0, Reg.TMP_STAT_slots.key P.tmp 0] [] [.seq, .ptp, .temper]) ∧
      (n.val = 2 → cold → t.temper.running = s.temper.flashImage ∧ Frame s t [] [] [.seq, .temper, .mem]) ∧
      (n.val = 3 → rep.mainUp = true → t.rd P.fio Reg.FIO_GLB_path = 0 ∧ t.field.fallbackUp = rep.fallbackUp ∧
        Frame s t [Reg.FIO_GLB_path.key P.fio 0] [] [.seq, .field]) ∧
      (n.val = 5 → cold → (∀ a : Nat, a < 0x2000000 → Memory.read t.mem (halfAt s.runHalf + a) =
        Memory.read s.flash (flashAt + a)) ∧ Frame s t [] [] [.seq, .mem]) ∧
      (n.val = 6 → t.seq.untested = un ∧ t.seq.checked = (List.range 70).filter (fun v => !failed.contains v) ∧
        t.rdb P.chip Reg.CHIP_RST_CAUSE_untested = !un.isEmpty ∧
        (∀ e < 32, failed.contains e = false → rep.failedRq.any (fun r => r.val = e) = false →
          t.rdb (P.anv e 0) Reg.ANV_CFG_rq_excl = false) ∧ (cold → s.calm → s.host.produced ≠ t.host.produced)) ∧
      (n.val = 10 → t.seq.phase = .started ∧ t.rd P.chip Reg.CHIP_READY_ctx_req = s.startSet.ctxReq.toNat ∧
        t.rdb P.chip Reg.CHIP_READY_permit_en = (s.startSet.permitEn && (s.rd P.tmp Reg.TMP_LC_state = 2 ||
          s.rd P.tmp Reg.TMP_LC_state = 3)) ∧
        (s.hasStartSet = false →
          Frame s t [Reg.CHIP_READY_ctx_req.key P.chip 0, Reg.CHIP_READY_permit_en.key P.chip 0] [] [.seq]))) ∧
  (n.val = 6 → cold → s.quenchCaughtUp = false → ∃ t, exec (.coldStartStepDone n rep) s = .next t ∧ Frame s t [] [] []) ∧
  (n.val = 2 ∨ (n.val = 5 ∧ cold) → rep.imageValid = false →
    ∃ t, exec (.coldStartStepDone n rep) s = .next t ∧ t.rdb P.tmp Reg.TMP_STAT_recovery = true ∧
      t.seq.ended = s.seq.ended ∧ Frame s t [Reg.TMP_STAT_recovery.key P.tmp 0, Reg.BLK_STAT_blk.key P.tmp 0] [] []))

/-! ### Host interface -/

/-- HOST_SESSION_RESET, PERST_ASSERT, FUNCTION_LEVEL_RESET and LINK_DOWN (R77, R500 to R503): each begins a Host Session
Reset with its cause: every queue, the mailbox and every host job ring are at their reset values, pending vectors,
doorbells and requests taken are gone, records for host queues are not written; the three that reset the function also
reset the MSI-X table, Bus Master Enable, MSI-X Enable and the BARs. An engine reset in progress absorbs it (R78): the
queues stay. -/
def Obligations.HostSessionResetEmptiesQueuesAndRings : Prop :=
  ∀ s : State, s.atRest →
    ∀ p ∈ [(Instr.hostSessionReset, 3, false), (.perstAssert, 1, true), (.functionLevelReset, 2, true), (.linkDown, 4, true)],
    (p.1 = .hostSessionReset → s.reaches 0x44) → s.hostReach = true →
    (s.seq.engResets = [] →
    ∃ t, exec p.1 s = .next t ∧ t.rdb P.erq Reg.ERQ_HSR_busy = true ∧ t.rd P.erq Reg.ERQ_HSR_cause = p.2.1 ∧
      (∀ q < 16, t.rd P.erq Reg.ERQ_QCFG_en q = 0 ∧ t.rd P.erq Reg.ERQ_QPROD_prod q = 0 ∧ t.rd P.erq Reg.ERQ_QCONS_cons q = 0 ∧
        t.rd P.erq Reg.ERQ_QPROD_phase q = 1 ∧ t.rd P.erq Reg.ERQ_QSEQ_seq q = 0 ∧ t.rd P.erq Reg.ERQ_QBASE_addr_lo q = 0) ∧
      t.rd P.erq Reg.MBX_CFG_en = 0 ∧ t.rd P.erq Reg.MBX_STAT_prod = 0 ∧ t.rd P.erq Reg.MBX_STAT_cons = 0 ∧
      t.rd P.erq Reg.MBX_STAT_busy = 0 ∧ t.rd P.erq Reg.MSIX_PBA_pend = 0 ∧
      (∀ q < 16, t.rd P.erq Reg.MSIX_TABLE_mask q = if p.2.2 then 1 else s.rd P.erq Reg.MSIX_TABLE_mask q) ∧
      (p.2.2 = true → t.rdb P.pcie Reg.PCIE_STAT_bme = false ∧ t.rdb P.pcie Reg.PCIE_STAT_msix_en = false ∧
        t.host.funcMask = false ∧ t.host.bars = []) ∧ (p.2.2 = false → t.host.bars = s.host.bars) ∧
      (p.2.1 = 1 ∨ p.2.1 = 4 → t.rdb P.pcie Reg.PCIE_STAT_link_up = false) ∧
      (p.2.1 = 1 → t.rdb P.pcie Reg.PCIE_STAT_perst = true ∧ t.host.pmeLatched = s.host.pmeEn) ∧
      t.host.mbxTaken = [] ∧ t.host.keptDoorbells = [] ∧
      t.host.produced = s.host.produced.filter (fun u => !isHostErq u.target.toNat) ∧
      (∀ c < 8, t.rd (P.schC c) Reg.SCH_CTX_HQ_cons = 0 ∧ (t.ctx c).hostProd = 0 ∧
        (t.ctx c).hostQ = (s.ctx c).hostQ.filter (fun q => q ≠ .ring)) ∧
      t.ctr (P.pcie + 0x820) = (s.ctr (P.pcie + 0x820) + 1) % 2 ^ 64 ∧
      PageFrame s t (P.erq / 4096 :: P.pcie / 4096 :: (List.range 8).map (fun c => P.schC c / 4096)) [.host, .ctxs]) ∧
    (s.seq.engResets ≠ [] → ∃ t, exec p.1 s = .next t ∧ t.host.produced = s.host.produced ∧ t.host.mbxTaken = s.host.mbxTaken ∧
      (p.1 = .hostSessionReset → Frame s t [] [] []) ∧
      Frame s t [Reg.PCIE_STAT_bme.key P.pcie 0, Reg.PCIE_STAT_msix_en.key P.pcie 0, Reg.PCIE_STAT_link_up.key P.pcie 0,
        Reg.PCIE_STAT_speed.key P.pcie 0, Reg.PCIE_STAT_width.key P.pcie 0, Reg.PCIE_STAT_perst.key P.pcie 0,
        Reg.BLK_STAT_blk.key P.pcie 0] [P.pcie + 0x818] [.host])

/-- PERST_DEASSERT, HOST_SESSION_RESET_DONE, PCIE_REPLAY, PCIE_LINK_UP and CONFIGURATION_SPACE_WRITE (R86, R113, R490,
R494, R500, R502 to R506): the reset stays busy while PERST_N is asserted; a replay is counted, and the error it logs;
a link that comes up is shown and WAKE_N released; the function's enables and the address bits of a BAR are stored,
and a vector no longer masked sends its pending message; until step 7 has ended a configuration request has no effect. -/
def Obligations.EndpointStateFollowsTheLinkAndItsEnables : Prop :=
  (∀ s : State, s.atRest → s.hostReach = true → ∃ t, exec .perstDeassert s = .next t ∧
    t.rdb P.pcie Reg.PCIE_STAT_perst = false ∧ Frame s t [Reg.PCIE_STAT_perst.key P.pcie 0] [] []) ∧
  (∀ s : State, s.atRest → s.rdb P.erq Reg.ERQ_HSR_busy = true →
    (s.rdb P.pcie Reg.PCIE_STAT_perst = false ∨ s.rd P.erq Reg.ERQ_HSR_cause ≠ 1 → ∃ t, exec .hostSessionResetDone s = .next t ∧
      t.rdb P.erq Reg.ERQ_HSR_busy = false ∧ Frame s t [Reg.ERQ_HSR_busy.key P.erq 0] [] []) ∧
    (s.rdb P.pcie Reg.PCIE_STAT_perst = true → s.rd P.erq Reg.ERQ_HSR_cause = 1 →
      ∃ t, exec .hostSessionResetDone s = .next t ∧ Frame s t [] [] [])) ∧
  (∀ (s : State) (aer : Option Bool), s.atRest → s.hostReach = true → ∃ t, exec (.pcieReplay aer) s = .next t ∧
    t.ctr (P.pcie + 0x800) = (s.ctr (P.pcie + 0x800) + 1) % 2 ^ 64 ∧ bit (t.rd P.pcie Reg.BLK_STAT_blk) 2 = true ∧
    t.ctr (P.pcie + 0x808) = (s.ctr (P.pcie + 0x808) + b2n (aer = some false)) % 2 ^ 64 ∧
    t.ctr (P.pcie + 0x810) = (s.ctr (P.pcie + 0x810) + b2n (aer = some true)) % 2 ^ 64 ∧
    (aer = some true → bit (t.rd P.pcie Reg.BLK_STAT_blk) 1 = true) ∧
    Frame s t [Reg.BLK_STAT_blk.key P.pcie 0] [P.pcie + 0x800, P.pcie + 0x808, P.pcie + 0x810] []) ∧
  (∀ (s : State) (speed : BitVec 3) (width : BitVec 5), s.atRest → s.hostReach = true →
    s.rdb P.pcie Reg.PCIE_STAT_perst = false → bit s.seq.begun 4 = true →
    ∃ t, exec (.pcieLinkUp speed width) s = .next t ∧ t.rdb P.pcie Reg.PCIE_STAT_link_up = true ∧
      t.rd P.pcie Reg.PCIE_STAT_speed = speed.toNat ∧ t.rd P.pcie Reg.PCIE_STAT_width = width.toNat ∧
      t.rdb P.pcie Reg.PCIE_STAT_wake = false ∧ t.seq.clkLost = s.seq.clkLost.filter (fun k => k ≠ ClockId.pcie) ∧
      t.seq.phase = s.seq.phase ∧ t.seq.power = s.seq.power ∧ t.seq.begun = s.seq.begun ∧ t.seq.ended = s.seq.ended ∧
      Frame s t [Reg.PCIE_STAT_link_up.key P.pcie 0, Reg.PCIE_STAT_speed.key P.pcie 0, Reg.PCIE_STAT_width.key P.pcie 0,
        Reg.PCIE_STAT_wake.key P.pcie 0] [] (if s.seq.clkLost.contains .pcie then [.seq] else [])) ∧
  (∀ (s : State) (bme msixEn funcMask pmeEn : Bool) (bar : Option (Fin 6 × Word)), s.atRest → s.hostReach = true →
    (s.rdb P.pcie Reg.PCIE_STAT_perst = false → bit s.seq.ended 6 = true →
    ∃ t, exec (.configurationSpaceWrite bme msixEn funcMask pmeEn bar) s = .next t ∧ t.rdb P.pcie Reg.PCIE_STAT_bme = bme ∧
      t.rdb P.pcie Reg.PCIE_STAT_msix_en = msixEn ∧ t.host.funcMask = funcMask ∧ t.host.pmeEn = pmeEn ∧
      (bar = none → t.host.bars = s.host.bars) ∧
      (∀ b, bar = some b → SMap.get t.host.bars b.1 0 = (b.2.toNat &&& barMask b.1) ∧
        t.barRead b.1 = (b.2.toNat &&& barMask b.1) + barType b.1) ∧
      (∀ q < 16, bit (t.rd P.erq Reg.MSIX_PBA_pend) q = (bit (s.rd P.erq Reg.MSIX_PBA_pend) q &&
        (!msixEn || !bme || funcMask || s.rdb P.erq Reg.MSIX_TABLE_mask q))) ∧
      t.host.msix = s.host.msix ++ (List.range 16).filter (fun q => msixEn && bme && !funcMask &&
        !s.rdb P.erq Reg.MSIX_TABLE_mask q && bit (s.rd P.erq Reg.MSIX_PBA_pend) q) ∧
      Frame s t [Reg.PCIE_STAT_bme.key P.pcie 0, Reg.PCIE_STAT_msix_en.key P.pcie 0, Reg.MSIX_PBA_pend.key P.erq 0] []
        [.host, .hostMem]) ∧
    (bit s.seq.ended 6 = false → ∃ t, exec (.configurationSpaceWrite bme msixEn funcMask pmeEn bar) s = .next t ∧ Frame s t [] [] []))

/-- EVENT_RECORD_WRITE (R483, R485, R487, R490 to R493): the oldest unit produced goes to its target: a host queue takes
it whole at its producer index, the record's 32 bytes with the queue's sequence and phase, or drops it whole, counted
and marked lost; a Hearth queue of 256 alike; a unit of an inactive source is counted and not written. -/
def Obligations.EventRecordsAreWrittenWholeOrDroppedWhole : Prop :=
  ∀ (s : State) (u : RecUnit) (us : List RecUnit), s.atRest → s.host.produced = u :: us →
  let q := u.target.toNat - 0x10
  let k := u.target.toNat - 0x20
  let prod := s.rd P.erq Reg.ERQ_QPROD_prod q
  ∃ t, exec .eventRecordWrite s = .next t ∧ t.host.produced = us ∧
    (isHostErq u.target.toNat = true → s.rdb P.erq Reg.ERQ_QCFG_en q = true → s.bme = true →
      t.rd P.erq Reg.ERQ_QSEQ_seq q = (s.rd P.erq Reg.ERQ_QSEQ_seq q + u.recs.length) % 2 ^ 32 ∨ u.recs = []) ∧
    (isHostErq u.target.toNat = true → s.rdb P.erq Reg.ERQ_QCFG_en q = true → s.bme = true → u.recs ≠ [] →
      (u.recs.length ≤ s.erqFree q →
        t.rd P.erq Reg.ERQ_QPROD_prod q = (prod + u.recs.length) % 2 ^ s.erqLog q ∧
        t.ctr (P.erq + 0x800 + 0x10 * q) = (s.ctr (P.erq + 0x800 + 0x10 * q) + u.recs.length) % 2 ^ 64 ∧
        t.host.lost.contains u.target.toNat = false ∧
        (∀ r, u.recs = [r] →
          t.rdb P.erq Reg.ERQ_QPROD_phase q = (s.rdb P.erq Reg.ERQ_QPROD_phase q != decide ((prod + 1) % 2 ^ s.erqLog q = 0)) ∧
          (s.erqUsed q ≠ 0 → t.host.msix = s.host.msix ∧ t.hostMem = Memory.writeBytes s.hostMem
            (s.rd2 P.erq Reg.ERQ_QBASE_addr_lo Reg.ERQ_QBASE_addr_hi q + 32 * prod)
            (recBytes r (s.rdb P.erq Reg.ERQ_QPROD_phase q) (s.isLost (0x10 + q)) (s.rd P.erq Reg.ERQ_QSEQ_seq q))) ∧
          (s.erqUsed q = 0 → s.rdb P.pcie Reg.PCIE_STAT_msix_en = true →
            (s.msixMasked q = true → t.host.msix = s.host.msix ∧ bit (t.rd P.erq Reg.MSIX_PBA_pend) q = true) ∧
            (s.msixMasked q = false → t.host.msix = s.host.msix ++ [q]))) ∧
        Frame s t [Reg.ERQ_QPROD_prod.key P.erq q, Reg.ERQ_QSEQ_seq.key P.erq q, Reg.ERQ_QPROD_phase.key P.erq q,
          Reg.MSIX_PBA_pend.key P.erq 0] [P.erq + 0x800 + 0x10 * q] [.host, .hostMem]) ∧
      (s.erqFree q < u.recs.length →
        t.ctr (P.erq + 0x808 + 0x10 * q) = (s.ctr (P.erq + 0x808 + 0x10 * q) + u.recs.length) % 2 ^ 64 ∧
        t.host.lost.contains u.target.toNat = true ∧ bit (t.rd P.erq Reg.BLK_STAT_blk) 0 = true ∧
        Frame s t [Reg.ERQ_QSEQ_seq.key P.erq q, Reg.BLK_STAT_blk.key P.erq 0] [P.erq + 0x808 + 0x10 * q] [.host])) ∧
    (isHearthQ u.target.toNat = true →
      ((SMap.get s.host.hearthQ k []).length + u.recs.length ≤ 256 →
        (SMap.get t.host.hearthQ k []).length = (SMap.get s.host.hearthQ k []).length + u.recs.length ∧
        (∃ l, SMap.get t.host.hearthQ k [] = SMap.get s.host.hearthQ k [] ++ l) ∧ Frame s t [] [] [.host]) ∧
      (256 < (SMap.get s.host.hearthQ k []).length + u.recs.length →
        SMap.get t.host.hearthQ k [] = SMap.get s.host.hearthQ k [] ∧ t.host.lost.contains u.target.toNat = true ∧
        t.ctr (P.erq + 0x910) = (s.ctr (P.erq + 0x910) + u.recs.length) % 2 ^ 64 ∧
        Frame s t [Reg.BLK_STAT_blk.key P.erq 0] [P.erq + 0x910] [.host])) ∧
    ((isHostErq u.target.toNat = true ∧ (s.rdb P.erq Reg.ERQ_QCFG_en q = false ∨ s.bme = false)) ∨
      (isHostErq u.target.toNat = false ∧ isHearthQ u.target.toNat = false) →
      t.ctr (P.erq + 0x900) = (s.ctr (P.erq + 0x900) + u.recs.length) % 2 ^ 64 ∧
      bit (t.rd P.erq Reg.BLK_STAT_blk) 1 = true ∧
      Frame s t [Reg.BLK_STAT_blk.key P.erq 0] [P.erq + 0x900] [.host])

/-- ERQ_CONSUMER_DOORBELL and MAILBOX_DOORBELL (R494 to R497): an index that the ring has moves the consumer or the
mailbox's producer, and a queue still not empty raises its vector again; any other, or a ring not enabled, is counted;
while BANKED the doorbell is kept and its latch set. ERQ_ENABLE, MAILBOX_ENABLE, MSIX_UNMASK and TARGET_WRITE (R489,
R492, R494, R507, R508): en from 0 to 1 empties the ring; while it is 1 the size stays, a write of another one
counted; a cleared mask sends the pending message; a target changes where its source is inactive or may change it,
else the write is refused and counted. -/
def Obligations.DoorbellsQueuesAndTargetsAct : Prop :=
  (∀ (s : State) (q : Fin 16) (v : Word), s.atRest → s.hostReach = true →
  (s.seq.power ≠ .banked →
    (let i := v.toNat % 2 ^ 15
      ∃ t, exec (.erqConsumerDoorbell q v) s = .next t ∧
        (s.rdb P.erq Reg.ERQ_QCFG_en q = false ∨ 2 ^ s.erqLog q ≤ i →
          t.ctr (P.erq + 0x908) = (s.ctr (P.erq + 0x908) + 1) % 2 ^ 64 ∧ Frame s t [] [P.erq + 0x908] []) ∧
        (s.rdb P.erq Reg.ERQ_QCFG_en q = true → i < 2 ^ s.erqLog q → t.rd P.erq Reg.ERQ_QCONS_cons q = i ∧
          (t.erqUsed q ≠ 0 → s.rdb P.pcie Reg.PCIE_STAT_msix_en = true → s.bme = true → s.msixMasked q = false →
            t.host.msix = s.host.msix ++ [q.val]) ∧
          (t.erqUsed q = 0 → t.host = s.host) ∧
          Frame s t [Reg.ERQ_QCONS_cons.key P.erq q, Reg.MSIX_PBA_pend.key P.erq 0] [] [.host, .hostMem])) ∧
    (let i := v.toNat % 2 ^ 6
      ∃ t, exec (.mailboxDoorbell v) s = .next t ∧
        (s.rdb P.erq Reg.MBX_CFG_en = false ∨ 2 ^ s.mbxLog ≤ i →
          t.ctr (P.erq + 0x908) = (s.ctr (P.erq + 0x908) + 1) % 2 ^ 64 ∧ Frame s t [] [P.erq + 0x908] []) ∧
        (s.rdb P.erq Reg.MBX_CFG_en = true → i < 2 ^ s.mbxLog → t.rd P.erq Reg.MBX_STAT_prod = i ∧
          Frame s t [Reg.MBX_STAT_prod.key P.erq 0] [] []))) ∧
  (s.seq.power = .banked →
    (∃ t, exec (.erqConsumerDoorbell q v) s = .next t ∧ bit (t.rd P.chip Reg.CHIP_WAKE_latch) 0 = true ∧
      t.host = { s.host with keptDoorbells := s.host.keptDoorbells ++ [(0x8000 + 0x400 * q.val, v)] } ∧
      Frame s t [Reg.CHIP_WAKE_latch.key P.chip 0] [] [.host]) ∧
    ∃ t, exec (.mailboxDoorbell v) s = .next t ∧ bit (t.rd P.chip Reg.CHIP_WAKE_latch) 1 = true ∧
      t.host = { s.host with keptDoorbells := s.host.keptDoorbells ++ [(0xc000, v)] } ∧
      Frame s t [Reg.CHIP_WAKE_latch.key P.chip 0] [] [.host])) ∧
  ((∀ (s : State) (q : Fin 16) (v : Word), s.atRest → s.reaches (P.erq + 0x48 + 32 * q.val) →
    ∃ t, exec (.erqEnable q v) s = .next t ∧ t.rdb P.erq Reg.ERQ_QCFG_en q = bit v.toNat 0 ∧
      (s.rdb P.erq Reg.ERQ_QCFG_en q = false → t.rd P.erq Reg.ERQ_QCFG_size_log2 q = bits v.toNat 4 4 ∧
        (bit v.toNat 0 = true → t.rd P.erq Reg.ERQ_QPROD_prod q = 0 ∧ t.rd P.erq Reg.ERQ_QCONS_cons q = 0 ∧
          t.rd P.erq Reg.ERQ_QPROD_phase q = 1 ∧ t.rd P.erq Reg.ERQ_QSEQ_seq q = 0)) ∧
      (s.rdb P.erq Reg.ERQ_QCFG_en q = true →
        t.rd P.erq Reg.ERQ_QCFG_size_log2 q = s.rd P.erq Reg.ERQ_QCFG_size_log2 q ∧
        Frame s t [Reg.ERQ_QCFG_en.key P.erq q] (if bits v.toNat 4 4 ≠ s.rd P.erq Reg.ERQ_QCFG_size_log2 q then
          [P.erq + 0x908] else []) []) ∧
      Frame s t [Reg.ERQ_QCFG_en.key P.erq q, Reg.ERQ_QCFG_size_log2.key P.erq q, Reg.ERQ_QPROD_prod.key P.erq q,
        Reg.ERQ_QCONS_cons.key P.erq q, Reg.ERQ_QPROD_phase.key P.erq q, Reg.ERQ_QSEQ_seq.key P.erq q] [P.erq + 0x908] []) ∧
  (∀ (s : State) (v : Word), s.atRest → s.reaches (P.erq + 0x248) →
    ∃ t, exec (.mailboxEnable v) s = .next t ∧ t.rdb P.erq Reg.MBX_CFG_en = bit v.toNat 0 ∧
      (s.rdb P.erq Reg.MBX_CFG_en = false → t.rd P.erq Reg.MBX_CFG_size_log2 = bits v.toNat 4 4 ∧
        (bit v.toNat 0 = true → t.rd P.erq Reg.MBX_STAT_prod = 0 ∧ t.rd P.erq Reg.MBX_STAT_cons = 0)) ∧
      (s.rdb P.erq Reg.MBX_CFG_en = true → Frame s t [Reg.MBX_CFG_en.key P.erq 0] [] []) ∧
      Frame s t [Reg.MBX_CFG_en.key P.erq 0, Reg.MBX_CFG_size_log2.key P.erq 0, Reg.MBX_STAT_prod.key P.erq 0,
        Reg.MBX_STAT_cons.key P.erq 0] [] []) ∧
  (∀ (s : State) (q : Fin 16), s.atRest → s.reaches (P.erq + 0x40c + 16 * q.val) →
    ∃ t, exec (.msixUnmask q) s = .next t ∧ t.rd P.erq Reg.MSIX_TABLE_mask q = 0 ∧
      t.host.msix = s.host.msix ++ (if bit (s.rd P.erq Reg.MSIX_PBA_pend) q && !s.host.funcMask &&
        s.rdb P.pcie Reg.PCIE_STAT_msix_en && s.bme then [q.val] else []) ∧
      (bit (s.rd P.erq Reg.MSIX_PBA_pend) q = true → s.host.funcMask = false → s.rdb P.pcie Reg.PCIE_STAT_msix_en = true →
        s.bme = true →
        bit (t.rd P.erq Reg.MSIX_PBA_pend) q = false) ∧
      Frame s t [Reg.MSIX_TABLE_mask.key P.erq q, Reg.MSIX_PBA_pend.key P.erq 0] [] [.host, .hostMem]) ∧
  (∀ (s : State) (v : Word), s.atRest → s.reaches (P.erq + 0x264) →
    let src := s.rd P.erq Reg.ERQ_TSEL_src
    ∃ t, exec (.targetWrite v) s = .next t ∧
      (validTarget (v.toNat % 256) = true → s.target src = 0 ∨ s.targetMayChange src = true →
        t.target src = v.toNat % 256 ∧ (∀ x, x ≠ src → t.target x = s.target x) ∧
        Frame s t [Reg.ERQ_TGT_refused.key P.erq 0] [] [.host]) ∧
      (validTarget (v.toNat % 256) = true → s.target src ≠ 0 → s.targetMayChange src = false →
        t.rdb P.erq Reg.ERQ_TGT_refused = true ∧ t.ctr (P.erq + 0x908) = (s.ctr (P.erq + 0x908) + 1) % 2 ^ 64 ∧
        Frame s t [Reg.ERQ_TGT_refused.key P.erq 0] [P.erq + 0x908] []) ∧
      (validTarget (v.toNat % 256) = false → t.ctr (P.erq + 0x908) = (s.ctr (P.erq + 0x908) + 1) % 2 ^ 64 ∧
        Frame s t [Reg.ERQ_TGT_refused.key P.erq 0] [P.erq + 0x908] [])))

/-! ### Faults, fences, engine resets, Hearth, Quench -/

/-- ENGINE_RESET and ENGINE_RESET_DONE (R77, R82, R162, R563, R567): a reset clears the engine's sequencer and banks and
puts it under its self-check; an engine not fenced makes its jobs restart behind a reload. A passed check ends its
fault state, a failed one enters it with cause 0x04; for a fenced engine it is the retest's result. UNFENCE and
PLACEMENT_RELOAD_DONE (R563, R565, R570): a fenced unit whose retest passed returns to service, an engine with its
banks on and its pages in state 0 behind a reload; another key, a unit not fenced or not passed is counted and changes
nothing. The end of a reload lets the abandoned jobs run again. -/
def Obligations.EngineResetsAndUnfencingReturnUnits : Prop :=
  ((∀ (s : State) (e : Fin 36), s.atRest → s.reaches 0x44 →
    ∃ t, exec (.engineReset e) s = .next t ∧ (t.eng e).underTest = true ∧ (t.eng e).cur = none ∧
      (t.eng e).active = default ∧ (t.eng e).shadow = default ∧ (t.eng e).tokens = [] ∧ (t.eng e).inflight = [] ∧
      (t.eng e).queued = [] ∧ (t.eng e).progs = [] ∧ e.val ∈ t.seq.engResets ∧ t.rdb P.erq Reg.ERQ_HSR_busy = false ∧
      (∀ b ∈ engBanks e, ∀ i < bankSize b, Memory.read t.mem (bankBase b + i) = 0) ∧
      (s.engFenced e = false → t.rdb P.flt Reg.FLT_STAT_busy = true ∧ t.coll.reloading = true) ∧
      (s.engFenced e = true → (∀ d, d ≠ e.val → t.eng d = s.eng d) ∧
        Frame s t ((List.range 8).flatMap (fun c => [Reg.ANV_CTX_STAT_pc.key (seqPage e) c,
          Reg.ANV_CTX_STAT_state.key (seqPage e) c, Reg.ANV_CTX_STAT_step.key (seqPage e) c]) ++ [Reg.ERQ_HSR_busy.key P.erq 0]) []
          [.engines, .mem, .seq])) ∧
  (∀ (s : State) (e : Fin 36) (pass : Bool), s.calm → (s.eng e).underTest = true →
    ∃ t, exec (.engineResetDone e pass) s = .next t ∧ (t.eng e).underTest = false ∧ e.val ∉ t.seq.engResets ∧
      (∀ d, d ≠ e.val → t.eng d = s.eng d) ∧
      (s.engFenced e = true → (t.eng e).retest = some pass ∧
        (s.coll.lastUnit = some e.val → t.rdb P.flt Reg.FLT_STAT_retest = pass) ∧
        Frame s t [Reg.FLT_STAT_retest.key P.flt 0] [] [.engines, .seq]) ∧
      (s.engFenced e = false → pass = true → (∀ p ∈ engPages e, t.inFault p = false) ∧ e.val ∈ t.seq.checked ∧
        PageFrame s t ((engPages e ++ [P.anv e 2]).map (· / 4096)) [.engines, .seq]) ∧
      (s.engFenced e = false → pass = false → s.masked (P.eng e) 4 = false →
        (t.inFault (P.eng e) = true ∨ s.isFenced (P.eng e) = true) ∧
        Frame s t ([Reg.BLK_ERR_cause.key (P.eng e) 0, Reg.BLK_ERR_more.key (P.eng e) 0, Reg.BLK_ERR_count.key (P.eng e) 0,
          Reg.BLK_STAT_state.key (P.eng e) 0] ++
          (engPages e).map (fun p => Reg.BLK_STAT_state.key p 0)) [] [.engines, .host, .seq]))) ∧
  ((∀ (s : State) (v : Word) (linkGood : Bool), s.calm → s.reaches (P.flt + 0x50) →
    let u := bits v.toNat 0 7
    (bits v.toNat 16 16 ≠ 0x8f2b ∨ (u ≠ 96 ∧ (s.unitFenced u = false ∨ s.retestOf u ≠ some true)) →
      ∃ t, exec (.unfence v linkGood) s = .next t ∧ t.ctr (P.flt + 0x838) = (s.ctr (P.flt + 0x838) + 1) % 2 ^ 64 ∧
        Frame s t [] [P.flt + 0x838] []) ∧
    (bits v.toNat 16 16 = 0x8f2b → u < 36 → s.engFenced u = true → (s.eng u).retest = some true →
      ∃ t, exec (.unfence v linkGood) s = .next t ∧ t.engFenced u = false ∧
        (∀ p ∈ engPages u, t.rd p Reg.BLK_STAT_state = 0 ∧ t.rd p Reg.BLK_ERR_cause = 0) ∧
        (∀ b ∈ engBanks u, t.rd P.bank Reg.BANK_CTL_pwr b = 2) ∧ (t.eng u).retest = none ∧ u ∈ t.seq.checked ∧
        t.coll.reloading = true ∧ t.rdb P.flt Reg.FLT_STAT_busy = true) ∧
    (bits v.toNat 16 16 = 0x8f2b → 64 ≤ u → u < 96 → s.unitFenced u = true → SMap.find? s.coll.retests u = some true →
      ∃ t, exec (.unfence v linkGood) s = .next t ∧ t.unitFenced u = false ∧
        t.rdb (P.anv (u - 64) 0) Reg.ANV_CFG_rq_excl = false ∧
        Frame s t [Reg.FLT_FENCE_rq.key P.flt 0, Reg.ANV_CFG_rq_excl.key (P.anv (u - 64) 0) 0] [] [.coll])) ∧
  (∀ s : State, s.calm → s.coll.reloading = true →
    ∃ t, exec .placementReloadDone s = .next t ∧ t.coll = { s.coll with reloading := false } ∧
      t.sched = { s.sched with restartQ := s.sched.order.filter (fun j => (s.job j).any (fun x => x.phase = 4 && x.ended.isNone)) } ∧
      (s.coll.pendingJobs = [] → s.rdb P.flt Reg.FLT_STAT_busy = true → t.rdb P.flt Reg.FLT_STAT_busy = false ∧
        recorded s t 0xe00 0x81 (le 4 (s.now - s.coll.startNs) ++ le 2 (s.rd P.flt Reg.FLT_STAT_jobs) ++
          le 1 s.anvFree.length)) ∧
      (s.coll.pendingJobs ≠ [] → t.host = s.host) ∧ Frame s t [Reg.FLT_STAT_busy.key P.flt 0] []
        [.coll, .sched, .mem, .msys, .host]))

/-- FAULT_RECEIVED (R98, R559 to R561, R568, R573, R582, R585): a report without a page or cause does nothing, a masked
one is counted by its block; else the block holds the cause, the collector counts it, notes it in FLT_LAST with its
action and records it; an engine that is not fenced and runs no step is fenced: its bit set, its pages in state 4, its
banks off and clear, its retest begun; a residue error fences the requantisation unit. -/
def Obligations.FaultsAreRecordedActedOnAndFenced : Prop :=
  ∀ (s : State) (f : FaultReport), s.calm →
  let n := f.src.toNat + f.page.toNat
  let base := n * 4096
  let last := [Reg.FLT_LAST_src.key P.flt 0, Reg.FLT_LAST_cause.key P.flt 0, Reg.FLT_LAST_action.key P.flt 0]
  (f.residue = false → pageInfo n = none ∨ f.cause = 0 ∧ f.also = none → ∃ t, exec (.faultReceived f) s = .next t ∧ Frame s t [] [] []) ∧
  (f.residue = false → f.also = none → (pageInfo n).isSome = true → f.cause ≠ 0 → s.masked base f.cause.toNat = true →
    s.inFault base = false → s.isFenced base = false → s.rd base Reg.BLK_ERR_cause ≠ f.cause.toNat →
    ∃ t, exec (.faultReceived f) s = .next t ∧ t.ctr (P.flt + 0x808) = (s.ctr (P.flt + 0x808) + 1) % 2 ^ 64 ∧
      counted n .maskedFault s t ∧ (base ≠ P.arcG → Frame s t [] [P.flt + 0x808] [.openCtrs])) ∧
  (f.residue = false → f.also = none → (pageInfo n).isSome = true → f.cause ≠ 0 → s.masked base f.cause.toNat = false →
    engineOfPage n = none → ¬ (0x501 ≤ n ∧ n ≤ 0x508 ∧ f.cause = 2) → base ≠ P.rtu → base ≠ P.arcG →
    ∃ t, exec (.faultReceived f) s = .next t ∧ t.ctr (P.flt + 0x800) = (s.ctr (P.flt + 0x800) + 1) % 2 ^ 64 ∧
      t.rd P.flt Reg.FLT_LAST_src = f.src.toNat ∧ t.rd P.flt Reg.FLT_LAST_cause = f.cause.toNat ∧
      t.host.produced ≠ s.host.produced ∧ (¬ (0x600 ≤ n ∧ n < 0x619) → ¬ (0x700 ≤ n ∧ n < 0x704) → Frame s t ([Reg.BLK_ERR_cause.key base 0, Reg.BLK_ERR_more.key base 0, Reg.BLK_ERR_count.key base 0,
        Reg.BLK_STAT_state.key base 0] ++ last) [P.flt + 0x800] [.host])) ∧
  (∀ c, f.also = some c → c ≠ 0 → f.residue = false → (pageInfo n).isSome = true → f.cause ≠ 0 →
    s.masked base f.cause.toNat = false → s.masked base c.toNat = false → engineOfPage n = none → s.rd base Reg.BLK_ERR_cause = 0 →
    s.inFault base = false → s.isFenced base = false → ¬ (0x501 ≤ n ∧ n ≤ 0x508) →
    ∃ t, exec (.faultReceived f) s = .next t ∧ t.rd base Reg.BLK_ERR_cause = min f.cause.toNat c.toNat ∧
      t.rd P.flt Reg.FLT_LAST_cause = min f.cause.toNat c.toNat) ∧
  (∀ e < 36, f.residue = false → f.also = none → engineOfPage n = some e → (pageInfo n).isSome = true → f.cause ≠ 0 →
    s.masked base f.cause.toNat = false → s.engFenced e = false → (s.eng e).cur = none →
    ∃ t, exec (.faultReceived f) s = .next t ∧ t.engFenced e = true ∧ (∀ p ∈ engPages e, t.isFenced p = true) ∧
      (∀ b ∈ engBanks e, t.rd P.bank Reg.BANK_CTL_pwr b = 0 ∧ ∀ i < bankSize b, Memory.read t.mem (bankBase b + i) = 0) ∧
      (t.eng e).underTest = true ∧ (t.eng e).retest = none ∧ t.coll.lastUnit = some e ∧
      t.rd P.flt Reg.FLT_LAST_src = f.src.toNat ∧ t.rd P.flt Reg.FLT_LAST_cause = f.cause.toNat ∧
      t.rd P.flt Reg.FLT_LAST_action = 3) ∧
  (∀ e < 36, f.residue = false → f.also = none → engineOfPage n = some e → (pageInfo n).isSome = true → f.cause ≠ 0 →
    s.masked base f.cause.toNat = false → s.isFenced base = true → s.engFenced e = true →
    ∃ t, exec (.faultReceived f) s = .next t ∧ t.rd P.flt Reg.FLT_LAST_action = 1 ∧
      recorded s t 0xe00 0x80 (le 2 f.src.toNat ++ le 1 f.cause.toNat ++ le 1 1 ++ le 2 e ++ le 2 0 ++ le 1 s.anvFree.length) ∧
      Frame s t last [P.flt + 0x800] [.host]) ∧
  (∀ e < 32, f.residue = true → engineOfPage f.src.toNat = some e → engineOfPage n = some e → s.unitFenced (64 + e) = false →
    s.engFenced e = false →
    ∃ t, exec (.faultReceived f) s = .next t ∧ t.unitFenced (64 + e) = true ∧ t.rdb (P.anv e 0) Reg.ANV_CFG_rq_excl = true ∧
      t.rd P.flt Reg.FLT_LAST_cause = 0xf0 ∧ t.rd P.flt Reg.FLT_LAST_action = 3)

/-- HEARTH_KICK, HEARTH_WATCHDOG_EXPIRY, HEARTH_EXCEPTION and HEARTH_RESTART (R499, R571, R572): a kick over PCIe is
counted and ignored; a period in which every core kicked ends without effect, another halts the complex, counts and
records; after three within 600 s the cores are held; a restart answers every request taken with status 5.
QUENCH_WAVE_START, _SKIP, QUENCH_POWER_ABORT and QUENCH_WAVE_END (R74, R147, R576 to R580): a shutdown that has been
asked for stops every context before its plan runs. With headroom the wave's units go to state 5, an engine's
requantisation unit being excluded, else nothing begins; units skipped or aborted are noted with result 3, tested ones
with theirs or 2 where none came, each with its group's coverage; every unit of the wave is out of the test state at
its end. -/
def Obligations.HearthRestartsAndQuenchWavesRun : Prop :=
  ((∀ (s : State) (cores : BitVec 4), s.atRest → s.reaches (P.flt + 0x54) →
    (∃ t, exec (.hearthKick cores .driver) s = .next t ∧ t.ctr (P.flt + 0x838) = (s.ctr (P.flt + 0x838) + 1) % 2 ^ 64 ∧
      Frame s t [] [P.flt + 0x838] []) ∧
    (s.coll.hearthHalted = false → ∃ t, exec (.hearthKick cores .firmware) s = .next t ∧
      t.coll = { s.coll with kicked := s.coll.kicked ||| cores.toNat } ∧ Frame s t [] [] [.coll])) ∧
  (∀ (s : State) (n : BitVec 8), s.calm → s.inReset = false → s.unpowered = false → s.coll.kicked = 15 →
    ∃ t, exec (.hearthWatchdogExpiry n) s = .next t ∧ t.coll = { s.coll with kicked := 0 } ∧ Frame s t [] [] [.coll]) ∧
  (∀ (s : State) (n : BitVec 8), s.calm → s.inReset = false → s.unpowered = false → s.coll.hearthHalted = false →
    ∀ p ∈ [(Instr.hearthWatchdogExpiry n, 1, 0xf1), (.hearthException n, 2, 0xf2)], (p.2.1 = 1 → s.coll.kicked ≠ 15) →
    ∃ t, exec p.1 s = .next t ∧ t.coll = { s.coll with hearthHalted := true, hearthCause := p.2.1, kicked := 0 } ∧
      t.rdb P.tmp Reg.TMP_STAT_handover = false ∧ t.temper.handover = none ∧
      t.rd P.flt Reg.FLT_LAST_src = 0xe00 ∧ t.rd P.flt Reg.FLT_LAST_cause = p.2.2 ∧
      (n.toNat < 3 → t.rd P.flt Reg.FLT_HWDG_restarts = min 255 (s.rd P.flt Reg.FLT_HWDG_restarts + 1) ∧
        t.ctr (P.flt + 0x830) = (s.ctr (P.flt + 0x830) + 1) % 2 ^ 64 ∧ bit (t.rd P.flt Reg.BLK_STAT_blk) 2 = true ∧
        t.rd P.flt Reg.FLT_LAST_action = 4 ∧
        recorded s t 0xe00 0x80 (le 2 0xe00 ++ le 1 p.2.2 ++ le 1 4 ++ le 2 0xffff ++ le 2 0 ++ le 1 s.anvFree.length)) ∧
      (3 ≤ n.toNat → t.rdb P.flt Reg.FLT_HWDG_held = true ∧ t.rd P.flt Reg.FLT_LAST_action = 1) ∧
      Frame s t [Reg.TMP_STAT_half.key P.tmp 0, Reg.TMP_STAT_handover.key P.tmp 0, Reg.FLT_HWDG_held.key P.flt 0,
        Reg.FLT_HWDG_restarts.key P.flt 0, Reg.BLK_STAT_blk.key P.flt 0, Reg.FLT_LAST_src.key P.flt 0,
        Reg.FLT_LAST_cause.key P.flt 0, Reg.FLT_LAST_action.key P.flt 0] [P.flt + 0x800, P.flt + 0x830] [.coll, .temper, .host]) ∧
  (∀ (s : State) (us : BitVec 32), s.calm → s.coll.hearthHalted = true → s.rdb P.flt Reg.FLT_HWDG_held = false →
    ∃ t, exec (.hearthRestart us) s = .next t ∧ t.coll = { s.coll with hearthHalted := false, kicked := 0 } ∧
      t.host.mbxTaken = [] ∧ t.host.produced.length = s.host.produced.length + s.host.mbxTaken.length + 1 ∧
      (s.host.mbxTaken = [] → recorded s t 0xe00 0x82 (le 1 s.coll.hearthCause ++ le 3 0 ++ le 4 us.toNat)) ∧
      Frame s t [Reg.MBX_STAT_busy.key P.erq 0] [] [.coll, .host, .hostMem])) ∧
  ((∀ (s : State) (g w : BitVec 8) (us : List (Fin 70)) (ok : Bool), s.atRest →
    let plan := s.rd P.tmp Reg.TMP_LC_state = 1 ∨ s.rd P.tmp Reg.TMP_LC_state = 4 ∨ ∀ u ∈ us, unitGroup u = g.toNat
    ∃ t, exec (.quenchWaveStart g w us ok) s = .next t ∧
      (s.clocked = false → Frame s t [] [] []) ∧
      (s.clocked = true → s.seq.shutdownAsked = true → s.seq.ctxsStopped = false → s.rtu.entries = [] →
        t.seq.ctxsStopped = true ∧ ∀ c < 8, t.ctxState c ≠ ctxRunning ∧ t.ctxState c ≠ ctxStandby) ∧
      (s.clocked = true → s.shutdownStop.quenchAllowed (us.map Fin.val) = true → plan → s.shutdownStop.quench.waveUnits = [] → ok = true →
        t.quench.waveUnits = us.map Fin.val ∧ (∀ u ∈ us, ∀ p ∈ unitPages u, t.underTest p = true) ∧
        (∀ u ∈ us, u.val < 32 → t.rdb (P.anv u 0) Reg.ANV_CFG_rq_excl = true) ∧
        t.rd P.qch Reg.QCH_STAT_state = 1 ∧ t.rd P.qch Reg.QCH_STAT_group = g.toNat % 2 ^ 4 ∧
        t.rd P.qch Reg.QCH_STAT_wave = w.toNat % 2 ^ 5 ∧
        ((∀ u ∈ us, ∀ p ∈ unitPages u, s.shutdownStop.inFault p = false) →
          Frame s.shutdownStop t ([Reg.QCH_STAT_state.key P.qch 0, Reg.QCH_STAT_group.key P.qch 0, Reg.QCH_STAT_wave.key P.qch 0] ++
            (us.map Fin.val).flatMap (fun u => (unitPages u).map (fun p => Reg.BLK_STAT_state.key p 0)) ++
            (us.map Fin.val).map (fun u => Reg.ANV_CFG_rq_excl.key (P.anv u 0) 0)) [] [.quench])) ∧
      (s.clocked = true → s.shutdownStop.quenchAllowed (us.map Fin.val) = false ∨ ¬ plan ∨ s.shutdownStop.quench.waveUnits ≠ [] ∨ ok = false →
        Frame s.shutdownStop t [] [] [])) ∧
  (∀ s : State, s.rtu.entries ≠ [] ∨ s.seq.shutdownAsked = false → s.shutdownStop = s) ∧
  (∀ (s : State) (us : List (Fin 70)), s.atRest → s.quenchAllowed (us.map Fin.val) = true → s.quench.waveUnits = [] →
    ∃ t, exec (.quenchWaveSkip us) s = .next t ∧
      (∀ u ∈ us, ∃ e, SMap.find? t.quench.making u = some e ∧ e.result = 3 ∧ e.coverage = unitCoverage u ∧ e.time = s.now) ∧
      Frame s t [] [] [.quench]) ∧
  (∀ (s : State) (us : List (Fin 70)), s.calm → s.quench.waveUnits ≠ [] →
    ∃ t, exec (.quenchPowerAbort us) s = .next t ∧ t.quench.waveUnits = [] ∧ t.rd P.qch Reg.QCH_STAT_state = 2 ∧
      (∀ u ∈ us, ∃ e, SMap.find? t.quench.making u = some e ∧ e.result = 3 ∧ e.coverage = unitCoverage u ∧ e.time = s.now) ∧
      (∀ u ∈ s.quench.waveUnits, ∀ p ∈ unitPages u, t.underTest p = false)) ∧
  (∀ (s : State) (rs : List (Fin 70 × Fin 4)), s.calm → s.quench.waveUnits ≠ [] →
    ∃ t, exec (.quenchWaveEnd rs) s = .next t ∧ t.quench.waveUnits = [] ∧ t.rd P.qch Reg.QCH_STAT_state = 2 ∧
      t.rd P.qch Reg.QCH_STAT_group = 0 ∧ t.rd P.qch Reg.QCH_STAT_wave = 0 ∧ t.quench.endNs = s.now ∧
      (∀ u ∈ s.quench.waveUnits, ∃ e, SMap.find? t.quench.making u = some e ∧ e.coverage = unitCoverage u ∧ e.time = s.now ∧
        e.result = match List.find? (fun (p : Nat × Nat) => p.1 = u) (rs.map (fun p => (p.1.val, p.2.val))) with
          | some p => p.2
          | none => 2) ∧
      (∀ u ∈ s.quench.waveUnits, ∀ p ∈ unitPages u, t.underTest p = false)))

/-! ### Engine commands -/

/-- NOP, BARRIER, BARRIER_RELEASE, COMMAND_COMPLETE and STEP_WATCHDOG, and what every engine row does before its effect
(R149 to R151, R153, R154, R156, R157, R161, R212, R229): the next command of the step goes into its unit queue and
executes there once it may; a NOP moves its tokens only; a token count beyond 255 is fault 0x14, an undefined opcode
0x10; a barrier waits until every engine of its mask does; a command completes once and signals its token; a step that
runs too long is fault 0x13. -/
def Obligations.SequencerCommandsMoveSlotTokensAndBarriers : Prop :=
  (∀ (s : State) (e : Fin 36) (c : Fin 8) (j : Fin 512) (w : Cmd) (k : BitVec 16), s.calm →
    (∀ x, s.nextIs e c j w x → Queued s (s.staged e c j w x k.toNat) e c j w x k.toNat) ∧
    (cmdOp w = 0 ∨ takesOp e (cmdOp w) = false → RowQueues s (.nop e c j w) e c j w 0) ∧
    ∀ q ∈ [(3, Instr.vec e c j w, 0), (4, .pool e c j w, 0), (5, .dma e c j w, 0), (6, .barrier e c j w, 0),
      (15, .stepEnd e c j k w, k.toNat)], cmdOp w = q.1 → RowQueues s q.2.1 e c j w q.2.2) ∧
  (∀ (s : State) (e : Fin 32) (c : Fin 8) (j : Fin 512) (w : Cmd) (b : Bool), s.calm →
    ∀ q ∈ [(1, Instr.load e c j w, 0), (2, .pass e c j w b, b2n b), (7, .rwait e c j w (), 0), (8, .satbr e c j w, 0)],
      cmdOp w = q.1 → RowQueues s q.2.1 e c j w q.2.2) ∧
  (∀ (s : State) (e : Fin 36) (c : Fin 8) (j : Fin 512) (w : Cmd) (x : Job), s.calm → s.issues e c j w x →
    let u := s.staged e c j w x
    (cmdOp w = 0 → u.signalFits e c w → ∃ t, exec (.nop e c j w) s = .next t ∧ AtOnce u t e c w ∧ Frame u t [] [] [.engines]) ∧
    (cmdOp w = 0 → ¬ u.signalFits e c w → ∃ t, exec (.nop e c j w) s = .next t ∧ EngineFault u t e c 0x14 [] []) ∧
    (cmdOp w ≠ 0 → takesOp e (cmdOp w) = false → ∃ t, exec (.nop e c j w) s = .next t ∧ EngineFault u t e c 0x10 [] [])) ∧
  (∀ (s : State) (e : Fin 36) (c : Fin 8) (j : Fin 512) (w : Cmd) (x : Job), s.calm → s.issues e c j w x → cmdOp w = 6 →
    let u := s.staged e c j w x
    ∃ t, exec (.barrier e c j w) s = .next t ∧
      (bit w.w1.toNat (maskBit e) = true → InFlight u t e c w ∧ (t.eng e).barrier = some (bits w.w2.toNat 0 4, w.w1.toNat) ∧
        Frame u t [] [] [.engines]) ∧
      (bit w.w1.toNat (maskBit e) = false → EngineFault u t e c 0x11 [] [])) ∧
  (∀ (s : State) (id : Fin 16) (m : Word), s.atRest →
    let full := fun es => s.clocked = true ∧ s.barrierFull es id m.toNat = true
    let leaves := fun e => (e < 32 ∧ full (bitsOf 32 m.toNat) ∧ bit m.toNat e = true) ∨
      (32 ≤ e ∧ full ((bitsOf 4 m.toNat).map (· + 32)) ∧ bit m.toNat (e - 32) = true)
    let at_ := fun e => (s.eng e).inflight.find? (fun f => cmdOp f.2 = 6)
    (∀ e ∈ List.range 36, leaves e → (s.eng e).queued = [] ∧
      (at_ e).all (fun f => !cmdSignals f.2 || decide (s.tokens e f.1 (cmdSigTok f.2) ≠ 255)) = true) →
    ∃ t, exec (.barrierRelease id m) s = .next t ∧ (∀ e < 36, ¬ leaves e → t.eng e = s.eng e) ∧
      (∀ e < 36, leaves e → (t.eng e).barrier = none ∧ (t.eng e).queued = [] ∧
        (t.eng e).inflight = (s.eng e).inflight.filter (fun f => cmdOp f.2 ≠ 6) ∧
        ∀ f, at_ e = some f → ∀ n < 16, t.tokens e f.1 n =
          s.tokens e f.1 n + if cmdSignals f.2 = true ∧ n = cmdSigTok f.2 then 1 else 0) ∧
      Frame s t [] [] [.engines]) ∧
  (∀ (s : State) (e : Fin 36) (c : Fin 8) (w : Cmd) (up : Upset), s.calm →
    let g := s.eng e
    let held := (cmdOp w = 6 ∧ g.barrier ≠ none) ∨ (cmdOp w = 7 ∧ g.rwait.contains (c.val, w.w1.toNat) = true)
    let can := g.inflight.contains (c.val, w) = true ∧ ¬ held ∧ s.engWorks e = true
    let u := s.bankUpset (ownBank e 0) up
    let ctr := if cmdOp w = 2 then [P.anv e 0 + 0x820] else if cmdOp w = 0x22 then [P.tng (e - 32) 0 + 0x808] else []
    ∃ t, exec (.commandComplete e c w up) s = .next t ∧
      (¬ can → Frame s t [] [] []) ∧ (can → u.engWorks e = false → Frame u t [] [] []) ∧
      (up = .clean → u = s) ∧ (up = .correctable → u.ctr (bankPage (ownBank e 0)).2 = (s.ctr (bankPage (ownBank e 0)).2 + 1) % 2 ^ 64 ∧
        Frame s u [] [(bankPage (ownBank e 0)).2] []) ∧
      (up = .uncorrectable → can → u.inFault (P.eng e) = true ∧ u.engWorks e = false ∧ (u.eng e).inflight = [] ∧
        (s.rd (P.eng e) Reg.BLK_ERR_cause = 0 → u.rd (P.eng e) Reg.BLK_ERR_cause = 2)) ∧
      (can → u.engWorks e = true → g.queued = [] → (cmdSignals w = true → s.tokens e c (cmdSigTok w) ≠ 255) →
        (t.eng e).inflight = g.inflight.erase (c.val, w) ∧ (t.eng e).queued = [] ∧
        (∀ n < 16, t.tokens e c n = s.tokens e c n + if cmdSignals w = true ∧ n = cmdSigTok w then 1 else 0) ∧
        (∀ d, d ≠ e.val → t.eng d = s.eng d) ∧ (∀ a ∈ ctr, t.ctr a = (u.ctr a + 1) % 2 ^ 64) ∧ Frame u t [] ctr [.engines]) ∧
      (can → u.engWorks e = true →
        let v := u.setEng e { u.eng e with inflight := g.inflight.erase (c.val, w) }
        Frame (((ctr.foldl (fun s a => s.bump a) v).signal e c w).drainAll e) t [] [] [])) ∧
  (∀ (s : State) (e : Fin 36), s.calm →
    ((s.eng e).cur = none ∨ s.engWorks e = false → ∃ t, exec (.stepWatchdog e) s = .next t ∧ Frame s t [] [] []) ∧
    ∀ c < 8, (s.eng e).cur = some c → s.engWorks e = true →
      ∃ t, exec (.stepWatchdog e) s = .next t ∧ EngineFault s t e c 0x13 [] [])

/-- RWAIT, SATBR and STEP_END (R155, R190, R195, R198, R287, R288, R292): a remote wait that is done goes on and takes the
completion, another makes the engine name no context; SATBR's target is the next step where the count is above the
threshold, the first time counted as a fallback; the end of a step advances the step, frees the engine for the next
and takes the pre-emption asked for. -/
def Obligations.WaitsBranchesAndStepEnds : Prop :=
  (∀ (s : State) (e : Fin 32) (c : Fin 8) (j : Fin 512) (w : Cmd) (x : Job), s.calm → s.issues e c j w x → cmdOp w = 7 →
    let u := s.staged e c j w x
    let ent := w.w1.toNat
    let first := ((s.taken e c x).prog e c).pos = 0
    let done := (s.oldestJob c).any (fun y => y.tag = x.tag) && s.waitDone c e ent
    ∃ t, exec (.rwait e c j w ()) s = .next t ∧
      (¬ first ∨ s.waitEntry c e ent = none → EngineFault u t e c 0x11 [] []) ∧
      (first → s.waitEntry c e ent ≠ none → done = true → u.signalFits e c w → AtOnce u t e c w ∧
        (t.ctx c).waitsDone = (s.ctx c).waitsDone.filter (fun k => k ≠ 16 * e.val + ent) ∧ Frame u t [] [] [.engines, .ctxs]) ∧
      (first → s.waitEntry c e ent ≠ none → done = false → (t.eng e).inflight = (u.eng e).inflight ++ [(c.val, w)] ∧
        (t.eng e).queued = [] ∧ (∀ d, d ≠ e.val → t.eng d = u.eng d) ∧ (∀ n < 16, t.tokens e c n = u.tokenAt e c w n) ∧
        t.rd (seqPage e) Reg.ANV_CTX_STAT_state c = 3 ∧ (t.eng e).cur = none ∧ (t.eng e).chain = none ∧
        (t.eng e).rwait = (u.eng e).rwait ++ [(c.val, ent)] ∧
        t.ctr (P.schC c + 0x850) = (s.ctr (P.schC c + 0x850) + 1) % 2 ^ 64 ∧
        Frame u t [Reg.ANV_CTX_STAT_state.key (seqPage e) c] [P.schC c + 0x850] [.engines])) ∧
  (∀ (s : State) (e : Fin 32) (c : Fin 8) (j : Fin 512) (w : Cmd) (x : Job), s.calm → s.issues e c j w x → cmdOp w = 8 →
    let u := s.staged e c j w x
    let i := bits w.w1.toNat 0 16
    let bad := bits w.w1.toNat 16 16 ≠ 0 ∨ (255 < i ∧ i ≠ 0xffff) ∨ w.w2.toNat % 16 ≠ 0
    let above := s.threshold c i < SMap.get x.counts i (0 : Nat)
    let y := { x with phase := 2 }
    ∃ t, exec (.satbr e c j w) s = .next t ∧
      (bad → EngineFault u t e c 0x11 [] []) ∧
      (¬ bad → u.signalFits e c w → AtOnce u t e c w ∧ Frame u t [] [P.schC c + 0x840] [.engines, .sched] ∧
        (t.eng e).branch = (if i = 0xffff ∨ above then some w.w2.toNat else none)) ∧
      (¬ bad → i ≠ 0xffff → above → x.taken.contains i = false →
        t.job j = some { y with fallback := true, taken := i :: x.taken } ∧
        t.ctr (P.schC c + 0x840) = (s.ctr (P.schC c + 0x840) + 1) % 2 ^ 64) ∧
      (¬ bad → (i = 0xffff ∨ ¬ above ∨ x.taken.contains i = true) → t.job j = some y ∧
        t.ctr (P.schC c + 0x840) = s.ctr (P.schC c + 0x840))) ∧
  (∀ (s : State) (e : Fin 36) (c : Fin 8) (j : Fin 512) (k : BitVec 16) (w : Cmd) (x : Job), s.calm → s.issues e c j w x k.toNat →
    cmdOp w = 15 → x.check = none → s.sched.regen = none →
    let u := s.staged e c j w x k.toNat
    let g := u.eng e
    let p := u.prog e c
    let req := g.sample.getD g.preReq
    let ends := if e.val < 32 then P.anv e 0 + 0x828 else P.tng (e - 32) 0 + 0x850
    let cut := if e.val < 32 then P.anv e 0 + 0x830 else P.tng (e - 32) 0 + 0x858
    let next := (g.branch.getD (p.start + 16 * p.cmds.length))
    ∃ t, exec (.stepEnd e c j k w) s = .next t ∧
      (g.phase ≠ 0 → EngineFault u t e c 0x11 [] []) ∧
      (g.phase = 0 → u.signalFits e c w → (t.eng e).cur = none ∧ (t.eng e).sample = none ∧ (t.eng e).branch = none ∧
        (t.eng e).queued = [] ∧
        t.rd (seqPage e) Reg.ANV_CTX_STAT_step c = min 0xffff (u.rd (seqPage e) Reg.ANV_CTX_STAT_step c + 1) ∧
        t.ctr ends = (u.ctr ends + 1) % 2 ^ 64 ∧ (∀ d, d ≠ e.val → t.eng d = u.eng d) ∧
        (∀ n < 16, t.tokens e c n = u.tokenAt e c w n + if cmdSignals w = true ∧ n = cmdSigTok w then 1 else 0)) ∧
      (g.phase = 0 → u.signalFits e c w → x.ended ≠ none → t.rd (seqPage e) Reg.ANV_CTX_STAT_state c = 0 ∧
        t.onJob e x = false ∧ t.prog e c = default ∧ Frame u t (ctxKeys e c) [ends] [.engines]) ∧
      (g.phase = 0 → u.signalFits e c w → x.ended = none → t.prog e c = { (default : Prog) with start := next } ∧
        (t.eng e).inflight = g.inflight) ∧
      (g.phase = 0 → u.signalFits e c w → x.ended = none → req = none ∨ req = some c.val →
        t.rd (seqPage e) Reg.ANV_CTX_STAT_state c = 1 ∧ (t.eng e).chain = some c.val ∧
        (t.eng e).preReq = g.preReq.filter (fun d => d ≠ c.val) ∧ Frame u t (ctxKeys e c) [ends] [.engines]) ∧
      (g.phase = 0 → u.signalFits e c w → x.ended = none → ∀ d < 8, req = some d → d ≠ c.val →
        (t.eng e).chain = none ∧ (t.eng e).preReq = none ∧
        (t.jobReady e x = true → t.rd (seqPage e) Reg.ANV_CTX_STAT_state c = 2 ∧ t.ctr cut = (u.ctr cut + 1) % 2 ^ 64 ∧
          t.ctr (P.schC c + 0x828) = (s.ctr (P.schC c + 0x828) + 1) % 2 ^ 64 ∧
          t.ctr (P.schC d + 0x830) = (s.ctr (P.schC d + 0x830) + 1) % 2 ^ 64 ∧
          Frame u t (ctxKeys e c) [ends, cut, P.schC c + 0x828, P.schC d + 0x830] [.engines]) ∧
        (t.jobReady e x = false → Frame u t (ctxKeys e c) [ends] [.engines])))

/-- LOAD (R131, R132, R136, R139, R140, R203 to R207): the shadow registers take K_t rows of P_t columns from the places
the address generator gives, the padding value where it gives none, and become active where no PASS is in flight; a
tile all padding is skipped with its PASS; fields out of range and elements outside the share are fault 0x11, a bank
that does not serve the engine 0x12. PASS (R131, R132, R141, R152, R155, R161, R165, R179, R180, R188 to R190, R207):
with the shadow registers filled in its width they become active, and each vector and column adds its sum into its own
word of the context's P0 share, begun anew where accumulation is off or the word is pending; the word saturates at 32
bits; slots and masked rows are counted; a pass that a skipped LOAD skips only marks its words pending; fields out of
range and places outside the share are faults; a feeder run dry is counted, and fault 0x17 unless that is masked. -/
def Obligations.LoadsFillAndPassesAddUp : Prop :=
  (∀ (s : State) (e : Fin 32) (c : Fin 8) (j : Fin 512) (w : Cmd) (x : Job), s.calm → s.issues e c j w x → cmdOp w = 1 →
  let u := s.staged e c j w x
  let kt := bits w.w2.toNat 0 6
  let pt := bits w.w2.toNat 6 7
  let wide := bit w.w2.toNat 13
  let d := readAg (u.descBytes e c w.w1.toNat)
  let fits := (u.eng e).skipNext = false ∧ 1 ≤ kt ∧ kt ≤ 32 ∧ 1 ≤ pt ∧ pt ≤ 64 ∧ d.ok pt wide = true
  let empty := ∀ y < pt, d.addr 0 y = none
  let apart := allDistinct (((List.range pt).filterMap (d.addr 0)).map (· % 64)) = true
  let inside := ∀ r < kt, ∀ y < pt, (match d.addr r y with
    | some a => u.inShare e c d.bank a 1 = true ∧ (wide = true → u.inShare e c d.bank (a + d.chPitch / 2) 1 = true)
    | none => True)
  ∃ t, exec (.load e c j w) s = .next t ∧
    (¬ fits → EngineFault u t e c 0x11 [] []) ∧
    (fits → u.ownServes e d.bank = false → EngineFault u t e c 0x12 [] [P.bank + 0x808] ∧
      t.ctr (P.bank + 0x808) = (u.ctr (P.bank + 0x808) + 1) % 2 ^ 64) ∧
    (fits → u.ownServes e d.bank = true → empty → u.signalFits e c w → AtOnce u t e c w ∧ (t.eng e).skipNext = true ∧
      (t.eng e).shadow = (u.eng e).shadow ∧ (t.eng e).active = (u.eng e).active ∧ Frame u t [] [] [.engines]) ∧
    (fits → u.ownServes e d.bank = true → ¬ empty → ¬ (apart ∧ inside) → EngineFault u t e c 0x11 [] []) ∧
    (fits → u.ownServes e d.bank = true → ¬ empty → apart → inside → InFlight u t e c w ∧
      let v := (t.eng e).shadow
      v.loaded = true ∧ v.rows = kt ∧ v.cols = pt ∧ v.wide = wide ∧ v.vals.length = kt * pt ∧
      (∀ r < kt, ∀ y < pt, v.vals[r * pt + y]? = some (u.stationary e d wide r y)) ∧
      (t.eng e).active = (if (u.eng e).inflight.any (fun f => cmdOp f.2 = 2) = true then (u.eng e).active else v) ∧
      Frame u t [] [] [.engines])) ∧
  (∀ (s : State) (e : Fin 32) (c : Fin 8) (j : Fin 512) (w : Cmd) (x : Job) (starved : Bool), s.calm →
  s.issues e c j w x (b2n starved) → cmdOp w = 2 →
  let u := s.staged e c j w x (b2n starved)
  let g := u.eng e
  let a := readPass w
  let base := u.shareAt e c 5 + 4 * a.p0
  let n := passBytes a.pair a.m
  let last := a.group = 0 ∨ g.phase = groupPasses a.group - 1
  let own := u.ownServes e 4 = true ∧ u.ownServes e 5 = true
  let pIn := u.inShare e c 5 base (256 * a.m) = true
  let wIn := u.inShare e c 4 a.w0 (n + (if a.group ≠ 0 ∧ last then 2 * a.m else 0)) = true
  let v := g.shadow
  let filled := v.loaded = true ∧ v.wide = decide (10 ≤ a.pair)
  let good := u.passBad e a = false ∧ own ∧ pIn
  let dry := P.anv e 0 + 0x818
  ∃ t, exec (.pass e c j w starved) s = .next t ∧
    (u.passBad e a = true → EngineFault u t e c 0x11 [] []) ∧
    (u.passBad e a = false → ¬ own → EngineFault u t e c 0x12 [] [P.bank + 0x808] ∧
      t.ctr (P.bank + 0x808) = (u.ctr (P.bank + 0x808) + 1) % 2 ^ 64) ∧
    (u.passBad e a = false → own → ¬ pIn → EngineFault u t e c 0x18 [] []) ∧
    (good → g.skipNext = true → u.signalFits e c w → AtOnce u t e c w ∧ (t.eng e).skipNext = false ∧
      (t.eng e).pendInit = (if a.acc = true ∨ ¬ last then g.pendInit else g.pendInit ++ [(base, 256 * a.m)]) ∧
      (t.eng e).phase = (if a.group = 0 then g.phase else if last then 0 else g.phase + 1) ∧ Frame u t [] [] [.engines]) ∧
    (good → g.skipNext = false → ¬ (filled ∧ wIn) → EngineFault u t e c 0x11 [] []) ∧
    (good → g.skipNext = false → filled → wIn → starved = true → t.ctr dry = (u.ctr dry + 1) % 2 ^ 64 ∧
      (u.masked (P.eng e) 0x17 = false → EngineFault u t e c 0x17 [] [dry]) ∧
      (u.masked (P.eng e) 0x17 = true → InFlight u t e c w)) ∧
    (good → g.skipNext = false → filled → wIn → starved = false → v.cols ≤ 64 →
      InFlight u t e c w ∧ (t.eng e).sample = some g.preReq ∧ (t.eng e).active = v ∧
      (t.eng e).phase = (if a.group = 0 then g.phase else if last then 0 else g.phase + 1) ∧
      t.ctr (P.anv e 0 + 0x800) = (u.ctr (P.anv e 0 + 0x800) + passSlots a.pair a.m) % 2 ^ 64 ∧
      t.ctr (P.anv e 0 + 0x808) = (u.ctr (P.anv e 0 + 0x808) + (passMin a.pair - passSlots a.pair a.m)) % 2 ^ 64 ∧
      t.ctr (P.anv e 0 + 0x810) = (u.ctr (P.anv e 0 + 0x810) + (32 - v.rows) * passSlots a.pair a.m) % 2 ^ 64 ∧
      (a.group = 0 → (pairAct a.pair).isFloat = false → ∀ m < a.m, ∀ y < v.cols,
        t.bankRead e 5 (base + 4 * (64 * m + y)) 4 = wrap 32 (sat32 (
          columnInt a.pair v (passWeight a.pair a.m (u.load (bankBase (ownBank e 4) + a.w0) n) m) y +
            (if a.acc = false ∨ g.pending (base + 4 * (64 * m + y)) 4 = true then 0
             else sext 32 (u.bankRead e 5 (base + 4 * (64 * m + y)) 4)))).1) ∧
      (last → (t.eng e).pending base (256 * a.m) = false) ∧ (¬ last → t.mem = u.mem ∧ (t.eng e).pendInit = g.pendInit) ∧
      (∀ p, ¬ (bankBase (ownBank e 5) + base ≤ p ∧ p < bankBase (ownBank e 5) + base + 256 * a.m) →
        Memory.read t.mem p = Memory.read u.mem p) ∧
      Frame u t [] [P.anv e 0 + 0x800, P.anv e 0 + 0x808, P.anv e 0 + 0x810] [.engines, .mem]))

/-- VEC, POOL and DMA (R145, R146, R158, R159, R183 to R187, R194, R200, R204, R207, R232, R246): a vector command that
meets no cause writes each element's result at its places and nothing else, and counts its elements; a DMA of one
clean row moves its bytes; bad descriptors, places and banks are faults with their causes; a poisoned row makes the
job a data error. -/
def Obligations.VectorAndDmaCommandsWriteTheirPlaces : Prop :=
  (∀ (s : State) (e : Fin 36) (c : Fin 8) (j : Fin 512) (w : Cmd) (x : Job), s.calm → s.issues e c j w x →
    let u := s.staged e c j w x
    ∀ q ∈ [(Instr.vec e c j w, 3, false), (.pool e c j w, 4, true)], cmdOp w = q.2.1 →
    let d := Config.vecDesc (u.descBytes e c w.w1.toNat)
    let xs := (List.range w.w2.toNat).map (vecElem d q.2.2)
    let cause := u.vecCause e c w.w3.toNat d xs q.2.2
    let n := (nfmt d.outFmt).bytes
    let places := fun o => elemBytes e d.outBank.val n d.outCh.toNat o
    ∃ t, exec q.1 s = .next t ∧
      (∀ f, cause = some f → EngineFault u t e c f [] (if f = 0x12 then [P.bank + 0x808] else []) ∧
        (f = 0x12 → t.ctr (P.bank + 0x808) = (u.ctr (P.bank + 0x808) + 1) % 2 ^ 64)) ∧
      (cause = none → InFlight u t e c w ∧
        (e.val < 32 → t.ctr (P.anv e 0 + 0x838) = (u.ctr (P.anv e 0 + 0x838) + w.w2.toNat) % 2 ^ 64) ∧
        (∀ y o, xs = [y] → y.dest = [o] → allDistinct (places o) = true →
          t.readElem e d.outBank.val n d.outCh.toNat o = (u.element e c w.w3.toNat d y q.2.2).1 % 2 ^ (8 * n)) ∧
        (∀ p, (∀ y ∈ xs, ∀ o ∈ y.dest, ∀ b ∈ places o, p ≠ bankBase (ownBank e d.outBank.val) + b) →
          Memory.read t.mem p = Memory.read u.mem p) ∧
        (d.count = none → t.job j = u.job j) ∧ (∀ i : Fin 512, i ≠ j → t.job i = u.job i) ∧
        Frame u t [] (if e.val < 32 then [P.anv e 0 + 0x838, P.anv e 0 + 0x840] else [P.tng (e - 32) 0 + 0x848])
          [.engines, .sched, .mem])) ∧
  (∀ (s : State) (e : Fin 36) (c : Fin 8) (j : Fin 512) (w : Cmd) (x : Job), s.calm → s.issues e c j w x → cmdOp w = 5 →
    let u := s.staged e c j w x
    let d := readDma (u.descBytes e c w.w1.toNat)
    let bad := 4 ≤ d.flags ∨ d.n0 = 0 ∨ d.n1 = 0 ∨ d.n2 = 0
    let inside := d.rows.all (fun p => u.dmaReach c p.1 d.n0 && u.dmaReach c p.2 d.n0)
    let lastBad := if e.val < 32 then [Reg.ANV_DMA_STAT_last_bad.key (P.anv e 2) 0] else []
    ∃ t, exec (.dma e c j w) s = .next t ∧
      (bad → EngineFault u t e c 0x11 [] []) ∧
      (¬ bad → inside = false → EngineFault u t e c 0x15 lastBad [] ∧
        (e.val < 32 → t.rd (P.anv e 2) Reg.ANV_DMA_STAT_last_bad = w.w1.toNat % 2 ^ 24)) ∧
      (¬ bad → inside = true → ∀ a b, d.rows = [(a, b)] →
        let r := u.dmaFetch c a d.n0
        let v := r.1.dmaPut (8 + c) b (r.1.load a d.n0)
        PageFrame u r.1 (P.bank / 4096 :: trafficPages) [.host, .mem, .msys, .draws] ∧
        (r.2 = true → t.ctr (P.flt + 0x800) = (u.ctr (P.flt + 0x800) + 1) % 2 ^ 64 ∧
          (t.job j).any (fun y => y.dataErr || y.ended.isSome) = true) ∧
        (r.2 = false → bit d.flags 0 = false → InFlight u t e c w ∧
          (∀ i ∈ List.range d.n0, r.1.takes b i → t.load (b + i) 1 = r.1.load (a + i) 1) ∧
          (∀ p, ¬ (b ≤ p ∧ p < b + d.n0) → Memory.read t.mem p = Memory.read r.1.mem p) ∧
          (e.val < 32 → t.ctr (P.anv e 2 + 0x800) = (u.ctr (P.anv e 2 + 0x800) + d.n0) % 2 ^ 64 ∧
            t.ctr (P.anv e 2 + 0x808) = (u.ctr (P.anv e 2 + 0x808) + d.n0) % 2 ^ 64) ∧
          PageFrame r.1 v ([P.bank, P.tmp].map (· / 4096) ++ trafficPages) [.host, .mem, .msys, .draws] ∧
          Frame v t [] (if e.val < 32 then [P.anv e 2 + 0x800, P.anv e 2 + 0x808] else []) [.engines])))

/-! ### Tongs commands -/

/-- CROP (R212, R218 to R220, R246, R251, R593): a job without an image to crop, an entry beyond its one box, sizes out of
range and samples outside the share are faults, as is an X0 of another owner; else the lines are read in order, and
every sample is written in the output format and counted, or, where a line is no longer held, fails its check or reads
uncorrectable, the job ends as no verdict. -/
def Obligations.CropWritesItsSamplesOrEndsTheJob : Prop :=
  ∀ (s : State) (k : Fin 4) (c : Fin 8) (j : Fin 512) (w : Cmd) (x : Job), s.calm → s.issues (32 + k) c j w x → cmdOp w = 0x20 →
  let e := 32 + k.val
  let u := s.staged e c j w x
  let d := Config.cropDesc (u.descBytes e c w.w2.toNat)
  let wo := d.wo.toNat
  let ho := d.ho.toNat
  let sized := w.w1 = 0 ∧ 1 ≤ wo ∧ wo ≤ 1024 ∧ 1 ≤ ho ∧ ho ≤ 1024
  let own := u.ownServes e 0 = true
  let good := fun (q : CropSrc) (t : State) =>
    let pts := (List.range ho).flatMap (fun y => (List.range wo).flatMap (fun x => (List.range q.chans).map (fun ch => (x, y, ch))))
    let inside := pts.all (fun p => u.inShare e c 0 (cropPlace d p.1 p.2.1 p.2.2) (if d.out16 then 2 else 1))
    let f := u.cropFetch c q (q.l1 + 1 - q.l0) q.l0
    let ring := [0, 1, 2, 3, 4, 5, 6, 7].map (fun n => P.replay + 0x808 + 0x10 * n)
    (¬ sized → EngineFault u t e c 0x11 [] []) ∧
    (sized → ¬ own → EngineFault u t e c 0x12 [] [P.bank + 0x808] ∧
      t.ctr (P.bank + 0x808) = (u.ctr (P.bank + 0x808) + 1) % 2 ^ 64) ∧
    (sized → own → inside = false → EngineFault u t e c 0x18 [] []) ∧
    (sized → own → inside = true → q.held = true → f.2 = none → InFlight u t e c w ∧
      t.ctr (P.tng k 0 + 0x818) = (u.ctr (P.tng k 0 + 0x818) + pts.length) % 2 ^ 64 ∧
      (∀ p, pts = [p] → t.load (bankBase (ownBank e 0) + cropPlace d p.1 p.2.1 p.2.2) (if d.out16 then 2 else 1) =
        cropOut d q.depth ((q.sample d none p.1 p.2.1 p.2.2).getD 0)) ∧
      PageFrame u f.1 trafficPages [.host, .mem, .msys, .draws] ∧ Frame f.1 t [] [P.tng k 0 + 0x818] [.engines, .mem]) ∧
    (sized → own → inside = true → q.held = false ∨ f.2 ≠ none →
      (x.ended = none → (t.job j).any (fun y => y.ended = some 1) = true) ∧
      t.ctr (P.tng k 0 + 0x820) = (u.ctr (P.tng k 0 + 0x820) + 1) % 2 ^ 64 ∧
      (∀ n ∈ ring, t.ctr n = (u.ctr n + if (q.held = false ∨ f.2.any Prod.snd = true) ∧
        x.box.map (fun b => P.replay + 0x808 + 0x10 * b.camera.val) = some n then 1 else 0) % 2 ^ 64) ∧
      PageFrame u t ([P.tng k 0, P.replay].map (· / 4096) ++ trafficPages ++ endPages) endParts)
  ∃ t, exec (.crop k c j w) s = .next t ∧
    (∀ bx, x.box = some bx → good (u.ringSrc d x bx) t) ∧
    (x.box = none → ∀ h, x.desc = some h → h.kind = 1 → good (u.imageSrc d h) t) ∧
    (x.box = none → (∀ h, x.desc = some h → h.kind ≠ 1) → EngineFault u t e c 0x11 [] [])

/-- EXPAND, TPASS and SOFTMAX, and how every row of a Tongs engine's own command goes into its unit queue (R211 to R213,
R215, R221, R232): EXPAND writes each pixel's vector into the ring and counts it, TPASS adds the sums of its vectors
into their words, SOFTMAX writes every class's share; descriptors out of range are fault 0x11, an X0 of another owner
0x12, places outside the share 0x18. -/
def Obligations.TongsArrayCommandsWriteTheirResults : Prop :=
  (∀ (s : State) (k : Fin 4) (c : Fin 8) (j : Fin 512) (w : Cmd), s.calm →
    (∀ q ∈ [(0x20, Instr.crop k c j w), (0x21, .expand k c j w), (0x22, .tpass k c j w), (0x23, .softmax k c j w)],
      cmdOp w = q.1 → RowQueues s q.2 (32 + k) c j w 0) ∧
    (cmdOp w = 0x24 → w.w2 ≠ 1 → RowQueues s (.verdictFinal k c j w) (32 + k) c j w 0)) ∧
  (∀ (s : State) (k : Fin 4) (c : Fin 8) (j : Fin 512) (w : Cmd) (x : Job), s.calm → s.issues (32 + k) c j w x →
    cmdOp w = 0x21 →
    let e := 32 + k.val
    let u := s.staged e c j w x
    let d := readExp (u.descBytes e c w.w1.toNat)
    let ps := (List.range w.w3.toNat).map (· + w.w2.toNat)
    let inside := ps.all (fun p => u.inShare e c 0 (d.dest p) (d.kPad * d.bytes) && (List.range d.k).all (fun i =>
      (d.addr p i).all (fun a => u.inShare e c 0 a d.bytes)))
    let own := u.ownServes e 0 = true
    ∃ t, exec (.expand k c j w) s = .next t ∧
      (d.ok = false → EngineFault u t e c 0x11 [] []) ∧
      (d.ok = true → ¬ own → EngineFault u t e c 0x12 [] [P.bank + 0x808]) ∧
      (d.ok = true → own → inside = false → EngineFault u t e c 0x18 [] []) ∧
      (d.ok = true → own → inside = true → InFlight u t e c w ∧
        (t.eng e).ring = [d.ringBase, d.ringLen, d.kPad * d.bytes, w.w2.toNat, w.w3.toNat] ∧
        t.ctr (P.tng k 0 + 0x810) = (u.ctr (P.tng k 0 + 0x810) + w.w3.toNat) % 2 ^ 64 ∧
        (w.w3 = 1 → t.load (bankBase (ownBank e 0) + d.dest w.w2.toNat) (d.kPad * d.bytes) = u.expVector e d w.w2.toNat) ∧
        Frame u t [] [P.tng k 0 + 0x810] [.engines, .mem])) ∧
  (∀ (s : State) (k : Fin 4) (c : Fin 8) (j : Fin 512) (w : Cmd) (x : Job), s.calm → s.issues (32 + k) c j w x →
    cmdOp w = 0x22 →
    let e := 32 + k.val
    let u := s.staged e c j w x
    let n := bits w.w2.toNat 0 11
    let pf := bits w.w2.toNat 17 3
    let b := if 2 ≤ pf then 2 else 1
    let fits := 1 ≤ n ∧ n ≤ 1024 ∧ pf ≤ 3
    let own := u.ownServes e 0 = true
    let at_ := Config.tpassAt ((u.eng e).ring ++ [w.w1.toNat, w.w2.toNat, w.w3.toNat])
    let inside := u.inShare e c 0 w.w1.toNat (1024 * b) && u.inShare e c 0 w.w3.toNat (128 * n) &&
      (List.range n).all (fun i => u.inShare e c 0 (at_ i) (32 * b))
    let ws := u.load (bankBase (ownBank e 0) + w.w1.toNat) (1024 * b)
    let wt := fun y r => ((unle ((ws.drop (b * (Config.tpassIndex r y % 1024))).take b) : Nat) : Int)
    let v : Tile := { loaded := true, rows := 32, cols := 1, wide := decide (b = 2), vals := (List.range 32).map (fun r => u.bankRead e 0 (at_ 0 + b * r) b) }
    ∃ t, exec (.tpass k c j w) s = .next t ∧
      (¬ fits → EngineFault u t e c 0x11 [] []) ∧
      (fits → ¬ own → EngineFault u t e c 0x12 [] [P.bank + 0x808]) ∧
      (fits → own → inside = false → EngineFault u t e c 0x18 [] []) ∧
      (fits → own → inside = true → InFlight u t e c w ∧ (t.eng e).sample = some (u.eng e).preReq ∧
        (t.eng e).active = (t.eng e).shadow ∧ (t.eng e).active.vals.length = 1024 ∧
        (∀ r < 32, ∀ y < 32, (t.eng e).active.vals[32 * r + y]? = some (wt y r).toNat) ∧
        t.ctr (P.tng k 0 + 0x800) = (u.ctr (P.tng k 0 + 0x800) + n) % 2 ^ 64 ∧
        (n = 1 → pf < 2 → ∀ y < 32, t.bankRead e 0 (w.w3.toNat + 4 * y) 4 = wrap 32 (sat32 (columnInt pf v (wt y) 0 +
          (if bit w.w2.toNat 16 = true then sext 32 (u.bankRead e 0 (w.w3.toNat + 4 * y) 4) else 0))).1) ∧
        (∀ p, ¬ (bankBase (ownBank e 0) + w.w3.toNat ≤ p ∧ p < bankBase (ownBank e 0) + w.w3.toNat + 128 * n) →
          Memory.read t.mem p = Memory.read u.mem p) ∧
        Frame u t [] [P.tng k 0 + 0x800] [.engines, .mem])) ∧
  (∀ (s : State) (k : Fin 4) (c : Fin 8) (j : Fin 512) (w : Cmd) (x : Job), s.calm → s.issues (32 + k) c j w x →
    cmdOp w = 0x23 →
    let e := 32 + k.val
    let u := s.staged e c j w x
    let d := Config.headDesc (u.descBytes e c w.w1.toNat)
    let ps := match u.headExp e d with
      | none => List.replicate d.classes.toNat fFP32.nan
      | some r => r.1.map (fun y => (fdiv y (sumFloat r.1)).1)
    ∃ t, exec (.softmax k c j w) s = .next t ∧
      (∀ f, u.headCause e c d true = some f → EngineFault u t e c f [] (if f = 0x12 then [P.bank + 0x808] else [])) ∧
      (u.headCause e c d true = none → InFlight u t e c w ∧
        t.load (bankBase (ownBank e 0) + d.probsAt.toNat) (4 * d.classes.toNat) = ps.flatMap (le 4) ∧
        (∀ p, ¬ (bankBase (ownBank e 0) + d.probsAt.toNat ≤ p ∧
          p < bankBase (ownBank e 0) + d.probsAt.toNat + 4 * d.classes.toNat) → Memory.read t.mem p = Memory.read u.mem p) ∧
        Frame u t [] [] [.engines, .mem]))

/-- VERDICT_FINAL, VERDICT_EARLY_EXIT and BOXES (R216, R217, R221, R222, R298 to R300, R315): a final verdict of a class
hands it over and ends the job with status 0, one without ends it with status 1; an early exit of a probe in flight is
counted and ends the probe, one of no probe does nothing; BOXES without a block to take does nothing, and a single
foreground cell opens one box with the next object number. -/
def Obligations.VerdictsAndBoxesReachTheScheduler : Prop :=
  (∀ (s : State) (k : Fin 4) (c : Fin 8) (j : Fin 512) (w : Cmd) (x : Job), s.calm → s.issues (32 + k) c j w x →
    cmdOp w = 0x24 → w.w2 ≠ 1 →
    let e := 32 + k.val
    let u := s.staged e c j w x
    let d := Config.headDesc (u.descBytes e c w.w1.toNat)
    let v := headVerdict d (u.headExp e d)
    let sealed := { v with digest := u.resultDigest e d x v }
    let good := w.w2 = 0 ∧ u.headCause e c d false = none
    let ctr := P.tng k 0 + 0x838
    ∃ t, exec (.verdictFinal k c j w) s = .next t ∧
      (w.w2 ≠ 0 → EngineFault u t e c 0x11 [] []) ∧
      (∀ f, w.w2 = 0 → u.headCause e c d false = some f →
        EngineFault u t e c f [] (if f = 0x12 then [P.bank + 0x808] else [])) ∧
      (good → InFlight u t e c w ∧ t.ctr ctr = (u.ctr ctr + 1) % 2 ^ 64 ∧
        PageFrame u t (P.tng k 0 / 4096 :: endPages) endParts) ∧
      (good → x.ended ≠ none → Frame u t [] [ctr] [.engines]) ∧
      (good → x.ended = none → v.noVerdict = true →
        (t.job j).any (fun y => y.ended = some 1) = true ∧ t.rtu.crossing = u.rtu.crossing) ∧
      (good → x.ended = none → v.noVerdict = false →
        (t.job j).any (fun y => y.ended = some 0 && y.verdict = some sealed) = true ∧
        (x.kind = .box → t.rtu.crossing = u.rtu.crossing ++
          [{ slot := j, tag := x.tag, ctx := c, verdict := sealed, flags := jobFlags x }]) ∧
        (x.kind ≠ .box → t.rtu.crossing = u.rtu.crossing))) ∧
  (∀ (s : State) (k : Fin 4) (c : Fin 8) (obj : BitVec 32) (cam : Fin 8) (w : Cmd), s.calm → cmdOp w = 0x24 → w.w2 = 1 →
    let e := 32 + k.val
    let probe := s.mayProbe e c w = true ∧ (s.ctx c).probes.contains (obj.toNat, cam.val) = true
    let u := (s.probeToken e c w).probeFetch e c w
    let d := Config.headDesc (u.probeBytes e c w)
    let v := headVerdict d (u.headExp e d)
    let good := probe ∧ u.engWorks e = true ∧ u.headCause e c d false = none
    let es := u.objEntries c cam obj.toNat
    let landed := u.rtu.entries.any (fun p => p.2.ctx = c && p.2.camera = cam && p.2.object = obj.toNat && (p.2.decision.isSome || p.2.nv))
    ∃ t, exec (.verdictEarlyExit k c obj cam w) s = .next t ∧
      (¬ probe → Frame s t [] [] []) ∧
      (probe → u.engWorks e = false → Frame u t [] [] []) ∧
      (probe → u.engWorks e = true → ∀ f, u.headCause e c d false = some f →
        EngineFault u t e c f [] (if f = 0x12 then [P.bank + 0x808] else [])) ∧
      (good → (t.eng e).inflight = (u.eng e).inflight ++ [(c.val, w)] ∧
        (t.ctx c).probes = (s.ctx c).probes.filter (fun p => p ≠ (obj.toNat, cam.val)) ∧
        t.ctr (P.tng k 0 + 0x840) = (u.ctr (P.tng k 0 + 0x840) + 1) % 2 ^ 64 ∧
        t.ctr (P.schC c + 0x870) = (u.ctr (P.schC c + 0x870) + 1) % 2 ^ 64 ∧
        Frame u t [] [P.tng k 0 + 0x840, P.schC c + 0x870, P.schC c + 0x878, P.schC c + 0x890] [.engines, .ctxs, .sched, .rtu]) ∧
      (good → v.noVerdict = true ∨ landed = true →
        t.ctr (P.schC c + 0x890) = (u.ctr (P.schC c + 0x890) + 1) % 2 ^ 64 ∧ t.sched = u.sched ∧ t.rtu = u.rtu) ∧
      (good → v.noVerdict = false → landed = false → es ≠ [] →
        t.ctr (P.schC c + 0x878) = (u.ctr (P.schC c + 0x878) + 1) % 2 ^ 64 ∧ t.sched = u.sched ∧
        ∀ n ∈ es, (SMap.find? t.rtu.entries n).any (fun y => y.tentValid && y.tentDec == v.reject && y.staged == v.reject) = true)) ∧
  (∀ (s : State) (k : Fin 4) (c : Fin 8) (w : Cmd), s.calm → cmdOp w = 0x25 →
    let e := 32 + k.val
    let a := s.probeFetch e c w
    let d := Config.boxDesc (a.probeBytes e c w)
    let cam := d.camera.val
    let u := a.probeToken e c w
    let gy := d.gy.toNat
    let gx := d.gx.toNat
    let sized := 1 ≤ gy ∧ gy ≤ 64 ∧ 1 ≤ gx ∧ gx ≤ 64 ∧
      (List.range 4).find? (fun n => bit (u.rd (P.tng n 0) Reg.TNG_CFG_cams) cam) = some k.val
    let own := u.ownServes e 0 = true
    let cell := u.bankRead e 0 d.mapAt.toNat 1
    ∃ t, exec (.boxes k c w) s = .next t ∧
      (s.mayProbe e c w = false ∨ (s.pipe cam).done = [] → Frame s t [] [] []) ∧
      ∀ b, (s.pipe cam).done = [b] → b.mark = false → b.took = [] → a.detects c cam b.first = true → s.mayProbe e c w = true →
        let inside := u.inShare e c 0 d.mapAt.toNat ((b.lines + gy - 1) / gy * ((u.camWidth cam + gx - 1) / gx)) = true
        (u.engWorks e = false → Frame u t [] [] []) ∧
        (u.engWorks e = true → ¬ sized → EngineFault u t e c 0x11 [] []) ∧
        (u.engWorks e = true → sized → ¬ own → EngineFault u t e c 0x12 [] [P.bank + 0x808]) ∧
        (u.engWorks e = true → sized → own → ¬ inside → EngineFault u t e c 0x18 [] []) ∧
        (u.engWorks e = true → sized → own → inside → (t.eng e).inflight = (u.eng e).inflight ++ [(c.val, w)]) ∧
        (u.engWorks e = true → sized → own → inside → 1 ≤ b.lines → b.lines ≤ gy → 1 ≤ u.camWidth cam → u.camWidth cam ≤ gx →
          (s.det cam).openBoxes = [] → (s.det cam).lastRow = [] →
          (t.det cam).openBoxes = (if d.threshold.toNat ≤ cell then [(c.val, { mkBox cam b.first (b.first + b.lines - 1) 0
            (u.camWidth cam - 1) 0 false with object := BitVec.ofNat 32 (s.det cam).nextObj })] else []) ∧
          (t.det cam).nextObj = (if d.threshold.toNat ≤ cell then ((s.det cam).nextObj + 1) % 2 ^ 32 else (s.det cam).nextObj) ∧
          (t.det cam).issued = (s.det cam).issued))

/-! ### Banks and budgets -/

/-- BANK_HANDOVER, BANK_POWER, BANK_HANDOVER_DONE and BANK_CLEAR_DONE (R75, R76, R229, R231 to R234, R238, R261, R262):
one write of BANK_CTLb asks for a handover where the owner or unit differs and for a power state where that differs; a
refusal leaves its code and is counted; off and a return from off clear the bank; the new owner takes it at the
handover's end. -/
def Obligations.BankWritesHandOverAndSwitch : Prop :=
  (∀ (s : State) (b : Fin 202) (v : Word), s.atRest → s.reaches (P.bank + 0x40 + 4 * b) →
    let o := bits v.toNat 0 3
    let u := bits v.toNat 4 2
    let p := bits v.toNat 12 2
    let was := s.rd P.bank Reg.BANK_CTL_pwr b
    let asks := ¬ (o = s.bankOwner b ∧ u = s.rd P.bank Reg.BANK_CTL_unit b)
    let pend := s.rdb P.bank Reg.BANK_CTL_pend b = true
    let why := if ownerPermitted b o = false then 1 else if s.shareHeld b = true ∧ o ≠ serviceOwner b then 2
      else if was ≠ 2 then 3 else 0
    let powers := p ≠ was ∧ powerValue b p = true
    let held := p ≠ 2 ∧ s.shareHeld b = true
    let inBank := fun a => bankBase b ≤ a ∧ a < bankBase b + bankSize b
    ∃ t, exec (.bankHandover b v) s = .next t ∧ exec (.bankPower b v) s = .next t ∧
      t.bankOwner b = s.bankOwner b ∧ t.rd P.bank Reg.BANK_CTL_unit b = s.rd P.bank Reg.BANK_CTL_unit b ∧
      (asks → ¬ pend → why = 0 → t.rd P.bank Reg.BANK_CTL_pend b = 1 ∧
        t.msys = { s.msys with handovers := SMap.set s.msys.handovers b (o + 8 * u) 0 }) ∧
      (¬ asks ∨ pend ∨ why ≠ 0 → t.rd P.bank Reg.BANK_CTL_pend b = s.rd P.bank Reg.BANK_CTL_pend b ∧ t.msys = s.msys) ∧
      t.rd P.bank Reg.BANK_CTL_refused b = (if powers then (if held then 2 else 0)
        else if asks ∧ ¬ pend then why else s.rd P.bank Reg.BANK_CTL_refused b) ∧
      t.ctr (P.bank + 0x810) = (s.ctr (P.bank + 0x810) + (if pend ∨ (asks ∧ why ≠ 0) then 1 else 0)
        + (if powers ∧ held then 1 else 0)) % 2 ^ 64 ∧
      (powers → ¬ held → t.rd P.bank Reg.BANK_CTL_pwr b = p) ∧
      (¬ powers ∨ held → t.rd P.bank Reg.BANK_CTL_pwr b = was) ∧
      (powers ∧ ¬ held ∧ (p = 0 ∨ was = 0) → t.rd P.bank Reg.BANK_CTL_clearing b = (if p = 2 then 1 else 0) ∧
        (∀ a, inBank a → Memory.read t.mem a = 0) ∧ ∀ a, ¬ inBank a → Memory.read t.mem a = Memory.read s.mem a) ∧
      (¬ (powers ∧ ¬ held ∧ (p = 0 ∨ was = 0)) → t.mem = s.mem ∧
        t.rd P.bank Reg.BANK_CTL_clearing b = s.rd P.bank Reg.BANK_CTL_clearing b) ∧
      Frame s t [Reg.BANK_CTL_pend.key P.bank b, Reg.BANK_CTL_refused.key P.bank b, Reg.BANK_CTL_pwr.key P.bank b,
        Reg.BANK_CTL_clearing.key P.bank b] (if pend ∨ (asks ∧ why ≠ 0) ∨ (powers ∧ held) then [P.bank + 0x810] else [])
        [.mem, .msys]) ∧
  (∀ (s : State) (b : Fin 202), s.atRest → ∃ t, exec (.bankHandoverDone b) s = .next t ∧
    (s.rdb P.bank Reg.BANK_CTL_pend b = true →
      t.bankOwner b = SMap.get s.msys.handovers b 0 % 8 ∧ t.rd P.bank Reg.BANK_CTL_pend b = 0 ∧
      t.rd P.bank Reg.BANK_CTL_unit b = SMap.get s.msys.handovers b 0 / 8 % 4 ∧ SMap.get t.msys.handovers b 0 = 0 ∧
      { t.msys with handovers := s.msys.handovers } = s.msys ∧
      Frame s t [Reg.BANK_CTL_owner.key P.bank b, Reg.BANK_CTL_unit.key P.bank b, Reg.BANK_CTL_pend.key P.bank b] [] [.msys]) ∧
    (s.rdb P.bank Reg.BANK_CTL_pend b = false → Frame s t [] [] [])) ∧
  (∀ (s : State) (b : Fin 202), s.atRest → ∃ t, exec (.bankClearDone b) s = .next t ∧
    t.rd P.bank Reg.BANK_CTL_clearing b = 0 ∧ Frame s t [Reg.BANK_CTL_clearing.key P.bank b] [] [])

/-- BELLOWS_ADMISSION, PERIOD_CHANGE, BELLOWS_PERIOD_BOUNDARY and BELLOWS_GRANT (R253, R255 to R258, R267, R268, R270): an
admitted write waits for the boundary, a refused one leaves its code, entry and stack; at the boundary every counter
holds its budget; a request is granted by its tier and spends its counter, one that may not borrow waits and is
counted; a request of the model's own traffic that was held is charged to the period that grants it (log entry 151).
The type of the overrun record is a free value (the spec gives none). -/
def Obligations.BudgetsAreAdmittedReloadedAndSpent : Prop :=
  (∀ (s : State) (i : Fin 16) (r : Fin 4) (v : Word), s.atRest → s.reaches (clsAddr i r) →
    let w := clsFix i r v.toNat
    let p := (s.holdReg (clsAddr i r) w).nextPlan
    let prots := (List.range 16).filter p.prot
    let short := fun k => p.budget i k < p.decl i k
    let above := fun k => 3125 * p.period < (prots.map (fun j => p.budget j k)).sum
    let fixed := i.val = 2 ∧ 2 ≤ r.val
    let bad := p.prot i = true ∧ (short 0 ∨ short 1 ∨ above 0 ∨ above 1)
    ∃ t, exec (.bellowsAdmission i r v) s = .next t ∧
      (¬ fixed → ¬ bad → { t.msys with pendingRegs := s.msys.pendingRegs } = s.msys ∧
        t.nextWord (clsAddr i r) = w ∧ (∀ a, a ≠ clsAddr i r → t.msys.pendingRegs.find? (fun x => x.1 = a) =
          s.msys.pendingRegs.find? (fun x => x.1 = a)) ∧ Frame s t [] [] [.msys]) ∧
      (¬ fixed → bad → t.rd P.blw Reg.BLW_ADMIT_code = (if short 0 ∨ short 1 then 1 else 2) ∧
        t.rd P.blw Reg.BLW_ADMIT_entry = i ∧
        t.rd P.blw Reg.BLW_ADMIT_stack = (if short 0 then 0 else if short 1 then 1 else if above 0 then 0 else 1) ∧
        Frame s t [Reg.BLW_ADMIT_code.key P.blw 0, Reg.BLW_ADMIT_entry.key P.blw 0, Reg.BLW_ADMIT_stack.key P.blw 0] []
          []) ∧
      (fixed → Frame s t [] [] [])) ∧
  (∀ (s : State) (v : Word), s.atRest → s.reaches (P.blw + 0x40) →
    let n := v.toNat % 1024
    let q := (((s.holdReg (P.blw + 0x40) n).holdReg (clsAddr 2 2) ((64 * n + 99) / 100)).holdReg (clsAddr 2 3)
      ((64 * n + 99) / 100)).nextPlan
    let prots := (List.range 16).filter q.prot
    let short := ∃ i ∈ prots, q.budget i 0 < q.decl i 0 ∨ q.budget i 1 < q.decl i 1
    let above := fun k => 3125 * n < (prots.map (fun j => q.budget j k)).sum
    ∃ t, exec (.periodChange v) s = .next t ∧
      (n < 10 ∨ 1000 < n → t.rd P.blw Reg.BLW_ADMIT_code = 4 ∧ counted 0x404 .ignoredWrite s t ∧ t.msys = s.msys) ∧
      (10 ≤ n → n ≤ 1000 → short ∨ above 0 ∨ above 1 → t.rd P.blw Reg.BLW_ADMIT_code = 3 ∧ t.msys = s.msys ∧
        t.openCtrs = s.openCtrs) ∧
      (10 ≤ n → n ≤ 1000 → ¬ (short ∨ above 0 ∨ above 1) → t.nextWord (P.blw + 0x40) = n ∧
        t.nextWord (clsAddr 2 2) = (64 * n + 99) / 100 ∧ t.nextWord (clsAddr 2 3) = (64 * n + 99) / 100 ∧
        Frame s t [] [] [.msys]) ∧
      Frame s t [Reg.BLW_ADMIT_code.key P.blw 0, Reg.BLW_ADMIT_entry.key P.blw 0, Reg.BLW_ADMIT_stack.key P.blw 0] []
        [.msys, .openCtrs]) ∧
  (∀ s : State, s.atRest → ∃ t, exec .bellowsPeriodBoundary s = .next t ∧
    (s.seq.power = .banked → Frame s t [] [] []) ∧
    (s.seq.power ≠ .banked → t.msys.pendingRegs = [] ∧ t.msys.overrun = [] ∧
      (s.msys.owed = [] → ∀ i < 16, ∀ k < 2, SMap.get t.msys.left (2 * i + k) 0 = t.blwBudget i k) ∧
      (s.msys.pendingRegs = [] → ∀ i < 16, ∀ k < 2, ∀ x ∈ s.msys.owed, s.msys.owed = [(i, k, x.2.2)] →
        (0 < s.blwBudget i k → t.blwLeft i k = s.blwBudget i k - x.2.2 ∧ t.msys.owed = [] ∧
          Frame s t [] [P.blw + 0x800 + 0x30 * i + 8 * k] [.msys]) ∧
        (s.blwBudget i k = 0 → s.blwProt i = false → s.blwBorrow i = false → t.msys.owed = s.msys.owed ∧
          t.ctr (P.blw + 0x820 + 0x30 * i + 8 * k) = (s.ctr (P.blw + 0x820 + 0x30 * i + 8 * k) + 1) % 2 ^ 64)) ∧
      (s.msys.owed = [] → (∀ x ∈ s.msys.pendingRegs, x.1 = P.blw + 0x40 ∨ ∃ i < 16, ∃ r < 4, x.1 = clsAddr i r) →
        (s.msys.pendingRegs.map Prod.fst).Nodup →
        (∀ i < 16, ∀ k < 2, t.blwBudget i k = s.nextWord (clsAddr i k) % 2 ^ 24) ∧
        t.rd P.blw Reg.BLW_CFG_period = s.nextWord (P.blw + 0x40) % 1024 ∧ PageFrame s t [0x404] [.msys]) ∧
      (s.msys.owed = [] → s.msys.pendingRegs = [] → Frame s t [] [] [.msys]))) ∧
  (∀ (s : State) (k : Fin 2) (n : BitVec 32), s.calm →
    let tier := fun i => if s.blwProt i = true ∧ 0 < s.blwLeft i k then 1 else if s.blwProt i = true ∨ 0 < s.blwLeft i k then 2
      else if s.blwBorrow i = true then 3 else 4
    (∀ (i : Fin 16) (u : BitVec 24), ∃ t, exec (.bellowsGrant k [(i, u)] n) s = .next t ∧
      t.msys.rot = (s.msys.rot + n.toNat) % 16 ∧
      (tier i = 4 → t.msys.lastGrant = [] ∧ t.msys.left = s.msys.left ∧
        t.ctr (P.blw + 0x820 + 0x30 * i + 8 * k) = (s.ctr (P.blw + 0x820 + 0x30 * i + 8 * k) + 1) % 2 ^ 64 ∧
        Frame s t [] [P.blw + 0x820 + 0x30 * i + 8 * k] [.msys]) ∧
      (tier i ≠ 4 → t.msys.lastGrant = [i.val] ∧ t.blwLeft i k = s.blwLeft i k - u.toNat ∧
        t.ctr (P.blw + 0x800 + 0x30 * i + 8 * k) = (s.ctr (P.blw + 0x800 + 0x30 * i + 8 * k) + u.toNat) % 2 ^ 64) ∧
      (tier i ≠ 4 → ¬ (s.blwProt i = true ∧ s.blwLeft i k = 0) →
        Frame s t [] [P.blw + 0x800 + 0x30 * i + 8 * k] [.msys]) ∧
      (s.blwProt i = true → s.blwLeft i k = 0 →
        t.ctr (P.blw + 0x810 + 0x30 * i + 8 * k) = (s.ctr (P.blw + 0x810 + 0x30 * i + 8 * k) + u.toNat) % 2 ^ 64 ∧
        i.val ∈ t.msys.overrun ∧ (i.val ∈ s.msys.overrun → t.host = s.host) ∧
        (i.val ∉ s.msys.overrun → recorded s t 0x404 (BitVec.ofNat 8 s.freeVal) [BitVec.ofNat 8 i, BitVec.ofNat 8 k]) ∧
        Frame s t [] [P.blw + 0x800 + 0x30 * i + 8 * k, P.blw + 0x810 + 0x30 * i + 8 * k] [.msys, .host, .draws])) ∧
    (∀ (i j : Fin 16) (u w : BitVec 24), i ≠ j → tier i = 3 → tier j ≤ 2 →
      ∃ t, exec (.bellowsGrant k [(i, u), (j, w)] n) s = .next t ∧ t.msys.lastGrant = [j.val] ∧
        t.blwLeft i k = s.blwLeft i k ∧
        t.ctr (P.blw + 0x820 + 0x30 * i + 8 * k) = s.ctr (P.blw + 0x820 + 0x30 * i + 8 * k)))

/-! ### DRAM -/

/-- DRAM_READ (R243 to R246, R264 to R266): a read is counted, a correction per pseudo-channel; an uncorrectable word of a
resident billet is replaced from the other stack's copy; any other is poisoned, its address held, cause 0x10 recorded
without the fault state, and its requester gets it: a crop's job ends as no verdict, a DMA's job restarts once and
ends the second time, a program fetch is fault 0x16 of the engine. DRAM_REFRESH, PATROL_SCRUB and
STACK_TEMPERATURE_CHANGE (R241, R243, R244, R247, R265, R266): a refresh is counted; the scrub visits the next word of
its stack, ascending and wrapping, corrects, and logs an uncorrectable one with cause 0x11; above 85 °C refresh
doubles, above 105 °C the stack is in fault 0x14. -/
def Obligations.DramReadsRefreshesAndScrubs : Prop :=
  (∀ (s : State) (addr : DevAddr) (who : DramRequester) (up : Upset), s.calm →
  let a := addr.toNat
  let k := stackOf a
  let p := P.drc k
  let e := s.requesterEntry who
  let u := s.moved e a 8 0x920
  let plain := who ∈ [DramRequester.billet, .hearth, .bar2, .archive]
  let bad := a / 8 ∈ s.msys.poison ∨ up = .uncorrectable
  let twin := (s.billetTwin a).filter (fun w => decide (w / 8 ≠ a / 8) && !s.msys.poison.contains (w / 8) && !s.stackDead w)
  let held := fun t : State => t.rd p Reg.DRC_ERR_ADDR_held = 1 ∧ (s.rd p Reg.DRC_ERR_ADDR_held ≠ 1 →
    t.rd2 p Reg.DRC_ERR_ADDR_lo Reg.DRC_ERR_ADDR_hi = a / 64 * 64)
  let errs := [Reg.DRC_ERR_ADDR_lo.key p 0, Reg.DRC_ERR_ADDR_hi.key p 0, Reg.DRC_ERR_ADDR_held.key p 0, Reg.BLK_ERR_cause.key p 0,
    Reg.BLK_ERR_more.key p 0, Reg.BLK_ERR_count.key p 0]
  let logged := fun t : State => held t ∧ t.ctr (p + 0x900) = (s.ctr (p + 0x900) + 1) % 2 ^ 64 ∧
    (s.masked p 0x10 = false → s.rd p Reg.BLK_ERR_cause = 0 → t.rd p Reg.BLK_ERR_cause = 0x10)
  let gone := fun t : State => a / 8 ∈ t.msys.poison ∧ logged t
  (inDram a = false ∨ s.dramAlive = false → ∃ t, exec (.dramRead addr who up) s = .next t ∧ Frame s t [] [] []) ∧
  (inDram a = true → a % 8 = 0 → u.ctr (p + 0x920) = (s.ctr (p + 0x920) + 1) % 2 ^ 64 ∧
    (0 < s.blwLeft e k → u.blwLeft e k = s.blwLeft e k - 1 ∧
      u.ctr (P.blw + 0x800 + 0x30 * e + 8 * k) = (s.ctr (P.blw + 0x800 + 0x30 * e + 8 * k) + 1) % 2 ^ 64 ∧
      Frame s u [] [p + 0x920, P.blw + 0x800 + 0x30 * e + 8 * k] [.msys]) ∧
    (s.blwTier e k = 4 → u.msys = { s.msys with owed := s.msys.owed ++ [(e, k, 1)] } ∧
      u.ctr (P.blw + 0x820 + 0x30 * e + 8 * k) = (s.ctr (P.blw + 0x820 + 0x30 * e + 8 * k) + 1) % 2 ^ 64 ∧
      Frame s u [] [p + 0x920, P.blw + 0x820 + 0x30 * e + 8 * k] [.msys])) ∧
  (inDram a = true → s.dramAlive = true → s.inFault p = true → plain →
    exec (.dramRead addr who up) s = .next (settle u)) ∧
  (inDram a = true → s.dramAlive = true → s.inFault p = false →
    (¬ bad → ∃ t, exec (.dramRead addr who up) s = .next t ∧
      (up = .clean → Frame u t [] [] []) ∧
      (up = .correctable →
        let pc := p + 0x800 + 8 * (bits a 8 5 ^^^ bits a 13 5 ^^^ bits a 18 5)
        t.ctr pc = (u.ctr pc + 1) % 2 ^ 64 ∧ Frame u t [] [pc] [])) ∧
    (bad → ∀ w, twin = some w → ∃ t, exec (.dramRead addr who up) s = .next t ∧ held t ∧
      (∀ i < 8, Memory.read t.mem (a / 8 * 8 + i) = Memory.read s.mem (w + i)) ∧
      (∀ x, x < a / 8 * 8 ∨ a / 8 * 8 + 8 ≤ x → Memory.read t.mem x = Memory.read s.mem x) ∧
      a / 8 ∉ t.msys.poison ∧ t.ctr (p + 0x908) = (s.ctr (p + 0x908) + 1) % 2 ^ 64 ∧
      (s.masked p 0x15 = false → s.rd p Reg.BLK_ERR_cause = 0 → t.rd p Reg.BLK_ERR_cause = 0x15) ∧
      (s.masked p 0x15 = false → s.rdb p Reg.BLK_CTRL_evt_en = true → t.host.produced.length = u.host.produced.length + 1) ∧
      Frame u t errs [p + 0x900, p + 0x908, P.flt + 0x808] [.mem, .msys, .host, .openCtrs]) ∧
    (bad → twin = none → plain → ∃ t, exec (.dramRead addr who up) s = .next t ∧ gone t ∧
      Frame u t errs [p + 0x900, P.flt + 0x808] [.msys, .host, .openCtrs]) ∧
    (bad → twin = none → ∀ (j : Fin 512) (x : Job), who = .crop j → s.job j = some x → x.ended = none →
      ∃ t, exec (.dramRead addr who up) s = .next t ∧ logged t ∧ (u.ctxFlows x.ctx = [] → gone t) ∧ t.job j = some { x with ended := some 1 } ∧
      t.ctr (P.tng x.tongs 0 + 0x820) = (s.ctr (P.tng x.tongs 0 + 0x820) + 1) % 2 ^ 64 ∧
      PageFrame u t (endPages ++ [p / 4096, P.flt / 4096, P.tng x.tongs 0 / 4096]) (.openCtrs :: endParts)) ∧
    (bad → twin = none → ∀ (j : Fin 512) (x : Job), who = .engineDma j → s.job j = some x → x.ended = none →
      j.val ∈ s.sched.order → x.restarts < 2 →
      ∃ t, exec (.dramRead addr who up) s = .next t ∧ logged t ∧ (u.ctxFlows x.ctx = [] → gone t) ∧
      (x.dataErr = true → t.job j = some { x with ended := some 1 }) ∧
      (x.dataErr = false → t.job j = some
        { x with dataErr := true, restarts := x.restarts + 1, phase := 4, counts := [], verdict := none, fallback := false }) ∧
      t.rd P.flt Reg.FLT_LAST_action = 2 ∧ t.ctr (P.flt + 0x800) = (s.ctr (P.flt + 0x800) + 1) % 2 ^ 64 ∧
      PageFrame u t (endPages ++ [p / 4096, P.flt / 4096, P.schC x.ctx / 4096]) (.openCtrs :: .coll :: endParts)) ∧
    (bad → twin = none → ∀ g : Fin 36, who = .programFetch g → ∃ t, exec (.dramRead addr who up) s = .next t ∧ gone t ∧
      (s.isFenced (P.eng g) = false → t.inFault (P.eng g) = true) ∧
      (s.rd (P.eng g) Reg.BLK_ERR_cause = 0 → t.rd (P.eng g) Reg.BLK_ERR_cause = 0x16) ∧
      Frame u t (errs ++ [Reg.BLK_STAT_state.key (P.eng g) 0, Reg.BLK_ERR_cause.key (P.eng g) 0, Reg.BLK_ERR_more.key (P.eng g) 0,
        Reg.BLK_ERR_count.key (P.eng g) 0]) [p + 0x900, P.flt + 0x808] [.msys, .host, .openCtrs, .engines]))) ∧
  ((∀ (s : State) (k : Fin 2) (pc : Fin 32), s.atRest → ∃ t, exec (.dramRefresh k pc) s = .next t ∧
    (s.dramAlive = true → t.ctr (P.drc k + 0x910) = (s.ctr (P.drc k + 0x910) + 1) % 2 ^ 64 ∧
      Frame s t [] [P.drc k + 0x910] []) ∧ (s.dramAlive = false → Frame s t [] [] [])) ∧
  (∀ (s : State) (k : Fin 2) (up : Upset), s.calm →
    let p := P.drc k
    let i := SMap.get s.msys.scrubAt k 0
    let a := k.val * 0x400000000 + 8 * i
    let pc := p + 0x800 + 8 * (bits a 8 5 ^^^ bits a 13 5 ^^^ bits a 18 5)
    let runs := s.dramAlive = true ∧ s.inFault p = false ∧ s.rdb p Reg.DRC_CFG_scrub_en = true
    ∃ t, exec (.patrolScrub k up) s = .next t ∧
      (¬ runs → Frame s t [] [] []) ∧
      (runs → t.ctr (p + 0x918) = (s.ctr (p + 0x918) + 1) % 2 ^ 64 ∧ SMap.get t.msys.scrubAt k 0 = (i + 1) % 0x80000000) ∧
      (runs → a / 8 ∉ s.msys.poison → up = .clean → Frame (s.charge bwMaint k 8) t [] [p + 0x918] [.msys]) ∧
      (runs → a / 8 ∉ s.msys.poison → up = .correctable → t.ctr pc = (s.ctr pc + 1) % 2 ^ 64 ∧
        Frame (s.charge bwMaint k 8) t [] [p + 0x918, pc] [.msys]) ∧
      (runs → a / 8 ∈ s.msys.poison ∨ up = .uncorrectable → a / 8 ∈ t.msys.poison ∧ t.rd p Reg.DRC_ERR_ADDR_held = 1 ∧
        (s.masked p 0x11 = false → s.rd p Reg.BLK_ERR_cause = 0 → t.rd p Reg.BLK_ERR_cause = 0x11) ∧
        t.ctr (p + 0x900) = (s.ctr (p + 0x900) + 1) % 2 ^ 64 ∧
        Frame (s.charge bwMaint k 8) t [Reg.DRC_ERR_ADDR_lo.key p 0, Reg.DRC_ERR_ADDR_hi.key p 0, Reg.DRC_ERR_ADDR_held.key p 0,
          Reg.BLK_ERR_cause.key p 0, Reg.BLK_ERR_more.key p 0, Reg.BLK_ERR_count.key p 0] [p + 0x900, p + 0x918, P.flt + 0x808]
          [.msys, .host, .openCtrs])) ∧
  (∀ (s : State) (k : Fin 2) (v : StackTemp), s.calm → s.dramAlive = true →
    let p := P.drc k
    ∃ t, exec (.stackTemperatureChange k v) s = .next t ∧ t.rdb p Reg.DRC_CFG_hot = decide (v ≠ .normal) ∧
      (v ≠ .above → Frame s t [Reg.DRC_CFG_hot.key p 0] [] []) ∧
      (v = .above → (s.isFenced p = false → t.inFault p = true) ∧ (s.rd p Reg.BLK_ERR_cause = 0 → t.rd p Reg.BLK_ERR_cause = 0x14) ∧
        Frame s t [Reg.DRC_CFG_hot.key p 0, Reg.BLK_STAT_state.key p 0, Reg.BLK_ERR_cause.key p 0, Reg.BLK_ERR_more.key p 0,
          Reg.BLK_ERR_count.key p 0] [] [.host])))

/-! ### Contexts -/

/-- START, STOP, SWAP, EVICT, CANCEL_SWAP and SCH_CMD words (R280, R281, R295 to R297, R304, R305, R311): each ends with
its result code and CMD_DONE; a code other than 0 changes nothing else; a scheduler in its fault state takes none;
STOP leaves the boxes issued before it to be admitted. START's conditions are checked in the order of log entry 50,
the model's own. -/
def Obligations.ContextCommandsFollowTheirStateTable : Prop :=
  (∀ (s : State) (a b : Fin 8) (standby : Bool) (v : Word), s.calm → s.reaches (P.schG + 0x50) → s.works P.schG = false →
    ∀ c ∈ [Instr.start a standby, .stop a, .swap a b, .evict a, .cancelSwap a, .schCmdInvalid v],
      ∃ t, exec c s = .next t ∧ Frame s t [] [] [.parity]) ∧
  (∀ (s : State) (c : Fin 8) (standby : Bool), s.calm → s.reaches (P.schG + 0x50) → s.works P.schG = true →
    let k := s.primCam c
    let p := s.nextPlan
    let above := fun i => 3125 * p.period < (((List.range 16).filter p.prot).map (fun j => p.budget j i)).sum
    let noBudget := p.prot (8 + c) = true ∧
      (p.budget (8 + c) 0 < p.decl (8 + c) 0 ∨ p.budget (8 + c) 1 < p.decl (8 + c) 1 ∨ above 0 ∨ above 1)
    let armed := ∀ m ∈ s.actMap c, s.rd P.rtu Reg.RTU_GRP_CFG_armed m.2.2.1 = 1 ∧
      ((s.camLtg k).map (fun l => s.rd P.ltg Reg.LTG_CFG_enc l)) = some (s.rd P.rtu Reg.RTU_GRP_CFG_enc m.2.2.1)
    let covers := ∀ x < s.camWidth k, ∃ m ∈ s.actMap c, m.1 ≤ x ∧ x ≤ m.2.1
    let code := if s.ctxState c ≠ 2 then 1 else if noBudget then 3 else if s.primEn c = false then 0
      else if s.rd (P.cfeC k) Reg.CFE_CAM_STAT_state ≠ 2 ∨ s.camLtg k = none then 2
      else if ¬ armed then 5 else if ¬ covers then 8 else 0
    let st := if standby then 3 else 4
    ∃ t, exec (.start c standby) s = .next t ∧ CmdDone s t 1 c code ∧
      (code ≠ 0 → records s t [cmdRec s 1 c code] ∧ Frame s t resKeys [] [.host, .parity]) ∧
      (code = 0 → 30 ≤ s.anvFree.length → t.ctxState c = st ∧ records s t [ctxRec c st 0, cmdRec s 1 c 0] ∧
        t.ctx c = { s.ctx c with since := 0 } ∧ (∀ b ∈ (t.det k).openBoxes, b.1 ≠ c) ∧
        (∀ d, d ≠ k → t.det d = s.det d ∧ t.pipe d = s.pipe d) ∧ (∀ d, d ≠ c.val → t.ctx d = s.ctx d) ∧
        Frame s t (stateKeys c ++ resKeys) [] [.host, .ctxs, .detect, .pipes, .parity]) ∧
      (code = 0 → s.anvFree.length < 30 → t.ctxState c = 6)) ∧
  (∀ (s : State) (c : Fin 8), s.calm → s.reaches (P.schG + 0x50) → s.works P.schG = true →
    let ok := (s.ctxState c = 4 ∨ s.ctxState c = 3) ∧ s.swapNames c = false
    ∃ t, exec (.stop c) s = .next t ∧ CmdDone s t 2 c (if ok then 0 else 1) ∧ (t.ctx c).boxQ = (s.ctx c).boxQ ∧
      (¬ ok → records s t [cmdRec s 2 c 1] ∧ Frame s t resKeys [] [.host, .parity]) ∧
      (ok → t.ctxState c = 5 ∧ (t.ctx c).hostQ = (s.ctx c).hostQ.filter (fun q => q = .ring) ∧
        (∀ d, d ≠ c.val → t.ctx d = s.ctx d) ∧ t.sched.jobs = s.sched.jobs) ∧
      (ok → (∀ q ∈ (s.ctx c).hostQ, q = .ring) → records s t [ctxRec c 5 0, cmdRec s 2 c 0] ∧
        Frame s t (stateKeys c ++ resKeys) [] [.host, .ctxs, .parity])) ∧
  (∀ (s : State) (a b : Fin 8), s.calm → s.reaches (P.schG + 0x50) → s.works P.schG = true →
    let k := s.primCam b
    let h := max 1 (s.rd (P.cfeC k) Reg.CFE_CAM_BLK_h)
    let armed := ∀ m ∈ s.actMap b, s.rd P.rtu Reg.RTU_GRP_CFG_armed m.2.2.1 = 1 ∧
      ((s.camLtg k).map (fun l => s.rd P.ltg Reg.LTG_CFG_enc l)) = some (s.rd P.rtu Reg.RTU_GRP_CFG_enc m.2.2.1)
    let covers := ∀ x < s.camWidth k, ∃ m ∈ s.actMap b, m.1 ≤ x ∧ x ≤ m.2.1
    let code := if s.ctxState a ≠ 4 ∨ s.ctxState b ≠ 3 ∨ s.swapNames a = true ∨ s.swapNames b = true ∨ (s.ctx a).swapped = true
      then 1 else if s.primCam a ≠ k ∨ s.primEn a = false ∨ s.primEn b = false then 4
      else if ¬ armed then 5 else if ¬ covers then 8 else 0
    let l := max (s.rd2 P.schG Reg.SCH_CMD_ARG_lo Reg.SCH_CMD_ARG_hi) (((s.cam k).nextLine + h - 1) / h * h + h)
    ∃ t, exec (.swap a b) s = .next t ∧ CmdDone s t 3 a code ∧ records s t [cmdRec s 3 a code] ∧
      (code = 0 → t.ctx a = { s.ctx a with swapTo := some (b.val, l), swapped := false } ∧
        (∀ d, d ≠ a.val → t.ctx d = s.ctx d)) ∧ (code ≠ 0 → t.ctxs = s.ctxs) ∧
      Frame s t resKeys [] [.host, .ctxs, .parity]) ∧
  (∀ (s : State) (c : Fin 8), s.calm → s.reaches (P.schG + 0x50) → s.works P.schG = true →
    let feeds := fun i => s.rd (P.arcS i) Reg.ARC_SCFG_ctx = c.val ∧ s.rd (P.arcS i) Reg.ARC_SSTAT_state ≠ 0 ∧
      s.rd (P.arcS i) Reg.ARC_SSTAT_state ≠ 4
    ∃ t, exec (.evict c) s = .next t ∧ CmdDone s t 4 c (if s.ctxState c = 2 then 0 else 1) ∧
      (s.ctxState c ≠ 2 → records s t [cmdRec s 4 c 1] ∧ Frame s t resKeys [] [.host, .parity]) ∧
      (s.ctxState c = 2 → t.ctxState c = 7 ∧ (∀ i < 64, feeds i → t.rd (P.arcS i) Reg.ARC_SSTAT_state = 4 ∧
        t.rd (P.arcS i) Reg.ARC_SSTAT_res = 6)) ∧
      (s.ctxState c = 2 → (∀ i < 64, ¬ feeds i) → records s t [ctxRec c 7 0, cmdRec s 4 c 0] ∧
        Frame s t (stateKeys c ++ resKeys) [] [.host, .parity])) ∧
  (∀ (s : State) (c : Fin 8), s.calm → s.reaches (P.schG + 0x50) → s.works P.schG = true →
    let names := fun a => !(s.ctx a).swapped && (s.ctx a).swapTo.any (fun p => decide (a = c.val) || decide (p.1 = c.val))
    let code := if (List.range 8).any names then 0 else 1
    ∃ t, exec (.cancelSwap c) s = .next t ∧ CmdDone s t 5 c code ∧ records s t [cmdRec s 5 c code] ∧
      (∀ a < 8, names a = true → t.ctx a = { s.ctx a with swapTo := none, swapped := false }) ∧
      (∀ a, 8 ≤ a ∨ names a = false → t.ctx a = s.ctx a) ∧ Frame s t resKeys [] [.host, .ctxs, .parity]) ∧
  (∀ (s : State) (v : Word), s.calm → s.reaches (P.schG + 0x50) → s.works P.schG = true →
    let op := bits v.toNat 0 4
    let c := bits v.toNat 4 3
    (bits v.toNat 16 16 ≠ 0x5c4d ∨ op = 0 ∨ 5 < op → ∃ t, exec (.schCmdInvalid v) s = .next t ∧ CmdDone s t op c 7 ∧
      records s t [cmdRec s op c 7] ∧ Frame s t resKeys [] [.host, .parity]))

/-- ADMIT, CONTEXT_ADMITTED, EVICTION_DONE, SWAP_EFFECTIVE, CONTEXT_DRAINED and CONTEXT_RESET (R77, R236, R273 to R276,
R295, R296, R498): an ADMIT is answered with the first condition that fails (log entry 47, the model's own) or begins
loading with its shares reserved and the billet in both stacks; the loaded context is STOPPED with the manifest's
settings; an eviction leaves it EMPTY with clear shares; a swap in effect makes the incoming context RUNNING; a
drained context is STOPPED; a reset stops it, ends its jobs with status 4, clears its shares and step counter, and is
absorbed by an engine reset in progress (R78). -/
def Obligations.ContextsLoadDrainSwapAndReset : Prop :=
  (∀ (s : State) (r : MbxReq) (c : Fin 8) (b : Billet), s.calm → s.mbxCanTake = true →
    let place := blobPlace b.addr.toNat b.len.toNat = true
    let v := s.verifyBillet b.addr.toNat b.len.toNat
    let w := (s.fetch 4 b.addr.toNat b.len.toNat).1
    let o := (SignedBlob.parse (w.load b.addr.toNat b.len.toNat)).obj
    ∃ t, exec (.admitContext r c b) s = .next t ∧
      (¬ place → Answered s t r 0x10 2 0 [] ∧ records s t [mbxRec r 0x10 2 0] ∧
        Frame s t mbxKeys [P.erq + 0x920] [.host, .hostMem]) ∧
      (place → s.ctxState c ≠ 0 → Answered s t r 0x10 4 0 [] ∧ records s t [mbxRec r 0x10 4 0] ∧
        Frame s t mbxKeys [P.erq + 0x920] [.host, .hostMem]) ∧
      (place → s.ctxState c = 0 → s.works P.tmp = false → Answered s t r 0x10 3 1 [] ∧ records s t [mbxRec r 0x10 3 1] ∧
        t.ctxs = s.ctxs ∧ t.mem = s.mem) ∧
      (place → s.ctxState c = 0 → s.works P.tmp = true → ∀ n, s.admitCode b (v.2.1 = 0) = .inl n → Answered s t r 0x10 3 n [] ∧
        records w t [verRec o v.2.1, mbxRec r 0x10 3 n] ∧ t.ctxs = s.ctxs ∧ t.mem = w.mem) ∧
      (place → s.ctxState c = 0 → s.works P.tmp = true → ∀ x, s.admitCode b (v.2.1 = 0) = .inr x → flowsLegal b = true →
        t.ctxState c = 1 ∧ recordsFirst w t [verRec o v.2.1, ctxRec c 1 0] ∧ (t.ctx c).billet = some b ∧ (t.ctx c).req = some r ∧
        (t.ctx c).aBase = x.a ∧ (t.ctx c).wBase = x.w ∧ (t.ctx c).pBase = x.p ∧ (t.ctx c).xBase = x.x ∧
        (r, 0x10) ∈ t.host.mbxTaken ∧
        ∀ i < b.len.toNat,
          (s.takes b.copy0.toNat i → Memory.read t.mem (b.copy0.toNat + i) = Memory.read w.mem (b.addr.toNat + i)) ∧
          (s.takes b.copy1.toNat i → Memory.read t.mem (b.copy1.toNat + i) = Memory.read w.mem (b.addr.toNat + i)))) ∧
  (∀ (s : State) (c : Fin 8) (b : Billet), s.calm → s.hearthRuns = true → s.ctxState c = 1 → (s.ctx c).billet = some b →
    let p := P.schC c
    ∃ t, exec (.contextAdmitted c) s = .next t ∧ t.ctxState c = 2 ∧ (t.ctx c).req = none ∧
      t.rd p Reg.SCH_CTX_CFG_prio = b.prio.toNat ∧ t.rd p Reg.SCH_CTX_CFG_quota = b.quota.toNat ∧
      t.rd p Reg.SCH_CTX_CFG_prim_cam = b.primCam.val ∧ t.rdb p Reg.SCH_CTX_CFG_prim_en = b.primEn ∧
      t.rd p Reg.SCH_CTX_CFG_ref = b.refLine.toNat ∧ t.rdb p Reg.SCH_CTX_CFG_failsafe = b.failsafe ∧
      t.rdb p Reg.SCH_CTX_CFG_spec_en = b.specEn ∧
      (∀ g < 8, t.rd p Reg.SCH_CTX_ACT_GRP_valid g = if (b.actMap[g]?).isSome then 1 else 0) ∧
      (∀ e < 36, t.rd (seqPage e) Reg.ANV_CTX_BUF_size c = (if e < 32 then b.anvCmds.toNat else b.tngCmds.toNat)) ∧
      ((s.ctx c).req = none → recordsLast s t [ctxRec c 2 0]) ∧
      (∀ r, (s.ctx c).req = some r → (r, 0x10) ∈ s.host.mbxTaken →
        recordsLast s t [ctxRec c 2 0, mbxRec r 0x10 0 0] ∧ t.host.mbxTaken = s.host.mbxTaken.erase (r, 0x10))) ∧
  (∀ (s : State) (c : Fin 8), s.calm → ∃ t, exec (.evictionDone c) s = .next t ∧
    (s.ctxState c ≠ 7 → Frame s t [] [] []) ∧
    (s.ctxState c = 7 → t.ctxState c = 0 ∧ t.ctx c = default ∧ t.rd (P.schC c) Reg.SCH_CTX_HQ_cons = 0 ∧
      (∀ b < 202, ∀ o n, s.share c b = some (o, n) → ∀ i < n, Memory.read t.mem (bankBase b + o + i) = 0) ∧
      (∀ d, d ≠ c.val → t.ctx d = s.ctx d)) ∧
    (s.ctxState c = 7 → (∀ q ∈ (s.ctx c).hostQ, q = .ring) → records s t [ctxRec c 0 0] ∧
      (∀ b < 202, t.rdb P.bank Reg.BANK_CTL_clearing b =
        (s.rdb P.bank Reg.BANK_CTL_clearing b || (s.share c b).any (fun p => p.2 ≠ 0))) ∧
      t.ctr (P.bank + 0x828) = (s.ctr (P.bank + 0x828) + (List.range 202).countP (fun b => (s.share c b).any (fun p => p.2 ≠ 0))) % 2 ^ 64 ∧
      Frame s t (Reg.SCH_CTX_HQ_cons.key (P.schC c) 0 :: stateKeys c ++ (List.range 202).map (fun b => Reg.BANK_CTL_clearing.key P.bank b))
        [P.bank + 0x828] [.mem, .ctxs, .rtu, .host])) ∧
  (∀ (s : State) (c : Fin 8) (b : Fin 8) (l : Nat), s.calm → (s.ctx c).swapTo = some (b.val, l) → b ≠ c →
    (s.ctx c).swapped = false → l < (s.cam (s.primCam c)).nextLine →
    let busy := s.swapBusy c l = true ∨ s.ctxState c ≠ 4
    let req := s.rd P.chip Reg.CHIP_READY_ctx_req
    ∃ t, exec (.swapEffective c) s = .next t ∧ t.ctxState b = 4 ∧ (t.ctx b).since = l ∧ (t.ctx c).swapped = true ∧
      (∀ i < 8, bit (t.rd P.chip Reg.CHIP_READY_ctx_req) i =
        if bit req c = true then (if i = b.val then true else if i = c.val then false else bit req i) else bit req i) ∧
      (busy → t.ctxState c = s.ctxState c ∧ records s t [ctxRec b 4 0]) ∧
      (¬ busy → t.ctxState c = 5 ∧ records s t [ctxRec b 4 0, ctxRec c 5 0]) ∧
      Frame s t (Reg.CHIP_READY_ctx_req.key P.chip 0 :: stateKeys b ++ stateKeys c) [] [.ctxs, .host]) ∧
  (∀ (s : State) (c : Fin 8), s.calm → ((s.ctx c).swapTo = none ∨ (s.ctx c).swapped = true) →
    ∃ t, exec (.swapEffective c) s = .next t ∧ Frame s t [] [] []) ∧
  (∀ (s : State) (c : Fin 8), s.calm → s.alive = false ∨ s.ctxJobs c ≠ [] ∨ (s.ctx c).boxQ ≠ [] ∨ s.ctxState c ≠ 5 →
    (s.ctx c).swapped = false ∨ s.ctxState c ≠ 4 → ∃ t, exec (.contextDrained c) s = .next t ∧ Frame s t [] [] []) ∧
  (∀ (s : State) (c : Fin 8), s.calm → s.alive = true → s.ctxState c = 5 → s.ctxJobs c = [] → (s.ctx c).boxQ = [] →
    (∀ k < 8, ∀ x ∈ (s.det k).issued, c.val ∉ x.dest) →
    ∃ t, exec (.contextDrained c) s = .next t ∧ t.ctxState c = 2 ∧
      ((s.ctx c).swapTo = none ∨ (s.ctx c).swapped = false → t.ctxs = s.ctxs ∧ records s t [ctxRec c 2 0]) ∧
      (∀ b l, (s.ctx c).swapTo = some (b, l) → (s.ctx c).swapped = true →
        t.ctx c = { s.ctx c with swapTo := none, swapped := false } ∧
        records s t [ctxRec c 2 0, (0x500, 0x43, le 1 c ++ le 1 b ++ le 6 0 ++ le 8 l)]) ∧
      Frame s t (stateKeys c) [] [.ctxs, .host]) ∧
  (∀ (s : State) (c : Fin 8), s.calm → s.reaches 0x44 →
    let resets := s.ctxResident c = true ∧ s.seq.engResets = []
    ∃ t, exec (.contextReset c) s = .next t ∧
    (¬ resets → Frame s t [] [] [.parity]) ∧
    (resets → t.rdb P.erq Reg.ERQ_HSR_busy = false ∧ t.ctxState c = 2 ∧ (t.ctx c).boxQ = [] ∧ (t.ctx c).probes = [] ∧ (t.ctx c).jseqNext = 0 ∧
      (t.ctx c).landed = [] ∧ (t.ctx c).swapTo = none ∧
      t.rd2 (P.schC c) Reg.SCH_CTX_STEPS_lo Reg.SCH_CTX_STEPS_hi = 0 ∧
      (∀ b < 202, ∀ o n, s.share c b = some (o, n) → ∀ i < n, Memory.read t.mem (bankBase b + o + i) = 0) ∧
      (∀ i < 64, s.rd (P.arcS i) Reg.ARC_SCFG_ctx = c.val → s.rd (P.arcS i) Reg.ARC_SSTAT_state ≠ 0 →
        t.rd (P.arcS i) Reg.ARC_SSTAT_state = 4)) ∧
    (resets → ∀ j < 512, ∀ x, s.job j = some x → x.ctx = c.val → x.ended = none →
      (t.job j).map Job.ended = some (some 4)))

/-! ### Boxes, jobs, verdicts and checks -/

/-- BOX_ADMIT, HOST_JOB_DOORBELL and JOB_ADMIT (R22 to R24, R281 to R285, R318, R408, R409, R414, R496, R562): an issued
box gets its RTU entries and its place in the queue; with ovf set it gets neither, a full table and a target already
passed set ovf; a doorbell announces the descriptors up to its index; a slot takes a restarted job first, then the
oldest box, then the next host job. VERDICT_LANDING and JOB_COMPLETE (R26, R27, R282, R284, R286, R311, R408, R565): a
verdict lands in every entry of its job that still awaits one, or is discarded and counted; a job that has ended
leaves its slot, whose generation advances, is counted unless it was abandoned, and a host job's result area and
record hold its tag, status, class, confidence, decision and flags. -/
def Obligations.JobsAreAdmittedJudgedAndCompleted : Prop :=
  ((∀ (s : State) (c : Fin 8) (b : Box), s.calm →
    (∀ x ∈ (s.det b.camera).issued, ¬ (x.box = b ∧ c.val ∈ x.dest)) → ∃ t, exec (.boxAdmit c b) s = .next t ∧ Frame s t [] [] []) ∧
  (∀ (s : State) (c : Fin 8) (b : Box), s.calm → s.alive = false → ∃ t, exec (.boxAdmit c b) s = .next t ∧ Frame s t [] [] []) ∧
  (∀ (s : State) (c : Fin 8) (b : Box) (x : Issued), s.calm → s.alive = true → s.ctxState c ≠ 4 → s.ctxState c ≠ 5 →
    (s.det b.camera).issued.find? (fun y => y.box = b && y.dest.contains c.val) = some x →
    ∃ t, exec (.boxAdmit c b) s = .next t ∧ (t.det b.camera).issued = ((s.det b.camera).issued.map (fun y =>
      if y = x then { x with dest := x.dest.erase c.val } else y)).filter (fun y => !y.dest.isEmpty) ∧ Frame s t [] [] [.detect]) ∧
  (∀ (s : State) (c : Fin 8) (b : Box) (x : Issued), s.calm → s.alive = true → s.ctxState c = 4 ∨ s.ctxState c = 5 →
    (s.det b.camera).issued.find? (fun y => y.box = b && y.dest.contains c.val) = some x →
    let overlap := (s.actMap c).filter (fun m => decide (m.1 ≤ b.col1.toNat) && decide (b.col0.toNat ≤ m.2.1))
    let waits := b.noVerdict = false ∧ (s.ctx c).boxQ.length < 1024
    let n := lowestFree (SMap.keys s.rtu.entries) 0
    let took := fun t : State => (t.det b.camera).issued = ((s.det b.camera).issued.map (fun y =>
      if y = x then { x with dest := x.dest.erase c.val } else y)).filter (fun y => !y.dest.isEmpty)
    ∃ t, exec (.boxAdmit c b) s = .next t ∧ took t ∧
      (s.rdb P.rtu Reg.RTU_STAT_ovf = true → t.ctr (P.rtu + 0x828) = (s.ctr (P.rtu + 0x828) + 1) % 2 ^ 64 ∧
        Frame s t [] [P.rtu + 0x828] [.detect]) ∧
      (s.rdb P.rtu Reg.RTU_STAT_ovf = false → s.tentAt c b.camera b.object.toNat = none → overlap = [] →
        t.rtu.entries = s.rtu.entries ∧
        (waits → (t.ctx c).boxQ.map QBox.box = (s.ctx c).boxQ.map QBox.box ++ [b]) ∧ (¬ waits → (t.ctx c).boxQ = (s.ctx c).boxQ) ∧
        Frame s t [] [P.schC c + 0x810] [.detect, .rtu, .ctxs]) ∧
      (s.rdb P.rtu Reg.RTU_STAT_ovf = false → s.tentAt c b.camera b.object.toNat = none → ∀ m, overlap = [m] →
        let target := (s.lineCount b.camera x.stamps (s.refLine c b) + m.2.2.2) % 2 ^ 32
        (4096 ≤ s.rtu.entries.length → t.rdb P.rtu Reg.RTU_STAT_ovf = true ∧ t.rtu.entries = s.rtu.entries ∧
          (t.ctx c).boxQ = (s.ctx c).boxQ ∧
          records s t [(0x800, 0x31, le 1 1 ++ le 1 c ++ le 1 b.camera ++ le 1 0 ++ le 4 b.object.toNat ++
            le 2 (s.rd P.rtu Reg.RTU_STAT_used))]) ∧
        (s.rtu.entries.length < 4096 → passed (s.groupCount m.2.2.1) target = false →
          (∃ e, t.entry n = some e ∧ e.target = target ∧ e.group = m.2.2.1 ∧ e.state = 1 ∧ e.ctx = c.val ∧
            e.object = b.object.toNat ∧ e.camera = b.camera.val ∧ e.nv = b.noVerdict ∧ e.decision = none ∧ e.job = none ∧
            e.failPass = s.rdb (P.schC c) Reg.SCH_CTX_CFG_failsafe ∧ (e.actFirst, e.actLast) = s.actuators m.2.2.1 b) ∧
          t.rd P.rtu Reg.RTU_STAT_used = t.rtu.entries.length % 2 ^ 13 ∧
          t.ctr (P.rtu + 0x800) = (s.ctr (P.rtu + 0x800) + 1) % 2 ^ 64 ∧
          (waits → (t.ctx c).boxQ.map QBox.box = (s.ctx c).boxQ.map QBox.box ++ [b]) ∧
          (¬ waits → (t.ctx c).boxQ = (s.ctx c).boxQ) ∧
          Frame s t [Reg.RTU_STAT_used.key P.rtu 0] [P.rtu + 0x800, P.schC c + 0x810] [.detect, .rtu, .ctxs]) ∧
        (s.rtu.entries.length < 4096 → passed (s.groupCount m.2.2.1) target = true →
          t.rdb P.rtu Reg.RTU_STAT_ovf = true ∧ t.entry n = none ∧ (t.ctx c).boxQ = (s.ctx c).boxQ ∧
          t.ctr (P.rtu + 0x820) = (s.ctr (P.rtu + 0x820) + 1) % 2 ^ 64 ∧
          t.host.produced.length = s.host.produced.length + 2))) ∧
  (∀ (s : State) (c : Fin 8) (v : Word), s.atRest → s.hostReach = true → s.seq.power ≠ .banked →
    let i := v.toNat % 4096
    let size := 2 ^ s.hqLog c
    let h := P.erq + 0x908
    ∃ t, exec (.hostJobDoorbell c v) s = .next t ∧
      (∀ n, s.arcFeeds c = some n → t.ctr h = (s.ctr h + 1) % 2 ^ 64 ∧
        t.ctr (P.arcS n + 0x820) = (s.ctr (P.arcS n + 0x820) + 1) % 2 ^ 64 ∧ Frame s t [] [h, P.arcS n + 0x820] []) ∧
      (s.arcFeeds c = none → size ≤ i ∨ s.ctxResident c = false → t.ctr h = (s.ctr h + 1) % 2 ^ 64 ∧ Frame s t [] [h] []) ∧
      (s.arcFeeds c = none → i < size → s.ctxResident c = true →
        (t.ctx c).hostQ = (s.ctx c).hostQ ++ List.replicate ((i + size - (s.ctx c).hostProd % size) % size) .ring ∧
        (t.ctx c).hostProd = i ∧ (∀ d, d ≠ c.val → t.ctx d = s.ctx d) ∧ Frame s t [] [] [.ctxs])) ∧
  (∀ (s : State) (c : Fin 8), s.calm →
    let back := s.sched.restartQ.find? (fun j => (s.job j).any (fun x => x.ctx = c.val))
    let steps := s.rd2 (P.schC c) Reg.SCH_CTX_STEPS_lo Reg.SCH_CTX_STEPS_hi
    let ring := s.rd (P.schC c) Reg.SCH_CTX_HQ_cons
    let at_ := s.rd2 (P.schC c) Reg.SCH_CTX_HQ_BASE_lo Reg.SCH_CTX_HQ_BASE_hi / 64 * 64 + 64 * ring
    let u := (s.fetch 2 at_ 64).1
    let desc := u.load at_ 64
    let runs := (s.fetch 2 at_ 64).2 = false ∧ s.descValid c desc = true
    let read := [P.blw, P.drc 0, P.drc 1, P.schC c].map (· / 4096)
    let placed := fun (t : State) (j tn : Nat) => t.sched.order = s.sched.order ++ [j] ∧
      t.rd2 (P.schC c) Reg.SCH_CTX_STEPS_lo Reg.SCH_CTX_STEPS_hi = (steps + 65536) % 2 ^ 64 ∧
      t.ctr (P.schC c + 0x800) = (s.ctr (P.schC c + 0x800) + 1) % 2 ^ 64 ∧
      (t.job j).any (fun y => y.ctx = c.val && y.tag = s.nextTag j && y.base = steps && y.tongs = tn && y.phase = 0 &&
        y.ended = none && y.verdict = none && y.folded = s.foldNow c) ∧
      PageFrame s t (P.xck / 4096 :: read) [.sched, .ctxs, .engines, .rtu, .host, .mem, .msys, .bry, .coll, .draws]
    ∃ t, exec (.jobAdmit c) s = .next t ∧
      (s.alive = false ∨ s.ctxRuns c = false ∨ (back = none ∧ (s.slotFor c = none ∨ s.assignTongs c = none)) ∨
        (back = none ∧ (s.ctxState c ≠ 3 → (s.ctx c).boxQ = []) ∧ (s.ctxState c ≠ 5 → (s.ctx c).hostQ = [])) → Frame s t [] [] []) ∧
      (s.alive = true → s.ctxRuns c = true → ∀ j x tn, back = some j → s.job j = some x → s.assignTongs c = some tn →
        let h := s.anvFree.length
        let run := if x.kind = .copy ∨ x.kind = .arbitration then x.check.bind (SMap.find? s.sched.checks) else none
        let fold := (run.map (fun k => k.proto.folded)).getD (s.foldNow c)
        let a := P.schC c + 0x868
        t.sched.restartQ = s.sched.restartQ.erase j ∧ (t.job j).any (fun y => y.phase = 0 && y.tag = x.tag &&
          y.restarts = x.restarts && y.counts = [] && y.tongs = (run.map (fun k => s.nextTongs k.proto.tongs)).getD tn &&
          y.folded = fold && y.rotation = if run = none then x.rotation else if x.kind = .copy then h / 2 else h / 4) ∧
        t.ctr a = (s.ctr a + (if fold = true ∧ x.folded = false then 1 else 0)) % 2 ^ 64 ∧
        t.rtu.entries.map Prod.fst = s.rtu.entries.map Prod.fst ∧ Frame s t [] [a] [.sched, .engines, .rtu]) ∧
      (s.alive = true → back = none → ∀ j tn, s.slotFor c = some j → s.assignTongs c = some tn →
        (∀ q qs, s.ctxRuns c = true ∧ s.ctxState c ≠ 3 → (s.ctx c).boxQ = q :: qs → (t.ctx c).boxQ = qs ∧ placed t j tn ∧
          (t.job j).any (fun y => y.kind = .box && y.box = some q.box && y.identity = boxIdentity q.box && y.desc = none)) ∧
        (∀ qs, s.ctxState c = 3 ∨ (s.ctxState c = 4 ∧ (s.ctx c).boxQ = []) → (s.ctx c).hostQ = .ring :: qs →
          t.rd (P.schC c) Reg.SCH_CTX_HQ_cons = (ring + 1) % 2 ^ s.hqLog c ∧
          (runs → placed t j tn ∧
            (t.job j).any (fun y => y.kind = .host && y.desc = some (readDesc desc) && y.identity = (readDesc desc).identity)) ∧
          (¬ runs → t.sched = s.sched ∧ (t.ctx c).hostQ = qs ∧
            PageFrame s t (P.tmp / 4096 :: read) [.ctxs, .draws, .mem, .msys, .host]))))) ∧
  ((∀ (s : State) (j : Fin 512) (x : Crossing), s.calm → s.rtuAlive = true →
    s.rtu.crossing.find? (fun y => y.slot = j.val) = some x → s.coll.pendingJobs.contains x.tag = false →
    let takes := fun e : RtuEntry => decide (e.job = some x.tag) && e.decision.isNone && decide (e.state = 1)
    ∃ t, exec (.verdictLanding j) s = .next t ∧ t.rtu.crossing = s.rtu.crossing.erase x ∧
      ((∀ p ∈ s.rtu.entries, takes p.2 = false) → t.rtu.entries = s.rtu.entries ∧
        t.ctr (P.rtu + 0x848) = (s.ctr (P.rtu + 0x848) + 1) % 2 ^ 64 ∧
        t.ctr (P.schC x.ctx + 0x818) = (s.ctr (P.schC x.ctx + 0x818) + 1) % 2 ^ 64 ∧
        Frame s t [] [P.rtu + 0x848, P.schC x.ctx + 0x818] [.rtu]) ∧
      ((∃ p ∈ s.rtu.entries, takes p.2 = true) → t.rtu.entries = s.rtu.entries.map (fun p => if takes p.2 then
        (p.1, { p.2 with decision := some x.verdict.reject, verdict := some x.verdict, vflags := (p.2.vflags &&& 4) ||| x.flags })
        else p) ∧ Frame s t [] [] [.rtu])) ∧
  (∀ (s : State) (j : Fin 512), s.atRest → (∀ x ∈ s.rtu.crossing, x.slot ≠ j.val) ∨ s.hostReach = false →
    ∃ t, exec (.verdictLanding j) s = .next t ∧ Frame s t [] [] []) ∧
  (∀ (s : State) (j : Fin 512) (x : Job) (st : Nat), s.calm → s.alive = true → s.job j = some x → x.ended = some st → st < 256 →
    s.coll.pendingJobs.contains x.tag = false → s.sched.regen = none →
    let n := P.schC x.ctx + 0x808
    let head := le 2 x.tag ++ le 1 st ++ le 1 ((x.verdict.map Verdict.cls).getD 0) ++ le 2 ((x.verdict.map Verdict.conf).getD 0)
      ++ le 1 (if (x.verdict.map Verdict.reject).getD false then 1 else 0) ++ le 1 ((if x.folded then 1 else 0) +
        (if x.fallback then 2 else 0) + (if 0 < x.restarts then 4 else 0) + (if x.kind = .copy then 8 else 0))
    ∃ t, exec (.jobComplete j) s = .next t ∧ t.sched.order = s.sched.order.filter (fun i => i ≠ j.val) ∧
      SMap.get t.sched.slotGen j 0 = (SMap.get s.sched.slotGen j 0 + 1) % 128 ∧ (∀ p ∈ t.sched.jobs, p.1 ≠ j.val) ∧
      t.ctr n = (s.ctr n + (if st = 4 then 0 else 1)) % 2 ^ 64 ∧
      (x.kind ≠ .host → x.kind ≠ .regen → t.host = s.host ∧ t.mem = s.mem) ∧
      (∀ d, x.kind = .host → x.desc = some d →
        (let o := s.outputWrite x.ctx d st
          let v := if s.resultValid x.ctx d = true ∧ inDram d.result = true then o.moved 2 d.result 64 0x928 else o
          (bit d.flags 1 = true → records v t [(0x500, 0x40, head ++ le 8 d.userTag)]) ∧ (bit d.flags 1 = false → t.host = v.host)) ∧
        (∀ i < 8, s.resultValid x.ctx d = true → s.takes d.result i → Memory.read t.mem (d.result + i) = head.getD i 0) ∧
        (∀ b, (s.ctx x.ctx).billet = some b → bit d.flags 0 = true → st = 0 →
          let u := s.fetch (8 + x.ctx) b.outAt.toNat b.outLen.toNat
          ∀ a, a < d.result ∨ d.result + 64 ≤ a → Memory.read t.mem a =
            if u.2 = false ∧ b.outWindow.toNat ≤ a ∧ a < b.outWindow.toNat + b.outLen.toNat ∧ s.takes b.outWindow.toNat (a - b.outWindow.toNat)
            then Memory.read u.1.mem (a - b.outWindow.toNat + b.outAt.toNat) else Memory.read u.1.mem a) ∧
        (bit d.flags 0 = false ∨ st ≠ 0 ∨ (s.ctx x.ctx).billet = none →
          ∀ a, a < d.result ∨ d.result + 64 ≤ a → Memory.read t.mem a = Memory.read s.mem a)) ∧
      PageFrame s t (P.schC x.ctx / 4096 :: endPages) endParts) ∧
  (∀ (s : State) (j : Fin 512), s.atRest → (∀ x, s.job j = some x → x.ended = none) ∨ s.alive = false →
    ∃ t, exec (.jobComplete j) s = .next t ∧ Frame s t [] [] []))

/-- REMOTE_WAIT_COMPLETE, REMOTE_WAIT_TIMEOUT and PROBE_START (R222, R288, R292, R293, R298): a wait that is done makes
its context ready again; one that is not times out: counted, its job ends with status 3; an early-exit notice of an
object that has been open for E lines starts a probe, at most 64. XCHECK_COMPARE, XCHECK_ARBITRATION_DONE and
REGEN_REQUEST (R319, R320, R327, R328, R336, R337, R340): equal digests are agreement, a missing one is no comparison,
unequal ones without a differing step are unresolved with fault 0x10, with one they bring an arbitration run; the
arbitration names the engine whose trace differs, or leaves it unresolved; a regeneration request is refused with its
code (in the order of log entry 61, the model's own) or waits among the host jobs. -/
def Obligations.WaitsProbesChecksAndRegenerations : Prop :=
  ((∀ (s : State) (e : Fin 32) (c : Fin 8) (n : Fin 16), s.atRest →
    let g := s.eng e
    let waits := s.clocked = true ∧ g.rwait.contains (c.val, n.val) = true ∧ s.waitDone c e n = true
    let f := g.inflight.find? (fun f => f.1 = c.val && cmdOp f.2 = 7)
    let signals := fun i : Nat => (f.any (fun f => cmdSignals f.2 && decide (cmdSigTok f.2 = i))) = true
    ∃ t, exec (.remoteWaitComplete e c n) s = .next t ∧
      (¬ waits → Frame s t [] [] []) ∧
      (waits → g.queued = [] → (∀ i < 16, signals i → s.tokens e c i ≠ 255) →
        t.rd (P.anv e 1) Reg.ANV_CTX_STAT_state c = 1 ∧
        (t.eng e).rwait = g.rwait.filter (fun r => r ≠ (c.val, n.val)) ∧
        (t.eng e).inflight = g.inflight.filter (fun f => !(f.1 = c.val && cmdOp f.2 = 7)) ∧
        (∀ i < 16, t.tokens e c i = s.tokens e c i + if signals i then 1 else 0) ∧
        (∀ d, d ≠ e.val → t.eng d = { s.eng d with preReq := (t.eng d).preReq }) ∧
        (∀ d < 36, (s.eng d).preReq = none → (t.eng d).preReq =
          if ((s.eng d).holder.any (fun r => s.prio r < s.prio c)) = true ∧ t.ready d c = true then some c.val else none) ∧
        t.ctx c = { s.ctx c with waitsDone := (s.ctx c).waitsDone.filter (fun k => k ≠ 16 * e.val + n.val) } ∧
        (∀ d, d ≠ c.val → t.ctx d = s.ctx d) ∧
        Frame s t [Reg.ANV_CTX_STAT_state.key (P.anv e 1) c] [] [.engines, .ctxs])) ∧
  (∀ (s : State) (e : Fin 32) (c : Fin 8) (n : Fin 16) (j : Fin 512), s.atRest →
    ∃ t, exec (.remoteWaitTimeout e c n j) s = .next t ∧
      (s.clocked = false ∨ s.job j = none ∨ (s.eng e).rwait.contains (c.val, n.val) = false ∨ s.waitDone c e n = true → Frame s t [] [] []) ∧
      (∀ x, s.job j = some x → s.clocked = true → (s.eng e).rwait.contains (c.val, n.val) = true → s.waitDone c e n = false →
        s.onJob e x = true → x.ctx = c.val → x.ended = none →
        t.ctr (P.schC c + 0x860) = (s.ctr (P.schC c + 0x860) + 1) % 2 ^ 64 ∧ t.job j = some { x with ended := some 3 } ∧
        (∀ d < 36, s.onJob d x = true → t.onJob d x = false ∧ t.rd (seqPage d) Reg.ANV_CTX_STAT_state c = 0 ∧
          (∀ i, (t.eng d).rwait.contains (c.val, i) = false)) ∧
        PageFrame s t (P.schC c / 4096 :: endPages) endParts)) ∧
  (∀ (s : State) (c : Fin 8) (obj : BitVec 32) (k : Fin 8), s.atRest →
    let lines := (((s.ctx c).billet).map (fun b => b.exitLines.toNat)).getD 0
    let now := s.lineCount k (s.pipe k).stamps ((s.cam k).nextLine - 1)
    let starts := s.alive = true ∧ s.ctxState c = 4 ∧ s.rdb (P.schC c) Reg.SCH_CTX_CFG_spec_en = true ∧
      ((s.ctx c).billet.map Billet.earlyExit) = some true ∧ s.primCam c = k.val ∧
      (((s.det k).openBoxes.any (fun b => b.1 = c.val && b.2.object = obj && decide (lines ≤ b.2.last.toNat - b.2.first.toNat + 1))) = true ∨
        ((s.det k).eyeOpen.any (fun x => x.1 = obj.toNat && passed now ((x.2.1 + s.rd P.fio Reg.FIO_EYE_OFF_off_ct k +
          (lines * s.camSpacing k + 65535) / 65536) % 2 ^ 32))) = true) ∧ (obj.toNat, k.val) ∉ (s.ctx c).probes
    ∃ t, exec (.probeStart c obj k) s = .next t ∧
      (¬ starts → Frame s t [] [] []) ∧
      (starts → (s.ctx c).probes.length < 64 → (t.ctx c).probes = (s.ctx c).probes ++ [(obj.toNat, k.val)] ∧
        Frame s t [] [] [.ctxs]) ∧
      (starts → 64 ≤ (s.ctx c).probes.length → counted (0x501 + c) .discarded s t ∧ Frame s t [] [] [.openCtrs]))) ∧
  ((∀ (s : State) (k : Fin 4) (ck : Check) (o c : List Byte), s.calm → s.xckActs = true → SMap.find? s.sched.checks k = some ck →
    ck.origDigest = some o → ck.copyDigest = some c → ck.arb = none →
    let zero := List.replicate 16 (0 : Byte)
    let traffic := [P.blw, P.drc 0, P.drc 1].map (· / 4096)
    let obj := match ck.proto.box with | some b => b.object.toNat | none => ck.proto.tag
    let cam := match ck.proto.box with | some b => b.camera.val | none => 0
    let ends := fun (t : State) (outcome ctrAt : Nat) => t.rd P.xck Reg.XCK_LAST_INFO_outcome = outcome ∧
      t.ctr (P.xck + ctrAt) = (s.ctr (P.xck + ctrAt) + 1) % 2 ^ 64 ∧ (∀ p ∈ t.sched.checks, p.1 ≠ k.val) ∧
      t.rd P.xck Reg.XCK_LAST_INFO_ctx = ck.proto.ctx % 8
    let note := fun outcome : Nat => ((0xe02 : BitVec 12), (0x60 : BitVec 8),
      le 4 obj ++ le 1 ck.proto.ctx ++ le 1 outcome ++ le 1 0 ++ le 1 cam ++ o.take 4 ++ c.take 4)
    ∃ t, exec (.xcheckCompare k) s = .next t ∧
      (o = zero ∨ c = zero → ends t 3 0x828 ∧ records s t [note 3]) ∧
      (o ≠ zero → c ≠ zero → o = c → ends t 0 0x810 ∧ records s t [note 0]) ∧
      (o ≠ zero → c ≠ zero → o ≠ c → s.firstDiff k ck.proto.ctx = none → ends t 2 0x820 ∧
        (s.isFenced P.xck = false → t.inFault P.xck = true)) ∧
      (o ≠ zero → c ≠ zero → o ≠ c → ∀ n, s.firstDiff k ck.proto.ctx = some n →
        SMap.find? t.sched.checks k = some { ck with arb := some n } ∧
        (t.ctx ck.proto.ctx).hostQ = (s.ctx ck.proto.ctx).hostQ ++ [.arbitrate k] ∧
        PageFrame s t traffic [.sched, .ctxs, .host, .mem, .msys, .draws]) ∧
      PageFrame s t (P.xck / 4096 :: traffic) [.sched, .ctxs, .host, .mem, .msys, .draws, .openCtrs]) ∧
  (∀ (s : State) (k : Fin 4), s.atRest → SMap.find? s.sched.checks k = none ∨ s.xckActs = false →
    (∃ t, exec (.xcheckCompare k) s = .next t ∧ Frame s t [] [] []) ∧
    ∃ t, exec (.xcheckArbitrationDone k) s = .next t ∧ Frame s t [] [] []) ∧
  (∀ (s : State) (k : Fin 4) (ck : Check) (n : Nat), s.calm → s.xckActs = true → SMap.find? s.sched.checks k = some ck → ck.arb = some n →
    ck.arbEnded = true →
    let c := ck.proto.ctx
    let done := fun (t : State) (outcome ctrAt : Nat) => t.rd P.xck Reg.XCK_LAST_INFO_outcome = outcome ∧
      t.rd P.xck Reg.XCK_LAST_INFO_step = n % 2 ^ 16 ∧
      t.ctr (P.xck + ctrAt) = (s.ctr (P.xck + ctrAt) + 1) % 2 ^ 64 ∧ (∀ p ∈ t.sched.checks, p.1 ≠ k.val)
    ∃ t, exec (.xcheckArbitrationDone k) s = .next t ∧
      (∀ v, ck.arbTrace = some v → v = s.trace k 1 n → done t 1 0x818 ∧
        t.rd P.xck Reg.XCK_LAST_INFO_suspect = s.ranOn c n 0 ck.proto.tongs % 2 ^ 6) ∧
      (∀ v, ck.arbTrace = some v → v ≠ s.trace k 1 n → v = s.trace k 0 n → done t 1 0x818 ∧
        t.rd P.xck Reg.XCK_LAST_INFO_suspect = s.ranOn c n (s.anvFree.length / 2) ck.copyTongs % 2 ^ 6) ∧
      ((∀ v, ck.arbTrace = some v → v ≠ s.trace k 1 n ∧ v ≠ s.trace k 0 n) → done t 2 0x820 ∧
        (s.isFenced P.xck = false → t.inFault P.xck = true)) ∧
      (s.rdb P.xck Reg.XCK_CFG_fence_en = false → PageFrame s t [P.xck / 4096] [.sched, .host])) ∧
  (∀ (s : State) (c : Fin 8), s.calm → s.reaches (P.xck + 0x88) →
    let a := s.rd2 P.xck Reg.XCK_REGEN_ADDR_lo Reg.XCK_REGEN_ADDR_hi / 64 * 64
    let b := (s.fetch 2 a 192).1.load a 192
    let busy := s.rdb P.xck Reg.XCK_REGEN_CTL_busy = true ∨ s.works P.xck = false
    let read := [P.blw, P.drc 0, P.drc 1, P.xck].map (· / 4096)
    ∃ t, exec (.regenRequest c) s = .next t ∧
      (busy → Frame s t [] [] [.parity]) ∧
      (∀ st, s.regenRefusal c b = some st → ¬ busy → t.rd P.xck Reg.XCK_REGEN_CTL_status = st ∧
        t.rd P.xck Reg.XCK_REGEN_CTL_busy = 0 ∧ t.sched.regen = none ∧
        t.ctr (P.xck + 0x840) = (s.ctr (P.xck + 0x840) + 1) % 2 ^ 64 ∧
        records (s.fetch 2 a 192).1 t [(0xe02, 0x61, le 2 st ++ le 1 c ++ le 5 0 ++ (b.drop 80).take 8)] ∧
        PageFrame s t read [.sched, .host, .mem, .msys, .draws, .parity]) ∧
      (s.regenRefusal c b = none → ¬ busy → t.rd P.xck Reg.XCK_REGEN_CTL_busy = 1 ∧
        t.rd P.xck Reg.XCK_REGEN_CTL_ctx = c ∧ (t.sched.regen.map (fun r => (r.ctx, r.captured))) = some (c.val, false) ∧
        (t.ctx c).hostQ = (s.ctx c).hostQ ++ [.regen (readDesc ((b.drop 128).take 64))] ∧
        PageFrame s t read [.sched, .ctxs, .host, .mem, .msys, .draws, .parity])))

/-! ### Lanes, cameras and triggers -/

/-- LANE_LOSS, LANE_LOCKED, LANE_RETRAIN_FAIL, STREAM_PACKET, PACKET_SKEW_TIMEOUT and CONTROL_EVENT_PACKET (R64, R341,
R344 to R346, R348, R350, R353, R361, R368, R371): a locked lane that is lost says so, its camera too; it locks again
with the CTLE in use, and reports its taps and its eye; its third failed retrain is fault 0x10 and its camera LOST; a
packet is counted by what is wrong with it, a good one of the camera's stream takes its place by its tag; a lost
packet breaks its line. Without its clock nothing happens. PRBS_INJECT_ONE, PRBS_INJECT_PERIODIC, PRBS_LOCK and
PRBS_LOCK_LOST (R362, R363): the checker locks after 64 bits and is lost with 64 errors; a bit that is inverted counts
through the internal loopback only; a bound lane ignores and counts the injection. -/
def Obligations.LanesLockCountAndTestThemselves : Prop :=
  ((∀ (s : State) (n : Fin 16), s.live →
    let b := P.lane n
    let falls := (s.lane n).lost = false ∧ s.rdb b Reg.CXP_LANE_STAT_lock = true
    ∃ t, exec (.laneLoss n) s = .next t ∧ (¬ falls → Frame s t [] [] []) ∧
      (falls → t.lane n = { s.lane n with lost := true } ∧ (∀ m, m ≠ n.val → t.lane m = s.lane m) ∧
        t.rdb b Reg.CXP_LANE_STAT_lock = false ∧ t.blkBit b 8 = true ∧ t.ctr (b + 0x830) = (s.ctr (b + 0x830) + 1) % 2 ^ 64 ∧
        records s t [(BitVec.ofNat 12 (0x600 + n), 0x21, le 1 n ++ le 1 0 ++ le 1 ((s.laneCam n).getD 0xff))] ∧
        (s.laneCam n = none → Frame s t [Reg.CXP_LANE_STAT_lock.key b 0, Reg.BLK_STAT_blk.key b 0] [b + 0x830] [.lanes, .host]) ∧
        ∀ k, s.laneCam n = some k → n.val ∈ (t.cam k).lostLanes ∧ t.blkBit (P.cfeC k) 9 = true ∧
          Frame s t [Reg.CXP_LANE_STAT_lock.key b 0, Reg.BLK_STAT_blk.key b 0, Reg.BLK_STAT_blk.key (P.cfeC k) 0] [b + 0x830]
            [.lanes, .cams, .host])) ∧
  (∀ (s : State) (n : Fin 16) (ctle : BitVec 4) (dfe : BitVec 30) (eye : BitVec 10), s.live →
    let b := P.lane n
    let binds := ∃ k, s.laneUser n = some k ∧ s.camState k = 1 ∧ (s.camLanes k).length ≤ (s.cam k).answers.length
    let taps := if s.rdb b Reg.CXP_LANE_CFG_dfe_hold = true then [] else [Reg.CXP_LANE_DFE_tap1, Reg.CXP_LANE_DFE_tap2,
      Reg.CXP_LANE_DFE_tap3, Reg.CXP_LANE_DFE_tap4, Reg.CXP_LANE_DFE_tap5]
    ∃ t, exec (.laneLocked n ctle dfe eye) s = .next t ∧
      (s.works b = false ∨ s.rdb b Reg.CXP_LANE_STAT_lock = true → Frame s t [] [] []) ∧
      (s.works b = true → s.rdb b Reg.CXP_LANE_STAT_lock = false → t.rdb b Reg.CXP_LANE_STAT_lock = true ∧
        t.rdb b Reg.CXP_LANE_STAT_sig = true ∧ t.lane n = { s.lane n with lost := false, failedRetrains := 0 } ∧
        t.rd b Reg.CXP_LANE_STAT_ctle_act = if s.rdb b Reg.CXP_LANE_CFG_ctle_fix = true then s.rd b Reg.CXP_LANE_CFG_ctle % 2 ^ 4
          else ctle.toNat) ∧
      (s.works b = true → s.rdb b Reg.CXP_LANE_STAT_lock = false → t.rd b Reg.CXP_LANE_EYE_margin = eye.toNat ∧
        ∀ x ∈ taps.zipIdx, t.rd b x.1 = bits dfe.toNat (6 * x.2) 6) ∧
      (s.works b = true → s.rdb b Reg.CXP_LANE_STAT_lock = false → ¬ binds →
        (∀ k, s.laneCam n = some k → n.val ∉ (t.cam k).lostLanes ∧
          t.blkBit (P.cfeC k) 9 = !((s.cam k).lostLanes.all (fun x => x = n.val))) ∧
        records s t (if (s.lane n).lost = true then
          [(BitVec.ofNat 12 (0x600 + n), 0x21, le 1 n ++ le 1 1 ++ le 1 ((s.laneCam n).getD 0xff))] else []) ∧
        Frame s t ([Reg.CXP_LANE_STAT_lock.key b 0, Reg.CXP_LANE_STAT_sig.key b 0, Reg.CXP_LANE_STAT_ctle_act.key b 0,
          Reg.CXP_LANE_EYE_margin.key b 0, Reg.BLK_STAT_blk.key (P.cfeC ((s.laneCam n).getD 0)) 0] ++ taps.map (fun f => f.key b 0))
          [] [.lanes, .cams, .host]) ∧
      (∀ k : Fin 8, s.works b = true → s.rdb b Reg.CXP_LANE_STAT_lock = false → s.laneUser n = some k.val → s.camState k = 1 →
        (s.camLanes k).length ≤ (s.cam k).answers.length →
        (∀ m ∈ s.camLanes k, m = n.val ∨ s.rdb (P.lane m) Reg.CXP_LANE_STAT_lock = true) →
        (s.rd (P.cfeC k) Reg.CFE_CAM_BLK_trig_src = 0 → (s.cam k).fastUplink = false →
          t.camState k ≠ 2 ∧ t.rd (P.cfeC k) Reg.CFE_CAM_STAT_res = 5) ∧
        (t.camState k = 2 → t.rd (P.cfeC k) Reg.CFE_CAM_STAT_res = 0 ∧ t.blkBit (P.cfeC k) 8 = true ∧ (t.cam k).log = [] ∧
          (t.cam k).nextLine = 0 ∧ ∀ m ∈ s.camLanes k, t.laneCam m = some k.val ∧
            t.rd (P.lane m) Reg.CXP_LANE_CFG_rate = s.rd (P.cfeC k) Reg.CFE_CAM_BIND_rate % 2 ^ 3) ∧
        (t.camState k ≠ 2 → ∀ m ∈ s.camLanes k, t.rd (P.lane m) Reg.CXP_LANE_CFG_rate = s.rd (P.lane m) Reg.CXP_LANE_CFG_rate))) ∧
  (∀ (s : State) (n : Fin 16), s.live → ∃ t, exec (.laneRetrainFail n) s = .next t ∧
    ((s.lane n).lost = false → Frame s t [] [] []) ∧
    ((s.lane n).lost = true → (s.lane n).failedRetrains < 2 →
      t.lane n = { s.lane n with failedRetrains := (s.lane n).failedRetrains + 1 } ∧ Frame s t [] [] [.lanes]) ∧
    ((s.lane n).lost = true → 2 ≤ (s.lane n).failedRetrains → t.lane n = { s.lane n with failedRetrains := 0 } ∧
      (s.isFenced (P.lane n) = false → t.inFault (P.lane n) = true) ∧
      (s.rd (P.lane n) Reg.BLK_ERR_cause = 0 → t.rd (P.lane n) Reg.BLK_ERR_cause = 0x10) ∧
      (∀ k, s.laneCam n = some k → s.camState k = 2 → t.camState k = 3) ∧
      (s.laneCam n = none → Frame s t [Reg.BLK_STAT_state.key (P.lane n) 0, Reg.BLK_ERR_cause.key (P.lane n) 0,
        Reg.BLK_ERR_more.key (P.lane n) 0, Reg.BLK_ERR_count.key (P.lane n) 0] [] [.lanes, .host]))) ∧
  (∀ (s : State) (n : Fin 16) (p : StreamPacket), s.atRest → s.clocked = true →
    let b := P.lane n
    let v := p.codeViolations.toNat
    let d := p.disparityErrors.toNat
    let up := fun (t : State) (a i : Nat) => t.ctr a = (s.ctr a + i) % 2 ^ 64
    let base := [b + 0x800, b + 0x808, b + 0x810]
    let clean := v = 0 ∧ d = 0
    ∃ t, exec (.streamPacket n p) s = .next t ∧
      (s.rdb b Reg.CXP_LANE_STAT_lock = false → Frame s t [] [] []) ∧
      (s.rdb b Reg.CXP_LANE_STAT_lock = true → up t (b + 0x800) p.chars.toNat ∧ up t (b + 0x808) v ∧ up t (b + 0x810) d ∧
        (v ≠ 0 → t.blkBit b 9 = true) ∧ (d ≠ 0 → t.blkBit b 10 = true) ∧
        (¬ clean → Frame s t [Reg.BLK_STAT_blk.key b 0] base []) ∧
        (clean → p.crcOk = false → up t (b + 0x820) 1 ∧ t.blkBit b 11 = true ∧
          Frame s t [Reg.BLK_STAT_blk.key b 0] ((b + 0x820) :: base) []) ∧
        (clean → p.crcOk = true → s.laneCam n = none → Frame s t [] base []) ∧
        (clean → p.crcOk = true → ∀ k, s.laneCam n = some k →
          let c := s.cam k
          (p.streamId.toNat ≠ s.rd (P.cfeC k) Reg.CFE_CAM_FMT_stream_id → up t (b + 0x828) 1 ∧ Frame s t [] ((b + 0x828) :: base) []) ∧
          (p.streamId.toNat = s.rd (P.cfeC k) Reg.CFE_CAM_FMT_stream_id → up t (b + 0x818) 1 ∧
            (p.tag.toNat = c.nextTag → c.tagsHeld = [] → t.cam k = { c with nextTag := (p.tag.toNat + 1) % 256 }) ∧
            (p.tag.toNat ≠ c.nextTag → (p.tag.toNat + 256 - c.nextTag) % 256 < 128 →
              t.cam k = { c with tagsHeld := c.tagsHeld ++ [p.tag.toNat] }) ∧
            (p.tag.toNat ≠ c.nextTag → 128 ≤ (p.tag.toNat + 256 - c.nextTag) % 256 → t.cam k = c) ∧
            Frame s t [] ((b + 0x818) :: base) [.cams])))) ∧
  (∀ (s : State) (k : Fin 8), s.atRest → s.clocked = true → ∃ t, exec (.packetSkewTimeout k) s = .next t ∧
    ((s.cam k).tagsHeld = [] → Frame s t [] [] []) ∧
    ((s.cam k).tagsHeld ≠ [] → (t.cam k).lineBroken = true ∧ (∀ j, j ≠ k.val → t.cam j = s.cam j) ∧
      t.ctr (P.cfeC k + 0x828) = (s.ctr (P.cfeC k + 0x828) + 1) % 2 ^ 64 ∧ Frame s t [] [P.cfeC k + 0x828] [.cams])) ∧
  (∀ (s : State) (n : Fin 16) (data : List Byte), s.atRest → s.clocked = true → ∃ t, exec (.controlEventPacket n data) s = .next t ∧
    (s.rdb (P.lane n) Reg.CXP_LANE_STAT_lock = false → Frame s t [] [] []) ∧
    (s.rdb (P.lane n) Reg.CXP_LANE_STAT_lock = true → t.lane n = { s.lane n with rx := (s.lane n).rx ++ data } ∧
      (∀ m, m ≠ n.val → t.lane m = s.lane m) ∧ Frame s t [] [] [.lanes])) ∧
  (∀ (s : State) (n : Fin 16) (k : Fin 8) (ctle : BitVec 4) (dfe : BitVec 30) (eye : BitVec 10) (p : StreamPacket) (data : List Byte),
    s.atRest → s.clocked = false → (∃ t, exec (.laneRetrainFail n) s = .next t ∧ Frame s t [] [] []) ∧
    ∀ c ∈ [Instr.laneLoss n, .laneLocked n ctle dfe eye, .streamPacket n p, .packetSkewTimeout k, .controlEventPacket n data],
      ∃ t, exec c s = .next t ∧ Frame s t [] [] [])) ∧
  ((∀ (s : State) (n : Fin 16), s.atRest →
    let b := P.lane n
    let looped := s.rdb b Reg.CXP_PRBS_CFG_gen_dst = false ∧ s.rdb b Reg.CXP_PRBS_CFG_chk_en = true ∧
      s.rdb b Reg.CXP_PRBS_CFG_chk_lock = true
    let off := s.rdb b Reg.CXP_PRBS_CFG_gen_en = false
    let r := s.rd b Reg.CXP_PRBS_CFG_inj_rate
    let hit := fun (t : State) (run : Nat) => t.lane n = { s.lane n with injected := (s.lane n).injected + 1 } ∧
      (looped → t.ctr (b + 0x838) = (s.ctr (b + 0x838) + run) % 2 ^ 64 ∧ t.ctr (b + 0x840) = (s.ctr (b + 0x840) + 1) % 2 ^ 64 ∧
        t.blkBit b 12 = true) ∧ (¬ looped → Frame s t [] [] [.lanes]) ∧
      Frame s t [Reg.BLK_STAT_blk.key b 0] [b + 0x838, b + 0x840] [.lanes]
    (s.reaches (b + 0x50) → ∃ t, exec (.prbsInjectOne n) s = .next t ∧
      (s.rdb b Reg.CXP_LANE_STAT_bound = true → counted (0x600 + n) .ignoredWrite s t ∧ Frame s t [] [] [.openCtrs]) ∧
      (s.rdb b Reg.CXP_LANE_STAT_bound = false → off → Frame s t [] [] []) ∧
      (s.rdb b Reg.CXP_LANE_STAT_bound = false → ¬ off → hit t 1)) ∧
    (∃ t, exec (.prbsInjectPeriodic n) s = .next t ∧ (s.clocked = false ∨ r = 0 ∨ off → Frame s t [] [] []) ∧
      (s.clocked = true → r ≠ 0 → ¬ off → hit t (2 ^ (r + 9)))) ∧
    (∃ t, exec (.prbsLock n) s = .next t ∧
      (s.clocked = true → s.rdb b Reg.CXP_PRBS_CFG_chk_en = true → s.rdb b Reg.CXP_PRBS_CFG_chk_lock = false →
        t.rdb b Reg.CXP_PRBS_CFG_chk_lock = true ∧ t.ctr (b + 0x838) = (s.ctr (b + 0x838) + 64) % 2 ^ 64 ∧
        Frame s t [Reg.CXP_PRBS_CFG_chk_lock.key b 0] [b + 0x838] []) ∧
      (s.clocked = false ∨ s.rdb b Reg.CXP_PRBS_CFG_chk_en = false ∨ s.rdb b Reg.CXP_PRBS_CFG_chk_lock = true → Frame s t [] [] [])) ∧
    (∃ t, exec (.prbsLockLost n) s = .next t ∧
      (s.clocked = true → s.rdb b Reg.CXP_PRBS_CFG_chk_lock = true → t.rdb b Reg.CXP_PRBS_CFG_chk_lock = false ∧
        t.ctr (b + 0x840) = (s.ctr (b + 0x840) + 64) % 2 ^ 64 ∧ t.blkBit b 12 = true ∧ t.blkBit b 13 = true ∧
        Frame s t [Reg.CXP_PRBS_CFG_chk_lock.key b 0, Reg.BLK_STAT_blk.key b 0] [b + 0x840] []) ∧
      (s.clocked = false ∨ s.rdb b Reg.CXP_PRBS_CFG_chk_lock = false → Frame s t [] [] []))))

/-- CAMERA_BIND, DISCOVERY_ANSWER, BIND_TIMEOUT, CAMERA_UNBIND and CAMERA_LOSS_TIMEOUT (R347 to R349, R361, R369, R371): a
valid group goes into discovery, an invalid one is refused with 1; the answers of one device with its connections are
taken and the lanes retrain at the binding's rate, wrong ones end it with 3; the timeouts end it with 2 and 4;
unbinding and loss leave the binding with its lanes free and its log empty. -/
def Obligations.CamerasBindUnbindAndAreLost : Prop :=
  (∀ (s : State) (k : Fin 8) (v : Word) (rmax : BitVec 32), s.calm → s.reaches (P.cfeC k + 0x58) →
    bits v.toNat 16 16 = 0x6c3a → bits v.toNat 0 2 = 1 →
    let st := s.camState k
    let free := (st = 0 ∨ st = 3) ∧ s.inFault (P.cfeC k) = false
    let valid := alignedGroup (s.rd (P.cfeC k) Reg.CFE_CAM_BIND_lanes) = true ∧
      (∀ n ∈ s.camLanes k, s.laneUser n = none ∧ s.rdb (P.lane n) Reg.CXP_PRBS_CFG_gen_en = false ∧
        s.rdb (P.lane n) Reg.CXP_PRBS_CFG_chk_en = false) ∧
      s.rd (P.cfeC k) Reg.CFE_CAM_WIN_lat_min < s.rd (P.cfeC k) Reg.CFE_CAM_WIN_lat_max ∧ s.camFmt k ≠ 7 ∧
      1 ≤ s.camWidth k ∧ s.camWidth k ≤ 32768
    let idle := (P.cfeC k :: (s.camLanes k).map P.lane).map (fun p => Reg.BLK_STAT_state.key p 0)
    let cam' := { s.cam k with wasLost := decide (st = 3), rmax := rmax.toNat, answers := [] }
    ∃ t, exec (.cameraBind k v rmax) s = .next t ∧
      (¬ free → counted (0x611 + k) .ignoredWrite s t ∧ Frame s t [] [] [.openCtrs]) ∧
      (free → valid → t.camState k = 1 ∧ t.cam k = cam' ∧
        records s t [camRec s k 1 (s.rd (P.cfeC k) Reg.CFE_CAM_STAT_res)] ∧
        Frame s t ([Reg.CFE_CAM_STAT_state.key (P.cfeC k) 0, Reg.BLK_STAT_blk.key (P.cfeC k) 0] ++ idle) [] [.cams, .host, .draws] ∧
        ∀ p ∈ P.cfeC k :: (s.camLanes k).map P.lane, s.rd p Reg.BLK_STAT_state = idleHeld → t.works p = true) ∧
      (free → ¬ valid → (s.cam k).req = none → t.camState k = st ∧ t.rd (P.cfeC k) Reg.CFE_CAM_STAT_res = 1 ∧
        records s t [camRec s k st 1] ∧
        Frame s t ([Reg.CFE_CAM_STAT_state.key (P.cfeC k) 0, Reg.BLK_STAT_blk.key (P.cfeC k) 0, Reg.CFE_CAM_STAT_res.key (P.cfeC k) 0]
          ++ idle) [] [.cams, .host, .draws])) ∧
  (∀ (s : State) (k : Fin 8) (v : Word), s.calm → s.reaches (P.cfeC k + 0x58) →
    ∃ t, exec (.cameraUnbind k v) s = .next t ∧
      (bits v.toNat 16 16 ≠ 0x6c3a → counted (0x611 + k) .ignoredWrite s t ∧ Frame s t [] [] [.openCtrs]) ∧
      (bits v.toNat 16 16 = 0x6c3a → bits v.toNat 0 2 = 2 → s.camState k = 0 → Frame s t [] [] []) ∧
      (bits v.toNat 16 16 = 0x6c3a → bits v.toNat 0 2 = 2 → s.camState k ≠ 0 → t.camState k = 0 ∧ t.blkBit (P.cfeC k) 8 = false ∧
        (s.camState k = 2 → (t.cam k).log = [] ∧ (t.cam k).declared = [] ∧ (t.pipe k).inForce = none ∧ (t.pipe k).open_ = false ∧
          ∀ n ∈ s.camLanes k, t.laneCam n ≠ some k.val))) ∧
  (∀ (s : State) (n device : BitVec 16) (m : Fin 16) (k : Fin 8) (conn : BitVec 3) (fast : Bool), n = BitVec.ofNat 16 m → s.live →
    s.laneUser m = some k.val → s.camState k = 1 → ((s.cam k).answers.any (fun a => a.1 = m.val)) = false →
    let l := (s.cam k).answers ++ [(m.val, device.toNat, conn.toNat)]
    let all := (s.camLanes k).length ≤ l.length
    let good := (∀ c < (s.camLanes k).length, l.countP (fun a => a.2.2 = c) = 1) ∧ ∀ a ∈ l, ∀ b ∈ l, a.2.1 = b.2.1
    ∃ t, exec (.discoveryAnswer m device conn fast) s = .next t ∧ t.rd (P.lane m) Reg.CXP_LANE_STAT_conn = conn.toNat ∧
      (¬ all ∨ good → (t.cam k).answers = l ∧ t.camState k = 1 ∧
        (t.cam k).fastUplink = (if conn = 0 then fast else (s.cam k).fastUplink)) ∧
      (¬ all → Frame s t [Reg.CXP_LANE_STAT_conn.key (P.lane m) 0] [] [.cams]) ∧
      (all → good → (∀ i ∈ s.camLanes k, t.rdb (P.lane i) Reg.CXP_LANE_STAT_lock = false) ∧
        Frame s t (Reg.CXP_LANE_STAT_conn.key (P.lane m) 0 :: (s.camLanes k).map (fun i => Reg.CXP_LANE_STAT_lock.key (P.lane i) 0)) []
          [.cams]) ∧
      (all → ¬ good → t.camState k = (if (s.cam k).wasLost = true then 3 else 0) ∧ t.rd (P.cfeC k) Reg.CFE_CAM_STAT_res = 3)) ∧
  (∀ (s : State) (k : Fin 8) (ph : BindPhase), s.live →
    let all := (s.camLanes k).length ≤ (s.cam k).answers.length
    let due := s.camState k = 1 ∧ (ph = .discovery ∧ ¬ all ∨ ph = .speed ∧ all)
    ∃ t, exec (.bindTimeout k ph) s = .next t ∧ (¬ due → Frame s t [] [] []) ∧
      (due → t.camState k = (if (s.cam k).wasLost = true then 3 else 0) ∧ t.rd (P.cfeC k) Reg.CFE_CAM_STAT_res =
        (if ph = .discovery then 2 else 4) ∧ (t.cam k).answers = [] ∧ (t.cam k).req = none ∧
        ((s.cam k).req = none → records s t [camRec s k (if (s.cam k).wasLost = true then 3 else 0) (if ph = .discovery then 2 else 4)]
          ∧ Frame s t [Reg.CFE_CAM_STAT_state.key (P.cfeC k) 0, Reg.BLK_STAT_blk.key (P.cfeC k) 0,
            Reg.CFE_CAM_STAT_res.key (P.cfeC k) 0] [] [.cams, .host, .draws]))) ∧
  (∀ (s : State) (k : Fin 8) (n : Fin 16), s.live → ∃ t, exec (.cameraLossTimeout k n) s = .next t ∧
    (n.val ∉ (s.cam k).lostLanes ∨ s.camState k ≠ 2 → Frame s t [] [] []) ∧
    (n.val ∈ (s.cam k).lostLanes → s.camState k = 2 → t.camState k = 3 ∧ t.blkBit (P.cfeC k) 8 = false ∧ (t.cam k).log = [] ∧
      (t.cam k).declared = [] ∧ (t.pipe k).inForce = none ∧ ∀ m ∈ s.camLanes k, t.laneCam m ≠ some k.val)) ∧
  (∀ (s : State) (k : Fin 8) (n : Fin 16) (device : BitVec 16) (conn : BitVec 3) (fast : Bool) (ph : BindPhase), s.atRest →
    s.clocked = false → ∀ c ∈ [Instr.discoveryAnswer n device conn fast, .bindTimeout k ph, .cameraLossTimeout k n],
      ∃ t, exec c s = .next t ∧ Frame s t [] [] [])

/-- GP_TRIGGER, TRIGGER_WINDOW_EXPIRY, IMAGE_HEADER and LINE_COMPLETE (R17, R351 to R353, R355 to R359): a software
trigger of the owner is logged, one too soon after the last as not sent, one of another is counted; an expired entry's
line is supplied as dropped; a header that differs marks its line lost; a line pairs with the oldest trigger within
its window and takes the next number. -/
def Obligations.TriggersAndLinesArePaired : Prop :=
  (∀ (s : State) (who : Requester), s.calm → s.reaches (P.cfe0 + 0x60) →
    (∃ t, exec (.gpTrigger 0 who) s = .next t ∧ Frame s t [] [] []) ∧
    ∀ k : Fin 8,
    let owns := s.rd P.cfe0 Reg.CLAIM_CFE0_owner k = 4 ∧ s.rd P.cfe0 Reg.CLAIM_CFE0_unit k = (if who = .driver then 0 else 1)
    let acts := s.clocked = true ∧ s.works P.cfe0 = true ∧ s.camState k = 2 ∧ s.rd (P.cfeC k) Reg.CFE_CAM_BLK_trig_src < 2
    let late := (s.cam k).lastTrig.any (fun z => decide (z ≤ s.now) && decide (s.now < z + 1000)) = true
    ∃ t, exec (.gpTrigger (BitVec.ofNat 32 (2 ^ k.val)) who) s = .next t ∧
      (¬ owns → t.ctr (P.cfeC k + 0x838) = (s.ctr (P.cfeC k + 0x838) + 1) % 2 ^ 64 ∧ Frame s t [] [P.cfeC k + 0x838] []) ∧
      (owns → ¬ acts → Frame s t [] [] []) ∧
      (owns → acts → 64 ≤ (s.cam k).log.length → t.camState k = 3) ∧
      (owns → acts → (s.cam k).log.length < 64 → ¬ late →
        t.cam k = { s.cam k with log := (s.cam k).log ++ [{ count := 0, time := s.now, software := true, notSent := false }], lastTrig := some s.now } ∧
        t.rd (P.cfeC k) Reg.CFE_CAM_STAT_log = (s.cam k).log.length + 1 ∧
        Frame s t [Reg.CFE_CAM_STAT_log.key (P.cfeC k) 0] ((List.range 16).map (fun n => P.lane n + 0x848)) [.cams]) ∧
      (owns → acts → (s.cam k).log.length < 64 → late →
        t.ctr (P.cfeC k + 0x830) = (s.ctr (P.cfeC k + 0x830) + 1) % 2 ^ 64 ∧ (t.cam k).lastTrig = some s.now ∧
        ((s.cam k).log = [] → (t.cam k).log = [] ∧ (t.cam k).inbox = (s.cam k).inbox ++
          [{ number := (s.cam k).nextLine, count := 0, dropped := true, time := s.now, pixels := [], ovf := none }]))) ∧
  (∀ (s : State) (k : Fin 8), s.atRest → s.clocked = true → ∃ t, exec (.triggerWindowExpiry k) s = .next t ∧
    (s.camState k ≠ 2 ∨ s.oldestGone k = false → Frame s t [] [] []) ∧
    (∀ z, s.camState k = 2 → s.oldestGone k = true → (s.cam k).log = [z] →
      t.cam k = { s.cam k with log := [], nextLine := ((s.cam k).nextLine + 1) % 2 ^ 64,
                               inbox := (s.cam k).inbox ++ [{ number := (s.cam k).nextLine, count := z.count, dropped := true, time := s.now, pixels := [], ovf := none }] } ∧
      t.ctr (P.cfeC k + 0x808) = (s.ctr (P.cfeC k + 0x808) + 1) % 2 ^ 64 ∧
      t.ctr (P.cfeC k + 0x840) = (s.ctr (P.cfeC k + 0x840) + 1) % 2 ^ 64 ∧
      Frame s t [Reg.CFE_CAM_STAT_log.key (P.cfeC k) 0] [P.cfeC k + 0x808, P.cfeC k + 0x840] [.cams])) ∧
  (∀ (s : State) (k : Fin 8) (xsize : BitVec 24) (fmt : BitVec 3), s.atRest → s.clocked = true →
    let bad := xsize.toNat ≠ s.camWidth k ∨ fmt.toNat ≠ s.camFmt k
    ∃ t, exec (.imageHeader k xsize fmt) s = .next t ∧ (s.camState k ≠ 2 → Frame s t [] [] []) ∧
      (s.camState k = 2 → t.cam k = { s.cam k with mismatch := decide bad } ∧ t.blkBit (P.cfeC k) 10 = decide bad ∧
        t.ctr (P.cfeC k + 0x820) = (s.ctr (P.cfeC k + 0x820) + (if bad then 1 else 0)) % 2 ^ 64 ∧
        Frame s t [Reg.BLK_STAT_blk.key (P.cfeC k) 0] (if bad then [P.cfeC k + 0x820] else []) [.cams])) ∧
  (∀ (s : State) (k : Fin 8) (px : List (BitVec 16)), s.atRest → s.clocked = true →
    let c := s.cam k
    let b := P.cfeC k
    let broken := c.mismatch = true ∨ c.lineBroken = true ∨ px.length ≠ s.camWidth k * fmtChans (s.camFmt k)
    let values := px.map (fun v => v.toNat % 2 ^ fmtDepth (s.camFmt k))
    let line := fun count : Nat => ({ number := c.nextLine, count := count, dropped := false, time := s.now, pixels := values, ovf := none } : Line)
    let free := 2 ≤ s.rd b Reg.CFE_CAM_BLK_trig_src
    ∃ t, exec (.lineComplete k px) s = .next t ∧ (s.camState k ≠ 2 → Frame s t [] [] []) ∧
      (s.camState k = 2 → broken → t.cam k = { c with lineBroken := false } ∧
        t.ctr (b + 0x818) = (s.ctr (b + 0x818) + 1) % 2 ^ 64 ∧ Frame s t [] [b + 0x818] [.cams]) ∧
      (s.camState k = 2 → ¬ broken → free → t.cam k = { c with nextLine := (c.nextLine + 1) % 2 ^ 64, inbox := c.inbox ++ [line 0] } ∧
        t.ctr (b + 0x840) = (s.ctr (b + 0x840) + 1) % 2 ^ 64 ∧ Frame s t [] [b + 0x840] [.cams]) ∧
      (s.camState k = 2 → ¬ broken → ¬ free → c.log = [] → t.ctr (b + 0x810) = (s.ctr (b + 0x810) + 1) % 2 ^ 64 ∧
        Frame s t [] [b + 0x810] []) ∧
      (∀ z, s.camState k = 2 → ¬ broken → ¬ free → c.log = [z] → s.oldestGone k = false →
        (s.now < z.time + 100 * s.rd b Reg.CFE_CAM_WIN_lat_min → t.ctr (b + 0x810) = (s.ctr (b + 0x810) + 1) % 2 ^ 64 ∧
          Frame s t [] [b + 0x810] []) ∧
        (z.time + 100 * s.rd b Reg.CFE_CAM_WIN_lat_min ≤ s.now →
          t.cam k = { c with log := [], nextLine := (c.nextLine + 1) % 2 ^ 64, inbox := c.inbox ++ [line z.count] } ∧
          t.ctr (b + 0x800) = (s.ctr (b + 0x800) + 1) % 2 ^ 64 ∧
          Frame s t [Reg.CFE_CAM_STAT_log.key b 0] [b + 0x800, b + 0x840] [.cams]))) ∧
  (∀ (s : State) (k : Fin 8) (xsize : BitVec 24) (fmt : BitVec 3) (px : List (BitVec 16)), s.atRest → s.clocked = false →
    ∀ c ∈ [Instr.triggerWindowExpiry k, .imageHeader k xsize fmt, .lineComplete k px], ∃ t, exec c s = .next t ∧ Frame s t [] [] [])

/-! ### Line pipelines -/

/-- LPL_LINE, LINE_STAGE and LINE_READBACK (R248, R250, R372, R375, R382 to R385): the instance takes the camera's next
line; one of a range that overflowed is dropped; an overflow drops the rest of the block, counted and recorded; any
other line is counted and, with no set in force and 8-bit values, stands in the replay ring as it came. A
through-memory line is staged and read back; a full ring or a bank not the CFE's marks it. -/
def Obligations.LinesAreTakenStagedAndOverflow : Prop :=
  (∀ (s : State) (k : Fin 8) (ovf : Option OvfCause), s.calm →
    let c := s.cam k
    let b := P.lplC k
    let inst := P.lplI (s.rd b Reg.LPL_CAM_CFG_inst)
    let tm := s.rdb b Reg.LPL_CAM_CFG_mode = true
    let queue := if tm then c.fetched else c.inbox
    let left := fun (t : State) (ls : List Line) => t.cam k = (if tm then { c with fetched := ls } else { c with inbox := ls })
    (queue = [] ∨ s.clocked = false → ∃ t, exec (.lplLine k ovf) s = .next t ∧ Frame s t [] [] []) ∧
    (∀ l ls, s.clocked = true → queue = l :: ls → ∃ t, exec (.lplLine k ovf) s = .next t ∧ left t ls ∧
      let cause := if s.inFault inst = true ∨ s.inFault b = true ∨ s.inFault P.replay = true then some 4 else (if l.ovf.isSome then l.ovf else ovf).map ovfCode
      let rest := l.number / s.camH k * s.camH k + s.camH k - l.number
      (l.number < (s.pipe k).dropTo → Frame s t [] [] [.cams]) ∧
      (∀ o, (s.pipe k).dropTo ≤ l.number → cause = some o → (t.pipe k).dropTo = l.number + rest ∧ (t.pipe k).open_ = false ∧
        (∀ i < rest, l.number + i ∈ (t.pipe k).dropped) ∧ t.blkBit b 8 = true ∧
        t.ctr (b + 0x808) = (s.ctr (b + 0x808) + rest) % 2 ^ 64 ∧ t.ctr (b + 0x810) = (s.ctr (b + 0x810) + 1) % 2 ^ 64 ∧
        t.ctr (inst + 0x818) = (s.ctr (inst + 0x818) + 1) % 2 ^ 64 ∧
        recordsLast s t [(0x700, 0x29, le 1 k ++ le 1 o ++ le 2 0 ++ le 4 rest ++ le 8 l.number)]) ∧
      ((s.pipe k).dropTo ≤ l.number → cause = none → t.ctr (b + 0x800) = (s.ctr (b + 0x800) + 1) % 2 ^ 64 ∧
        t.ctr (inst + (if tm then 0x808 else 0x800)) = (s.ctr (inst + (if tm then 0x808 else 0x800)) + 1) % 2 ^ 64 ∧
        (t.pipe k).hist.head?.map Prod.fst = some l.number ∧ t.works inst = (s.works inst || decide (s.rd inst Reg.BLK_STAT_state = idleHeld))) ∧
      ((s.pipe k).dropTo ≤ l.number → cause = none → (s.pipe k).inForce = none → s.rd b Reg.LPL_PLOAD_STAT_state ≠ 2 →
        fmtDepth (s.camFmt k) = 8 → s.rdb b Reg.LPL_CAM_CFG_out16 = false → l.dropped = false → s.ringSlots k ≠ 0 →
        l.pixels.length = s.camWidth k * fmtChans (s.camFmt k) → (∀ v ∈ l.pixels, v < 256) →
        let a := s.slotAddr k (l.number / s.camH k * s.camH k) + l.number % s.camH k * s.linePitch k
        ∀ i < l.pixels.length, inDram (a + i) = true → s.takes a i → (Memory.read t.mem (a + i)).toNat = l.pixels.getD i 0) ∧
      PageFrame s t (b / 4096 :: inst / 4096 :: P.replay / 4096 :: P.tmp / 4096 :: trafficPages)
        [.cams, .pipes, .detect, .mem, .msys, .host, .draws])) ∧
  (∀ (s : State) (k : Fin 8), s.atRest →
    let c := s.cam k
    let b := P.lplC k
    let tm := s.rdb b Reg.LPL_CAM_CFG_mode = true
    (¬ tm ∨ c.inbox = [] ∨ s.clocked = false → ∃ t, exec (.lineStage k) s = .next t ∧ Frame s t [] [] []) ∧
    (∀ l ls, tm ∧ s.clocked = true → c.inbox = l :: ls → ∃ t, exec (.lineStage k) s = .next t ∧
      let full := s.tmDepth k ≤ (c.staged.filter (fun x => x.ovf.isNone)).length
      let ours := s.serves 195 5 = true
      t.cam k = { c with inbox := ls, staged := c.staged ++ [{ l with ovf := if full then some .stagingRing else if ours then none else some .refusedWrite }] } ∧
      (full ∨ ¬ ours → Frame s t [] [] [.cams]) ∧
      (¬ full → ours → t.ctr (b + 0x848) = (s.ctr (b + 0x848) + 1) % 2 ^ 64 ∧
        (inBytes (s.camFmt k) = 1 → ∀ i < l.pixels.length, s.takes (s.stageAddr k l.number) i →
          (Memory.read t.mem (s.stageAddr k l.number + i)).toNat = l.pixels.getD i 0 % 256) ∧
        (∀ a, a < s.stageAddr k l.number ∨ s.stageAddr k l.number + l.pixels.length * inBytes (s.camFmt k) ≤ a →
          Memory.read t.mem a = Memory.read s.mem a) ∧
        PageFrame s t (b / 4096 :: P.tmp / 4096 :: trafficPages) [.cams, .mem, .msys, .host, .draws]))) ∧
  (∀ (s : State) (i : Fin 4), s.atRest →
    (s.oldestStaged i = none ∨ s.clocked = false → ∃ t, exec (.lineReadback i) s = .next t ∧ Frame s t [] [] []) ∧
    (s.clocked = true → ∀ k l ls, s.oldestStaged i = some k → (s.cam k).staged = l :: ls → ∃ t, exec (.lineReadback i) s = .next t ∧
      let f := s.camFmt k
      let r := s.fetch 1 (s.stageAddr k l.number) (l.pixels.length * inBytes f)
      (t.cam k).staged = ls ∧ (t.cam k).inbox = (s.cam k).inbox ∧
      (l.ovf ≠ none → (t.cam k).fetched = (s.cam k).fetched ++ [l]) ∧
      (l.ovf = none → (t.cam k).fetched = (s.cam k).fetched ++ [{ l with pixels := (List.range l.pixels.length).map (fun j =>
          unle (r.1.load (s.stageAddr k l.number + j * inBytes f) (inBytes f))), dropped := l.dropped || r.2 }] ∧ Frame r.1 t [] [] [.cams]) ∧
      (l.ovf ≠ none → Frame s t [] [] [.cams]) ∧ (∀ d, d ≠ k → t.cam d = s.cam d) ∧
      PageFrame s t trafficPages [.cams, .mem, .msys, .host, .draws]))

/-- STATS_RECORD, LPL_PLOAD_GO and PARAM_ARM (R378, R379, R381, R388 to R390): the oldest finished block's record is
written and announced, or counted where the ring is full; a parameter load starts or ends with the code of the check
that fails, and its copied set stands by until its line. -/
def Obligations.StatisticsAndParameterLoads : Prop :=
  (∀ (s : State) (k : Fin 8), s.calm →
    let p := s.pipe k
    let b := P.lplC k
    let size := 2 ^ s.statLog k
    let nxt := (s.rd b Reg.LPL_STAT_RING_prod + 1) % size
    let full := nxt = s.rd b Reg.LPL_STAT_CONS_cons % size
    (p.statsDone = [] ∨ s.clocked = false → ∃ t, exec (.statsRecord k) s = .next t ∧ Frame s t [] [] []) ∧
    (∀ x xs, s.clocked = true → p.statsDone = x :: xs → ∃ t, exec (.statsRecord k) s = .next t ∧
      let bs := statBytes x k (fmtChans (s.camFmt k)) (s.camWidth k) (s.statShift k) (s.statPoint k) (fun i => Config.freeNat (s.draws + i))
      let a := s.rd2 b Reg.LPL_STAT_BASE_lo Reg.LPL_STAT_BASE_hi + s.rd b Reg.LPL_STAT_RING_prod % size * bs.length
      let w := (if x.counted = 0 then { s with draws := s.draws + bs.length } else s).put 0 a bs
      t.pipe k = { p with statsDone := xs } ∧
      (full → t.ctr (b + 0x840) = (s.ctr (b + 0x840) + 1) % 2 ^ 64 ∧ t.blkBit b 10 = true ∧
        Frame s t [Reg.BLK_STAT_blk.key b 0] [b + 0x840] [.pipes]) ∧
      (¬ full → t.rd b Reg.LPL_STAT_RING_prod = nxt % 2 ^ 12 ∧ t.ctr (b + 0x838) = (s.ctr (b + 0x838) + 1) % 2 ^ 64 ∧
        t.blkBit b 10 = decide ((nxt + 1) % size = s.rd b Reg.LPL_STAT_CONS_cons % size) ∧
        (s.rdb b Reg.LPL_CAM_CFG_stat_evt = true → records w t [(0x700, 0x28, le 1 k ++ le 3 0 ++ le 4 nxt ++ le 8 x.first)]) ∧
        (s.rdb b Reg.LPL_CAM_CFG_stat_evt = false → t.host = w.host) ∧
        (∀ i < bs.length, s.takes a i → Memory.read t.mem (a + i) = bs.getD i 0) ∧
        Frame w t [Reg.LPL_STAT_RING_prod.key b 0, Reg.BLK_STAT_blk.key b 0] [b + 0x838] [.pipes, .host] ∧
        PageFrame s t (b / 4096 :: P.tmp / 4096 :: trafficPages) [.pipes, .mem, .msys, .host, .draws]))) ∧
  (∀ (s : State) (k : Fin 8) (v : Word), s.calm → s.reaches (P.lplC k + 0x70) →
    let b := P.lplC k
    let st := s.rd b Reg.LPL_PLOAD_STAT_state
    let bound := s.camState k = 1 ∨ s.camState k = 2
    let keyed := bits v.toNat 16 16 = 0x7b1e
    let a := s.rd2 b Reg.LPL_PLOAD_SRC_lo Reg.LPL_PLOAD_SRC_hi
    let u := if keyed ∧ bit v.toNat 0 = true ∧ st = 0 ∧ bound then (s.fetch 4 a 64).1 else s
    let code := if (s.fetch 4 a 64).2 = true then 5 else u.imageCode k a
    ∃ t, exec (.lplPloadGo k v) s = .next t ∧
      (¬ keyed → counted (0x704 + k) .ignoredWrite s t ∧ Frame s t [] [] [.openCtrs, .parity]) ∧
      (keyed → bit v.toNat 0 = false → Frame s t [] [] [.parity]) ∧
      (keyed → bit v.toNat 0 = true → st ≠ 0 ∨ ¬ bound ∨ code ≠ 0 →
        t.rd b Reg.LPL_PLOAD_STAT_res = (if st ≠ 0 then 1 else if bound then code else 6) ∧
        t.rd b Reg.LPL_PLOAD_STAT_state = st ∧ t.ctr (b + 0x830) = (s.ctr (b + 0x830) + 1) % 2 ^ 64 ∧
        Frame u t [Reg.LPL_PLOAD_STAT_res.key b 0, Reg.LPL_PLOAD_STAT_state.key b 0, Reg.BLK_STAT_blk.key b 0] [b + 0x830] [.parity]) ∧
      (keyed → bit v.toNat 0 = true → st = 0 → bound → code = 0 → t.rd b Reg.LPL_PLOAD_STAT_state = 1 ∧ t.blkBit b 9 = true ∧
        Frame u t [Reg.LPL_PLOAD_STAT_state.key b 0, Reg.BLK_STAT_blk.key b 0] [] [.parity]) ∧
      PageFrame s t (b / 4096 :: trafficPages) [.host, .mem, .msys, .draws, .openCtrs, .parity]) ∧
  (∀ (s : State) (k : Fin 8) (ok : Bool), s.calm →
    let b := P.lplC k
    let a := s.rd2 b Reg.LPL_PLOAD_SRC_lo Reg.LPL_PLOAD_SRC_hi
    let ch := fmtChans (s.camFmt k)
    let n := (imageLayout (s.camWidth k) ch (unle (s.load (a + 4) 2))).2.2.2
    let r := s.fetch 4 a n
    let good := ok = true ∧ r.2 = false
    let loads := s.clocked = true ∧ s.rd b Reg.LPL_PLOAD_STAT_state = 1
    ∃ t, exec (.paramArm k ok) s = .next t ∧ (¬ loads → Frame s t [] [] []) ∧
      (loads → ¬ good → t.rd b Reg.LPL_PLOAD_STAT_state = 0 ∧ t.rd b Reg.LPL_PLOAD_STAT_res = 5 ∧
        t.blkBit b 9 = false ∧ t.ctr (b + 0x830) = (s.ctr (b + 0x830) + 1) % 2 ^ 64 ∧ t.pipes = s.pipes) ∧
      (loads → good → t.rd b Reg.LPL_PLOAD_STAT_state = 2 ∧ t.blkBit b 9 = true ∧
        t.pipe k = { s.pipe k with standby := some (r.1.readImage a (s.camWidth k) ch) }) ∧
      PageFrame s t (b / 4096 :: trafficPages) [.pipes, .host, .mem, .msys, .draws] ∧
      (loads → Frame r.1 t [Reg.LPL_PLOAD_STAT_state.key b 0, Reg.LPL_PLOAD_STAT_res.key b 0, Reg.BLK_STAT_blk.key b 0] [b + 0x830] [.pipes]))

/-! ### Encoders, line triggers and timers -/

/-- ENCODER_COUNT, ENCODER_STOP, CABLE_CHECK_TIMEOUT, INDEX_EDGE, CLR_FLT, ENC_CNT_WRITE and ENC_ZROUTE_WRITE (R394 to
R400, R403): an edge moves the count by one in its direction, both lines at once are illegal and at the limit an
encoder fault; a bare pair and a stop are shown; a routed index latches the count and arms the LTGs that wait for it;
a fault clears when its causes are gone; a count in use is not written. A page that does not act takes no notice of
its lines (the model's log entry 158). -/
def Obligations.EncodersCountLatchAndFault : Prop :=
  (∀ (s : State) (e : Fin 4) (a b : Bool) (dt : BitVec 40) (ill : BitVec 8) (p : Fin 3), s.calm → s.encActs = false →
    ∀ i ∈ [Instr.encoderCount e a b dt ill, .encoderStop e, .cableCheckTimeout e p, .indexEdge e],
      ∃ t, exec i s = .next t ∧ Frame s t [] [] []) ∧
  (∀ (s : State) (e : Fin 4) (a b : Bool) (dt : BitVec 40) (ill : BitVec 8), s.calm → s.encActs = true →
    let x := s.encOf e
    let mode := s.rd P.enc Reg.ENC_CFG_mode e
    let both := x.a ≠ a ∧ x.b ≠ b
    let onA := x.a ≠ a ∧ x.b = b
    let onB := x.a = a ∧ x.b ≠ b
    let counts := (onA ∧ ¬ (mode = 2 ∧ a = false)) ∨ (onB ∧ mode ≠ 1 ∧ mode ≠ 2)
    let fwd := xor (if onA then xor a b else !xor a b) (s.rdb P.enc Reg.ENC_CFG_dir_inv e)
    let fault := max 1 (s.rd P.enc Reg.ENC_CFG_ill_lim e) ≤ ill.toNat ∧ s.rdb P.enc Reg.ENC_STAT_flt e = false
    ∃ t, exec (.encoderCount e a b dt ill) s = .next t ∧ (t.encOf e).a = a ∧ (t.encOf e).b = b ∧
      (∀ d, d ≠ e.val → t.encOf d = s.encOf d) ∧
      (counts → t.encCount e = (s.encCount e + (if fwd = true then 1 else 2 ^ 32 - 1)) % 2 ^ 32 ∧
        t.rdb P.enc Reg.ENC_STAT_dir e = !fwd ∧ t.rdb P.enc Reg.ENC_STAT_stopped e = false ∧ (t.encOf e).last = s.now ∧
        (s.rdb P.enc Reg.ENC_STAT_stopped e = true → t.rd P.enc Reg.ENC_PER_per e = 0) ∧
        (s.rdb P.enc Reg.ENC_STAT_stopped e = false → s.rd P.enc Reg.ENC_CFG_avg e = 0 →
          t.rd P.enc Reg.ENC_PER_per e = min 0xffffffff (256 * dt.toNat)) ∧
        Frame s t [Reg.ENC_CNT_count.key P.enc e, Reg.ENC_STAT_dir.key P.enc e, Reg.ENC_STAT_stopped.key P.enc e,
          Reg.ENC_PER_per.key P.enc e] [] [.encs]) ∧
      (¬ counts → ¬ both → t.encOf e = { x with a := a, b := b } ∧ Frame s t [] [] [.encs]) ∧
      (both → t.rdb P.enc Reg.ENC_STAT_ill e = true ∧ t.blkBit P.enc 8 = true ∧
        t.ctr (P.enc + 0x800 + 0x20 * e) = (s.ctr (P.enc + 0x800 + 0x20 * e) + 1) % 2 ^ 64 ∧
        (¬ fault → Frame s t [Reg.ENC_STAT_ill.key P.enc e, Reg.BLK_STAT_blk.key P.enc 0] [P.enc + 0x800 + 0x20 * e] [.encs]) ∧
        (fault → t.rdb P.enc Reg.ENC_STAT_flt e = true ∧ t.rd P.enc Reg.ENC_STAT_flt_cause e = 1 ∧ t.blkBit P.enc 10 = true ∧
          records s t [(0x800, 0x30, le 1 e ++ le 1 1 ++ le 1 (s.rd P.enc Reg.ENC_STAT_cab e) ++ le 1 0 ++ le 4 (s.encCount e))] ∧
          Frame s t [Reg.ENC_STAT_ill.key P.enc e, Reg.ENC_STAT_flt.key P.enc e, Reg.ENC_STAT_flt_cause.key P.enc e,
            Reg.BLK_STAT_blk.key P.enc 0] [P.enc + 0x800 + 0x20 * e, P.enc + 0x808 + 0x20 * e] [.encs, .host]))) ∧
  (∀ (s : State) (e : Fin 4), s.atRest → s.encActs = true → ∃ t, exec (.encoderStop e) s = .next t ∧
    t.rdb P.enc Reg.ENC_STAT_stopped e = true ∧ t.rd P.enc Reg.ENC_PER_per e = 0 ∧
    t.encOf e = { s.encOf e with intervals := [] } ∧
    Frame s t [Reg.ENC_STAT_stopped.key P.enc e, Reg.ENC_PER_per.key P.enc e] [] [.encs]) ∧
  (∀ (s : State) (e : Fin 4) (p : Fin 3), s.calm → s.encActs = true →
    let none' := bit (s.rd P.enc Reg.ENC_STAT_cab e) p = true ∨ (p = 2 ∧ s.zRouted e = false)
    ∃ t, exec (.cableCheckTimeout e p) s = .next t ∧ (none' → Frame s t [] [] []) ∧
      (¬ none' → bit (t.rd P.enc Reg.ENC_STAT_cab e) p = true ∧ t.blkBit P.enc 9 = true ∧ t.rdb P.enc Reg.ENC_STAT_flt e = true ∧
        (s.rdb P.enc Reg.ENC_STAT_flt e = false → t.rd P.enc Reg.ENC_STAT_flt_cause e = 2 ∧
          t.host.produced.length = s.host.produced.length + 1) ∧
        (s.rdb P.enc Reg.ENC_STAT_flt e = true → t.host = s.host) ∧
        Frame s t [Reg.ENC_STAT_cab.key P.enc e, Reg.ENC_STAT_flt.key P.enc e, Reg.ENC_STAT_flt_cause.key P.enc e,
          Reg.BLK_STAT_blk.key P.enc 0] [P.enc + 0x808 + 0x20 * e] [.host])) ∧
  (∀ (s : State) (e : Fin 4), s.calm → s.encActs = true →
    let waits := fun l => s.rd P.ltg Reg.LTG_STAT_state l = 1 ∧ s.rd P.ltg Reg.LTG_CFG_enc l = e.val ∧ s.ltgActs = true
    let hit := fun l => s.ltgTimeMode l = false ∧ s.rdb P.enc Reg.ENC_STAT_dir e = false ∧
      (2 ^ 32 - s.rd P.ltg Reg.LTG_START_start l) % 2 ^ 32 < 2 ^ 31
    let cmp := fun l => (s.encCount e % 2 ^ 32 + s.rd P.ltg Reg.LTG_START_start l) % 2 ^ 32 * 65536
    ∃ t, exec (.indexEdge e) s = .next t ∧ (s.zRouted e = false → Frame s t [] [] []) ∧
      (s.zRouted e = true → t.rd P.enc Reg.ENC_IDX_count e = s.encCount e % 2 ^ 32 ∧ t.rdb P.enc Reg.ENC_STAT_idx e = true ∧
        t.ctr (P.enc + 0x810 + 0x20 * e) = (s.ctr (P.enc + 0x810 + 0x20 * e) + 1) % 2 ^ 64 ∧
        (∀ l < 4, waits l → t.rd P.ltg Reg.LTG_STAT_state l = 2 ∧
          (¬ hit l → t.ltgCmp l = cmp l) ∧
          (hit l → t.ltgCmp l = (cmp l + s.ltgS l) % 2 ^ 48 ∧ t.rd P.ltg Reg.LTG_LAST_count l = s.encCount e % 2 ^ 32 ∧
            t.ctr (P.ltg + 0x800 + 0x10 * l) = (s.ctr (P.ltg + 0x800 + 0x10 * l) + 1) % 2 ^ 64)) ∧
        (∀ l < 4, ¬ waits l → t.rd P.ltg Reg.LTG_STAT_state l = s.rd P.ltg Reg.LTG_STAT_state l ∧ t.ltgCmp l = s.ltgCmp l) ∧
        ((∀ l < 4, waits l → ¬ hit l) → PageFrame s t [P.enc / 4096, P.ltg / 4096] []) ∧
        ((∀ k ∈ List.range 8, s.owner (pathRes k) ≠ 3) → PageFrame s t [P.enc / 4096, P.ltg / 4096] [.field]))) ∧
  (∀ (s : State) (e : Fin 4) (agrees : Bool) (ill : BitVec 8), s.calm → s.reaches (P.enc + 0x44 + 0x20 * e) →
    let ok := s.rdb P.enc Reg.ENC_STAT_flt e = true ∧ agrees = false ∧ ill.toNat < max 1 (s.rd P.enc Reg.ENC_CFG_ill_lim e)
    ∃ t, exec (.clrFlt e agrees ill) s = .next t ∧ (¬ ok → Frame s t [] [] [.parity]) ∧
      (ok → t.rdb P.enc Reg.ENC_STAT_flt e = false ∧ t.rd P.enc Reg.ENC_STAT_flt_cause e = 0 ∧ t.rd P.enc Reg.ENC_STAT_cab e = 0 ∧
        records s t [(0x800, 0x30, le 1 e ++ le 1 3 ++ le 2 0 ++ le 4 (s.encCount e))] ∧
        Frame s t [Reg.ENC_STAT_flt.key P.enc e, Reg.ENC_STAT_flt_cause.key P.enc e, Reg.ENC_STAT_cab.key P.enc e] []
          [.host, .parity])) ∧
  (∀ (s : State) (e : Fin 4) (v : Word), s.atRest → s.reaches (P.enc + 0x4c + 0x20 * e) →
    let used := (∃ l ∈ List.range 4, s.rd P.ltg Reg.LTG_STAT_state l ≠ 0 ∧ s.rd P.ltg Reg.LTG_CFG_enc l = e.val) ∨
      ∃ g ∈ List.range 32, s.rd P.rtu Reg.RTU_GRP_CFG_armed g = 1 ∧ s.rd P.rtu Reg.RTU_GRP_CFG_enc g = e.val
    ∃ t, exec (.encCntWrite e v) s = .next t ∧
      (¬ used → t.encCount e = v.toNat ∧ Frame s t [Reg.ENC_CNT_count.key P.enc e] [] [.parity]) ∧
      (used → t.ctr (P.enc + 0x818 + 0x20 * e) = (s.ctr (P.enc + 0x818 + 0x20 * e) + 1) % 2 ^ 64 ∧
        Frame s t [] [P.enc + 0x818 + 0x20 * e] [.parity])) ∧
  (∀ (s : State) (v : Word), s.atRest → s.reaches (P.enc + 0xc0) → ∃ t, exec (.encZrouteWrite v) s = .next t ∧
    t.rd P.enc Reg.ENC_ZROUTE_z0_en = v.toNat % 2 ∧ t.rd P.enc Reg.ENC_ZROUTE_z0_to = v.toNat / 2 % 2 ∧
    t.rd P.enc Reg.ENC_ZROUTE_z1_en = v.toNat / 4 % 2 ∧ t.rd P.enc Reg.ENC_ZROUTE_z1_to = v.toNat / 8 % 2 ∧
    Frame s t [Reg.ENC_ZROUTE_z0_en.key P.enc 0, Reg.ENC_ZROUTE_z0_to.key P.enc 0, Reg.ENC_ZROUTE_z1_en.key P.enc 0,
      Reg.ENC_ZROUTE_z1_to.key P.enc 0] [] [.parity])

/-- LTG_ARM, LTG_DISARM, LTG_HIT, LTG_PULSE_END and EVENT_TIMER_EXPIRY (R126, R401 to R407): arming checks the spacing,
the start and the claims in the order of log entry 77, the model's own, and claims all or nothing; disarming frees all
but a channel whose pulse is on; a hit latches the count, triggers, pulses and moves the compare by the spacing; a
timer expiry triggers its LTG or records. An arming is the LTG page's enabling sequence, and a page in its fault state
arms and hits nothing (R104, R105). -/
def Obligations.LineTriggersArmHitAndDisarm : Prop :=
  (∀ (s : State) (l : Fin 4), s.calm → s.reaches (P.ltg + 0x54 + 0x40 * l) →
    let st := s.rd P.ltg Reg.LTG_START_start l
    let cnt := s.encCount (s.rd P.ltg Reg.LTG_CFG_enc l)
    let how := s.rd P.ltg Reg.LTG_CFG_start l
    let timed := s.rdb P.ltg Reg.LTG_CFG_src l = true
    let range := s.ltgS l < 0x10000 ∨ 0x400000000000 < s.ltgS l ∨ (how = 1 ∧ (st = 0 ∨ 2 ^ 31 ≤ st)) ∨ (how = 2 ∧ 2 ^ 31 ≤ st)
    let bad := if timed then 0 else if range then 3 else if how = 2 then (if s.zRouted (s.rd P.ltg Reg.LTG_CFG_enc l) = false then 4 else 0)
      else if how = 1 then 0 else if (cnt + 2 ^ 32 - st % 2 ^ 32) % 2 ^ 32 < 2 ^ 31 then 2 else 0
    let free := ∀ r ∈ s.ltgRes l, s.permits r 3 = true ∧ s.owner r = 0
    let code := if bad ≠ 0 then bad else if free then 0 else 1
    let stays := s.rd P.ltg Reg.LTG_STAT_state l ≠ 0 ∨ s.rd P.ltg Reg.BLK_STAT_state = 3
    ∃ t, exec (.ltgArm l) s = .next t ∧
      (stays → Frame s t [Reg.BLK_STAT_state.key P.ltg 0] [] [.parity]) ∧
      t.rd P.ltg Reg.BLK_STAT_state = (if s.rd P.ltg Reg.BLK_STAT_state = 1 then 0 else s.rd P.ltg Reg.BLK_STAT_state) ∧
      (¬ stays → t.rd P.ltg Reg.LTG_STAT_res l = code ∧
        t.rd P.ltg Reg.LTG_CTRL_arm l = (if code = 0 then 1 else 0)) ∧
      (¬ stays → code ≠ 0 → t.rd P.ltg Reg.LTG_STAT_state l = 0 ∧
        (∀ r ∈ s.ltgRes l, t.owner r = s.owner r) ∧ (code ≠ 1 → t.host = s.host)) ∧
      (¬ stays → code = 0 → (∀ r ∈ s.ltgRes l, t.owner r = 3 ∧ t.ownerUnit r = l) ∧ t.host = s.host ∧
        t.rd P.ltg Reg.LTG_STAT_state l = (if ¬ timed ∧ how = 2 then 1 else 2) ∧
        (¬ timed → how ≠ 2 → t.ltgCmp l = (if how = 1 then (cnt + st) % 2 ^ 32 else st % 2 ^ 32) * 65536)) ∧
      PageFrame s t [P.ltg / 4096, P.cfe0 / 4096, P.fio / 4096, P.enc / 4096] [.field, .host, .openCtrs, .parity]) ∧
  (∀ (s : State) (l : Fin 4), s.atRest → s.reaches (P.ltg + 0x54 + 0x40 * l) →
    ∃ t, exec (.ltgDisarm l) s = .next t ∧
      (s.rd P.ltg Reg.LTG_STAT_state l = 0 → Frame s t [] [] [.parity]) ∧
      (s.rd P.ltg Reg.LTG_STAT_state l ≠ 0 → t.rd P.ltg Reg.LTG_STAT_state l = 0 ∧ t.rd P.ltg Reg.LTG_CTRL_arm l = 0 ∧
        (∀ k < 8, ¬ (t.owner (pathRes k) = 3 ∧ t.ownerUnit (pathRes k) = l.val) ∧
          ¬ (t.owner (timerRes k) = 3 ∧ t.ownerUnit (timerRes k) = l.val)) ∧
        (∀ n < 16, s.ltgOwns l (chanRes n) = true → t.owner (chanRes n) = (if (s.chan n).demand = true then 3 else 0))) ∧
      PageFrame s t [P.ltg / 4096, P.cfe0 / 4096, P.fio / 4096, P.enc / 4096] [.field, .parity]) ∧
  (∀ (s : State) (l : Fin 4), s.atRest →
    let e := s.rd P.ltg Reg.LTG_CFG_enc l
    let due := (s.encCount e + 2 ^ 32 - (s.ltgCmp l + 65535) / 65536 % 2 ^ 32) % 2 ^ 32 < 2 ^ 31
    let hits := s.ltgActs = true ∧ s.rd P.ltg Reg.LTG_STAT_state l = 2 ∧ s.rdb P.ltg Reg.LTG_CFG_src l = false ∧ s.rdb P.enc Reg.ENC_STAT_dir e = false ∧ due
    let own := s.rdb P.ltg Reg.LTG_CFG_fo_en l = true ∧ s.ltgOwns l (chanRes (s.rd P.ltg Reg.LTG_CFG_fo_ch l)) = true
    let n := s.rd P.ltg Reg.LTG_CFG_fo_ch l
    ∃ t, exec (.ltgHit l) s = .next t ∧ (¬ hits → Frame s t [] [] []) ∧
      (hits → t.rd P.ltg Reg.LTG_LAST_count l = s.encCount e % 2 ^ 32 ∧ t.ltgCmp l = (s.ltgCmp l + s.ltgS l) % 2 ^ 48 ∧
        t.ctr (P.ltg + 0x800 + 0x10 * l) = (s.ctr (P.ltg + 0x800 + 0x10 * l) + 1) % 2 ^ 64 ∧
        (own → n < 16 → (t.chan n).demand = true) ∧
        (own → (s.chan n).demand = true → t.ctr (P.ltg + 0x808 + 0x10 * l) = (s.ctr (P.ltg + 0x808 + 0x10 * l) + 1) % 2 ^ 64) ∧
        ((∀ k ∈ s.ltgCams l, s.ltgOwns l (pathRes k) = false) → Frame s t [Reg.LTG_LAST_count.key P.ltg l,
          Reg.LTG_CMP_cmp_lo.key P.ltg l, Reg.LTG_CMP_cmp_hi.key P.ltg l] [P.ltg + 0x800 + 0x10 * l, P.ltg + 0x808 + 0x10 * l] [.field]))) ∧
  (∀ (s : State) (l : Fin 4), s.atRest → ∃ t, exec (.ltgPulseEnd l) s = .next t ∧
    (∀ n < 16, s.ltgOwns l (chanRes n) = true → (t.chan n).demand = false ∧ t.owner (chanRes n) =
      (if (s.chan n).demand = true ∧ s.rd P.ltg Reg.LTG_STAT_state l = 0 then 0 else 3)) ∧
    (∀ n, s.ltgOwns l (chanRes n) = false ∨ 16 ≤ n → (t.chan n).demand = (s.chan n).demand) ∧
    PageFrame s t [P.fio / 4096] [.field]) ∧
  (∀ (s : State) (k : Fin 8), s.calm →
    let a := P.enc + 0x880 + 8 * k
    let o := s.rd P.enc Reg.CLAIM_ENC_owner k
    let l := s.rd P.enc Reg.CLAIM_ENC_unit k
    let runs := s.encActs = true ∧ s.rdb P.enc Reg.TMR_CTL_run k = true
    ∃ t, exec (.eventTimerExpiry k) s = .next t ∧ (¬ runs → Frame s t [] [] []) ∧
      (runs → t.ctr a = (s.ctr a + 1) % 2 ^ 64) ∧
      (runs → o ≠ 3 → s.rdb P.enc Reg.TMR_CTL_evt k = true →
        records s t [(0x800, 0x32, le 1 k ++ le 7 0 ++ le 8 ((s.ctr a + 1) % 2 ^ 64))] ∧ Frame s t [] [a] [.host]) ∧
      (runs → o ≠ 3 → s.rdb P.enc Reg.TMR_CTL_evt k = false → Frame s t [] [a] []) ∧
      (runs → o = 3 → s.ltgActs = false ∨ s.rd P.ltg Reg.LTG_STAT_state l ≠ 2 ∨ s.rdb P.ltg Reg.LTG_CFG_src l = false → Frame s t [] [a] []) ∧
      (runs → o = 3 → l < 4 → s.ltgActs = true → s.rd P.ltg Reg.LTG_STAT_state l = 2 → s.rdb P.ltg Reg.LTG_CFG_src l = true →
        t.rd P.ltg Reg.LTG_LAST_count l = s.encCount (s.rd P.ltg Reg.LTG_CFG_enc l) % 2 ^ 32 ∧
        t.ctr (P.ltg + 0x800 + 0x10 * l) = (s.ctr (P.ltg + 0x800 + 0x10 * l) + 1) % 2 ^ 64))

/-! ### The Reject Timing Unit -/

/-- RTU_DEADLINE, COMMIT_POINT, LAUNCH and TARGET_COMPARE (R26 to R31, R300, R301, R408 to R416, R487): at its deadline an
entry resolves by its verdict, or by its fail mode; at its commit point a staged copy is confirmed or discarded and a
remote frame's bitmap is made; a launch switches its channels; at the compare the record pair goes out and the entry
is free. -/
def Obligations.EntriesResolveCommitLaunchAndCompare : Prop :=
  (∀ (s : State) (n : Fin 4096) (e : RtuEntry), s.atRest → s.entry n = some e →
    let due := s.rtuAlive = true ∧ e.state = 1 ∧ s.predicts e.group = true
    let nv := e.nv = true ∨ e.decision = none
    let reject := if nv then e.failPass = false else e.decision = some true
    let a := P.rtu + (if nv then 0x818 else if reject then 0x808 else 0x810)
    let remote := s.rd P.rtu Reg.RTU_GRP_CFG_kind e.group = 1
    let at' := if remote then some (s.launchTime e) else none
    let l := SMap.get s.rtu.slotTimes e.group []
    let k := SMap.get s.rtu.slotNext e.group 0
    let slot := s.rd P.rtu Reg.RTU_GRP_REM_slot0 e.group + k % max 1 (s.rd P.rtu Reg.RTU_GRP_REM_nslot e.group)
    ∃ t, exec (.rtuDeadline n) s = .next t ∧ (¬ due → Frame s t [] [] []) ∧
      (due → t.entry n = some { e with state := if reject then 2 else 3, nv := decide nv, launchAt := at' } ∧
        (∀ m < 4096, m ≠ n.val → t.entry m = s.entry m) ∧ t.ctr a = (s.ctr a + 1) % 2 ^ 64) ∧
      (due → ¬ remote → Frame s t [] [a] [.rtu]) ∧
      (due → remote → (∃ p ∈ l, p.1 = s.launchTime e) → Frame s t [] [a] [.rtu]) ∧
      (due → remote → (∀ p ∈ l, p.1 ≠ s.launchTime e) →
        SMap.get t.rtu.slotTimes e.group [] = l ++ [(s.launchTime e, slot)] ∧
        t.slotTime (s.groupPort e.group) slot = s.launchTime e % 2 ^ 64 ∧
        Frame s t [Reg.LSLOT_TIME_time_lo.key (P.eth (s.groupPort e.group)) slot,
          Reg.LSLOT_TIME_time_hi.key (P.eth (s.groupPort e.group)) slot] [a] [.rtu])) ∧
  (∀ (s : State) (n : Fin 4096) (e : RtuEntry), s.atRest → s.entry n = some e →
    let due := s.rtuAlive = true ∧ (e.state = 2 ∨ e.state = 3) ∧ e.committed = false ∧ s.predicts e.group = true
    let a := P.schC e.ctx + (if e.state = 2 then 0x880 else 0x888)
    let p := s.groupPort e.group
    let off := s.rd P.rtu Reg.RTU_GRP_FRM_bmp_off e.group
    let valves := 8 * ((s.groupAct0 e.group + s.groupNAct e.group + 7) / 8)
    let covered := fun (at' v : Nat) => ∃ x ∈ s.rtu.entries.map Prod.snd, (x.group = e.group ∧ x.launchAt = some at' ∧
      (x.state = 2 ∨ x.state = 4)) ∧ x.actFirst ≤ v ∧ v ≤ x.actLast
    ∃ t, exec (.commitPoint n) s = .next t ∧ (¬ due → Frame s t [] [] []) ∧
      (due → t.entry n = some { e with committed := true, staged := false, confirmed := e.staged && (decide (e.state = 2) && !e.nv) } ∧
        (∀ m < 4096, m ≠ n.val → t.entry m = s.entry m) ∧
        SMap.get t.rtu.tentGens n 0 = (if e.staged = true then (SMap.get s.rtu.tentGens n 0 + 1) % 65536 else SMap.get s.rtu.tentGens n 0) ∧
        (e.staged = true → t.ctr a = (s.ctr a + 1) % 2 ^ 64)) ∧
      (due → e.staged = false → e.launchAt = none → Frame s t [] [] [.rtu]) ∧
      (due → e.launchAt = none → Frame s t [] [a] [.rtu]) ∧
      (due → ∀ at', e.launchAt = some at' →
        ∀ x, (SMap.get s.rtu.slotTimes e.group []).find? (fun y => y.1 = at') = some x →
        (∀ v < valves, off + v / 8 < (s.slotBuf p x.2).length →
          bit (((t.slotBuf p x.2).getD (off + v / 8) 0).toNat) (v % 8) = decide (covered at' v)) ∧
        (t.slotBuf p x.2).length = (s.slotBuf p x.2).length ∧
        (∀ i < (s.slotBuf p x.2).length, i < off ∨ off + valves / 8 ≤ i → (t.slotBuf p x.2)[i]? = (s.slotBuf p x.2)[i]?) ∧
        ((∀ v < valves, ¬ covered at' v) → t.slotState p x.2 = 0) ∧
        ((∃ v ∈ List.range valves, covered at' v) → t.slotState p x.2 = 2 ∧ t.slotTime p x.2 = at' % 2 ^ 64)) ∧
      PageFrame s t [P.rtu / 4096, P.schC e.ctx / 4096, P.eth p / 4096] [.rtu, .ports]) ∧
  (∀ (s : State) (n : Fin 4096) (e : RtuEntry), s.atRest → s.entry n = some e →
    let remote := s.rd P.rtu Reg.RTU_GRP_CFG_kind e.group = 1
    let exact := ¬ remote ∧ s.rd P.rtu Reg.RTU_GRP_ADV_adv e.group = 0
    let due := s.rtuAlive = true ∧ e.state = 2 ∧
      (if exact then (s.groupCount e.group + 2 ^ 32 - e.target % 2 ^ 32) % 2 ^ 32 < 2 ^ 31 else s.predicts e.group = true)
    let off := (e.target + e.lenCt + s.rd P.rtu Reg.RTU_GRP_EXT_ext_ct e.group) % 2 ^ 32
    let a0 := s.groupAct0 e.group
    let c0 := s.rd P.rtu Reg.RTU_GRP_CFG_ch0 e.group
    let hit := fun c => a0 ≤ e.actFirst ∧ c0 + e.actFirst ≤ c + a0 ∧ c + a0 ≤ c0 + e.actLast
    let busy := ((List.range (c0 + e.actLast + 1)).filter (fun c => hit c ∧ SMap.get s.rtu.pulses c [] ≠ [])).length
    ∃ t, exec (.launch n) s = .next t ∧ (¬ due → Frame s t [] [] []) ∧
      (due → (∃ x, t.entry n = some x ∧ x.state = 4 ∧ x.acted = true ∧ x.committed = true) ∧
        (∀ m < 4096, m ≠ n.val → t.entry m = s.entry m)) ∧
      (due → remote → t.rtu.pulses = s.rtu.pulses) ∧
      (due → ¬ remote → a0 ≤ e.actFirst → (∀ c < 32, SMap.get t.rtu.pulses c [] =
          SMap.get s.rtu.pulses c [] ++ (if hit c then [off] else [])) ∧
        t.ctr (P.rtu + 0x830) = (s.ctr (P.rtu + 0x830) + busy) % 2 ^ 64) ∧
      (due → e.committed = true ∨ (e.staged = false ∧ e.launchAt = none) → Frame s t [] [P.rtu + 0x830] [.rtu]) ∧
      PageFrame s t [P.rtu / 4096, P.schC e.ctx / 4096, P.eth (s.groupPort e.group) / 4096] [.rtu, .ports]) ∧
  (∀ (s : State) (n : Fin 4096) (e : RtuEntry), s.calm → s.entry n = some e →
    let due := s.rtuAlive = true ∧ (s.groupCount e.group + 2 ^ 32 - e.target % 2 ^ 32) % 2 ^ 32 < 2 ^ 31
    let nv := e.nv = true ∨ (e.state = 1 ∧ e.decision = none)
    let state := if e.state ≠ 1 then e.state else if (if nv then e.failPass = false else e.decision = some true) then 2 else 3
    let acted := e.acted = true ∨ state = 2
    let confirmed := if e.committed = true then e.confirmed = true else e.staged = true ∧ state = 2 ∧ ¬ nv
    let v := if nv then none else e.verdict
    let flags := if v = none then 1 + (e.vflags &&& 12) else e.vflags + (if confirmed then 16 else 0)
    let head := le 4 e.object ++ le 4 e.target ++ le 1 e.camera ++ le 1 ((v.map Verdict.cls).getD 0) ++
      le 2 ((v.map Verdict.conf).getD 0) ++ le 1 e.ctx ++ le 1 flags ++ le 1 (if acted then 1 else 0) ++
      le 1 (e.group + (if e.multi = true then 128 else 0))
    ∃ t, exec (.targetCompare n) s = .next t ∧ (¬ due → Frame s t [] [] []) ∧
      (due → t.entry n = none ∧ (∀ m < 4096, m ≠ n.val → t.entry m = s.entry m) ∧
        SMap.get t.rtu.gens n 0 = (SMap.get s.rtu.gens n 0 + 1) % 256 ∧
        t.rd P.rtu Reg.RTU_STAT_used = t.rtu.entries.length % 2 ^ 13 ∧
        t.host.produced.take s.host.produced.length = s.host.produced ∧
        (t.host.produced.drop s.host.produced.length).head?.map (fun u => (u.target, u.recs.map (fun r => (r.src, r.typ, r.payload)))) =
          some (BitVec.ofNat 8 (s.target 0xf01), [(0xf01, 0x70, padTo 16 head),
            (0xf01, 0x71, padTo 16 ((v.map Verdict.digest).getD []))]) ∧
        (state = 2 → s.rd P.rtu Reg.RTU_GRP_CFG_kind e.group = 1 ∨ 1 ≤ s.groupAdv e.group →
          t.ctr (P.rtu + 0x850) = (s.ctr (P.rtu + 0x850) + 1) % 2 ^ 64)) ∧
      (due → e.state = 3 ∨ e.state = 4 → e.committed = true → SMap.find? s.rtu.audits e.key = none →
        Frame s t [Reg.RTU_STAT_used.key P.rtu 0] [] [.rtu, .host]) ∧
      PageFrame s t [P.rtu / 4096, P.schC e.ctx / 4096, P.eth (s.groupPort e.group) / 4096, P.xck / 4096,
        P.blw / 4096, P.drc 0 / 4096, P.drc 1 / 4096, P.tmp / 4096] [.rtu, .ports, .host, .mem, .msys, .draws]) ∧
  (∀ (s : State) (n : Fin 4096), s.atRest → s.entry n = none → ∀ c ∈ [Instr.rtuDeadline n, Instr.commitPoint n, Instr.launch n,
    Instr.targetCompare n], ∃ t, exec c s = .next t ∧ Frame s t [] [] [])

/-- ACTUATOR_OFF, MAX_ON_CUTOFF, RTU_OVF_CLEAR, RTU_GROUP_ARM, RTU_GROUP_DISARM and GROUP_CLAIM_RELEASE (R126 to R129,
R415, R416, R418, R419, R462): a pulse ends or is cut off; the overflow bit clears with its key and room; arming
checks ranges, slots and claims in the order of log entry 80, the model's own, and claims all or nothing, a claim that
another arming of the same cycle makes too falling to the lower class, then the lower unit, and failing the other with
code 5 (R127); disarming releases each claim with no pending use. -/
def Obligations.PulsesEndAndGroupsArmAndDisarm : Prop :=
  (∀ (s : State) (ch : Fin 16), s.atRest →
    let l := SMap.get s.rtu.pulses ch []
    let g := s.rd P.fio Reg.CLAIM_FIO_unit ch
    ∃ t, exec (.actuatorOff ch) s = .next t ∧ (SMap.get t.rtu.pulses ch []).length = l.length - 1 ∧
      (l ≠ [] → s.rdb P.rtu Reg.RTU_GRP_CFG_on_mode g = false → SMap.get t.rtu.pulses ch [] = l.tail) ∧
      (∀ x, s.rdb P.rtu Reg.RTU_GRP_CFG_on_mode g = true → l = [x] → SMap.get t.rtu.pulses ch [] = []) ∧
      (∀ c < 16, c ≠ ch.val → SMap.get t.rtu.pulses c [] = SMap.get s.rtu.pulses c []) ∧
      t.rtu.entries = s.rtu.entries ∧ Frame s t [] [] [.rtu]) ∧
  (∀ (s : State) (ch : Fin 16), s.atRest →
    let on := SMap.get s.rtu.pulses ch [] ≠ []
    ∃ t, exec (.maxOnCutoff ch) s = .next t ∧ SMap.get t.rtu.pulses ch [] = [] ∧
      (¬ on → Frame s t [] [] []) ∧
      (on → t.ctr (P.rtu + 0x838) = (s.ctr (P.rtu + 0x838) + 1) % 2 ^ 64 ∧
        (∀ c < 16, c ≠ ch.val → SMap.get t.rtu.pulses c [] = SMap.get s.rtu.pulses c []) ∧
        t.rtu.entries = s.rtu.entries ∧ Frame s t [] [P.rtu + 0x838] [.rtu])) ∧
  (∀ (s : State) (v : Word), s.calm → s.reaches (P.rtu + 0x40) →
    let asks := v.toNat % 2 = 1
    let ok := v.toNat / 65536 = 0x4e7d ∧ s.rd P.rtu Reg.RTU_STAT_used ≤ 3840
    let set := s.rdb P.rtu Reg.RTU_STAT_ovf = true
    ∃ t, exec (.rtuOvfClear v) s = .next t ∧ (¬ asks ∨ (ok ∧ ¬ set) → Frame s t [] [] []) ∧
      (asks → ok → set → t.rdb P.rtu Reg.RTU_STAT_ovf = false ∧
        records s t [(0x800, 0x31, le 1 3 ++ le 7 0 ++ le 2 (s.rd P.rtu Reg.RTU_STAT_used))] ∧
        Frame s t [Reg.RTU_STAT_ovf.key P.rtu 0] [] [.host]) ∧
      (asks → ¬ ok → counted (P.rtu / 4096) .ignoredWrite s t ∧ Frame s t [] [] [.openCtrs])) ∧
  (∀ (s : State) (g : Fin 32), s.calm → s.reaches (P.rtu + 0x100 + 0x20 * g) →
    let n := s.groupNAct g
    let remote := s.rd P.rtu Reg.RTU_GRP_CFG_kind g = 1
    let k := s.rd P.rtu Reg.RTU_GRP_REM_nslot g
    let s0 := s.rd P.rtu Reg.RTU_GRP_REM_slot0 g
    let grid := max 1 (s.rd P.rtu Reg.RTU_GRP_REM_grid g)
    let range := (1 ≤ n ∧ s.groupAct0 g + n ≤ 1024) ∧ (¬ remote → s.rd P.rtu Reg.RTU_GRP_CFG_ch0 g + n ≤ 16) ∧
      (remote → (1 ≤ k ∧ s0 + k ≤ 32) ∧ grid ≤ 1000 ∧ ∀ i ∈ (List.range k).map (· + s0),
        s.rd P.rtu Reg.RTU_GRP_FRM_bmp_off g + (s.groupAct0 g + n + 7) / 8 ≤ s.slotLen (s.groupPort g) i)
    let few := remote ∧ k < (40 + grid - 1) / grid + 1
    let free := ∀ r ∈ s.groupRes g, s.permits r 2 = true ∧ s.owner r = 0
    let code := if ¬ range then 3 else if few then 2 else if free then 0 else 1
    ∃ t, exec (.rtuGroupArm g) s = .next t ∧
      (s.rdb P.rtu Reg.RTU_GRP_CFG_armed g = true ∨ s.inFault P.rtu = true → Frame s t [Reg.BLK_STAT_state.key P.rtu 0] [] []) ∧
      (s.rd P.rtu Reg.BLK_STAT_state = idleHeld → t.rd P.rtu Reg.BLK_STAT_state = 0) ∧
      (s.rdb P.rtu Reg.RTU_GRP_CFG_armed g = false → s.inFault P.rtu = false → t.rd P.rtu Reg.RTU_GRP_CFG_res g = code ∧
        t.rdb P.rtu Reg.RTU_GRP_CFG_armed g = decide (code = 0) ∧ t.rdb P.rtu Reg.RTU_GRP_CFG_arm g = decide (code = 0) ∧
        (∀ r ∈ s.groupRes g, t.owner r = (if code = 0 then 2 else s.owner r)) ∧
        (code = 0 → ∀ r ∈ s.groupRes g, t.ownerUnit r = g.val) ∧ (code = 0 → ¬ remote → t.host = s.host) ∧
        (code = 2 ∨ code = 3 → Frame s t [Reg.BLK_STAT_state.key P.rtu 0, Reg.RTU_GRP_CFG_res.key P.rtu g, Reg.RTU_GRP_CFG_arm.key P.rtu g] [] []) ∧
        (code = 0 → remote → ∀ i ∈ (List.range k).map (· + s0), ∀ b, (s.slotCopy (s.groupPort g) i true).2 = some b →
          t.slotBuf (s.groupPort g) i = b)) ∧
      (¬ remote → PageFrame s t [P.rtu / 4096, P.fio / 4096, P.eth (s.groupPort g) / 4096] [.field, .host, .openCtrs]) ∧
      PageFrame s t [P.rtu / 4096, P.fio / 4096, P.eth (s.groupPort g) / 4096, P.blw / 4096, P.drc 0 / 4096, P.drc 1 / 4096,
        P.flt / 4096] [.field, .host, .ports, .openCtrs, .mem, .msys, .draws]) ∧
  (∀ (s : State) (g : Fin 32), s.atRest → s.reaches (P.rtu + 0x100 + 0x20 * g) →
    let armed := s.rdb P.rtu Reg.RTU_GRP_CFG_armed g = true
    let named := ∃ c ∈ List.range 8, s.ctxState c ∈ [ctxRunning, ctxStandby, ctxDraining] ∧ g.val ∈ (s.actMap c).map (fun m => m.2.2.1)
    ∃ t, exec (.rtuGroupDisarm g) s = .next t ∧ (¬ armed → Frame s t [] [] []) ∧
      (armed → named → t.rd P.rtu Reg.RTU_GRP_CFG_res g = 5 ∧ Frame s t [Reg.RTU_GRP_CFG_res.key P.rtu g] [] []) ∧
      (armed → ¬ named → t.rdb P.rtu Reg.RTU_GRP_CFG_armed g = false ∧ t.rdb P.rtu Reg.RTU_GRP_CFG_arm g = false ∧
        t.rd P.rtu Reg.RTU_GRP_CFG_res g = 0 ∧ t.rtu.entries = s.rtu.entries ∧
        ∀ r ∈ s.groupOwned g, t.owner r = (if s.pendingUse r = true then 2 else 0)) ∧
      PageFrame s t [P.rtu / 4096, P.fio / 4096, P.eth 0 / 4096, P.eth 1 / 4096] [.rtu, .field]) ∧
  (∀ (s : State) (g : Fin 32), s.atRest →
    let waits := g.val ∈ s.rtu.releasing
    ∃ t, exec (.groupClaimRelease g) s = .next t ∧ (¬ waits → Frame s t [] [] []) ∧
      (waits → (∀ r ∈ s.groupOwned g, t.owner r = (if s.pendingUse r = true then 2 else 0)) ∧
        ((∀ r ∈ s.groupOwned g, s.pendingUse r = false) → g.val ∉ t.rtu.releasing) ∧ t.rtu.entries = s.rtu.entries) ∧
      PageFrame s t [P.fio / 4096, P.eth 0 / 4096, P.eth 1 / 4096] [.rtu, .field]) ∧
  (∀ (s : State) (rivals : List Arming) (g : Fin 32), s.rdb P.rtu Reg.RTU_GRP_CFG_armed g = false → s.inFault P.rtu = false →
    s.groupRange g = true → s.slotsEnough g = true →
    let loses := fun r : Res => ∃ b ∈ rivals, (b.cls < 2 ∨ (b.cls = 2 ∧ b.unit < g.val)) ∧ r ∈ b.res ∧ s.claimCode r b.cls = none
    let fails := ∃ r ∈ s.groupRes g, s.claimCode r 2 ≠ none ∨ loses r
    let t := s.groupArmOn s rivals g
    (∀ r ∈ s.groupRes g, s.armCode rivals (s.groupArming g) r =
      (if s.claimCode r 2 ≠ none then s.claimCode r 2 else if loses r then some 5 else none)) ∧
    t.rdb P.rtu Reg.RTU_GRP_CFG_armed g = decide (¬ fails) ∧
    (fails → t.rd P.rtu Reg.RTU_GRP_CFG_res g = 1 ∧ ∀ r ∈ s.groupRes g, t.owner r = s.owner r) ∧
    (¬ fails → t.rd P.rtu Reg.RTU_GRP_CFG_res g = 0 ∧ ∀ r ∈ s.groupRes g, t.owner r = 2 ∧ t.ownerUnit r = g.val))

/-! ### Field inputs and outputs -/

/-- ISOLATION_MAIN_LOSS, FIELD_SLOT_TIMEOUT, FALLBACK_PATH_LOSS, MAIN_REQ, PICK_PHASE_END, OUTPUT_DIAGNOSTIC, OUTPUT_RETRY
and OUTPUT_CLR (R430 to R433, R436, R437, R448, R568, R570): the loss of the main path fences it and moves every
channel to the fallback path, or to none; only MAIN_REQ returns; an overload or over-temperature holds its output off
until it ends or is cleared. -/
def Obligations.FieldPathsAndProtectionAct : Prop :=
  (∀ (s : State) (cause : PathCause), s.calm →
    let main := s.rd P.fio Reg.FIO_GLB_path = 0
    let code := match cause with | .alignment => 1 | .slotErrors => 2 | .fioclk => 3 | .converter => 4
    ∃ t, exec (.isolationMainLoss cause) s = .next t ∧ (¬ main → Frame s t [] [] []) ∧
      (main → t.rd P.fio Reg.FIO_GLB_path = (if s.field.fallbackUp = true then 1 else 2) ∧ t.rd P.fio Reg.FIO_SUP_vin = 0 ∧
        t.rd P.fio Reg.FIO_SUP_iin = 0 ∧ t.rd P.flt Reg.FLT_FENCE2_iso_main = 1 ∧ t.rd P.flt Reg.FLT_STAT_retest = 0 ∧
        t.coll.lastUnit = some 96 ∧ t.blkBit P.fio 9 = true ∧
        t.ctr (P.fio + 0x908) = (s.ctr (P.fio + 0x908) + 1) % 2 ^ 64 ∧
        t.ctr (P.fio + 0x910) = (s.ctr (P.fio + 0x910) + (if cause = .slotErrors then 10 else 0)) % 2 ^ 64) ∧
      (main → s.field.fallbackUp = true → records s t
          [(0xe00, 0x80, le 2 0x900 ++ le 1 0 ++ le 1 1 ++ le 2 96 ++ le 2 0 ++ le 1 s.anvFree.length), (0x900, 0x3a, le 1 1 ++ le 1 code)] ∧
        Frame s t [Reg.FIO_GLB_path.key P.fio 0, Reg.FIO_SUP_vin.key P.fio 0, Reg.FIO_SUP_iin.key P.fio 0, Reg.BLK_STAT_blk.key P.fio 0,
          Reg.FLT_FENCE2_iso_main.key P.flt 0, Reg.FLT_STAT_retest.key P.flt 0, Reg.FLT_LAST_src.key P.flt 0,
          Reg.FLT_LAST_cause.key P.flt 0, Reg.FLT_LAST_action.key P.flt 0, Reg.BLK_STAT_blk.key P.flt 0]
          [P.fio + 0x908, P.fio + 0x910, P.flt + 0x800, P.flt + 0x828] [.field, .coll, .host]) ∧
      (main → s.field.fallbackUp = false → t.outputsOff ∧
        (s.isFenced P.fio = false → t.inFault P.fio = true)) ∧
      PageFrame s t [P.fio / 4096, P.flt / 4096] [.field, .coll, .host, .openCtrs]) ∧
  (∀ s : State, s.atRest → ∃ t, exec .fieldSlotTimeout s = .next t ∧
    (s.rd P.fio Reg.FIO_GLB_path = 0 → t.field.sideOff = true ∧ t.outputsOff ∧
      t.ctr (P.fio + 0x910) = (s.ctr (P.fio + 0x910) + 10) % 2 ^ 64 ∧ Frame s t [] [P.fio + 0x910] [.field]) ∧
    (s.rd P.fio Reg.FIO_GLB_path ≠ 0 → Frame s t [] [] [])) ∧
  (∀ s : State, s.calm → ∃ t, exec .fallbackPathLoss s = .next t ∧ t.field.fallbackUp = false ∧
    (s.rd P.fio Reg.FIO_GLB_path = 1 → t.rd P.fio Reg.FIO_GLB_path = 2 ∧ t.outputsOff ∧
      t.ctr (P.fio + 0x908) = (s.ctr (P.fio + 0x908) + 1) % 2 ^ 64 ∧
      (s.isFenced P.fio = false → t.inFault P.fio = true)) ∧
    (s.rd P.fio Reg.FIO_GLB_path ≠ 1 → Frame s t [] [] [.field]) ∧
    PageFrame s t [P.fio / 4096, P.flt / 4096] [.field, .coll, .host, .openCtrs]) ∧
  (∀ (s : State) (linkGood : Bool), s.calm → s.reaches (P.fio + 0x80) →
    let ok := linkGood = true ∧ s.rd P.fio Reg.FIO_GLB_path ≠ 0 ∧ s.inFault P.fio = false
    ∃ t, exec (.mainReq linkGood) s = .next t ∧
      (¬ ok → t.ctr (P.fio + 0x900) = (s.ctr (P.fio + 0x900) + 1) % 2 ^ 64 ∧ Frame s t [] [P.fio + 0x900] [.parity]) ∧
      (ok → t.rd P.fio Reg.FIO_GLB_path = 0 ∧ (s.rd P.fio Reg.BLK_STAT_state = idleHeld → t.works P.fio = true) ∧ t.field.sideOff = false ∧ t.rd P.flt Reg.FLT_FENCE2_iso_main = 0 ∧
        t.rd P.flt Reg.FLT_STAT_retest = (if s.coll.lastUnit = some 96 then 1 else s.rd P.flt Reg.FLT_STAT_retest) ∧
        records s t [(0x900, 0x3a, le 1 0 ++ le 1 5)] ∧ t.blkBit P.fio 9 = true ∧
        t.ctr (P.fio + 0x908) = (s.ctr (P.fio + 0x908) + 1) % 2 ^ 64 ∧
        Frame s t [Reg.FIO_GLB_path.key P.fio 0, Reg.BLK_STAT_blk.key P.fio 0, Reg.BLK_STAT_state.key P.fio 0, Reg.FLT_FENCE2_iso_main.key P.flt 0,
          Reg.FLT_STAT_retest.key P.flt 0] [P.fio + 0x908] [.field, .host, .parity])) ∧
  (∀ (s : State) (ch : Fin 16), s.atRest → s.settled → ∃ t, exec (.pickPhaseEnd ch) s = .next t ∧
    (t.chan ch).pick = false ∧ (∀ n < 16, (t.chan n).on = (s.chan n).on ∧ (n ≠ ch.val → (t.chan n).pick = (s.chan n).pick)) ∧
    Frame s t [] [] []) ∧
  (∀ (s : State) (ch : Fin 16) (kind : DiagKind) (arose : Bool), s.calm →
    let shown := s.rd P.fio Reg.FIO_GLB_path = 0 ∧ s.rd P.fio Reg.FIO_CH_CFG_dir ch = 1 ∧ s.rdb P.fio (diagFld kind) ch = !arose
    let a := P.fio + 0x808 + 0x10 * ch
    let off := kind = .ovl ∨ kind = .therm
    ∃ t, exec (.outputDiagnostic ch kind arose) s = .next t ∧ (¬ shown → Frame s t [] [] []) ∧
      (shown → arose = false → t.rdb P.fio (diagFld kind) ch = false ∧
        records s t [(0x900, 0x39, le 1 ch ++ le 1 (diagCode kind) ++ le 1 1)] ∧ Frame s t [(diagFld kind).key P.fio ch] [] [.host]) ∧
      (shown → arose = true → t.rdb P.fio (diagFld kind) ch = true ∧ t.ctr a = (s.ctr a + 1) % 2 ^ 64 ∧ t.blkBit P.fio 10 = true ∧
        (∀ f, diagSeen kind = some f → t.rdb P.fio f ch = true) ∧
        records s t [(0x900, 0x39, le 1 ch ++ le 1 (diagCode kind) ++ le 1 0)] ∧
        (off → (t.chan ch).prot = true ∧ (t.chan ch).on = false ∧
          (s.rdb P.fio Reg.FIO_CH_CFG_retry ch = false → t.rdb P.fio Reg.FIO_CH_STAT_off_latched ch = true)) ∧
        (¬ off → (t.chan ch).prot = (s.chan ch).prot) ∧ (∀ n < 16, n ≠ ch.val → (t.chan n).prot = (s.chan n).prot) ∧
        Frame s t ([(diagFld kind).key P.fio ch, Reg.BLK_STAT_blk.key P.fio 0, Reg.FIO_CH_STAT_off_latched.key P.fio ch] ++
          ((diagSeen kind).map (fun f => f.key P.fio ch)).toList) [a] [.field, .host])) ∧
  (∀ (s : State) (ch : Fin 16), s.atRest →
    let ok := s.rdb P.fio Reg.FIO_CH_CFG_retry ch = true ∧ (s.chan ch).prot = true ∧ s.rdb P.fio Reg.FIO_CH_STAT_therm ch = false
    ∃ t, exec (.outputRetry ch) s = .next t ∧ (¬ ok → Frame s t [] [] []) ∧ (ok → (t.chan ch).prot = false ∧
      (∀ n < 16, n ≠ ch.val → (t.chan n).prot = (s.chan n).prot) ∧ Frame s t [] [] [.field])) ∧
  (∀ (s : State) (ch : Fin 16), s.atRest → s.reaches (P.fio + 0x114 + 0x20 * ch) →
    let therm := s.rdb P.fio Reg.FIO_CH_STAT_therm ch = true
    let held := s.rdb P.fio Reg.FIO_CH_STAT_off_latched ch = true
    ∃ t, exec (.outputClr ch) s = .next t ∧
      (therm → t.ctr (P.fio + 0x900) = (s.ctr (P.fio + 0x900) + 1) % 2 ^ 64 ∧ Frame s t [] [P.fio + 0x900] [.parity]) ∧
      (¬ therm → ¬ held → Frame s t [] [] [.parity]) ∧
      (¬ therm → held → (t.chan ch).prot = false ∧ t.rdb P.fio Reg.FIO_CH_STAT_off_latched ch = false ∧
        (∀ n < 16, n ≠ ch.val → (t.chan n).prot = (s.chan n).prot) ∧
        Frame s t [Reg.FIO_CH_STAT_off_latched.key P.fio ch] [] [.field, .parity]))

/-- FIELD_BUDGET_RELOAD, GP_OUTPUT_CHANGE, MEASURE_REQUEST, MEASURE_RESULT, MIRROR_ENABLE, MIRROR_DISABLE, INPUT_EDGE,
WIRE_BREAK, WIRE_BREAK_CLEAR, SUPPLY_MEASUREMENT, TOTAL_FIELD_CURRENT_HIGH, SENSOR_SUPPLY_OVERLOAD and
SENSOR_SUPPLY_RETRY (R260, R439, R440, R443 to R447): a GP command goes while the period's budget lasts and waits
beyond it; the mirror claims and frees its channel; an edge is timed, counted and recorded and opens or closes its
photo-eye's object; supplies are measured. -/
def Obligations.FieldCommandsEdgesAndSuppliesAct : Prop :=
  (∀ s : State, s.atRest →
    let b := s.rd P.blw Reg.BLW_FIELD_budget
    let go := s.field.gpWait.take b
    ∃ t, exec .fieldBudgetReload s = .next t ∧ t.field.gpLeft = b - s.field.gpWait.length ∧ t.field.gpWait = s.field.gpWait.drop b ∧
      (∀ n < 16, (t.chan n).demand = (match (go.filter (fun g => g.1 = n)).getLast? with
        | some g => if s.rd P.fio Reg.CLAIM_FIO_owner n = 4 then decide (g.2 = 1) else (s.chan n).demand
        | none => (s.chan n).demand)) ∧
      t.field.measPending = (match (go.filter (fun g => 16 ≤ g.1)).getLast? with
        | some g => some (g.1 - 16, g.2)
        | none => s.field.measPending) ∧
      t.ctr (P.blw + 0xb00) = (s.ctr (P.blw + 0xb00) + go.length) % 2 ^ 64 ∧
      t.ctr (P.blw + 0xb08) = (s.ctr (P.blw + 0xb08) + (if s.field.gpWait = [] then 0 else 1)) % 2 ^ 64 ∧
      Frame s t [] [P.blw + 0xb00, P.blw + 0xb08] [.field]) ∧
  (∀ (s : State) (ch : Fin 16) (lvl : Bool) (who : Requester), s.atRest → s.reaches (P.fio + 0x10c + 0x20 * ch) →
    let mine := s.rd P.fio Reg.CLAIM_FIO_owner ch = 4 ∧ s.rd P.fio Reg.CLAIM_FIO_unit ch = (if who = .driver then 0 else 1)
    let new := s.rdb P.fio Reg.FIO_CH_OUT_lvl ch = !lvl
    let waits := s.field.gpLeft = 0 ∨ s.field.gpWait ≠ []
    ∃ t, exec (.gpOutputChange ch lvl who) s = .next t ∧
      (¬ mine → t.ctr (P.fio + 0x900) = (s.ctr (P.fio + 0x900) + 1) % 2 ^ 64 ∧ Frame s t [] [P.fio + 0x900] [.parity]) ∧
      (mine → ¬ new → Frame s t [] [] [.parity]) ∧
      (mine → new → t.rdb P.fio Reg.FIO_CH_OUT_lvl ch = lvl ∧
        (waits → t.field.gpWait = s.field.gpWait ++ [(ch.val, if lvl = true then 1 else 0)] ∧ (t.chan ch).demand = (s.chan ch).demand) ∧
        (¬ waits → t.field.gpLeft = s.field.gpLeft - 1 ∧ (t.chan ch).demand = lvl) ∧
        t.ctr (P.blw + 0xb00) = (s.ctr (P.blw + 0xb00) + (if waits then 0 else 1)) % 2 ^ 64 ∧
        (∀ n < 16, n ≠ ch.val → (t.chan n).demand = (s.chan n).demand) ∧
        Frame s t [Reg.FIO_CH_OUT_lvl.key P.fio ch] [P.blw + 0xb00] [.field, .parity])) ∧
  (∀ (s : State) (v : Word), s.atRest → s.reaches (P.fio + 0x8c) →
    let goes := bit v.toNat 8 = true ∧ s.rd P.fio Reg.FIO_GLB_path = 0
    let waits := s.field.gpLeft = 0 ∨ s.field.gpWait ≠ []
    let m := (v.toNat % 16, v.toNat / 16 % 2)
    ∃ t, exec (.measureRequest v) s = .next t ∧ (¬ goes → Frame s t [] [] [.parity]) ∧
      (goes → t.rdb P.fio Reg.FIO_MEAS_valid = false ∧
        (waits → t.field.gpWait = s.field.gpWait ++ [(16 + m.1, m.2)] ∧ t.field.measPending = s.field.measPending) ∧
        (¬ waits → t.field.measPending = some m ∧ t.field.gpLeft = s.field.gpLeft - 1) ∧
        t.ctr (P.blw + 0xb00) = (s.ctr (P.blw + 0xb00) + (if waits then 0 else 1)) % 2 ^ 64 ∧
        (∀ n < 16, (t.chan n).demand = (s.chan n).demand) ∧ Frame s t [Reg.FIO_MEAS_valid.key P.fio 0] [P.blw + 0xb00] [.field, .parity])) ∧
  (∀ (s : State) (ch : Fin 16) (value : BitVec 16), s.atRest →
    let asked := s.field.measPending.map Prod.fst = some ch.val
    ∃ t, exec (.measureResult ch value) s = .next t ∧ (¬ asked → Frame s t [] [] []) ∧
      (asked → t.rd P.fio Reg.FIO_MEAS_value = value.toNat ∧ t.rd P.fio Reg.FIO_MEAS_ch = ch ∧ t.rdb P.fio Reg.FIO_MEAS_valid = true ∧
        t.field.measPending = none ∧ Frame s t [Reg.FIO_MEAS_value.key P.fio 0, Reg.FIO_MEAS_ch.key P.fio 0,
          Reg.FIO_MEAS_valid.key P.fio 0] [] [.field])) ∧
  (∀ (s : State) (v : Word), s.calm → s.reaches (P.fio + 0x80) →
    let n := v.toNat / 4096 % 16
    let m := s.rd P.fio Reg.FIO_GLB_mirror_ch
    let was := s.rdb P.fio Reg.FIO_GLB_mirror_en = true
    let asks := bit v.toNat 8 = true
    let free := s.permits (chanRes n) 1 = true ∧ s.owner (chanRes n) = 0
    ∀ c ∈ [Instr.mirrorEnable v, .mirrorDisable v], ∃ t, exec c s = .next t ∧
      (was → t.rd P.fio Reg.FIO_GLB_mirror_ch = m) ∧ (¬ was → t.rd P.fio Reg.FIO_GLB_mirror_ch = n) ∧
      (was → n ≠ m → t.ctr (P.fio + 0x900) = (s.ctr (P.fio + 0x900) + 1) % 2 ^ 64) ∧
      (was → asks → Frame s t [] (if n = m then [] else [P.fio + 0x900]) [.parity]) ∧
      (was → ¬ asks → t.rdb P.fio Reg.FIO_GLB_mirror_en = false ∧ t.owner (chanRes m) = 0 ∧
        Frame s t [Reg.FIO_GLB_mirror_en.key P.fio 0, Reg.CLAIM_FIO_owner.key P.fio m, Reg.CLAIM_FIO_unit.key P.fio m]
          (if n = m then [] else [P.fio + 0x900]) [.field, .parity]) ∧
      (¬ was → ¬ asks → Frame s t [Reg.FIO_GLB_mirror_ch.key P.fio 0] [] [.parity]) ∧
      (¬ was → asks → free → t.rdb P.fio Reg.FIO_GLB_mirror_en = true ∧ t.owner (chanRes n) = 1 ∧
        Frame s t [Reg.FIO_GLB_mirror_en.key P.fio 0, Reg.FIO_GLB_mirror_ch.key P.fio 0, Reg.CLAIM_FIO_owner.key P.fio n,
          Reg.CLAIM_FIO_unit.key P.fio n] [] [.field, .parity]) ∧
      (¬ was → asks → ¬ free → t.rdb P.fio Reg.FIO_GLB_mirror_en = false ∧ t.owner (chanRes n) = s.owner (chanRes n) ∧
        t.rd P.fio Reg.CLAIM_ERR_code = (if s.permits (chanRes n) 1 = true then 1 else 4) ∧
        t.host.produced.length = s.host.produced.length + 1)) ∧
  (∀ (s : State) (ch : Fin 16) (level : Bool) (age count : BitVec 32) (near restart : Bool) (errored : BitVec 8), s.calm →
    let shown := s.rdb P.fio Reg.FIO_CH_CFG_dir ch = false ∧ s.noPath = false ∧ s.works P.fio = true ∧
      s.rdb P.fio Reg.FIO_CH_STAT_level ch = !level ∧
      ¬ (level = true ∧ s.rdb P.fio Reg.FIO_CH_STAT_wb ch = true)
    let slots := if s.rd P.fio Reg.FIO_GLB_path = 0 then errored.toNat else 0
    let delay := age.toNat + 20 * slots + (max 1 (s.rd P.fio Reg.FIO_CH_IN_filt_n ch) - 1) * s.samplePeriod ch
    let c := (s.edgeCount ch delay count.toNat).1
    let interp := 20480 < delay
    let fb := s.rd P.fio Reg.FIO_GLB_path = 1
    let mark := near = true ∨ restart = true ∨ fb
    let a := P.fio + 0x800 + 0x10 * ch
    let eye := fun k => s.rdb P.fio Reg.FIO_EYE_en k = true ∧ s.rd P.fio Reg.FIO_EYE_ch k = ch.val
    let lead := fun k => level = !s.rdb P.fio Reg.FIO_EYE_pol k
    ∃ t, exec (.inputEdge ch level age count near restart errored) s = .next t ∧ (¬ shown → Frame s t [] [] []) ∧
      (shown → t.rdb P.fio Reg.FIO_CH_STAT_level ch = level ∧
        t.rd2 P.fio Reg.FIO_CH_EDGE_t_e_lo Reg.FIO_CH_EDGE_t_e_hi ch = (s.now - delay) % 2 ^ 64 ∧
        (t.chan ch).lastCount = c ∧ t.ctr a = (s.ctr a + 1) % 2 ^ 64 ∧ (¬ interp → c = count.toNat) ∧
        t.ctr (P.fio + 0x910) = (s.ctr (P.fio + 0x910) + slots) % 2 ^ 64 ∧
        (interp → t.ctr (P.fio + 0x920) = (s.ctr (P.fio + 0x920) + 1) % 2 ^ 64 ∧ t.blkBit P.fio 13 = true) ∧
        (s.rdb P.fio Reg.FIO_CH_CFG_evt ch = true → records s t [(0x900, 0x38, le 1 ch ++ le 1 (if level = true then 1 else 0) ++
          le 1 ((if interp then 1 else 0) + (if fb then 2 else 0) + (if near = true ∨ restart = true then 4 else 0)) ++ le 1 0 ++
          le 4 c ++ le 8 (s.now - delay))]) ∧
        (s.rdb P.fio Reg.FIO_CH_CFG_evt ch = false → t.host = s.host) ∧
        (∀ k < 8, ¬ eye k → t.det k = s.det k) ∧
        (∀ k < 8, eye k → lead k → t.rd P.fio Reg.FIO_EYE_LEAD_count k = c % 2 ^ 32 ∧
          t.det k = { s.det k with eyeOpen := some ((s.det k).nextObj, c, decide mark), nextObj := ((s.det k).nextObj + 1) % 2 ^ 32 }) ∧
        (∀ k < 8, eye k → ¬ lead k → t.rd P.fio Reg.FIO_EYE_TRAIL_count k = c % 2 ^ 32 ∧ (t.det k).eyeOpen = none ∧
          (t.det k).nextObj = (s.det k).nextObj ∧ (t.det k).eyeDone = (s.det k).eyeDone ++ (match (s.det k).eyeOpen with
            | some (o, l, m) => [(o, l, c, m || decide mark)]
            | none => [])) ∧
        Frame s t ([Reg.FIO_CH_STAT_level.key P.fio ch, Reg.FIO_CH_EDGE_t_e_lo.key P.fio ch, Reg.FIO_CH_EDGE_t_e_hi.key P.fio ch,
          Reg.BLK_STAT_blk.key P.fio 0] ++ (List.range 8).map (fun k => Reg.FIO_EYE_LEAD_count.key P.fio k) ++
          (List.range 8).map (fun k => Reg.FIO_EYE_TRAIL_count.key P.fio k)) [a, P.fio + 0x910, P.fio + 0x920] [.field, .detect, .host])) ∧
  (∀ (s : State) (ch : Fin 16), s.calm →
    let shown := s.rd P.fio Reg.FIO_GLB_path = 0 ∧ s.rdb P.fio Reg.FIO_CH_CFG_dir ch = false ∧
      s.rdb P.fio Reg.FIO_CH_IN_wb_en ch = true ∧ s.rdb P.fio Reg.FIO_CH_STAT_wb ch = false
    let a := P.fio + 0x808 + 0x10 * ch
    (∃ t, exec (.wireBreak ch) s = .next t ∧ (¬ shown → Frame s t [] [] []) ∧
      (shown → t.rdb P.fio Reg.FIO_CH_STAT_wb ch = true ∧ t.rdb P.fio Reg.FIO_CH_STAT_wb_seen ch = true ∧
        t.rdb P.fio Reg.FIO_CH_STAT_level ch = false ∧ t.ctr a = (s.ctr a + 1) % 2 ^ 64 ∧ t.blkBit P.fio 11 = true ∧
        records s t [(0x900, 0x39, le 1 ch ++ le 1 6 ++ le 1 0)] ∧
        Frame s t [Reg.FIO_CH_STAT_wb.key P.fio ch, Reg.FIO_CH_STAT_wb_seen.key P.fio ch, Reg.FIO_CH_STAT_level.key P.fio ch,
          Reg.BLK_STAT_blk.key P.fio 0] [a] [.host])) ∧
    (∃ t, exec (.wireBreakClear ch) s = .next t ∧ (s.rdb P.fio Reg.FIO_CH_STAT_wb ch = false → Frame s t [] [] []) ∧
      (s.rdb P.fio Reg.FIO_CH_STAT_wb ch = true → t.rdb P.fio Reg.FIO_CH_STAT_wb ch = false ∧
        records s t [(0x900, 0x39, le 1 ch ++ le 1 6 ++ le 1 1)] ∧ Frame s t [Reg.FIO_CH_STAT_wb.key P.fio ch] [] [.host]))) ∧
  (∀ (s : State) (vin iin : BitVec 12), s.calm →
    let main := s.rd P.fio Reg.FIO_GLB_path = 0
    let lost := s.rd P.fio Reg.FIO_GLB_path = 2
    let low := if vin.toNat < 1800 then s.field.lowRun + 1 else 0
    let high := if 1900 ≤ vin.toNat then s.field.highRun + 1 else 0
    let uv := s.rdb P.fio Reg.FIO_SUP_uv = true
    let goes := ¬ lost ∧ 3 ≤ low ∧ ¬ uv
    let back := ¬ lost ∧ 101 ≤ high ∧ uv ∧ ¬ 3 ≤ low
    let shown := if main then vin.toNat else s.rd P.fio Reg.FIO_SUP_vin
    ∃ t, exec (.supplyMeasurement vin iin) s = .next t ∧ (lost → Frame s t [] [] []) ∧
      (¬ lost → t.field.lowRun = low ∧ t.field.highRun = high ∧ t.rd P.fio Reg.FIO_SUP_vin = shown ∧
        t.rd P.fio Reg.FIO_SUP_iin = (if main then iin.toNat else s.rd P.fio Reg.FIO_SUP_iin) ∧
        (main → iin.toNat ≤ 1050 → t.rdb P.fio Reg.FIO_SUP_ihigh = false)) ∧
      (goes → t.rdb P.fio Reg.FIO_SUP_uv = true ∧ t.rdb P.fio Reg.FIO_SUP_pgood = false ∧ t.outputsOff ∧ t.blkBit P.fio 8 = true ∧
        t.ctr (P.fio + 0x918) = (s.ctr (P.fio + 0x918) + 1) % 2 ^ 64 ∧
        records s t [(0x900, 0x3b, le 1 1 ++ le 1 0 ++ le 2 shown)]) ∧
      (back → t.rdb P.fio Reg.FIO_SUP_uv = false ∧ t.rdb P.fio Reg.FIO_SUP_pgood = true ∧
        records s t [(0x900, 0x3b, le 1 2 ++ le 1 0 ++ le 2 shown)]) ∧
      (¬ goes → ¬ back → Frame s t [Reg.FIO_SUP_vin.key P.fio 0, Reg.FIO_SUP_iin.key P.fio 0, Reg.FIO_SUP_ihigh.key P.fio 0] [] [.field]) ∧
      Frame s t [Reg.FIO_SUP_vin.key P.fio 0, Reg.FIO_SUP_iin.key P.fio 0, Reg.FIO_SUP_ihigh.key P.fio 0, Reg.FIO_SUP_uv.key P.fio 0,
        Reg.FIO_SUP_pgood.key P.fio 0, Reg.BLK_STAT_blk.key P.fio 0] [P.fio + 0x918] [.field, .host]) ∧
  (∀ s : State, s.calm →
    let shown := s.rd P.fio Reg.FIO_GLB_path = 0 ∧ s.rdb P.fio Reg.FIO_SUP_ihigh = false
    ∃ t, exec .totalFieldCurrentHigh s = .next t ∧ (¬ shown → Frame s t [] [] []) ∧
      (shown → t.rdb P.fio Reg.FIO_SUP_ihigh = true ∧ t.blkBit P.fio 12 = true ∧
        records s t [(0x900, 0x3b, le 1 3 ++ le 1 0 ++ le 2 (s.rd P.fio Reg.FIO_SUP_vin))] ∧
        Frame s t [Reg.FIO_SUP_ihigh.key P.fio 0, Reg.BLK_STAT_blk.key P.fio 0] [] [.host])) ∧
  (∀ (s : State) (k : Fin 8), s.calm →
    let above := bit (s.rd P.fio Reg.FIO_LS_ovl) k = true
    (∃ t, exec (.sensorSupplyOverload k) s = .next t ∧ (above → Frame s t [] [] []) ∧
      (¬ above → t.sensorOn k = false ∧ (∀ j < 8, bit (t.rd P.fio Reg.FIO_LS_ovl) j = (decide (j = k.val) || bit (s.rd P.fio Reg.FIO_LS_ovl) j)) ∧
        t.ctr (P.fio + 0x928) = (s.ctr (P.fio + 0x928) + 1) % 2 ^ 64 ∧ records s t [(0x900, 0x39, le 1 k ++ le 1 7 ++ le 1 0)] ∧
        Frame s t [Reg.FIO_LS_ovl.key P.fio 0] [P.fio + 0x928] [.host])) ∧
    (∃ t, exec (.sensorSupplyRetry k) s = .next t ∧ (¬ above → Frame s t [] [] []) ∧
      (above → (∀ j < 8, bit (t.rd P.fio Reg.FIO_LS_ovl) j = (decide (j ≠ k.val) && bit (s.rd P.fio Reg.FIO_LS_ovl) j)) ∧
        records s t [(0x900, 0x39, le 1 k ++ le 1 7 ++ le 1 1)] ∧ Frame s t [Reg.FIO_LS_ovl.key P.fio 0] [] [.host])))

/-! ### Ethernet and network time -/

/-- FRAME_RECEIVE, SFP_OVERCURRENT, SFP_RST, PLUG_IN_MODULE_CHANGE, LINK_STATE_CHANGE, PTP_RATE_WRITE, PTP_STEP, PTP_KICK,
PTP_HOLDOVER_EXPIRY, PPS_IN_EDGE and PPS_OUT_PULSE (R38, R452 to R459, R481): a frame is dropped and counted by the
first reason it meets, or goes to Brynade or to the firmware with its time; a cage and a link change once and are
recorded; a step is carried out or, beyond its limit with a remote group armed, refused. -/
def Obligations.FramesLinksAndTimeAreKept : Prop :=
  (∀ (s : State) (p : Fin 2) (f : List Byte) (fcsOk : Bool), s.atRest →
    let b := P.eth p
    let up := s.hostReach = true ∧ s.works b = true ∧ s.rdb b Reg.ETH_PORT_CFG_en = true ∧ s.rdb b Reg.ETH_PORT_STAT_link = true
    let mac := le 4 (s.rd b Reg.ETH_MAC_addr_lo) ++ le 2 (s.rd b Reg.ETH_MAC_addr_hi)
    let mine := f.take 6 = mac ∨ f.take 6 = List.replicate 6 0xff ∨ f.take 6 ∈ ptpMacs
    let drop := if fcsOk = false then 0x810 else if isPause f = true then 0x820 else if mine then 0 else 0x818
    let wakes := f.take 6 = mac ∧ s.seq.power = .banked
    let bry := s.isBrynade f = true
    let good := (bryParse f).2.wellFormed = true
    let corr : Int := (s.viewPort p Reg.ETH_TS_CORR_INT_rx_int 0 : Int) + sext 16 (s.rd b Reg.ETH_TS_CORR_rx_ext)
    let stamp := wrap 64 (roundDiv (100 * (s.now : Int) - corr) 100)
    ∃ t, exec (.frameReceive p f fcsOk) s = .next t ∧ (¬ up → Frame s t [] [] []) ∧
      (up → drop ≠ 0 → t.ctr (b + drop) = (s.ctr (b + drop) + 1) % 2 ^ 64 ∧ Frame s t [] [b + drop] []) ∧
      (up → drop = 0 → t.ctr (b + 0x808) = (s.ctr (b + 0x808) + 1) % 2 ^ 64 ∧
        (wakes → t.seq.power = .active ∨ bit (t.rd P.chip Reg.CHIP_WAKE_latch) (3 + p) = true)) ∧
      (up → drop = 0 → ¬ wakes → bry → good → t.bry = { s.bry with rx := s.bry.rx ++ [f] } ∧ Frame s t [] [b + 0x808] [.bry]) ∧
      (up → drop = 0 → ¬ wakes → bry → ¬ good → t.ctr (P.bry + 0x860) = (s.ctr (P.bry + 0x860) + 1) % 2 ^ 64 ∧
        Frame s t [] [b + 0x808, P.bry + 0x860] []) ∧
      (up → drop = 0 → ¬ wakes → ¬ bry → t.port p = { s.port p with rx := (s.port p).rx ++ [(f, stamp)] } ∧
        (∀ q < 2, q ≠ p.val → t.port q = s.port q) ∧ Frame s t [] [b + 0x808] [.ports])) ∧
  (∀ (s : State) (p : Fin 2), s.calm →
    let b := P.eth p
    let on := s.rdb b Reg.ETH_PORT_STAT_sfp_pwr = true
    ∃ t, exec (.sfpOvercurrent p) s = .next t ∧ (¬ on → Frame s t [] [] []) ∧
      (on → t.rdb b Reg.ETH_PORT_STAT_sfp_pwr = false ∧ t.rdb b Reg.ETH_PORT_STAT_ocp = true ∧ t.blkBit b 10 = true ∧
        records s t [(BitVec.ofNat 12 (srcOf b), 0x50, le 1 p ++ le 1 2)] ∧
        Frame s t [Reg.ETH_PORT_STAT_sfp_pwr.key b 0, Reg.ETH_PORT_STAT_ocp.key b 0, Reg.BLK_STAT_blk.key b 0] [] [.host])) ∧
  (∀ (s : State) (p : Fin 2) (v : Word), s.atRest → s.reaches (P.eth p + 0xc0) →
    let b := P.eth p
    let back := bit v.toNat 8 = true ∧ s.rdb b Reg.ETH_PORT_STAT_ocp = true
    let later := s.heldBack (b + 0xc0) = true
    ∃ t, exec (.sfpRst p v) s = .next t ∧
      (back → t.rdb b Reg.ETH_PORT_STAT_ocp = false ∧ t.rd b Reg.ETH_PORT_STAT_sfp_pwr = s.rd b Reg.ETH_PORT_STAT_present) ∧
      (¬ later → t.rdb b Reg.ETH_PORT_CFG_en = bit v.toNat 0 ∧ t.rdb b Reg.ETH_PORT_CFG_speed = bit v.toNat 1 ∧
        t.rd b Reg.ETH_PORT_CFG_fec = v.toNat / 4 % 4 ∧ (bit v.toNat 0 = true → s.rd b Reg.BLK_STAT_state = idleHeld → t.works b = true) ∧
        Frame s t ([Reg.ETH_PORT_CFG_en.key b 0, Reg.ETH_PORT_CFG_speed.key b 0, Reg.ETH_PORT_CFG_fec.key b 0,
          Reg.BLK_STAT_state.key b 0] ++ (if back then [Reg.ETH_PORT_STAT_ocp.key b 0, Reg.ETH_PORT_STAT_sfp_pwr.key b 0] else []))
          [] [.parity]) ∧
      (later → t.rd b Reg.ETH_PORT_CFG_en = s.rd b Reg.ETH_PORT_CFG_en → t.deferred = [(b + 0xc0, v.toNat)]) ∧
      PageFrame s t [b / 4096] [.deferred, .openCtrs, .parity]) ∧
  (∀ (s : State) (p : Fin 2) (inserted : Bool), s.calm →
    let b := P.eth p
    let new := s.rdb b Reg.ETH_PORT_STAT_present = !inserted
    ∃ t, exec (.plugInModuleChange p inserted) s = .next t ∧ (¬ new → Frame s t [] [] []) ∧
      (new → t.rdb b Reg.ETH_PORT_STAT_present = inserted ∧ t.rdb b Reg.ETH_PORT_STAT_ocp = false ∧
        t.rdb b Reg.ETH_PORT_STAT_sfp_pwr = (inserted && !s.unpowered) ∧
        records s t [(BitVec.ofNat 12 (srcOf b), 0x50, le 1 p ++ le 1 (if inserted = true then 4 else 3))] ∧
        Frame s t [Reg.ETH_PORT_STAT_present.key b 0, Reg.ETH_PORT_STAT_ocp.key b 0, Reg.ETH_PORT_STAT_sfp_pwr.key b 0] [] [.host])) ∧
  (∀ (s : State) (p : Fin 2) (up : Bool), s.calm →
    let b := P.eth p
    let new := s.rdb b Reg.ETH_PORT_STAT_link = !up ∧ (up = true → s.rdb b Reg.ETH_PORT_CFG_en = true ∧ s.hostReach = true)
    ∃ t, exec (.linkStateChange p up) s = .next t ∧ (¬ new → Frame s t [] [] []) ∧
      (new → t.rdb b Reg.ETH_PORT_STAT_link = up ∧
        records s t [(BitVec.ofNat 12 (srcOf b), 0x50, le 1 p ++ le 1 (if up = true then 1 else 0))] ∧
        (up = true → t.rdb b Reg.ETH_PORT_STAT_los = false ∧ t.seq.clkLost = s.seq.clkLost.filter (fun c => c ≠ .eth)) ∧
        (up = false → t.blkBit b 8 = true ∧ t.seq.clkLost = s.seq.clkLost) ∧
        Frame s t [Reg.ETH_PORT_STAT_link.key b 0, Reg.ETH_PORT_STAT_los.key b 0, Reg.BLK_STAT_blk.key b 0] [] [.host, .draws, .seq])) ∧
  (∀ (s : State) (v : Word), s.atRest → s.reaches (P.ptp + 0x50) → ∃ t, exec (.ptpRateWrite v) s = .next t ∧
    t.rd P.ptp Reg.PTP_RATE_rate = v.toNat ∧ Frame s t [Reg.PTP_RATE_rate.key P.ptp 0] [] [.parity]) ∧
  (∀ (s : State) (v : Word), s.calm → s.reaches (P.ptp + 0x54) →
    let d := sext 64 (s.rd2 P.ptp Reg.PTP_ADJ_offset_lo Reg.PTP_ADJ_offset_hi)
    let steps := v.toNat % 2 = 1
    let armed := ∃ g ∈ List.range 32, s.rd P.rtu Reg.RTU_GRP_CFG_armed g = 1 ∧ s.rd P.rtu Reg.RTU_GRP_CFG_kind g = 1
    let held := s.rd P.ptp Reg.BLK_CTRL_en = 1 ∧ s.ptp.running = true ∧ s.works P.ptp = true
    let stored := bits v.toNat 8 24
    let changed := bits (s.readWord (P.ptp + 0x54)) 8 24 ≠ stored
    let refused := armed ∧ (if held then s.rd P.ptp Reg.PTP_CTL_step_lim else v.toNat / 65536) < d.natAbs
    let valid := v.toNat / 2 % 2
    let new := s.rd P.ptp Reg.PTP_CTL_valid ≠ valid
    ∀ c ∈ [Instr.ptpStep v, .ptpKick v], ∃ t, exec c s = .next t ∧
      (¬ held → t.rd P.ptp Reg.PTP_CTL_holdover_s = v.toNat / 256 % 256 ∧ t.rd P.ptp Reg.PTP_CTL_step_lim = v.toNat / 65536) ∧
      (held → t.rd P.ptp Reg.PTP_CTL_holdover_s = s.rd P.ptp Reg.PTP_CTL_holdover_s ∧
        t.rd P.ptp Reg.PTP_CTL_step_lim = s.rd P.ptp Reg.PTP_CTL_step_lim) ∧
      (held → changed → (t.deferred.getLast?).any (fun x => decide (x.1 = P.ptp + 0x54) && decide (bits x.2 8 24 = stored)) ∧
        counted (P.ptp / 4096) .deferredWrite s t) ∧
      (¬ held ∨ ¬ changed → t.deferred = s.deferred ∧ t.openCtrs = s.openCtrs) ∧
      t.rd P.ptp Reg.PTP_CTL_valid = valid ∧
      (new → records s t [(BitVec.ofNat 12 (srcOf P.ptp), 0x51, le 1 valid ++ le 1 1)] ∧ (valid = 0 → t.blkBit P.ptp 8 = true)) ∧
      t.seq.clkLost = (if new ∧ valid = 1 then s.seq.clkLost.filter (fun c => c ≠ .eth) else s.seq.clkLost) ∧
      (¬ new → t.host = s.host) ∧
      (steps → ¬ refused → t.ptp = { s.ptp with ns := wrap 64 ((s.ptp.ns : Int) + d) } ∧
        t.ctr (P.ptp + 0x800) = (s.ctr (P.ptp + 0x800) + 1) % 2 ^ 64) ∧
      (steps → refused → t.ptp = s.ptp ∧ t.blkBit P.ptp 9 = true ∧ t.ctr (P.ptp + 0x808) = (s.ctr (P.ptp + 0x808) + 1) % 2 ^ 64) ∧
      (¬ steps → t.ptp = s.ptp) ∧
      Frame s t [Reg.PTP_CTL_holdover_s.key P.ptp 0, Reg.PTP_CTL_step_lim.key P.ptp 0, Reg.PTP_CTL_valid.key P.ptp 0,
        Reg.BLK_STAT_blk.key P.ptp 0] (if ¬ steps then [] else if refused then [P.ptp + 0x808] else [P.ptp + 0x800])
        [.ptp, .host, .seq, .parity, .deferred, .openCtrs]) ∧
  (∀ s : State, s.calm →
    let was := s.rdb P.ptp Reg.PTP_CTL_valid = true
    (∃ t, exec .ptpHoldoverExpiry s = .next t ∧ (¬ was → Frame s t [] [] []) ∧
      (was → t.rdb P.ptp Reg.PTP_CTL_valid = false ∧ t.blkBit P.ptp 8 = true ∧
        records s t [(BitVec.ofNat 12 (srcOf P.ptp), 0x51, le 1 0 ++ le 1 3)] ∧
        Frame s t [Reg.PTP_CTL_valid.key P.ptp 0, Reg.BLK_STAT_blk.key P.ptp 0] [] [.host])) ∧
    (∃ t, exec .ppsInEdge s = .next t ∧ (s.hostReach = false → Frame s t [] [] []) ∧ (s.hostReach = true → t.rd2 P.ptp Reg.PTP_PPS_IN_time_lo Reg.PTP_PPS_IN_time_hi = s.now % 2 ^ 64 ∧
      t.blkBit P.ptp 10 = true ∧ Frame s t [Reg.PTP_PPS_IN_time_lo.key P.ptp 0, Reg.PTP_PPS_IN_time_hi.key P.ptp 0,
        Reg.BLK_STAT_blk.key P.ptp 0] [] [])) ∧
    (let on := s.rdb P.ptp Reg.PTP_PPS_out_en = true ∧ s.timeInvalid = false ∧ s.inReset = false ∧ s.unpowered = false ∧
      s.works P.ptp = true
      ∃ t, exec .ppsOutPulse s = .next t ∧ t.ptp = { s.ptp with pps := s.ptp.pps || decide on } ∧ Frame s t [] [] [.ptp]))

/-- TSQ_POP, LSLOT_GO, LSLOT_COPY_DONE, LSLOT_CANCEL, LAUNCH_FETCH and FRAME_TRANSMIT (R130, R460 to R465, R477): a slot
loads its frame from memory and is armed, or ends with code 1; its owner alone may go and cancel, until the fetch; the
frame leaves with its fields filled, late ones are marked, a dead port drops them; the stamp queue holds 64. -/
def Obligations.SlotsLoadLaunchAndAreStamped : Prop :=
  (∀ (s : State) (p : Fin 2), s.atRest → s.reaches (P.eth p + 0xec) →
    let a := P.eth p + 0x858
    ∃ t, exec (.tsqPop p) s = .next t ∧
      ((s.port p).tsq = [] → t.ctr a = (s.ctr a + 1) % 2 ^ 64 ∧ Frame s t [] [a] [.parity]) ∧
      ((s.port p).tsq ≠ [] → t.port p = { s.port p with tsq := (s.port p).tsq.tail } ∧ (∀ q < 2, q ≠ p.val → t.port q = s.port q) ∧
        Frame s t [] [] [.ports, .parity])) ∧
  (∀ (s : State) (p : Fin 2) (i : Fin 32) (v : Word) (who : Requester), s.calm → s.reaches (P.eth p + 0x20c + 0x20 * i) →
    let r := slotRes p i
    let u := if who = .driver then 0 else 1
    let mine := s.owner r = 4 ∧ s.ownerUnit r = u
    let other := ¬ mine ∧ s.owner r ≠ 0
    let go := bit v.toNat 0 = true
    let cancel := bit v.toNat 1 = true
    let fetched := s.slotFetched p i = true
    let st := s.slotState p i
    let st' := if cancel ∧ st = 2 then 0 else st
    let res' := if cancel ∧ st = 2 then 4 else s.rd (P.eth p) Reg.LSLOT_CTRL_res i
    let refused := (mine ∧ fetched) ∨ (mine ∧ cancel ∧ st ≠ 2) ∨ (s.owner r = 0 ∧ (go ∨ cancel)) ∨ other
    let a := P.eth p + 0x858
    ∀ c ∈ [Instr.lslotGo p i v who, .lslotCancel p i v who], ∃ t, exec c s = .next t ∧
      t.slotState p i = (if mine ∧ ¬ fetched then (if go ∧ st' = 0 then 1 else st') else st) ∧
      t.rd (P.eth p) Reg.LSLOT_CTRL_res i = (if mine ∧ fetched then (if cancel then 5 else if go then 6 else s.rd (P.eth p) Reg.LSLOT_CTRL_res i)
        else if mine then (if go ∧ st' ≠ 0 then 6 else res') else s.rd (P.eth p) Reg.LSLOT_CTRL_res i) ∧
      t.rd (P.eth p) Reg.LSLOT_CTRL_ts_id i = (if (mine ∧ ¬ fetched) ∨ s.owner r = 0 then v.toNat / 65536
        else s.rd (P.eth p) Reg.LSLOT_CTRL_ts_id i) ∧
      (refused → t.ctr a = (s.ctr a + 1) % 2 ^ 64) ∧
      (other → go → t.rd (P.eth p) Reg.CLAIM_ERR_code = 1 ∧ t.host.produced.length = s.host.produced.length + 1) ∧
      (¬ (other ∧ go) → Frame s t [Reg.LSLOT_CTRL_state.key (P.eth p) i, Reg.LSLOT_CTRL_res.key (P.eth p) i,
        Reg.LSLOT_CTRL_ts_id.key (P.eth p) i] (if refused then [a] else []) [.ports, .parity]) ∧
      PageFrame s t [P.eth p / 4096] [.ports, .host, .openCtrs, .parity]) ∧
  (∀ (s : State) (p : Fin 2) (i : Fin 32) (readOk : Bool), s.calm →
    let src := s.rd2 (P.eth p) Reg.LSLOT_SRC_addr_lo Reg.LSLOT_SRC_addr_hi i
    let n := s.rd (P.eth p) Reg.LSLOT_CFG_len i
    let placed := 60 ≤ n ∧ n ≤ 1514 ∧ s.slotSource src n = true
    let u := (s.fetch 3 src n).1
    let ok := readOk = true ∧ placed ∧ (s.fetch 3 src n).2 = false
    let loads := s.clocked = true ∧ s.slotState p i = 1
    let read := if placed then [P.blw / 4096, P.drc 0 / 4096, P.drc 1 / 4096] else []
    let slotKeys := [Reg.LSLOT_CTRL_state.key (P.eth p) i, Reg.LSLOT_CTRL_res.key (P.eth p) i]
    ∃ t, exec (.lslotCopyDone p i readOk) s = .next t ∧ (¬ loads → Frame s t [] [] []) ∧
      (loads → ok → t.slotState p i = 2 ∧ t.slotBuf p i = u.load src n ∧
        (∀ j < 32, j ≠ i.val → t.slotBuf p j = s.slotBuf p j) ∧ (t.port p).sent = (s.port p).sent ∧
        Frame u t slotKeys [] [.ports] ∧ PageFrame s t (P.eth p / 4096 :: read) [.ports, .host, .mem, .msys, .draws]) ∧
      (loads → ¬ ok → t.slotState p i = 0 ∧ t.rd (P.eth p) Reg.LSLOT_CTRL_res i = 1 ∧ (∀ j < 32, t.slotBuf p j = s.slotBuf p j) ∧
        (¬ placed → Frame s t slotKeys [] [.ports]) ∧ (placed → Frame u t slotKeys [] [.ports]) ∧
        PageFrame s t (P.eth p / 4096 :: read) [.ports, .host, .mem, .msys, .draws])) ∧
  (∀ (s : State) (p : Fin 2) (i : Fin 32), s.atRest → ∃ t, exec (.launchFetch p i) s = .next t ∧
    (∀ j < 32, t.slotFetched p j = (s.slotFetched p j || decide (j = i.val ∧ s.slotState p i = 2))) ∧
    t.slotState p i = (if s.slotState p i = 2 then 3 else s.slotState p i) ∧
    (t.port p).sent = (s.port p).sent ∧ (∀ j < 32, t.slotBuf p j = s.slotBuf p j) ∧
    Frame s t [Reg.LSLOT_CTRL_state.key (P.eth p) i] [] [.ports]) ∧
  (∀ (s : State) (p : Fin 2) (i : Fin 32), s.calm →
    let b := P.eth p
    let goes := s.slotFetched p i = true ∧ ∀ j ∈ (s.port p).fetched, s.slotTime p i < s.slotTime p j ∨
      (s.slotTime p i = s.slotTime p j ∧ i.val ≤ j)
    let drops := s.txDisabled p = true ∨ s.rdb b Reg.ETH_PORT_STAT_link = false ∨ s.works b = false ∨
      (s.owner (slotRes p i) = 2 ∧ s.modState = 3)
    let late := s.slotTime p i + 50 < s.now
    let e : TsEntry := { id := s.rd b Reg.LSLOT_CTRL_ts_id i, isSlot := true, slot := i, late := decide late, time := max s.now (s.slotTime p i) }
    let stamps := s.rdb b Reg.LSLOT_CFG_ts_en i = true
    let full := 64 ≤ (s.port p).tsq.length
    ∃ t, exec (.frameTransmit p (.slot i)) s = .next t ∧ (¬ goes → Frame s t [] [] []) ∧
      (goes → t.slotState p i = 0 ∧ t.slotFetched p i = false ∧ t.slotBuf p i = s.slotBuf p i ∧
        t.rd b Reg.LSLOT_CTRL_res i = (if drops then 3 else if late then 2 else 0)) ∧
      (goes → drops → (t.port p).sent = (s.port p).sent ∧ t.ctr (b + 0x838) = (s.ctr (b + 0x838) + 1) % 2 ^ 64 ∧ t.blkBit b 12 = true ∧
        Frame s t [Reg.LSLOT_CTRL_state.key b i, Reg.LSLOT_CTRL_res.key b i, Reg.BLK_STAT_blk.key b 0] [b + 0x838] [.ports]) ∧
      (goes → ¬ drops → (t.port p).sent = (s.port p).sent ++ [onWire (s.slotFrame p i)] ∧
        t.ctr (b + 0x800) = (s.ctr (b + 0x800) + 1) % 2 ^ 64 ∧ t.ctr (b + 0x828) = (s.ctr (b + 0x828) + 1) % 2 ^ 64 ∧
        t.ctr (P.rtu + 0x840) = (s.ctr (P.rtu + 0x840) + (if s.owner (slotRes p i) = 2 then 1 else 0)) % 2 ^ 64 ∧
        (late → t.ctr (b + 0x830) = (s.ctr (b + 0x830) + 1) % 2 ^ 64 ∧ t.blkBit b 11 = true) ∧
        (stamps → ¬ full → (t.port p).tsq = (s.port p).tsq ++ [e]) ∧ (¬ stamps ∨ full → (t.port p).tsq = (s.port p).tsq) ∧
        (stamps → full → t.ctr (b + 0x840) = (s.ctr (b + 0x840) + 1) % 2 ^ 64 ∧ t.rd b Reg.ETH_TSQ_LOST_id = e.id ∧
          records s t [(BitVec.ofNat 12 (srcOf b), 0x52, le 1 p ++ le 1 0 ++ le 2 e.id)]) ∧
        Frame s t ([Reg.LSLOT_CTRL_state.key b i, Reg.LSLOT_CTRL_res.key b i] ++ (if late ∨ (stamps ∧ full) then
          [Reg.BLK_STAT_blk.key b 0] else []) ++ (if stamps ∧ full then [Reg.ETH_TSQ_LOST_id.key b 0] else []))
          ([b + 0x800, b + 0x828, b + 0x830, P.rtu + 0x840] ++ (if stamps ∧ full then [b + 0x840] else []))
          ([.ports] ++ (if stamps ∧ full then [.host] else [])))) ∧
  (∀ (s : State) (p : Fin 2) (f : List Byte) (want : Bool) (id : BitVec 16), s.calm →
    let b := P.eth p
    let rate := if s.rdb b Reg.ETH_PORT_CFG_speed = true then 10 else 25
    let goes := s.portDead p = false ∧ ∀ i ∈ (s.port p).fetched, ((onWire f).length + 20) * 8 ≤ (s.slotTime p i - s.now) * rate
    let full := 64 ≤ (s.port p).tsq.length
    let corr : Int := (s.viewPort p Reg.ETH_TS_CORR_INT_tx_int 0 : Int) + sext 16 (s.rd b Reg.ETH_TS_CORR_tx_ext)
    let stamp := wrap 64 (roundDiv (100 * (s.now : Int) + corr) 100)
    ∃ t, exec (.frameTransmit p (.ring f want id)) s = .next t ∧ (¬ goes → Frame s t [] [] []) ∧
      (goes → (t.port p).sent = (s.port p).sent ++ [onWire f] ∧ t.ctr (b + 0x800) = (s.ctr (b + 0x800) + 1) % 2 ^ 64 ∧
        (want = true → ¬ full → (t.port p).tsq = (s.port p).tsq ++
          [{ id := id.toNat, isSlot := false, slot := 0, late := false, time := stamp }]) ∧
        (want = false ∨ full → (t.port p).tsq = (s.port p).tsq)) ∧
      (goes → want = false ∨ ¬ full → Frame s t [] [b + 0x800] [.ports]) ∧
      (goes → want = true → full → t.ctr (b + 0x840) = (s.ctr (b + 0x840) + 1) % 2 ^ 64 ∧
        Frame s t [Reg.ETH_TSQ_LOST_id.key b 0, Reg.BLK_STAT_blk.key b 0] [b + 0x800, b + 0x840] [.ports, .host]))

/-! ### Brynade -/

/-- SEND_TRANSFER, BRYNADE_DATA, BRYNADE_ACK, BRYNADE_NAK, ACK_TIMER and RETRANSMIT_TIMEOUT (R466 to R471): the oldest
request of a ring is cut into packets that leave as the credit allows; a packet in order is accepted once, lands or
waits for its job, a duplicate is acknowledged again, a gap is answered by one NAK per rto; an acknowledgement frees
and lets go, a resend counts up to max_retry and then faults the flow. The flow's entry, a request's source and a
landing are accesses to DRAM and are charged as such (R254). Before the first ACK there is no limit and a NAK counts
as a resend (log entry 94, the model's own). -/
def Obligations.FlowsSendAcknowledgeAndResend : Prop :=
  (∀ (s : State) (f : BitVec 12), PageFrame s (s.flowTouch f.toNat) trafficPages [.host, .mem, .msys, .draws]) ∧
  (∀ (s : State) (c : Fin 8), s.atRest →
    let a := s.sqBase c
    let n := s.sqSize c
    let prod := unle (s.load a 4) % n
    let cons := unle (s.load (a + 4) 4) % n
    let r := s.load (a + 64 + 16 * cons) 16
    let has := s.flowsAlive = true ∧ s.rdb P.bry Reg.BRY_SQ_en c = true ∧ s.sqReach c = true ∧ prod ≠ cons
    let s1 := s.store (a + 4) (le 4 ((cons + 1) % n))
    let v := (s.dmaServed (a + 64 + 16 * cons) 16).dmaPut 3 (a + 4) (le 4 ((cons + 1) % n))
    let f := unle (r.take 2)
    let kind := unle ((r.drop 2).take 1)
    let len := unle ((r.drop 4).take 4)
    let src := unle ((r.drop 8).take 5)
    let u := v.flowTouch f
    let got := (u.dmaServed src len).fetch 3 src len
    let w := if u.dmaReach c src len = true then got.1 else u
    let readable := u.dmaReach c src len = true ∧ got.2 = false
    ∃ t, exec (.sendTransfer c) s = .next t ∧ (¬ has → Frame s t [] [] []) ∧
      (has → v.mem = s1.mem ∧ v.ctr (P.bank + 0x818) = (s.ctr (P.bank + 0x818) + 2) % 2 ^ 64 ∧
        Frame s v [] [P.bank + 0x818] [.mem] ∧ PageFrame u w (P.bank / 4096 :: trafficPages) [.host, .mem, .msys, .draws]) ∧
      (has → u.flowEntry f = none → counted (P.bry / 4096) .discarded u t ∧ Frame u t [] [] [.openCtrs]) ∧
      (∀ e, has → u.flowEntry f = some e → e.ctx ≠ c.val ∨ (kind = 0 ∧ e.kind ≠ 0) ∨ (kind = 1 ∧ e.kind ≠ 2) ∨
        (kind = 2 ∧ (e.kind ≠ 2 ∨ 1408 < len)) ∨ 3 ≤ kind →
        counted (P.bry / 4096) .discarded u t ∧ Frame u t [] [] [.openCtrs]) ∧
      (∀ e, has → u.flowEntry f = some e → e.ctx = c.val → ¬ readable →
        (kind = 0 ∧ e.kind = 0 ∧ (s.flow f).faulted = false) ∨ (kind = 2 ∧ e.kind = 2 ∧ len ≤ 1408) →
        counted (P.bry / 4096) .discarded w t ∧ Frame w t [] [] [.openCtrs]) ∧
      (∀ e, has → u.flowEntry f = some e → e.ctx = c.val → kind = 0 → e.kind = 0 →
        ((s.flow f).faulted = true → Frame u t [] [] []) ∧
        ((s.flow f).faulted = false → readable →
          let m := max 1 ((len + 1407) / 1408)
          let x := s.flow f
          let cut := (List.range m).map (fun i => (⟨BitVec.ofNat 16 s.moduleId, BitVec.ofNat 16 e.peer, BitVec.ofNat 16 f,
            if i + 1 = m then 1 else 0, 0, BitVec.ofNat 32 (x.txPseq + i), BitVec.ofNat 32 x.txJseq, BitVec.ofNat 32 (1408 * i),
            ((w.load src len).drop (1408 * i)).take 1408, true⟩ : BryPacket))
          (t.flow f).txPseq = (x.txPseq + m) % 2 ^ 32 ∧ (t.flow f).txJseq = (x.txJseq + 1) % 2 ^ 32 ∧
          FlowMoved w t f e.port x.credit x.unacked (x.unsent ++ cut) ∧
          Frame w t [] [P.bry + 0x800, P.eth e.port + 0x800] [.bry, .ports, .draws])) ∧
      (∀ e, has → u.flowEntry f = some e → e.ctx = c.val → e.kind = 2 → (kind = 1 → t.bry = (u.barrierJoin e.peer).bry) ∧
        (kind = 2 → readable → len ≤ 1408 → t.bry = (w.collStart e.peer 2 (w.load src len)).bry))) ∧
  (∀ (s : State) (q : Fin 2) (p : BryPacket), s.atRest →
    let rest := match s.bry.rx.find? (fun b => decide (bryParse b = (1, p))) with
      | some b => s.bry.rx.erase b
      | none => s.bry.rx
    let f := p.flow.toNat
    let x := s.flow f
    let u := s.flowTouch f
    let alive := s.flowsAlive = true
    let good := p.wellFormed = true
    ∃ t, exec (.brynadeData q p) s = .next t ∧ t.bry.rx = rest ∧
      (s.bryAlive = false ∨ (good ∧ ¬ alive) → Frame s t [] [] [.bry] ∧ t.bry = { s.bry with rx := rest }) ∧
      (s.bryAlive = true → ¬ good → t.ctr (P.bry + 0x860) = (s.ctr (P.bry + 0x860) + 1) % 2 ^ 64 ∧ t.bry = { s.bry with rx := rest } ∧
        Frame s t [] [P.bry + 0x860] [.bry]) ∧
      (alive → good → (∀ e, u.flowKind f 1 = some e → u.ctxResident e.ctx = false) →
        counted (P.bry / 4096) .discarded u t ∧ t.bry = { s.bry with rx := rest } ∧ Frame u t [] [] [.bry, .openCtrs]) ∧
      (∀ e, (alive ∧ good) → u.flowKind f 1 = some e → u.ctxResident e.ctx = true →
        let d := seqDiff x.rxPseq p.pseq.toNat
        let j := seqDiff (s.expectJseq e.ctx) p.jseq.toNat
        let past := s.jseqOver e.ctx p.jseq.toNat = true
        let nak := 0 < d ∧ x.nakAt.all (fun t => decide (t + s.rtoNs ≤ s.now)) = true
        let full := d = 0 ∧ ¬ past ∧ 0 < j ∧ e.lb ≤ x.landing.length
        let takes := d = 0 ∧ ¬ full
        let fits := u.landReach e p.offset.toNat p.payload.length = true
        let lands := takes ∧ ¬ past ∧ j = 0 ∧ fits
        let waits := takes ∧ ¬ past ∧ j ≠ 0 ∧ fits
        let ack := d < 0 ∨ (takes ∧ e.ackN ≤ x.sinceAck + 1)
        let seq' := if takes then (x.rxPseq + 1) % 2 ^ 32 else x.rxPseq
        let landing' := x.landing ++ (if waits then [p] else [])
        let reply : BryPacket := ⟨BitVec.ofNat 16 s.moduleId, BitVec.ofNat 16 e.peer, BitVec.ofNat 16 f, 0, 0, BitVec.ofNat 32 seq',
          BitVec.ofNat 32 (seq' + (e.lb - landing'.length)), 0, [], true⟩
        let z := if lands then u.waitLand e.ctx e.engine e.wait p.offset.toNat p.payload else u
        t.ctr (P.bry + 0x808) = (s.ctr (P.bry + 0x808) + 1) % 2 ^ 64 ∧ (t.flow f).rxPseq = seq' ∧ (t.flow f).landing = landing' ∧
        (t.flow f).sinceAck = (if ack then 0 else if takes then x.sinceAck + 1 else x.sinceAck) ∧
        (t.flow f).nakAt = (if nak then some s.now else x.nakAt) ∧
        sentOn s t e.port (if nak then 3 else 2) (if ack ∨ nak then [reply] else []) ∧
        (d < 0 → t.ctr (P.bry + 0x830) = (s.ctr (P.bry + 0x830) + 1) % 2 ^ 64) ∧
        (nak → t.ctr (P.bry + 0x818) = (s.ctr (P.bry + 0x818) + 1) % 2 ^ 64) ∧
        (takes → past → t.ctr (P.bry + 0x828) = (s.ctr (P.bry + 0x828) + 1) % 2 ^ 64) ∧
        (waits → t.ctr (P.bry + 0x838) = (s.ctr (P.bry + 0x838) + 1) % 2 ^ 64) ∧
        (full ∨ (takes ∧ ¬ past ∧ ¬ fits) → counted (P.bry / 4096) .discarded s t) ∧
        (lands → PageFrame u z ([P.bank, P.tmp].map (· / 4096) ++ trafficPages) [.host, .mem, .msys, .draws, .ctxs]) ∧
        (∀ y, lands → u.waitEntry e.ctx e.engine e.wait = some y → ∀ b ∈ List.range p.payload.length,
          u.takes (y.1 + p.offset.toNat) b → t.load (y.1 + p.offset.toNat + b) 1 = (p.payload.drop b).take 1) ∧
        t.mem = z.mem ∧ t.ctxs = z.ctxs ∧ (∀ g < 4096, g ≠ f → t.flow g = s.flow g) ∧
        Frame z t [] [P.bry + 0x808, P.bry + 0x830, P.bry + 0x818, P.bry + 0x828, P.bry + 0x838, P.eth e.port + 0x800]
          [.bry, .ports, .draws, .openCtrs])) ∧
  (∀ (s : State) (q : Fin 2) (p : BryPacket), s.atRest → ∀ i ∈ [Instr.brynadeAck q p, .brynadeNak q p],
    ∃ t, exec i s = .next t ∧ (s.bryAlive = false → Frame s t [] [] [.bry]) ∧
      (s.bryAlive = true → p.wellFormed = false → t.ctr (P.bry + 0x860) = (s.ctr (P.bry + 0x860) + 1) % 2 ^ 64 ∧
        Frame s t [] [P.bry + 0x860] [.bry])) ∧
  (∀ (s : State) (q : Fin 2) (p : BryPacket), s.calm → s.bryAlive = true → p.wellFormed = true →
    let f := p.flow.toNat
    let x := s.flow f
    let u := s.flowTouch f
    let n := p.pseq.toNat
    let base := (x.unacked.head?.map (fun y => y.pseq.toNat)).getD ((x.unsent.head?.map (fun y => y.pseq.toNat)).getD x.txPseq)
    let left := x.unacked.filter (fun y => decide (0 ≤ seqDiff n y.pseq.toNat))
    let old := x.faulted = true ∨ seqDiff base n < 0
    let edge := bit p.flags.toNat 3 = true
    let resends := s.maxRetry > x.retries ∧ left ≠ []
    (∃ t, exec (.brynadeAck q p) s = .next t ∧
      (¬ edge → u.flowKind f 0 = none → counted (P.bry / 4096) .discarded u t ∧ Frame u t [] [] [.bry, .openCtrs]) ∧
      (∀ e, ¬ edge → u.flowKind f 0 = some e → (old → t.flow f = x ∧ Frame u t [] [] [.bry]) ∧
        (¬ old → (t.flow f).credit = some p.jseq.toNat ∧
          (t.flow f).retries = (if left.length < x.unacked.length then 0 else x.retries) ∧
          FlowMoved u t f e.port (some p.jseq.toNat) left x.unsent ∧
          Frame u t [] [P.bry + 0x800, P.eth e.port + 0x800] [.bry, .ports, .draws])) ∧
      (edge → s.nbrOf p.src.toNat = none → counted (P.bry / 4096) .discarded s t ∧ Frame s t [] [] [.bry, .openCtrs]) ∧
      (∀ k, edge → s.nbrOf p.src.toNat = some k →
        let held := SMap.get s.bry.edgeUnacked k []
        let rest := held.filter (fun y => decide (0 ≤ seqDiff n y.pseq.toNat))
        SMap.get t.bry.edgeUnacked k [] = rest ∧
        SMap.get t.bry.edgeRetries k 0 = (if rest.length < held.length then 0 else SMap.get s.bry.edgeRetries k 0) ∧
        t.bry.flows = s.bry.flows ∧ Frame s t [] [] [.bry])) ∧
    (∃ t, exec (.brynadeNak q p) s = .next t ∧
      (u.flowKind f 0 = none → counted (P.bry / 4096) .discarded u t ∧ Frame u t [] [] [.bry, .openCtrs]) ∧
      (∀ e, u.flowKind f 0 = some e → (x.faulted = true → t.flow f = x ∧ Frame u t [] [] [.bry]) ∧
        (x.faulted = false → (t.flow f).credit = some p.jseq.toNat ∧
          (resends → (t.flow f).retries = x.retries + 1 ∧ (t.flow f).faulted = false ∧
            t.ctr (P.bry + 0x810) = (s.ctr (P.bry + 0x810) + left.length) % 2 ^ 64) ∧
          (left ≠ [] → s.maxRetry ≤ x.retries → (t.flow f).faulted = true ∧
            t.ctr (P.bry + 0x840) = (s.ctr (P.bry + 0x840) + 1) % 2 ^ 64) ∧
          (left = [] ∨ resends → (t.flow f).unacked = x.unacked ++ mayLeave (some p.jseq.toNat) x.unsent ∧
            Frame u t [] [P.bry + 0x800, P.bry + 0x810, P.eth e.port + 0x800] [.bry, .ports, .draws]))))) ∧
  (∀ (s : State) (f : BitVec 12), s.atRest →
    let x := s.flow f.toNat
    let due := s.flowsAlive = true ∧ 0 < x.sinceAck
    ∃ t, exec (.ackTimer f) s = .next t ∧ (¬ due ∨ s.flowKind f.toNat 1 = none → Frame s t [] [] []) ∧
      (∀ e, due → s.flowKind f.toNat 1 = some e → t.flow f.toNat = { x with sinceAck := 0 } ∧
        sentOn s t e.port 2 [⟨BitVec.ofNat 16 s.moduleId, BitVec.ofNat 16 e.peer, BitVec.ofNat 16 f.toNat, 0, 0, BitVec.ofNat 32 x.rxPseq,
          BitVec.ofNat 32 (x.rxPseq + (e.lb - x.landing.length)), 0, [], true⟩] ∧
        Frame s t [] [P.eth e.port + 0x800] [.bry, .ports, .draws])) ∧
  (∀ (s : State) (n : BitVec 13), s.calm →
    let f := n.toNat
    let x := s.flow f
    let first := (x.unacked.head?.map (fun y => y.pseq.toNat)).getD 0
    let again := x.unacked.filter (fun y => decide (0 ≤ seqDiff first y.pseq.toNat))
    let idle := s.bryAlive = false ∨ 4099 ≤ f ∨ (f < 4096 ∧ (x.faulted = true ∨ again = [] ∨ s.flowKind f 0 = none))
    let k := f - 4096
    let held := SMap.get s.bry.edgeUnacked k []
    let r := SMap.get s.bry.edgeRetries k 0
    let edge := s.bryAlive = true ∧ 4096 ≤ f ∧ f < 4099
    let mark := fun (y : BryPacket) => { y with flags := y.flags ||| 2 }
    ∃ t, exec (.retransmitTimeout n) s = .next t ∧ (idle ∨ (edge ∧ (k ∈ s.bry.edgeFaulted ∨ held = [])) → Frame s t [] [] []) ∧
      (∀ e, ¬ idle ∧ f < 4096 → s.flowKind f 0 = some e →
        (s.maxRetry ≤ x.retries → t.flow f = { x with faulted := true } ∧
          t.rd P.bry Reg.BRY_STAT_faulted = (t.bry.flows.filter (fun p => p.2.faulted)).length % 2 ^ 13 ∧
          t.ctr (P.bry + 0x840) = (s.ctr (P.bry + 0x840) + 1) % 2 ^ 64 ∧
          records s t [(BitVec.ofNat 12 (srcOf P.bry), 0x53, le 2 f ++ le 1 1 ++ le 1 0 ++ le 4 first)] ∧
          Frame s t [Reg.BRY_STAT_first.key P.bry 0, Reg.BRY_STAT_faulted.key P.bry 0] [P.bry + 0x840] [.bry, .host]) ∧
        (x.retries < s.maxRetry → t.flow f = { x with retries := x.retries + 1 } ∧ sentOn s t e.port 1 (again.map mark) ∧
          t.ctr (P.bry + 0x810) = (s.ctr (P.bry + 0x810) + again.length) % 2 ^ 64 ∧
          Frame s t [] [P.bry + 0x810, P.eth e.port + 0x800] [.bry, .ports, .draws])) ∧
      (edge → k ∉ s.bry.edgeFaulted → held ≠ [] → s.maxRetry ≤ r → k ∈ t.bry.edgeFaulted ∧
        t.ctr (P.bry + 0x840) = (s.ctr (P.bry + 0x840) + 1) % 2 ^ 64 ∧ Frame s t [] [P.bry + 0x840] [.bry, .host, .draws]) ∧
      (edge → k ∉ s.bry.edgeFaulted → held ≠ [] → r < s.maxRetry → SMap.get t.bry.edgeRetries k 0 = r + 1 ∧
        sentOn s t (s.rd P.bry Reg.BRY_NBR_port k) 16 (held.map mark) ∧
        t.ctr (P.bry + 0x810) = (s.ctr (P.bry + 0x810) + held.length) % 2 ^ 64))

/-- BARRIER_JOIN, BROADCAST, COLL_RESET and BRYNADE_COLL (R472 to R474): a barrier goes up when the module and its
children have joined and turns round at the root; a broadcast or reset goes up to the root and down; a second join or
start on an open ID is refused (log entry 97, the model's own), and so is a reset without coll_reset_en; what arrives
in order on an edge is acknowledged and acts once. -/
def Obligations.CollectivesClimbTurnAndComplete : Prop :=
  (∀ (s : State) (id : BitVec 8), s.calm → s.reaches (P.bry + 0xf0) →
    let i := id.toNat
    let x := s.coll1 i
    let alive := s.bryAlive = true
    let open_ := x.joined = true ∨ x.busy = true
    let up := x.upSent = false ∧ ∀ k ∈ [1, 2], s.nbr k = true → (k, x.instance_) ∈ x.ups
    let done := le 1 i ++ le 1 1 ++ le 2 0 ++ le 4 x.instance_ ++ le 1 0
    ∃ t, exec (.barrierJoin id) s = .next t ∧ (¬ alive → Frame s t [] [] [.parity]) ∧
      (alive → open_ → t.ctr (P.bry + 0x850) = (s.ctr (P.bry + 0x850) + 1) % 2 ^ 64 ∧ Frame s t [] [P.bry + 0x850] [.parity]) ∧
      (alive → ¬ open_ → ¬ up → t.coll1 i = { x with joined := true } ∧ Frame s t [] [] [.bry, .parity]) ∧
      (alive → ¬ open_ → up → s.nbr 0 = true → t.coll1 i = { x with joined := true, upSent := true } ∧
        edgeSent s t 0 1 0 x.instance_ 0 i [] ∧
        Frame s t [] [P.eth (s.rd P.bry Reg.BRY_NBR_port 0) + 0x800] [.bry, .ports, .draws, .parity]) ∧
      (alive → ¬ open_ → up → s.nbr 0 = false → (t.coll1 i).instance_ = (x.instance_ + 1) % 2 ^ 32 ∧ (t.coll1 i).joined = false ∧
        (t.coll1 i).upSent = false ∧ edgeSent s t 1 1 4 x.instance_ 0 i [] ∧ edgeSent s t 2 1 4 x.instance_ 0 i [] ∧
        records s t [(BitVec.ofNat 12 (srcOf P.bry), 0x54, done)] ∧
        t.ctr (P.bry + 0x848) = (s.ctr (P.bry + 0x848) + 1) % 2 ^ 64 ∧
        Frame s t [] [P.bry + 0x848, P.eth (s.rd P.bry Reg.BRY_NBR_port 1) + 0x800, P.eth (s.rd P.bry Reg.BRY_NBR_port 2) + 0x800]
          [.bry, .ctxs, .ports, .draws, .host, .parity])) ∧
  (∀ (s : State) (id : BitVec 8) (bs : List Byte), s.calm → bs.length ≤ 1408 →
    let i := id.toNat
    let x := s.coll1 i
    let alive := s.bryAlive = true
    let open_ := x.joined = true ∨ x.busy = true
    ∃ t, exec (.broadcast id bs) s = .next t ∧ (¬ alive → Frame s t [] [] []) ∧
      (alive → open_ → t.ctr (P.bry + 0x850) = (s.ctr (P.bry + 0x850) + 1) % 2 ^ 64 ∧ Frame s t [] [P.bry + 0x850] []) ∧
      (alive → ¬ open_ → s.nbr 0 = true → t.coll1 i = { x with busy := true } ∧ edgeSent s t 0 2 0 x.instance_ s.moduleId i bs ∧
        Frame s t [] [P.eth (s.rd P.bry Reg.BRY_NBR_port 0) + 0x800] [.bry, .ports, .draws]) ∧
      (alive → ¬ open_ → s.nbr 0 = false → (t.coll1 i).instance_ = (x.instance_ + 1) % 2 ^ 32 ∧ (t.coll1 i).busy = false ∧
        edgeSent s t 1 2 4 x.instance_ s.moduleId i bs ∧ edgeSent s t 2 2 4 x.instance_ s.moduleId i bs ∧
        records s t [(BitVec.ofNat 12 (srcOf P.bry), 0x54, le 1 i ++ le 1 2 ++ le 2 0 ++ le 4 x.instance_ ++ le 1 0)] ∧
        t.ctr (P.bry + 0x848) = (s.ctr (P.bry + 0x848) + 1) % 2 ^ 64)) ∧
  (∀ (s : State) (id : BitVec 8) (bs : List Byte), 1408 < bs.length → exec (.broadcast id bs) s = .refused .illFormed) ∧
  (∀ (s : State) (id : BitVec 8) (arg : BitVec 16), s.calm → s.reaches (P.bry + 0xf0) →
    let i := id.toNat
    let x := s.coll1 i
    let alive := s.bryAlive = true
    let open_ := x.joined = true ∨ x.busy = true
    let cmd := arg.toNat % 256
    let c := arg.toNat / 256
    let may := s.rdb P.bry Reg.BRY_CFG_coll_reset_en = true ∧ (cmd = 2 ∨ cmd = 4)
    let req := s.rd P.chip Reg.CHIP_READY_ctx_req
    let no := (cmd = 4 ∧ (req ≠ 0 ∨ ∃ d ∈ List.range 8, s.primEn d = true ∧ s.ctxRuns d = true)) ∨
      (cmd = 2 ∧ (bit req c = true ∨ (s.primEn c = true ∧ s.ctxRuns c = true)))
    ∃ t, exec (.collReset id arg) s = .next t ∧ (¬ alive → Frame s t [] [] [.parity]) ∧
      (alive → ¬ may → t.ctr (P.bry + 0x858) = (s.ctr (P.bry + 0x858) + 1) % 2 ^ 64 ∧ Frame s t [] [P.bry + 0x858] [.parity]) ∧
      (alive → may → open_ → t.ctr (P.bry + 0x850) = (s.ctr (P.bry + 0x850) + 1) % 2 ^ 64 ∧ Frame s t [] [P.bry + 0x850] [.parity]) ∧
      (alive → may → ¬ open_ → s.nbr 0 = true → t.coll1 i = { x with busy := true } ∧
        edgeSent s t 0 3 0 x.instance_ s.moduleId i (le 2 arg.toNat)) ∧
      (alive → may → ¬ open_ → s.nbr 0 = false → no → (t.coll1 i).instance_ = (x.instance_ + 1) % 2 ^ 32 ∧
        t.ctr (P.bry + 0x858) = (s.ctr (P.bry + 0x858) + 1) % 2 ^ 64 ∧ t.seq.phase = s.seq.phase ∧ t.ctxs = s.ctxs ∧
        edgeSent s t 1 3 4 x.instance_ s.moduleId i (le 2 arg.toNat) ∧ edgeSent s t 2 3 4 x.instance_ s.moduleId i (le 2 arg.toNat) ∧
        records s t [(BitVec.ofNat 12 (srcOf P.bry), 0x54, le 1 i ++ le 1 3 ++ le 2 0 ++ le 4 x.instance_ ++ le 1 1)]) ∧
      (alive → may → ¬ open_ → s.nbr 0 = false → ¬ no → cmd = 2 → c < 8 → s.ctxResident c = true →
        t.ctxState c = ctxStopped ∧ edgeSent s t 1 3 4 x.instance_ s.moduleId i (le 2 arg.toNat)) ∧
      (alive → may → ¬ open_ → s.nbr 0 = false → ¬ no → cmd = 4 → t.seq.phase = .warmClearing ∧
        t.rd P.chip Reg.CHIP_RST_CAUSE_cause = 5)) ∧
  (∀ (s : State) (q : Fin 2) (p : BryPacket), s.calm →
    let alive := s.bryAlive = true ∧ p.wellFormed = true
    let id := p.flow.toNat % 256
    let x := s.coll1 id
    let down := bit p.flags.toNat 2 = true
    ∃ t, exec (.brynadeColl q p) s = .next t ∧
      (s.bryAlive = false → Frame s t [] [] [.bry]) ∧
      (s.bryAlive = true → p.wellFormed = false → t.ctr (P.bry + 0x860) = (s.ctr (P.bry + 0x860) + 1) % 2 ^ 64 ∧
        Frame s t [] [P.bry + 0x860] [.bry]) ∧
      (alive → s.nbrOf p.src.toNat = none → counted (P.bry / 4096) .discarded s t ∧ Frame s t [] [] [.bry, .openCtrs]) ∧
      (∀ k, alive → s.nbrOf p.src.toNat = some k →
        let n := SMap.get s.bry.edgeRx k 0
        let d := seqDiff n p.pseq.toNat
        let m := (n + 1) % 2 ^ 32
        let port := s.rd P.bry Reg.BRY_NBR_port k
        let ack : BryPacket := ⟨BitVec.ofNat 16 s.moduleId, p.src, p.flow, 8, 0, BitVec.ofNat 32 (if d = 0 then m else n), 0, 0, [], true⟩
        (d < 0 → t.ctr (P.bry + 0x830) = (s.ctr (P.bry + 0x830) + 1) % 2 ^ 64 ∧ sentOn s t port 2 [ack] ∧
          Frame s t [] [P.bry + 0x830, P.eth port + 0x800] [.bry, .ports, .draws]) ∧
        (0 < d → counted (P.bry / 4096) .discarded s t ∧ Frame s t [] [] [.bry, .openCtrs]) ∧
        (d = 0 → SMap.get t.bry.edgeRx k 0 = m ∨ t.seq.phase = .warmClearing) ∧
        (d = 0 → (down ∧ k ≠ 0) ∨ (¬ down ∧ k = 0) → counted (P.bry / 4096) .discarded s t ∧ sentOn s t port 2 [ack]) ∧
        (d = 0 → down → k = 0 → p.op.toNat ≠ 3 →
          (t.coll1 id).instance_ = (p.jseq.toNat + 1) % 2 ^ 32 ∧ (t.coll1 id).busy = (x.busy && decide (p.op.toNat = 1)) ∧
          (t.coll1 id).joined = (x.joined && decide (p.op.toNat ≠ 1)) ∧
          edgeSent s t 1 p.op.toNat 4 p.jseq.toNat p.offset.toNat id p.payload ∧
          edgeSent s t 2 p.op.toNat 4 p.jseq.toNat p.offset.toNat id p.payload ∧
          records s t [(BitVec.ofNat 12 (srcOf P.bry), 0x54, le 1 id ++ le 1 p.op.toNat ++ le 2 0 ++ le 4 p.jseq.toNat ++ le 1 0)]) ∧
        (d = 0 → ¬ down → k ≠ 0 → p.op.toNat = 1 → x.joined = false → t.coll1 id = { x with ups := x.ups ++ [(k, p.jseq.toNat)] }) ∧
        (d = 0 → ¬ down → k ≠ 0 → p.op.toNat ≠ 1 → s.nbr 0 = true →
          edgeSent s t 0 p.op.toNat 0 p.jseq.toNat p.offset.toNat p.flow.toNat p.payload ∧ t.coll1 id = x)))

/-! ### The mailbox -/

/-- GET_INFO, BIND_CAM, UNBIND_CAM, PARAM_LOAD, NET_CFG and STARTUP_SET (R348, R349, R379, R498): a request is taken in
order and answered in its reply area with its status and one MBX_DONE record; BIND_CAM writes the camera's registers
and starts its binding or is refused with 1; PARAM_LOAD answers at acceptance (log entry 43, the model's own), once
the image's header is read; NET_CFG and STARTUP_SET change nothing when refused. -/
def Obligations.MailboxRequestsAreTakenAndAnswered : Prop :=
  (∀ (s : State) (r : MbxReq), s.calm →
    let can := s.mbxCanTake = true
    ∃ t, exec (.getInfo r) s = .next t ∧ (¬ can → Frame s t [] [] []) ∧
      (can → Answered s t r 1 0 0 (Config.infoData s.temper.version (s.rd2 P.tmp Reg.TMP_SERIAL_serial_lo Reg.TMP_SERIAL_serial_hi)) ∧
        records s t [mbxRec r 1 0 0] ∧ Frame s t mbxKeys [P.erq + 0x920] [.host, .hostMem])) ∧
  (∀ (s : State) (r : MbxReq) (k : Fin 8) (regs : List Word) (rmax : BitVec 32), s.calm → regs.length = 9 → s.mbxCanTake = true →
    let st := s.camState k
    let free := st ≠ 2 ∧ st ≠ 1
    let words := (bindAddrs k).zip (regs.map BitVec.toNat)
    let s1 := words.foldl (fun s p => s.writeWord p.1 p.2) s
    let valid := s1.groupValid k = true
    ∃ t, exec (.bindCam r k regs rmax) s = .next t ∧
      (¬ free → Answered s t r 0x20 4 0 [] ∧ records s t [mbxRec r 0x20 4 0] ∧ Frame s t mbxKeys [P.erq + 0x920] [.host, .hostMem]) ∧
      (free → ∀ p ∈ words, ∀ q, pageInfo (p.1 / 4096) = some q → ∀ x ∈ fieldsAt q.kind (p.1 % 4096), x.1.acc = .rw →
        t.rd (p.1 / 4096 * 4096) x.1 x.2 = bits p.2 x.1.lo x.1.width) ∧
      (free → valid → t.camState k = 1 ∧ (t.cam k).req = some r ∧ (t.cam k).rmax = rmax.toNat ∧ (t.cam k).answers = [] ∧
        (r, 0x20) ∈ t.host.mbxTaken ∧ t.hostMem = s.hostMem) ∧
      (free → ¬ valid → t.camState k = (if st = 3 then 3 else 0) ∧ t.rd (P.cfeC k) Reg.CFE_CAM_STAT_res = 1 ∧ (t.cam k).req = none ∧
        Answered s t r 0x20 3 1 []) ∧
      (∀ d, d ≠ k.val → t.cam d = s.cam d) ∧
      PageFrame s t [P.cfeC k / 4096, P.replay / 4096, P.erq / 4096] [.cams, .host, .hostMem, .draws]) ∧
  (∀ (s : State) (r : MbxReq) (k : Fin 8) (regs : List Word) (rmax : BitVec 32), regs.length ≠ 9 →
    exec (.bindCam r k regs rmax) s = .refused .illFormed) ∧
  (∀ (s : State) (r : MbxReq) (k : Fin 8), s.calm → s.mbxCanTake = true →
    ∃ t, exec (.unbindCam r k) s = .next t ∧ t.camState k = 0 ∧ ((s.cam k).req = none → Answered s t r 0x21 0 0 []) ∧
      (s.camState k = 0 → records s t [mbxRec r 0x21 0 0] ∧ Frame s t mbxKeys [P.erq + 0x920] [.host, .hostMem]) ∧
      (∀ d, d ≠ k.val → (t.cam d).log = (s.cam d).log ∧ t.camState d = s.camState d)) ∧
  (∀ (s : State) (r : MbxReq) (k : Fin 8) (a : DevAddr) (line : BitVec 64), s.calm → s.mbxCanTake = true →
    let p := P.lplC k
    let busy := s.rd p Reg.LPL_PLOAD_STAT_state ≠ 0
    let bound := s.camState k = 1 ∨ s.camState k = 2
    let d := s.fetch 4 a.toNat 64
    let u := if busy ∨ ¬ bound then s else d.1
    let code := if busy then 1 else if ¬ bound then 6 else if d.2 = true then 5 else u.imageCode k a.toNat
    ∃ t, exec (.paramLoad r k a line) s = .next t ∧
      Answered s t r 0x28 (if code = 0 then 0 else 3) code [] ∧ PageFrame s u trafficPages [.host, .mem, .msys, .draws] ∧ records u t [mbxRec r 0x28 (if code = 0 then 0 else 3) code] ∧
      (¬ busy → t.rd2 p Reg.LPL_PLOAD_SRC_lo Reg.LPL_PLOAD_SRC_hi = a.toNat ∧ t.rd2 p Reg.LPL_PLOAD_LINE_lo Reg.LPL_PLOAD_LINE_hi = line.toNat ∧
        t.rd p Reg.LPL_PLOAD_STAT_state = (if code = 0 then 1 else 0)) ∧
      (busy → t.rd p Reg.LPL_PLOAD_STAT_state = s.rd p Reg.LPL_PLOAD_STAT_state) ∧
      (code ≠ 0 → t.rd p Reg.LPL_PLOAD_STAT_res = code ∧ t.ctr (p + 0x830) = (s.ctr (p + 0x830) + 1) % 2 ^ 64) ∧
      Frame u t (mbxKeys ++ [Reg.LPL_PLOAD_SRC_lo.key p 0, Reg.LPL_PLOAD_SRC_hi.key p 0, Reg.LPL_PLOAD_LINE_lo.key p 0,
        Reg.LPL_PLOAD_LINE_hi.key p 0, Reg.LPL_PLOAD_STAT_state.key p 0, Reg.LPL_PLOAD_STAT_res.key p 0, Reg.BLK_STAT_blk.key p 0])
        [P.erq + 0x920, p + 0x830] [.host, .hostMem]) ∧
  (∀ (s : State) (r : MbxReq) (p : Fin 2) (cfg macLo macHi corr ip : Word), s.calm → s.mbxCanTake = true →
    let b := P.eth p
    let reserved := bits cfg.toNat 4 4 ≠ 0 ∨ bits cfg.toNat 9 23 ≠ 0 ∨ bits macHi.toNat 16 16 ≠ 0
    let armed := ∃ g ∈ List.range 32, s.rd P.rtu Reg.RTU_GRP_CFG_armed g = 1 ∧ s.rd P.rtu Reg.RTU_GRP_CFG_kind g = 1 ∧
      s.rd P.rtu Reg.RTU_GRP_CFG_port g = p.val
    let code := if reserved then 1 else if armed then 2 else 0
    ∃ t, exec (.netCfg r p cfg macLo macHi corr ip) s = .next t ∧
      Answered s t r 0x30 (if code = 0 then 0 else 3) code [] ∧ records s t [mbxRec r 0x30 (if code = 0 then 0 else 3) code] ∧
      (code ≠ 0 → Frame s t mbxKeys [P.erq + 0x920] [.host, .hostMem]) ∧
      (code = 0 → t.rd b Reg.ETH_MAC_addr_lo = macLo.toNat ∧ t.rd b Reg.ETH_MAC_addr_hi = macHi.toNat ∧
        t.rd P.bry Reg.BRY_IP_addr = ip.toNat ∧ t.rd b Reg.ETH_TS_CORR_tx_ext = corr.toNat % 65536 ∧
        t.rd b Reg.ETH_TS_CORR_rx_ext = corr.toNat / 65536 ∧
        (s.heldBack (b + 0xc0) = false → t.rdb b Reg.ETH_PORT_CFG_en = bit cfg.toNat 0 ∧ t.rdb b Reg.ETH_PORT_CFG_speed = bit cfg.toNat 1 ∧
          t.rd b Reg.ETH_PORT_CFG_fec = cfg.toNat / 4 % 4) ∧
        PageFrame s t [P.erq / 4096, P.bry / 4096, b / 4096] [.host, .hostMem, .deferred, .openCtrs])) ∧
  (∀ (s : State) (r : MbxReq) (a : DevAddr) (len : BitVec 32) (valid : Bool), s.calm → s.mbxCanTake = true →
    let n := len.toNat
    let placed := blobPlace a.toNat n = true
    let d := s.fetch 4 a.toNat n
    let u := if placed then d.1 else s
    let code := if ¬ placed then 2 else if valid = false ∨ d.2 = true ∨ 0xe00000 < n then 3 else 0
    ∃ t, exec (.startupSet r a len valid) s = .next t ∧ Answered s t r 0x38 code (if code = 3 then 1 else 0) [] ∧
      PageFrame s u trafficPages [.host, .mem, .msys, .draws] ∧
      records u t [mbxRec r 0x38 code (if code = 3 then 1 else 0)] ∧ (code ≠ 0 → t.flash = s.flash) ∧
      (code = 0 → (∀ i < n, Memory.read t.flash (0x200000 + i) = Memory.read u.mem (a.toNat + i)) ∧
        (∀ i < 0xe00000, n ≤ i → Memory.read t.flash (0x200000 + i) = 0) ∧
        ∀ x : Nat, x < 0x200000 ∨ 0x1000000 ≤ x → Memory.read t.flash x = Memory.read s.flash x) ∧
      Frame u t mbxKeys [P.erq + 0x920] [.host, .hostMem, .flash])

/-! ### Temper -/

/-- FW_STAGE, FW_HANDOVER, QUIET_POINT, HANDOVER_TIMEOUT, TEMPER_HANDOVER, TMP_ALIVE, HANDOVER_FALLBACK, FW_COMMIT,
SVN_COMMIT and RECOVERY_GO (R541, R549 to R554, R557): the staged half takes the blob and holds an image once it has
verified; a handover waits for its quiet point, swaps the halves, and ends with TMP_ALIVE or falls back with code 12;
a commit copies the running half into flash; the floor only rises; an accepted recovery blob goes into flash and a
cold reset begins. -/
def Obligations.ImagesAreStagedHandedOverAndCommitted : Prop :=
  (∀ (s : State) (r : MbxReq) (a : DevAddr) (len : BitVec 32), s.calm → s.mbxCanTake = true → s.works P.tmp = true →
    blobPlace a.toNat len.toNat = true →
    let n := len.toNat
    let d := s.fetch 4 a.toNat n
    let u := d.1
    let b := SignedBlob.parse (u.load a.toNat n)
    let code := s.objCode b [1] (!d.2) n halfSize
    let h := halfAt (!s.runHalf)
    let room := n ≤ halfSize ∧ u.stackDead h = false
    let w := if room then u.moved 4 h n 0x928 else u
    ∃ t, exec (.fwStage r a len) s = .next t ∧ TmpEnd s t r 0x40 code ∧ verCounted s t code ∧
      recordsFirst u t [verRec b.obj code] ∧ recordsLast s t [tmpRec r 0x40 code] ∧
      PageFrame s u trafficPages [.host, .mem, .msys, .draws] ∧ PageFrame u w trafficPages [.host, .mem, .msys, .draws] ∧
      (room → (∀ i < n, Memory.read t.mem (h + i) = Memory.read u.mem (a.toNat + i)) ∧
        (∀ x : Nat, x < h ∨ h + n ≤ x → Memory.read t.mem x = Memory.read u.mem x) ∧
        t.rdb P.tmp Reg.TMP_STAT_staged = decide (code = 0) ∧ t.temper.staged = (if code = 0 then b.obj.digest else []) ∧
        (code = 0 → t.temper.stagedSvn = b.obj.svn ∧ t.temper.stagedVersion = b.obj.body.take 4)) ∧
      (¬ room → t.mem = u.mem ∧ t.temper = s.temper ∧ t.rd P.tmp Reg.TMP_STAT_staged = s.rd P.tmp Reg.TMP_STAT_staged) ∧
      Frame w t (Reg.TMP_STAT_staged.key P.tmp 0 :: Reg.BLK_STAT_blk.key P.tmp 0 :: tmpKeys) [P.erq + 0x920, P.tmp + 0x800, P.tmp + 0x808]
        [.host, .hostMem, .mem, .temper]) ∧
  (∀ (s : State) (r : MbxReq) (timeout : BitVec 32), s.calm → s.mbxCanTake = true → s.works P.tmp = true →
    1 ≤ timeout.toNat → timeout.toNat ≤ 10000 →
    let ok := s.rdb P.tmp Reg.TMP_STAT_staged = true ∧ s.temper.handover = none
    ∃ t, exec (.fwHandover r timeout) s = .next t ∧
      (ok → t.temper = { s.temper with handover := some r } ∧ (r, 0x41) ∈ t.host.mbxTaken ∧
        Frame s t mbxKeys [P.erq + 0x920] [.host, .temper]) ∧
      (¬ ok → TmpEnd s t r 0x41 13 ∧ records s t [tmpRec r 0x41 13] ∧ Frame s t tmpKeys [P.erq + 0x920] [.host, .hostMem])) ∧
  (∀ s : State, s.atRest →
    let quiet := fun (r : MbxReq) => s.hearthRuns = true ∧ (∀ q ∈ s.host.mbxTaken, q = (r, 0x41)) ∧
      (∀ c < 8, s.ctxState c ≠ 1 ∧ s.ctxState c ≠ 7) ∧ ∀ k < 8, s.camState k ≠ 1 ∧ s.rd (P.lplC k) Reg.LPL_PLOAD_STAT_state ≠ 1
    ∃ t, exec .quietPoint s = .next t ∧ (s.temper.handover = none → Frame s t [] [] []) ∧
      (∀ r, s.temper.handover = some r → (¬ quiet r → Frame s t [] [] []) ∧
        (quiet r → t.temper = { s.temper with pauseRuns := true } ∧ t.rdb P.tmp Reg.TMP_STAT_handover = true ∧
          (s.serves 193 2 = true → t.load (bankBase 193) 4 = le 4 0x48a10c5e ∧
            t.load (bankBase 193 + 8) 16 = padTo 8 s.temper.running ++ padTo 8 s.temper.staged) ∧
          (s.serves 193 2 = false → t.mem = s.mem) ∧
          (∀ x : Nat, x < bankBase 193 ∨ bankBase 193 + 64 ≤ x → Memory.read t.mem x = Memory.read s.mem x) ∧
          Frame s t [Reg.TMP_STAT_handover.key P.tmp 0] [] [.mem, .temper, .draws]))) ∧
  (∀ (s : State), s.calm →
    let waits := s.temper.pauseRuns = false ∧ s.hearthRuns = true
    ∃ t, exec .handoverTimeout s = .next t ∧ (¬ waits ∨ s.temper.handover = none → Frame s t [] [] []) ∧
      (∀ r, waits → s.temper.handover = some r → t.temper = { s.temper with handover := none, pauseRuns := false, swapped := false } ∧
        t.rdb P.tmp Reg.TMP_STAT_handover = false ∧
        ((r, 0x41) ∈ s.host.mbxTaken → records s t [mbxRec r 0x41 4 0] ∧ t.host.mbxTaken = s.host.mbxTaken.erase (r, 0x41)) ∧
        Frame s t [Reg.TMP_STAT_handover.key P.tmp 0, Reg.MBX_STAT_busy.key P.erq 0] [] [.temper, .host, .hostMem])) ∧
  (∀ (s : State), s.calm →
    let due := s.temper.pauseRuns = true ∧ s.temper.swapped = false ∧ s.clocked = true
    let ok := s.works P.tmp = true ∧ s.rdb P.tmp Reg.TMP_STAT_staged = true ∧ s.poisoned (halfAt (!s.runHalf)) halfSize = false
    let m := s.temper
    ∃ t, exec .temperHandover s = .next t ∧ (¬ due → Frame s t [] [] []) ∧
      (due → ok → t.temper = { m.exchanged with swapped := true } ∧
        t.rdb P.tmp Reg.TMP_STAT_half = !s.rdb P.tmp Reg.TMP_STAT_half ∧
        t.ctr (P.tmp + 0x810) = (s.ctr (P.tmp + 0x810) + 1) % 2 ^ 64 ∧ Frame s t [Reg.TMP_STAT_half.key P.tmp 0] [P.tmp + 0x810] [.temper]) ∧
      (∀ r, due ∧ ¬ ok → s.temper.handover = some r → t.rd P.tmp Reg.TMP_STAT_res = 13 ∧ t.temper = { m with handover := none, pauseRuns := false } ∧
        ((r, 0x41) ∈ s.host.mbxTaken → records s t [mbxRec r 0x41 3 13]) ∧
        Frame s t [Reg.TMP_STAT_handover.key P.tmp 0, Reg.TMP_STAT_res.key P.tmp 0, Reg.MBX_STAT_busy.key P.erq 0] []
          [.temper, .host, .hostMem])) ∧
  (∀ (s : State) (who : Requester) (us : BitVec 32), s.calm → s.reaches (P.tmp + 0x68) →
    let due := s.temper.pauseRuns = true ∧ s.temper.swapped = true ∧ s.coll.hearthHalted = false
    let m := s.temper
    let alive := (0xd00, 0x7e, le 4 0 ++ le 4 us.toNat ++ padTo 8 m.running)
    ∃ t, exec (.tmpAlive who us) s = .next t ∧
      (who = .driver → t.ctr (P.tmp + 0x828) = (s.ctr (P.tmp + 0x828) + 1) % 2 ^ 64 ∧ Frame s t [] [P.tmp + 0x828] [.parity]) ∧
      (who = .firmware → ¬ due → Frame s t [] [] [.parity]) ∧
      (∀ r, who = .firmware ∧ due → m.handover = some r → t.rdb P.tmp Reg.TMP_STAT_staged = false ∧ t.rd P.tmp Reg.TMP_STAT_res = 0 ∧
        t.temper = { m with staged := [], stagedSvn := 0, stagedVersion := [], handover := none, pauseRuns := false, swapped := false } ∧
        ((r, 0x41) ∈ s.host.mbxTaken → records s t [alive, mbxRec r 0x41 0 0]) ∧
        Frame s t [Reg.TMP_STAT_handover.key P.tmp 0, Reg.TMP_STAT_staged.key P.tmp 0, Reg.TMP_STAT_res.key P.tmp 0,
          Reg.MBX_STAT_busy.key P.erq 0] [] [.temper, .host, .hostMem, .parity])) ∧
  (∀ (s : State) (us : BitVec 32), s.calm →
    let due := s.temper.pauseRuns = true ∧ s.temper.swapped = true ∧ s.clocked = true
    let m := s.temper
    let fell := (0xd00, 0x7e, le 1 1 ++ le 3 0 ++ le 4 us.toNat ++ padTo 8 m.running)
    ∃ t, exec (.handoverFallback us) s = .next t ∧ (¬ due → Frame s t [] [] []) ∧
      (∀ r, due → m.handover = some r → t.rd P.tmp Reg.TMP_STAT_res = 12 ∧ t.rdb P.tmp Reg.TMP_STAT_half = !s.rdb P.tmp Reg.TMP_STAT_half ∧
        t.temper = { m.exchanged with handover := none, pauseRuns := false, swapped := false } ∧
        t.ctr (P.tmp + 0x818) = (s.ctr (P.tmp + 0x818) + 1) % 2 ^ 64 ∧ t.blkBit P.tmp 10 = true ∧
        ((r, 0x41) ∈ s.host.mbxTaken → records s t [mbxRec r 0x41 3 12, fell]) ∧
        Frame s t [Reg.TMP_STAT_handover.key P.tmp 0, Reg.TMP_STAT_half.key P.tmp 0, Reg.TMP_STAT_res.key P.tmp 0,
          Reg.MBX_STAT_busy.key P.erq 0, Reg.BLK_STAT_blk.key P.tmp 0] [P.tmp + 0x818] [.temper, .host, .hostMem])) ∧
  (∀ (s : State) (r : MbxReq), s.calm → s.mbxCanTake = true → s.works P.tmp = true →
    let h := halfAt s.runHalf
    (∃ t, exec (.fwCommit r) s = .next t ∧ TmpEnd s t r 0x42 0 ∧ records s t [tmpRec r 0x42 0] ∧
      (∀ i < halfSize, Memory.read t.flash (0x1000000 + i) = Memory.read s.mem (h + i)) ∧
      (∀ x : Nat, x < 0x1000000 ∨ 0x1000000 + halfSize ≤ x → Memory.read t.flash x = Memory.read s.flash x) ∧
      t.temper = { s.temper with flashImage := s.temper.running, flashSvn := s.temper.runSvn, flashVersion := s.temper.version } ∧
      Frame s t tmpKeys [P.erq + 0x920] [.host, .hostMem, .flash, .temper]) ∧
    (let code := if s.temper.running ≠ s.temper.flashImage then 13 else 0
      ∃ t, exec (.svnCommit r) s = .next t ∧ TmpEnd s t r 0x43 code ∧ records s t [tmpRec r 0x43 code] ∧
        t.rd P.tmp Reg.TMP_LC_floor = (if code = 0 then max (s.rd P.tmp Reg.TMP_LC_floor) (min 64 s.temper.runSvn)
          else s.rd P.tmp Reg.TMP_LC_floor) ∧
        Frame s t (Reg.TMP_LC_floor.key P.tmp 0 :: tmpKeys) [P.erq + 0x920] [.host, .hostMem])) ∧
  (∀ (s : State) (v : Word), s.calm → s.reaches (P.tmp + 0x64) →
    let open_ := s.rdb P.tmp Reg.TMP_STAT_recovery = true ∧ v.toNat / 65536 = 0x3e91
    let go := v.toNat % 2 = 1
    let fault := s.works P.tmp = false
    let a := s.rd2 P.tmp Reg.TMP_RCV_ADDR_addr_lo Reg.TMP_RCV_ADDR_addr_hi / 64 * 64
    let n := s.rd P.tmp Reg.TMP_RCV_LEN_len
    let d := s.fetch 4 a n
    let u := d.1
    let b := SignedBlob.parse (u.load a n)
    let code := s.objCode b (if s.lcState = 5 ∨ blobPlace a n = false then [] else [1]) (!d.2) n halfSize
    ∃ t, exec (.recoveryGo v) s = .next t ∧
      (¬ open_ → t.ctr (P.tmp + 0x828) = (s.ctr (P.tmp + 0x828) + 1) % 2 ^ 64 ∧ Frame s t [] [P.tmp + 0x828] [.parity]) ∧
      (open_ → ¬ go → Frame s t [] [] [.parity]) ∧
      (open_ → go → fault → t.rd P.tmp Reg.TMP_STAT_res = 13 ∧ Frame s t [Reg.TMP_STAT_res.key P.tmp 0] [] [.parity]) ∧
      (open_ → go → ¬ fault → code ≠ 0 → t.rd P.tmp Reg.TMP_STAT_res = code ∧ verCounted s t code ∧ records u t [verRec b.obj code] ∧
        PageFrame s u trafficPages [.host, .mem, .msys, .draws] ∧ Frame u t [Reg.TMP_STAT_res.key P.tmp 0, Reg.BLK_STAT_blk.key P.tmp 0] [P.tmp + 0x800, P.tmp + 0x808] [.host, .parity]) ∧
      (open_ → go → ¬ fault → code = 0 → (∀ i < n, Memory.read t.flash (0x1000000 + i) = Memory.read u.mem (a + i)) ∧
        t.temper.flashImage = b.obj.digest ∧ t.temper.flashSvn = b.obj.svn ∧ t.seq.phase = .railsOff ∧
        t.rd P.chip Reg.CHIP_RST_CAUSE_cause = 9))

/-- ATTEST, OWNER_KEY, LC_ADVANCE, IDENTITY, TEST_OPEN and ROOT_REVOKE, and what refuses every Temper request (R537 to
R545, R555 to R557): a request in the fault state ends with code 13, malformed arguments with status 2; an
authorisation acts when its verification and its own checks, in the order of log entry 135, the model's own, pass, and
burns one bit; a report carries the nonce and is signed; an advance burns the fuse count of its state, erases what the
state's entry erases, and begins a cold reset. -/
def Obligations.AuthorisationsBurnOneBitAndAct : Prop :=
  (∀ (s : State) (r : MbxReq) (a a2 : DevAddr) (len len2 n : BitVec 32) (slot : Fin 4) (nonce : List Byte), s.calm →
    nonce.length = 32 →
    let place := blobPlace a.toNat len.toNat
    ∀ x ∈ [(exec (.fwStage r a len) s, 0x40, place), (exec (.fwHandover r n) s, 0x41, decide (1 ≤ n.toNat ∧ n.toNat ≤ 10000)),
      (exec (.fwCommit r) s, 0x42, true), (exec (.svnCommit r) s, 0x43, true),
      (exec (.attest r nonce a) s, 0x44, decide (a.toNat % 64 = 0) && blobPlace a.toNat 1088),
      (exec (.ownerKey r a len slot nonce) s, 0x45, place),
      (exec (.lcAdvance r a len a2 len2) s, 0x46, place && blobPlace a2.toNat len2.toNat),
      (exec (.identity r a2 (some (a, len))) s, 0x47, blobPlace a2.toNat 0x10020 && place),
      (exec (.testOpen r a len) s, 0x48, place), (exec (.rootRevoke r a len) s, 0x49, place)],
      ∃ t, x.1 = .next t ∧ (s.mbxCanTake = false → Frame s t [] [] []) ∧
        (s.mbxCanTake = true → s.works P.tmp = false → TmpEnd s t r x.2.1 13 ∧ records s t [tmpRec r x.2.1 13] ∧
          Frame s t tmpKeys [P.erq + 0x920] [.host, .hostMem]) ∧
        (s.mbxCanTake = true → s.works P.tmp = true → x.2.2 = false → Answered s t r x.2.1 2 0 [] ∧ records s t [mbxRec r x.2.1 2 0] ∧
          Frame s t mbxKeys [P.erq + 0x920] [.host, .hostMem])) ∧
  (∀ (s : State) (r : MbxReq) (a : DevAddr) (len : BitVec 32) (slot : Fin 4) (bs : List Byte), bs.length ≠ 32 →
    exec (.attest r bs a) s = .refused .illFormed ∧ (len = 0 → exec (.ownerKey r a len slot bs) s = .refused .illFormed)) ∧
  (∀ (s : State) (r : MbxReq) (nonce : List Byte) (a : DevAddr), s.calm → s.mbxCanTake = true → s.works P.tmp = true →
    nonce.length = 32 → a.toNat % 64 = 0 → blobPlace a.toNat 1088 = true →
    let u := { s with temper := { s.temper with reports := (s.temper.reports + 1) % 2 ^ 32 } }
    let report := u.signObject 5 s.freeVal (u.reportBody nonce)
    let w := u.draw.put 4 a.toNat report
    ∃ t, exec (.attest r nonce a) s = .next t ∧ TmpEnd s t r 0x44 0 ∧ records w t [tmpRec r 0x44 0] ∧
      (s.stackDead a.toNat = false → t.mem = (s.store a.toNat report).mem ∧ t.load (a.toNat + 192) 32 = nonce) ∧
      (s.stackDead a.toNat = true → t.mem = s.mem) ∧ PageFrame s w trafficPages [.host, .mem, .msys, .draws, .temper] ∧
      t.temper = u.temper ∧ t.ctr (P.tmp + 0x820) = (s.ctr (P.tmp + 0x820) + 1) % 2 ^ 64 ∧
      Frame w t tmpKeys [P.erq + 0x920, P.tmp + 0x820] [.host, .hostMem]) ∧
  (∀ (s : State) (r : MbxReq) (a : DevAddr) (slot : Fin 4) (key : List Byte), s.calm → s.mbxCanTake = true → s.works P.tmp = true →
    key.length = 32 → blobPlace a.toNat 0 = true →
    let empty := (List.range 4).all (fun i => (SMap.find? s.temper.ownerKeys i).isNone && !s.temper.revokedSlots.contains i)
    let ok := s.lcState = 2 ∧ empty = true ∧ s.rdb P.tmp Reg.TMP_STAT_rec_bad = false
    let code := if ok then 0 else 13
    ∃ t, exec (.ownerKey r a 0 slot key) s = .next t ∧ TmpEnd s t r 0x45 code ∧ records s t [tmpRec r 0x45 code] ∧
      (ok → SMap.get t.temper.ownerKeys slot [] = key ∧ t.temper.revokedSlots = s.temper.revokedSlots ∧
        (∀ i < 4, i ≠ slot.val → SMap.get t.temper.ownerKeys i [] = []) ∧
        t.recordInForce = some ⟨t.temper.ownerKeys, s.temper.revokedSlots, s.rd P.tmp Reg.TMP_AUTH_CTR_count⟩ ∧
        bit (t.rd P.tmp Reg.TMP_STAT_slots) slot = true) ∧
      (¬ ok → t.temper = s.temper ∧ t.rd P.tmp Reg.TMP_STAT_slots = s.rd P.tmp Reg.TMP_STAT_slots) ∧
      Frame s t (Reg.TMP_STAT_slots.key P.tmp 0 :: tmpKeys) [P.erq + 0x920] [.host, .hostMem, .temper]) ∧
  (∀ (s : State) (r : MbxReq) (a : DevAddr) (len : BitVec 32) (slot : Fin 4) (key : List Byte), s.calm → s.mbxCanTake = true →
    s.works P.tmp = true → len ≠ 0 → blobPlace a.toNat len.toNat = true →
    let n := len.toNat
    let d := s.fetch 4 a.toNat n
    let u := d.1
    let o := (SignedBlob.parse (u.load a.toNat n)).obj
    let ver := fun kind => s.objCode (SignedBlob.parse (u.load a.toNat n)) [kind] (!d.2) n (2 ^ 32)
    let count := s.rd P.tmp Reg.TMP_AUTH_CTR_count
    let mine := numAt o.body 0 8 = s.serial
    let fits := fun act => numAt o.body 8 2 = act ∧ numAt o.body 12 4 = count ∧ count < 4096
    let tgt := numAt o.body 10 2
    let act := numAt o.body 8 2
    let valid := s.rd P.tmp Reg.TMP_STAT_slots
    let gone := s.rd P.tmp Reg.TMP_LC_roots_revoked
    let ok1 := if ver 8 ≠ 0 then ver 8 else if act = 3 ∧ s.lcState = 3 ∧ valid = 2 ^ tgt then 10
      else if act = 3 ∧ s.ownerSlot o.key = some tgt then 5 else if ¬ mine then 7 else if ¬ (fits 2 ∨ fits 3) ∨ 4 ≤ tgt then 11
      else if act = 2 ∧ (SMap.find? s.temper.ownerKeys tgt ≠ none ∨ tgt ∈ s.temper.revokedSlots) then 13
      else if act = 3 ∧ bit valid tgt = false then 13 else 0
    let ok2 := if ver 7 ≠ 0 then ver 7 else if ¬ (mine ∧ o.bind = s.serial) then 7 else if ¬ fits 4 then 11 else 0
    let ok3 := if ver 7 ≠ 0 then ver 7 else if tgt < 4 ∧ setBit gone tgt = 15 then 10 else if s.rootSlot o.key = some tgt then 5
      else if ¬ mine then 7 else if ¬ fits 5 ∨ 4 ≤ tgt then 11 else if bit gone tgt = true then 13 else 0
    PageFrame s u trafficPages [.host, .mem, .msys, .draws] ∧
    (∃ t, exec (.ownerKey r a len slot key) s = .next t ∧ TmpEnd s t r 0x45 ok1 ∧ verCounted s t (ver 8) ∧
      records u t [verRec o (ver 8), tmpRec r 0x45 ok1] ∧
      (ok1 ≠ 0 → t.temper = s.temper ∧ t.rd P.tmp Reg.TMP_AUTH_CTR_count = count) ∧
      (ok1 = 0 → act = 2 → Burned s t (SMap.set s.temper.ownerKeys tgt ((o.body.drop 16).take 32) []) s.temper.revokedSlots ∧
        bit (t.rd P.tmp Reg.TMP_STAT_slots) tgt = true) ∧
      (ok1 = 0 → act = 3 → Burned s t s.temper.ownerKeys (tgt :: s.temper.revokedSlots) ∧
        bit (t.rd P.tmp Reg.TMP_STAT_slots) tgt = false) ∧
      Frame u t (Reg.BLK_STAT_blk.key P.tmp 0 :: burnKeys ++ tmpKeys) [P.erq + 0x920, P.tmp + 0x800, P.tmp + 0x808]
        [.host, .hostMem, .temper]) ∧
    (∃ t, exec (.testOpen r a len) s = .next t ∧
      (s.lcState ≠ 4 → TmpEnd s t r 0x48 13 ∧ records s t [tmpRec r 0x48 13] ∧ Frame s t tmpKeys [P.erq + 0x920] [.host, .hostMem]) ∧
      (s.lcState = 4 → TmpEnd s t r 0x48 ok2 ∧ verCounted s t (ver 7) ∧ records u t [verRec o (ver 7), tmpRec r 0x48 ok2] ∧
        (ok2 = 0 → Burned s t s.temper.ownerKeys s.temper.revokedSlots ∧ t.rdb P.tmp Reg.TMP_STAT_test_open = true ∧
          t.temper = { s.temper with testSeen := true, copyA := t.temper.copyA, copyB := t.temper.copyB }) ∧
        (ok2 ≠ 0 → t.temper = s.temper ∧ t.rd P.tmp Reg.TMP_STAT_test_open = s.rd P.tmp Reg.TMP_STAT_test_open ∧
          t.rd P.tmp Reg.TMP_AUTH_CTR_count = count) ∧
        Frame u t ([Reg.TMP_STAT_test_open.key P.tmp 0, Reg.BLK_STAT_blk.key P.tmp 0] ++ burnKeys ++ tmpKeys)
          [P.erq + 0x920, P.tmp + 0x800, P.tmp + 0x808] [.host, .hostMem, .temper])) ∧
    (∃ t, exec (.rootRevoke r a len) s = .next t ∧ TmpEnd s t r 0x49 ok3 ∧ verCounted s t (ver 7) ∧
      records u t [verRec o (ver 7), tmpRec r 0x49 ok3] ∧
      (ok3 = 0 → Burned s t s.temper.ownerKeys s.temper.revokedSlots) ∧
      (ok3 ≠ 0 → t.temper = s.temper ∧ t.rd P.tmp Reg.TMP_AUTH_CTR_count = count) ∧
      t.rd P.tmp Reg.TMP_LC_roots_revoked = (if ok3 = 0 then setBit gone tgt else gone) ∧
      Frame u t ([Reg.TMP_LC_roots_revoked.key P.tmp 0, Reg.BLK_STAT_blk.key P.tmp 0] ++ burnKeys ++ tmpKeys)
        [P.erq + 0x920, P.tmp + 0x800, P.tmp + 0x808] [.host, .hostMem, .temper])) ∧
  (∀ (s : State) (r : MbxReq) (a : DevAddr) (cert : Option (DevAddr × BitVec 32)), s.calm → s.mbxCanTake = true → s.works P.tmp = true →
    blobPlace a.toNat 0x10020 = true →
    (cert = none → let w := s.put 4 a.toNat (s.temper.cert ++ s.dikKey)
      ∃ t, exec (.identity r a cert) s = .next t ∧ TmpEnd s t r 0x47 0 ∧ records w t [tmpRec r 0x47 0] ∧
      (s.temper.cert.length ≤ 0x10000 → s.stackDead a.toNat = false → t.mem = (s.store a.toNat (s.temper.cert ++ s.dikKey)).mem) ∧
      (s.stackDead a.toNat = true → t.mem = s.mem) ∧
      PageFrame s w (P.tmp / 4096 :: trafficPages) [.host, .mem, .msys, .draws] ∧ Frame w t tmpKeys [P.erq + 0x920] [.host, .hostMem]) ∧
    (∀ p, cert = some p → blobPlace p.1.toNat p.2.toNat = true →
      let n := p.2.toNat
      let d := s.fetch 4 p.1.toNat n
      let u := if s.lcState = 1 then d.1 else s
      let b := SignedBlob.parse (u.load p.1.toNat n)
      let c := s.objCode b [3] (!d.2) n 0x10000
      let own := b.obj.bind = s.serial ∧ numAt b.obj.body 0 8 = s.serial ∧ (b.obj.body.drop 8).take 32 = s.dikKey
      let code := if s.lcState ≠ 1 then 13 else if c = 0 ∧ ¬ own then 7 else c
      let bs := u.load p.1.toNat n ++ s.dikKey
      ∃ t, exec (.identity r a cert) s = .next t ∧ TmpEnd s t r 0x47 code ∧
        (s.lcState = 1 → verCounted s t code ∧ recordsFirst u t [verRec b.obj code] ∧ recordsLast s t [tmpRec r 0x47 code]) ∧
        (code = 0 → t.temper = { s.temper with cert := u.load p.1.toNat n } ∧
          (u.stackDead a.toNat = false → t.mem = (u.store a.toNat bs).mem) ∧ (u.stackDead a.toNat = true → t.mem = u.mem) ∧
          Frame (u.put 4 a.toNat bs) t (Reg.BLK_STAT_blk.key P.tmp 0 :: tmpKeys) [P.erq + 0x920, P.tmp + 0x800, P.tmp + 0x808]
            [.host, .hostMem, .temper]) ∧
        PageFrame s u trafficPages [.host, .mem, .msys, .draws] ∧
        (code ≠ 0 → Frame u t (Reg.BLK_STAT_blk.key P.tmp 0 :: tmpKeys) [P.erq + 0x920, P.tmp + 0x800, P.tmp + 0x808]
          [.host, .hostMem]))) ∧
  (∀ (s : State) (r : MbxReq) (a a2 : DevAddr) (len len2 : BitVec 32), s.calm → s.mbxCanTake = true → s.works P.tmp = true →
    blobPlace a.toNat len.toNat = true → blobPlace a2.toNat len2.toNat = true →
    let st := s.lcState
    let pair := len2 ≠ 0
    let d := s.fetch 4 a.toNat len.toNat
    let blob := SignedBlob.parse (d.1.load a.toNat len.toNat)
    let k := if ¬ pair ∧ (st = 2 ∨ st = 3) then 8 else 7
    let v1 := s.objCode blob [k] (!d.2) len.toNat (2 ^ 32)
    let d2 := (d.1.verified blob.obj v1).fetch 4 a2.toNat len2.toNat
    let u := if pair ∧ v1 = 0 then d2.1 else d.1
    let blob2 := SignedBlob.parse (u.load a2.toNat len2.toNat)
    let v2 := s.objCode blob2 [8] (!d2.2) len2.toNat (2 ^ 32)
    let os := if pair then [blob.obj, blob2.obj] else [blob.obj]
    let dest := numAt blob.obj.body 10 2
    let count := s.rd P.tmp Reg.TMP_AUTH_CTR_count
    let fuses := s.rd P.tmp Reg.TMP_LC_count
    let first := st = 0 ∧ dest = 1
    let bound := ∀ o ∈ os, (numAt o.body 0 8 = s.serial ∨ (first ∧ numAt o.body 0 8 = 0)) ∧ (o.kind = 7 → first ∨ o.bind = s.serial)
    let permitted := lcKinds st dest = some (os.map SignedObj.kind) ∧ ¬ (st = 1 ∧ dest = 2 ∧ s.temper.cert = []) ∧
      ¬ (st = 2 ∧ dest = 3 ∧ s.rd P.tmp Reg.TMP_STAT_slots = 0) ∧ ¬ (st = 4 ∧ dest = 2 ∧ ¬ (fuses = 4 ∨ fuses = 7))
    let fits := ∀ o ∈ os, numAt o.body 8 2 = 1 ∧ numAt o.body 12 4 = count ∧ count < 4096 ∧ numAt o.body 10 2 = dest
    let runs := ∃ c ∈ List.range 8, s.primEn c = true ∧ s.ctxRuns c = true
    let code := if v1 ≠ 0 then v1 else if pair ∧ v2 ≠ 0 then v2 else if ¬ bound then 7 else if ¬ permitted then 10 else if ¬ fits then 11
      else if runs then 13 else 0
    ∃ t, exec (.lcAdvance r a len a2 len2) s = .next t ∧
      (code ≠ 0 → TmpEnd s t r 0x46 code ∧ t.temper = s.temper ∧ t.flash = s.flash ∧
        PageFrame s u (P.tmp / 4096 :: trafficPages) [.host, .mem, .msys, .draws] ∧ Frame u t (Reg.BLK_STAT_blk.key P.tmp 0 :: tmpKeys) [P.erq + 0x920, P.tmp + 0x800, P.tmp + 0x808] [.host, .hostMem]) ∧
      (code = 0 → t.rd P.tmp Reg.TMP_LC_count = (if dest = 5 then 12 else fuses + 1) ∧
        t.rd P.tmp Reg.TMP_LC_state = lcOf (if dest = 5 then 12 else fuses + 1) ∧
        (dest < 4 → Burned s t s.temper.ownerKeys s.temper.revokedSlots) ∧ (4 ≤ dest → Burned s t [] []) ∧
        t.seq.phase = .railsOff ∧ t.rd P.chip Reg.CHIP_RST_CAUSE_cause = 8 ∧
        (dest = 4 ∨ dest = 5 → t.temper.ownerKeys = [] ∧ ∀ i < 0xe00000, Memory.read t.flash (0x200000 + i) = 0) ∧
        (dest = 5 → t.temper.secret = List.replicate 32 0 ∧ t.temper.cert = [] ∧ ∀ i < halfSize, Memory.read t.flash (0x1000000 + i) = 0)))

/-! ### The archive decoder -/

/-- ARC_START, ARC_STOP, ARC_ABORT and ORDER_TABLE_DONE (R521, R522, R527, R530): START is refused with the first
condition that fails, in the order of log entry 99, the model's own, or begins epoch EP0; STOP waits for the batch's
close, ABORT records status 1 and is idle at once; the order table gives this module its shard, and an empty shard
closes the epoch. -/
def Obligations.StreamsStartStopAndOrderTheirSamples : Prop :=
  (∀ (s : State) (i : Fin 64) (v : Word), s.calm → s.reaches (P.arcS i + 0x7c) →
    let p := P.arcS i
    let key := v.toNat / 65536 = 0xa4c7
    let op := v.toNat % 4
    let st := s.rd p Reg.ARC_SSTAT_state
    let c := s.rd p Reg.ARC_SCFG_ctx
    let n := s.rd p Reg.ARC_DS_N_n
    let w := s.rd p Reg.ARC_GEOM_wmax
    let slots := s.rd p Reg.ARC_SCFG_b_m1 + 1
    let aligned := s.rd2 p Reg.ARC_DS_BASE_addr_lo Reg.ARC_DS_BASE_addr_hi % 64 = 0 ∧ s.rd2 p Reg.ARC_OUT_BASE_addr_lo Reg.ARC_OUT_BASE_addr_hi % 4096 = 0 ∧
      s.rd2 p Reg.ARC_MAN_BASE_addr_lo Reg.ARC_MAN_BASE_addr_hi % 4096 = 0 ∧ s.rd2 p Reg.ARC_RES_BASE_addr_lo Reg.ARC_RES_BASE_addr_hi % 64 = 0
    let code := if st ≠ 0 then 4 else if s.inFault P.arcG = true then 7
      else if (s.ctxState c ≠ 4 ∧ s.ctxState c ≠ 3) ∨ s.primEn c = true then 1
      else if n = 0 ∨ 16777216 < n ∨ w = 0 ∨ 32768 < w ∨ s.rd p Reg.ARC_GEOM_hmax = 0 then 2
      else if ¬ aligned ∨ 2 ^ s.manLog i ≤ slots + 1 ∨ 2 ^ s.hqLog c ≤ slots then 3 else 0
    let idle := fun (t : State) => t.rd p Reg.ARC_SSTAT_state = 0 ∧ t.rd p Reg.ARC_SSTAT_res = 0 ∧ t.stream i = default ∧
      t.blkBit p 8 = false ∧ t.blkBit p 9 = false ∧ t.blkBit p 10 = false
    let stop := { s.stream i with stopAsked := true }
    let keys := [Reg.ARC_SSTAT_state.key p 0, Reg.ARC_SSTAT_res.key p 0, Reg.BLK_STAT_blk.key p 0]
    ∀ x ∈ [Instr.arcStart i v, .arcStop i v, .arcAbort i v], ∃ t, exec x s = .next t ∧
      (¬ key → counted (p / 4096) .ignoredWrite s t ∧ Frame s t [] [] [.openCtrs, .parity]) ∧
      (key → op = 0 → Frame s t [] [] [.parity]) ∧
      (key → op = 1 → t.rd p Reg.ARC_SSTAT_res = code ∧ (code ≠ 0 → Frame s t [Reg.ARC_SSTAT_res.key p 0] [] [.parity])) ∧
      (key → op = 1 → code = 0 → t.rd p Reg.ARC_SSTAT_state = 1 ∧ t.rd p Reg.ARC_EPOCH_CUR_epoch = s.rd p Reg.ARC_EP0_epoch ∧
        t.rd p Reg.ARC_BATCH_CUR_batch = 0 ∧ t.blkBit p 10 = true ∧
        t.stream i = { (default : Stream) with epochs := max 1 (s.rd p Reg.ARC_EPN_count) - 1 } ∧
        (∀ j < 64, j ≠ i.val → t.stream j = s.stream j) ∧
        t.rd P.arcG Reg.BLK_STAT_state = (if s.rd P.arcG Reg.BLK_STAT_state = 1 then 0 else s.rd P.arcG Reg.BLK_STAT_state) ∧
        Frame s t (keys ++ [Reg.ARC_EPOCH_CUR_epoch.key p 0, Reg.ARC_BATCH_CUR_batch.key p 0, Reg.BLK_STAT_state.key P.arcG 0]) []
          [.streams, .parity]) ∧
      (key → op = 2 ∨ op = 3 → (st = 4 → idle t ∧ t.host = s.host) ∧
        (st = 0 → t.rd p Reg.ARC_SSTAT_res = 4 ∧ Frame s t [Reg.ARC_SSTAT_res.key p 0] [] [.parity]) ∧
        Frame s t keys [] [.streams, .host, .parity]) ∧
      (key → op = 2 → st ≠ 0 → st ≠ 4 → t.stream i = stop ∧ t.rd p Reg.ARC_SSTAT_state = (if st = 1 then 1 else 3) ∧ t.host = s.host) ∧
      (key → op = 3 → st ≠ 0 → st ≠ 4 → idle t ∧ records s t [(0xc00, 0x69, le 1 i ++ le 1 1 ++ le 2 0 ++ le 4 (s.stream i).corrupt ++
        le 4 (s.rd p Reg.ARC_EPOCH_CUR_epoch))])) ∧
  (∀ (s : State) (i : Fin 64), s.calm →
    let p := P.arcS i
    let due := s.rd p Reg.ARC_SSTAT_state = 1 ∧ s.hearthRuns = true
    let x := s.stream i
    let n := s.rd p Reg.ARC_DS_N_n
    let k := max 1 (s.rd P.bry Reg.BRY_FARM_n)
    let sz := (n + k - 1) / k
    let shard := s.rdb p Reg.ARC_SCFG_shard = true
    let a := if shard then min n (s.moduleId * sz) else 0
    let b := if shard then min n ((s.moduleId + 1) * sz) else n
    let ends := x.stopAsked = true ∨ x.epochs = 0
    let e := s.rd p Reg.ARC_EPOCH_CUR_epoch
    let keys := [Reg.ARC_SSTAT_state.key p 0, Reg.ARC_SSTAT_res.key p 0, Reg.BLK_STAT_blk.key p 0]
    ∃ t, exec (.orderTableDone i) s = .next t ∧ (¬ due → Frame s t [] [] []) ∧
      (due → a < b → t.rd p Reg.ARC_SSTAT_state = (if x.stopAsked = true then 3 else 2) ∧ t.blkBit p 10 = false ∧
        t.stream i = { x with order := ((s.orderTable i).drop a).take (b - a), first := a } ∧
        (s.rdb p Reg.ARC_SCFG_shuffle = false → (t.stream i).order = (List.range (b - a)).map (· + a)) ∧
        Frame s t keys [] [.streams]) ∧
      (due → b ≤ a → records s t [(0xc00, 0x69, le 1 i ++ le 3 0 ++ le 4 x.corrupt ++ le 4 e)] ∧
        (ends → t.rd p Reg.ARC_SSTAT_state = 0 ∧ t.stream i = default) ∧
        (¬ ends → t.rd p Reg.ARC_SSTAT_state = 1 ∧ t.rd p Reg.ARC_EPOCH_CUR_epoch = (e + 1) % 2 ^ 32 ∧ (t.stream i).epochs = x.epochs - 1) ∧
        Frame s t (keys ++ [Reg.ARC_EPOCH_CUR_epoch.key p 0, Reg.ARC_BATCH_CUR_batch.key p 0]) [] [.streams, .host]))

/-- SAMPLE_DECODED, BATCH_CLOSE, ARC_BCONS_WRITE and ARC_MAN_CONS_WRITE (R512 to R517, R520, R523 to R526, R531): a
position within 64 is resolved from the cache or with the first corrupt cause; positions are walked in order, good
ones into free slots; a full or last batch writes its manifest, announces its jobs and records, and waits where the
manifest ring has no room. -/
def Obligations.SamplesAreWalkedAndBatchesClose : Prop :=
  (∀ (s : State) (i : Fin 64) (pos : BitVec 25) (h : SampleHeader), s.atRest →
    let p := P.arcS i
    let x := s.stream i
    let k := pos.toNat - x.first
    let runs := s.arcRuns i = true
    let takes := runs ∧ x.first ≤ pos.toNat ∧ x.next ≤ k ∧ k < x.next + 64 ∧ k < x.order.length ∧ SMap.find? x.resolved k = none
    let n := x.order.getD k 0
    let entry := s.fetch 6 (s.dsAddr i n) 32
    let e := entry.1.dsEntry i n
    let d := if entry.2 = true ∨ e.bad = true then (entry.1, false) else entry.1.fetch 6 e.addr e.len
    let w := h.width.toNat
    let l := h.height.toNat
    let cause := if entry.2 = true then 6 else if e.bad = true then 1
      else if h.readOk = false ∨ d.2 = true then 6 else if h.syntaxOk = false then 1
      else if inLimits e.fmt h = false then 2 else if overfull e.fmt h = true then 3
      else if s.rd p Reg.ARC_GEOM_wmax < w ∨ s.rd p Reg.ARC_GEOM_hmax < l ∨ fitsFmt (s.arcC i) (s.arcB i) e.fmt h = false then 4
      else if h.dataOk = false then (if e.fmt = 2 then 7 else 5)
      else if e.whole = false ∧ (e.c1 < e.c0 ∨ e.l1 < e.l0 ∨ w ≤ e.c1 ∨ l ≤ e.l1) then 8 else 0
    let hit := if s.rd P.arcG Reg.ARC_CACHE_SIZE_size = 0 then none else s.cache.find? (fun c => c.1 = s.cacheKey i n)
    let q : Position := match hit with
      | some c => c.2
      | none => ⟨n, cause, w, l, h.comps.toNat, h.precision.toNat⟩
    let found := hit.isSome = true
    let u := if takes ∧ ¬ found then d.1 else s
    let a := P.arcG + (if found then 0x808 else if q.cause = 0 then 0x800 else 0x818)
    let now := k = x.next ∧ x.resolved = [] ∧ x.good < s.arcSlots i
    ∃ t, exec (.sampleDecoded i pos h) s = .next t ∧ (¬ takes → Frame s t [] [] []) ∧
      (takes → t.ctr a = (s.ctr a + 1) % 2 ^ 64 ∧ (∀ j < 64, j ≠ i.val → t.stream j = s.stream j)) ∧
      (takes → k ≠ x.next ∧ SMap.find? x.resolved x.next = none → SMap.find? (t.stream i).resolved k = some q ∧
        (t.stream i).next = x.next ∧ t.mem = u.mem) ∧
      (takes → now → q.cause ≠ 0 → t.stream i = { x with next := x.next + 1, walked := x.walked ++ [(pos.toNat, q)], corrupt := x.corrupt + 1 } ∧
        t.ctr (p + 0x808) = (s.ctr (p + 0x808) + 1) % 2 ^ 64 ∧ t.mem = u.mem) ∧
      (takes → now → q.cause = 0 → s.arcFree i = true → t.stream i = { x with next := x.next + 1, walked := x.walked ++ [(pos.toNat, q)] } ∧
        t.ctr (p + 0x800) = (s.ctr (p + 0x800) + 1) % 2 ^ 64 ∧ t.mem = (u.slotStore i x.good q).mem) ∧
      (takes → now → q.cause = 0 → s.arcFree i = false → t.stream i = { x with resolved := [(k, q)] } ∧ t.blkBit p 8 = true ∧ t.mem = u.mem) ∧
      (takes → let m := (t.stream i).next - x.next
        (t.stream i).walked.length = x.walked.length + m ∧ (t.stream i).walked.map Prod.fst =
          x.walked.map Prod.fst ++ (List.range m).map (fun j => x.first + x.next + j)) ∧
      PageFrame s u trafficPages [.host, .mem, .msys, .draws] ∧
      (takes → (now ∧ (q.cause ≠ 0 ∨ s.arcFree i = false)) ∨ (k ≠ x.next ∧ SMap.find? x.resolved x.next = none) →
        PageFrame u t [p / 4096, P.arcG / 4096] [.streams, .cache]) ∧
      PageFrame s t ([p, P.arcG, P.tmp].map (· / 4096) ++ trafficPages) [.streams, .cache, .mem, .host, .msys, .draws]) ∧
  (∀ (s : State) (i : Fin 64), s.calm →
    let p := P.arcS i
    let x := s.stream i
    let c := s.rd p Reg.ARC_SCFG_ctx
    let done := x.order.length ≤ x.next
    let due := s.arcRuns i = true ∧ (s.arcSlots i ≤ x.good ∨ (done ∧ x.walked ≠ [])) ∧ s.arcFree i = true
    let m := 1 + x.walked.length + (s.arcSlots i - x.good)
    let room := m ≤ s.manFree i
    let jobs := x.good ≤ s.hqFree c
    let n := s.rd p Reg.ARC_BATCH_CUR_batch
    let e := s.rd p Reg.ARC_EPOCH_CUR_epoch
    let made := (0xc00, 0x68, le 1 i ++ le 1 0 ++ le 2 x.good ++ le 4 n ++ le 4 e ++ le 2 (x.walked.length - x.good))
    let endRec := fun st => (0xc00, 0x69, le 1 i ++ le 1 st ++ le 2 0 ++ le 4 x.corrupt ++ le 4 e)
    ∃ t, exec (.batchClose i) s = .next t ∧ (¬ due → Frame s t [] [] []) ∧
      (due → ¬ room → t.blkBit p 9 = true ∧ Frame s t [Reg.BLK_STAT_blk.key p 0] [] []) ∧
      (due → room → ¬ jobs → Frame s t [] [] []) ∧
      (due → room → jobs → t.rd p Reg.ARC_MAN_CFG_prod = (s.rd p Reg.ARC_MAN_CFG_prod + m) % 2 ^ s.manLog i ∧
        (t.ctx c).hostQ = (s.ctx c).hostQ ++ List.replicate x.good HostItem.ring ∧
        t.ctr (p + 0x810) = (s.ctr (p + 0x810) + (s.arcSlots i - x.good)) % 2 ^ 64 ∧
        t.ctr (p + 0x818) = (s.ctr (p + 0x818) + 1) % 2 ^ 64 ∧ t.blkBit p 9 = false ∧
        PageFrame s t ([p, P.arcG, P.tmp].map (· / 4096) ++ trafficPages) [.streams, .mem, .ctxs, .host, .msys, .draws]) ∧
      (due → room → jobs → ¬ done → x.stopAsked = false →
        (t.host.produced.drop s.host.produced.length).any (fun y => decide (y.recs.map (fun r => (r.src, r.typ, r.payload)) =
          [(made.1, made.2.1, padTo 16 made.2.2)])) = true ∧
        (SMap.find? x.resolved x.next = none → recordsLast s t [made]) ∧ t.rd p Reg.ARC_BATCH_CUR_batch = (n + 1) % 2 ^ 32 ∧
        (t.stream i).total = x.total + 1 ∧ (t.stream i).closed = x.closed ++ [(x.total, s.arcPos i)]) ∧
      (due → room → jobs → ¬ done → x.stopAsked = true → recordsLast s t [made, endRec 1] ∧ t.rd p Reg.ARC_SSTAT_state = 0) ∧
      (due → room → jobs → done → recordsLast s t [made, endRec 0] ∧
        t.rd p Reg.ARC_SSTAT_state = (if x.stopAsked = true ∨ x.epochs = 0 then 0 else 1))) ∧
  (∀ (s : State) (i : Fin 64) (v : Word), s.atRest → s.reaches (P.arcS i + 0x78) →
    let p := P.arcS i
    let x := s.stream i
    let y := { x with closed := x.closed.filter (fun b => decide (v.toNat ≤ b.1 % 2 ^ 32)) }
    ∃ t, exec (.arcBconsWrite i v) s = .next t ∧ t.rd p Reg.ARC_BCONS_batches = v.toNat ∧ (t.stream i).closed = y.closed ∧
      (s.arcRuns i = false → t.stream i = y ∧ Frame s t [Reg.ARC_BCONS_batches.key p 0] [] [.streams, .parity]) ∧
      (SMap.find? x.resolved x.next = none ∨ s.arcSlots i ≤ x.good → t.stream i = y ∧
        Frame s t [Reg.ARC_BCONS_batches.key p 0, Reg.BLK_STAT_blk.key p 0] [] [.streams, .parity]) ∧
      (∀ q, s.arcRuns i = true ∧ x.good < s.arcSlots i ∧ (∀ b ∈ y.closed, b.2 ≠ s.arcPos i) → SMap.find? x.resolved x.next = some q →
        (x.first + x.next, q) ∈ (t.stream i).walked) ∧
      (∀ j < 64, j ≠ i.val → t.stream j = s.stream j) ∧
      PageFrame s t ([p, P.arcG, P.tmp].map (· / 4096) ++ trafficPages) [.streams, .mem, .parity, .host, .msys, .draws]) ∧
  (∀ (s : State) (i : Fin 64) (v : Word), s.atRest → s.reaches (P.arcS i + 0x74) →
    let p := P.arcS i
    let s1 := (s.storeParity (p + 0x74)).wr p Reg.ARC_MAN_CONS_cons v.toNat
    ∃ t, exec (.arcManConsWrite i v) s = .next t ∧
      (s.blkBit p 9 = false → t.rd p Reg.ARC_MAN_CONS_cons = v.toNat % 2 ^ Reg.ARC_MAN_CONS_cons.width ∧
        Frame s t [Reg.ARC_MAN_CONS_cons.key p 0] [] [.parity]) ∧
      (s.blkBit p 9 = true → exec (.batchClose i) s1 = .next t))

/-! ### The queue, the clock, reset, every step -/

/-- A step takes the command at the front of the queue and is exec of that command on the state with the queue's rest;
with no command waiting one cycle of the clock passes and the queue stays empty (log entry 4, the model's own). -/
def Obligations.StepRunsTheFrontCommand : Prop :=
  (∀ (c : Instr) (rest : List Instr) (s : State), step { s with pending := c :: rest } = exec c { s with pending := rest }) ∧
  (∀ s : State, s.pending = [] → s.atRest → ∃ t, step s = .next t ∧ Frame s t [] [] [.ptp] ∧
    (s.ptp.running = false ∨ s.seq.clkLost.contains .eth = true → t.ptp = s.ptp) ∧
    (s.ptp.running = true → s.seq.clkLost.contains .eth = false → t.ptp.cycle = (s.ptp.cycle + 1) % 25 ∧ t.ptp.running = true))

/-- The PTP clock (R455): its nanoseconds and fraction advance in each ETHCLK cycle by the nominal increment plus PTP_RATE
in 2^-32 ns; of every 25 cycles 19 take the longer increment and 6 the shorter; with PTP_RATE at 0, 25 cycles add
exactly 64 ns from any state, and within them the clock differs from 2.56 ns a cycle by less than 2^-27 ns; it runs
from the end of step 2, whether or not its time is valid. -/
def Obligations.PtpClockKeepsItsNominalRate : Prop :=
  let total := fun s : State => s.ptp.ns * 2 ^ 32 + s.ptp.frac
  (∀ s : State, s.pending = [] → s.atRest → s.ptp.running = true → s.seq.clkLost.contains .eth = false → s.ptp.cycle < 25 →
    ∃ t, step s = .next t ∧ total t = wrap 96 ((total s + ptpIncrement s.ptp.cycle : Nat) + ptpRate (s.rd P.ptp Reg.PTP_RATE_rate)) ∧
      t.ptp.frac < 2 ^ 32 ∧ t.ptp.cycle = (s.ptp.cycle + 1) % 25 ∧ t.ptp.running = true ∧ Frame s t [] [] [.ptp]) ∧
  (∀ i < 25, ptpIncrement i = 2 * 2 ^ 32 + 2405181686 ∨ ptpIncrement i = 2 * 2 ^ 32 + 2405181685) ∧
  (List.range 25).countP (fun i => decide (ptpIncrement i = 2 * 2 ^ 32 + 2405181686)) = 19 ∧
  (∀ (s : State) (k : Nat), s.pending = [] → s.atRest → s.ptp.running = true → s.seq.clkLost.contains .eth = false →
    s.rd P.ptp Reg.PTP_RATE_rate = 0 → s.ptp.cycle < 25 → s.ptp.frac < 2 ^ 32 → s.ptp.ns + 128 < 2 ^ 64 → k ≤ 25 →
    ∃ t, Host.Core.run Sys2Proof.core k s = .next t ∧ Frame s t [] [] [.ptp] ∧ total s ≤ total t ∧
      25 * (total t - total s) < 64 * 2 ^ 32 * k + 25 * 2 ^ 5 ∧ 64 * 2 ^ 32 * k < 25 * (total t - total s) + 25 * 2 ^ 5 ∧
      (k = 25 → total t = total s + 64 * 2 ^ 32 ∧ t.ptp.cycle = s.ptp.cycle)) ∧
  (∀ (s : State) (rep : StartReport), s.atRest → s.board.thermShutdown = false → s.board.smbHold = false →
    s.seq.phase = .coldSteps ∨ s.seq.phase = .warmSteps → bit s.seq.begun 1 = true → bit s.seq.ended 1 = false →
    ∃ t, exec (.coldStartStepDone 1 rep) s = .next t ∧ t.ptp = { s.ptp with running := true })

/-- Every step that answers a next state leaves it settled: readiness is what R80 computes, the permit conducts only while
the module is ready (R55, R56), and every field output is on exactly when its owner demands it and direction, path,
protection, supply, reset and fault state allow it (R53, R54, R431, R433, R437, R439). -/
def Obligations.EveryStepSettlesPermitAndOutputs : Prop := ∀ s t : State, step s = .next t → t.settled

/-- Every step keeps the canonical form of the three byte memories: addresses strictly rising, no entry equal to what an
unlisted address reads as. -/
def Obligations.EveryStepKeepsTheMemoriesCanonical : Prop := ∀ s t : State, s.memOk → step s = .next t → t.memOk

/-- The state after reset (R83, R84, R86, R229, R591; that the module is seated and powered is log entry 14, the model's
own): cold start has begun, the cause is a power-on, no context is required, the permit is off, every output is off,
every bank has its reset owner, launch slots are empty, no command waits, the memories list nothing; it is settled. -/
def Obligations.ResetLeavesTheModuleStarting : Prop :=
  let s := State.reset
  s.settled ∧ s.memOk ∧ s.pending = [] ∧ s.atRest ∧ s.seq.phase = .coldSteps ∧ s.seq.permit = false ∧ s.outputsOff ∧
    s.mem = [] ∧ s.ptp.ns = 0 ∧ s.rd P.chip Reg.CHIP_RST_CAUSE_cause = 1 ∧ s.rd P.chip Reg.CHIP_RST_CAUSE_warm_count = 0 ∧
    s.rd P.chip Reg.CHIP_READY_ctx_req = 0 ∧ s.rd P.chip Reg.CHIP_READY_permit_en = 0 ∧ s.rd P.chip Reg.CHIP_WAKE_en = 0x3ff ∧
    s.rd P.ptp Reg.PTP_CTL_valid = 0 ∧ s.rd P.ptp Reg.PTP_CTL_step_lim = 1000 ∧
    (∀ c < 8, s.ctxState c = 0) ∧ (∀ k < 8, s.camState k = 0) ∧ (∀ n < 16, s.owner (chanRes n) = 0) ∧
    (∀ p < 2, ∀ i < 32, s.slotState p i = 0) ∧ (∀ e < 36, s.rd (P.eng e) Reg.BLK_CTRL_en = 0)

/-- A command answers a next state exactly when it is well formed: no fault, and no refusal but that of an operand that no
command of the spec can carry. -/
def Obligations.WellFormedCommandsAnswerAndNoOthers : Prop :=
  ∀ (c : Instr) (s : State), (c.wf = true → ∃ t, exec c s = .next t) ∧ (c.wf = false → exec c s = .refused .illFormed)

end
end

