-- ==== Sys2Proof/Laws/State.lean ====
section
/-! SUPPORT. One lemma per field per basic update of the state, and what a read of a register field or a counter gives
after one. -/

namespace Sys2Proof.Machine

/-! ### wr -/

@[simp] theorem State.wr_ctrs (s : State) (base : Nat) (f : Fld) (v i : Nat) : (s.wr base f v i).ctrs = s.ctrs := rfl
@[simp] theorem State.wr_snaps (s : State) (base : Nat) (f : Fld) (v i : Nat) : (s.wr base f v i).snaps = s.snaps := rfl
@[simp] theorem State.wr_openCtrs (s : State) (base : Nat) (f : Fld) (v i : Nat) : (s.wr base f v i).openCtrs = s.openCtrs := rfl
@[simp] theorem State.wr_parityBad (s : State) (base : Nat) (f : Fld) (v i : Nat) : (s.wr base f v i).parityBad = s.parityBad := rfl
@[simp] theorem State.wr_injectArmed (s : State) (base : Nat) (f : Fld) (v i : Nat) : (s.wr base f v i).injectArmed = s.injectArmed := rfl
@[simp] theorem State.wr_snapWait (s : State) (base : Nat) (f : Fld) (v i : Nat) : (s.wr base f v i).snapWait = s.snapWait := rfl
@[simp] theorem State.wr_deferred (s : State) (base : Nat) (f : Fld) (v i : Nat) : (s.wr base f v i).deferred = s.deferred := rfl
@[simp] theorem State.wr_board (s : State) (base : Nat) (f : Fld) (v i : Nat) : (s.wr base f v i).board = s.board := rfl
@[simp] theorem State.wr_seq (s : State) (base : Nat) (f : Fld) (v i : Nat) : (s.wr base f v i).seq = s.seq := rfl
@[simp] theorem State.wr_host (s : State) (base : Nat) (f : Fld) (v i : Nat) : (s.wr base f v i).host = s.host := rfl
@[simp] theorem State.wr_mem (s : State) (base : Nat) (f : Fld) (v i : Nat) : (s.wr base f v i).mem = s.mem := rfl
@[simp] theorem State.wr_hostMem (s : State) (base : Nat) (f : Fld) (v i : Nat) : (s.wr base f v i).hostMem = s.hostMem := rfl
@[simp] theorem State.wr_flash (s : State) (base : Nat) (f : Fld) (v i : Nat) : (s.wr base f v i).flash = s.flash := rfl
@[simp] theorem State.wr_engines (s : State) (base : Nat) (f : Fld) (v i : Nat) : (s.wr base f v i).engines = s.engines := rfl
@[simp] theorem State.wr_ctxs (s : State) (base : Nat) (f : Fld) (v i : Nat) : (s.wr base f v i).ctxs = s.ctxs := rfl
@[simp] theorem State.wr_sched (s : State) (base : Nat) (f : Fld) (v i : Nat) : (s.wr base f v i).sched = s.sched := rfl
@[simp] theorem State.wr_cams (s : State) (base : Nat) (f : Fld) (v i : Nat) : (s.wr base f v i).cams = s.cams := rfl
@[simp] theorem State.wr_pipes (s : State) (base : Nat) (f : Fld) (v i : Nat) : (s.wr base f v i).pipes = s.pipes := rfl
@[simp] theorem State.wr_detect (s : State) (base : Nat) (f : Fld) (v i : Nat) : (s.wr base f v i).detect = s.detect := rfl
@[simp] theorem State.wr_lanes (s : State) (base : Nat) (f : Fld) (v i : Nat) : (s.wr base f v i).lanes = s.lanes := rfl
@[simp] theorem State.wr_encs (s : State) (base : Nat) (f : Fld) (v i : Nat) : (s.wr base f v i).encs = s.encs := rfl
@[simp] theorem State.wr_rtu (s : State) (base : Nat) (f : Fld) (v i : Nat) : (s.wr base f v i).rtu = s.rtu := rfl
@[simp] theorem State.wr_field (s : State) (base : Nat) (f : Fld) (v i : Nat) : (s.wr base f v i).field = s.field := rfl
@[simp] theorem State.wr_ports (s : State) (base : Nat) (f : Fld) (v i : Nat) : (s.wr base f v i).ports = s.ports := rfl
@[simp] theorem State.wr_ptp (s : State) (base : Nat) (f : Fld) (v i : Nat) : (s.wr base f v i).ptp = s.ptp := rfl
@[simp] theorem State.wr_bry (s : State) (base : Nat) (f : Fld) (v i : Nat) : (s.wr base f v i).bry = s.bry := rfl
@[simp] theorem State.wr_streams (s : State) (base : Nat) (f : Fld) (v i : Nat) : (s.wr base f v i).streams = s.streams := rfl
@[simp] theorem State.wr_cache (s : State) (base : Nat) (f : Fld) (v i : Nat) : (s.wr base f v i).cache = s.cache := rfl
@[simp] theorem State.wr_temper (s : State) (base : Nat) (f : Fld) (v i : Nat) : (s.wr base f v i).temper = s.temper := rfl
@[simp] theorem State.wr_coll (s : State) (base : Nat) (f : Fld) (v i : Nat) : (s.wr base f v i).coll = s.coll := rfl
@[simp] theorem State.wr_quench (s : State) (base : Nat) (f : Fld) (v i : Nat) : (s.wr base f v i).quench = s.quench := rfl
@[simp] theorem State.wr_msys (s : State) (base : Nat) (f : Fld) (v i : Nat) : (s.wr base f v i).msys = s.msys := rfl
@[simp] theorem State.wr_draws (s : State) (base : Nat) (f : Fld) (v i : Nat) : (s.wr base f v i).draws = s.draws := rfl
@[simp] theorem State.wr_pending (s : State) (base : Nat) (f : Fld) (v i : Nat) : (s.wr base f v i).pending = s.pending := rfl
@[simp] theorem State.wr_ctr (s : State) (base : Nat) (f : Fld) (v i : Nat) (q : Nat) : (s.wr base f v i).ctr q = s.ctr q := rfl

/-! ### bump -/

@[simp] theorem State.bump_regs (s : State) (a n : Nat) : (s.bump a n).regs = s.regs := rfl
@[simp] theorem State.bump_snaps (s : State) (a n : Nat) : (s.bump a n).snaps = s.snaps := rfl
@[simp] theorem State.bump_openCtrs (s : State) (a n : Nat) : (s.bump a n).openCtrs = s.openCtrs := rfl
@[simp] theorem State.bump_parityBad (s : State) (a n : Nat) : (s.bump a n).parityBad = s.parityBad := rfl
@[simp] theorem State.bump_injectArmed (s : State) (a n : Nat) : (s.bump a n).injectArmed = s.injectArmed := rfl
@[simp] theorem State.bump_snapWait (s : State) (a n : Nat) : (s.bump a n).snapWait = s.snapWait := rfl
@[simp] theorem State.bump_deferred (s : State) (a n : Nat) : (s.bump a n).deferred = s.deferred := rfl
@[simp] theorem State.bump_board (s : State) (a n : Nat) : (s.bump a n).board = s.board := rfl
@[simp] theorem State.bump_seq (s : State) (a n : Nat) : (s.bump a n).seq = s.seq := rfl
@[simp] theorem State.bump_host (s : State) (a n : Nat) : (s.bump a n).host = s.host := rfl
@[simp] theorem State.bump_mem (s : State) (a n : Nat) : (s.bump a n).mem = s.mem := rfl
@[simp] theorem State.bump_hostMem (s : State) (a n : Nat) : (s.bump a n).hostMem = s.hostMem := rfl
@[simp] theorem State.bump_flash (s : State) (a n : Nat) : (s.bump a n).flash = s.flash := rfl
@[simp] theorem State.bump_engines (s : State) (a n : Nat) : (s.bump a n).engines = s.engines := rfl
@[simp] theorem State.bump_ctxs (s : State) (a n : Nat) : (s.bump a n).ctxs = s.ctxs := rfl
@[simp] theorem State.bump_sched (s : State) (a n : Nat) : (s.bump a n).sched = s.sched := rfl
@[simp] theorem State.bump_cams (s : State) (a n : Nat) : (s.bump a n).cams = s.cams := rfl
@[simp] theorem State.bump_pipes (s : State) (a n : Nat) : (s.bump a n).pipes = s.pipes := rfl
@[simp] theorem State.bump_detect (s : State) (a n : Nat) : (s.bump a n).detect = s.detect := rfl
@[simp] theorem State.bump_lanes (s : State) (a n : Nat) : (s.bump a n).lanes = s.lanes := rfl
@[simp] theorem State.bump_encs (s : State) (a n : Nat) : (s.bump a n).encs = s.encs := rfl
@[simp] theorem State.bump_rtu (s : State) (a n : Nat) : (s.bump a n).rtu = s.rtu := rfl
@[simp] theorem State.bump_field (s : State) (a n : Nat) : (s.bump a n).field = s.field := rfl
@[simp] theorem State.bump_ports (s : State) (a n : Nat) : (s.bump a n).ports = s.ports := rfl
@[simp] theorem State.bump_ptp (s : State) (a n : Nat) : (s.bump a n).ptp = s.ptp := rfl
@[simp] theorem State.bump_bry (s : State) (a n : Nat) : (s.bump a n).bry = s.bry := rfl
@[simp] theorem State.bump_streams (s : State) (a n : Nat) : (s.bump a n).streams = s.streams := rfl
@[simp] theorem State.bump_cache (s : State) (a n : Nat) : (s.bump a n).cache = s.cache := rfl
@[simp] theorem State.bump_temper (s : State) (a n : Nat) : (s.bump a n).temper = s.temper := rfl
@[simp] theorem State.bump_coll (s : State) (a n : Nat) : (s.bump a n).coll = s.coll := rfl
@[simp] theorem State.bump_quench (s : State) (a n : Nat) : (s.bump a n).quench = s.quench := rfl
@[simp] theorem State.bump_msys (s : State) (a n : Nat) : (s.bump a n).msys = s.msys := rfl
@[simp] theorem State.bump_draws (s : State) (a n : Nat) : (s.bump a n).draws = s.draws := rfl
@[simp] theorem State.bump_pending (s : State) (a n : Nat) : (s.bump a n).pending = s.pending := rfl
@[simp] theorem State.bump_rd (s : State) (a n : Nat) (b : Nat) (g : Fld) (ix : Nat) : (s.bump a n).rd b g ix = s.rd b g ix := rfl

/-! ### setEng -/

@[simp] theorem State.setEng_regs (s : State) (e : Nat) (x : Engine) : (s.setEng e x).regs = s.regs := rfl
@[simp] theorem State.setEng_ctrs (s : State) (e : Nat) (x : Engine) : (s.setEng e x).ctrs = s.ctrs := rfl
@[simp] theorem State.setEng_snaps (s : State) (e : Nat) (x : Engine) : (s.setEng e x).snaps = s.snaps := rfl
@[simp] theorem State.setEng_openCtrs (s : State) (e : Nat) (x : Engine) : (s.setEng e x).openCtrs = s.openCtrs := rfl
@[simp] theorem State.setEng_parityBad (s : State) (e : Nat) (x : Engine) : (s.setEng e x).parityBad = s.parityBad := rfl
@[simp] theorem State.setEng_injectArmed (s : State) (e : Nat) (x : Engine) : (s.setEng e x).injectArmed = s.injectArmed := rfl
@[simp] theorem State.setEng_snapWait (s : State) (e : Nat) (x : Engine) : (s.setEng e x).snapWait = s.snapWait := rfl
@[simp] theorem State.setEng_deferred (s : State) (e : Nat) (x : Engine) : (s.setEng e x).deferred = s.deferred := rfl
@[simp] theorem State.setEng_board (s : State) (e : Nat) (x : Engine) : (s.setEng e x).board = s.board := rfl
@[simp] theorem State.setEng_seq (s : State) (e : Nat) (x : Engine) : (s.setEng e x).seq = s.seq := rfl
@[simp] theorem State.setEng_host (s : State) (e : Nat) (x : Engine) : (s.setEng e x).host = s.host := rfl
@[simp] theorem State.setEng_mem (s : State) (e : Nat) (x : Engine) : (s.setEng e x).mem = s.mem := rfl
@[simp] theorem State.setEng_hostMem (s : State) (e : Nat) (x : Engine) : (s.setEng e x).hostMem = s.hostMem := rfl
@[simp] theorem State.setEng_flash (s : State) (e : Nat) (x : Engine) : (s.setEng e x).flash = s.flash := rfl
@[simp] theorem State.setEng_ctxs (s : State) (e : Nat) (x : Engine) : (s.setEng e x).ctxs = s.ctxs := rfl
@[simp] theorem State.setEng_sched (s : State) (e : Nat) (x : Engine) : (s.setEng e x).sched = s.sched := rfl
@[simp] theorem State.setEng_cams (s : State) (e : Nat) (x : Engine) : (s.setEng e x).cams = s.cams := rfl
@[simp] theorem State.setEng_pipes (s : State) (e : Nat) (x : Engine) : (s.setEng e x).pipes = s.pipes := rfl
@[simp] theorem State.setEng_detect (s : State) (e : Nat) (x : Engine) : (s.setEng e x).detect = s.detect := rfl
@[simp] theorem State.setEng_lanes (s : State) (e : Nat) (x : Engine) : (s.setEng e x).lanes = s.lanes := rfl
@[simp] theorem State.setEng_encs (s : State) (e : Nat) (x : Engine) : (s.setEng e x).encs = s.encs := rfl
@[simp] theorem State.setEng_rtu (s : State) (e : Nat) (x : Engine) : (s.setEng e x).rtu = s.rtu := rfl
@[simp] theorem State.setEng_field (s : State) (e : Nat) (x : Engine) : (s.setEng e x).field = s.field := rfl
@[simp] theorem State.setEng_ports (s : State) (e : Nat) (x : Engine) : (s.setEng e x).ports = s.ports := rfl
@[simp] theorem State.setEng_ptp (s : State) (e : Nat) (x : Engine) : (s.setEng e x).ptp = s.ptp := rfl
@[simp] theorem State.setEng_bry (s : State) (e : Nat) (x : Engine) : (s.setEng e x).bry = s.bry := rfl
@[simp] theorem State.setEng_streams (s : State) (e : Nat) (x : Engine) : (s.setEng e x).streams = s.streams := rfl
@[simp] theorem State.setEng_cache (s : State) (e : Nat) (x : Engine) : (s.setEng e x).cache = s.cache := rfl
@[simp] theorem State.setEng_temper (s : State) (e : Nat) (x : Engine) : (s.setEng e x).temper = s.temper := rfl
@[simp] theorem State.setEng_coll (s : State) (e : Nat) (x : Engine) : (s.setEng e x).coll = s.coll := rfl
@[simp] theorem State.setEng_quench (s : State) (e : Nat) (x : Engine) : (s.setEng e x).quench = s.quench := rfl
@[simp] theorem State.setEng_msys (s : State) (e : Nat) (x : Engine) : (s.setEng e x).msys = s.msys := rfl
@[simp] theorem State.setEng_draws (s : State) (e : Nat) (x : Engine) : (s.setEng e x).draws = s.draws := rfl
@[simp] theorem State.setEng_pending (s : State) (e : Nat) (x : Engine) : (s.setEng e x).pending = s.pending := rfl
@[simp] theorem State.setEng_rd (s : State) (e : Nat) (x : Engine) (b : Nat) (g : Fld) (ix : Nat) : (s.setEng e x).rd b g ix = s.rd b g ix := rfl
@[simp] theorem State.setEng_ctr (s : State) (e : Nat) (x : Engine) (q : Nat) : (s.setEng e x).ctr q = s.ctr q := rfl

/-! ### setChan -/

@[simp] theorem State.setChan_regs (s : State) (n : Nat) (x : Chan) : (s.setChan n x).regs = s.regs := rfl
@[simp] theorem State.setChan_ctrs (s : State) (n : Nat) (x : Chan) : (s.setChan n x).ctrs = s.ctrs := rfl
@[simp] theorem State.setChan_snaps (s : State) (n : Nat) (x : Chan) : (s.setChan n x).snaps = s.snaps := rfl
@[simp] theorem State.setChan_openCtrs (s : State) (n : Nat) (x : Chan) : (s.setChan n x).openCtrs = s.openCtrs := rfl
@[simp] theorem State.setChan_parityBad (s : State) (n : Nat) (x : Chan) : (s.setChan n x).parityBad = s.parityBad := rfl
@[simp] theorem State.setChan_injectArmed (s : State) (n : Nat) (x : Chan) : (s.setChan n x).injectArmed = s.injectArmed := rfl
@[simp] theorem State.setChan_snapWait (s : State) (n : Nat) (x : Chan) : (s.setChan n x).snapWait = s.snapWait := rfl
@[simp] theorem State.setChan_deferred (s : State) (n : Nat) (x : Chan) : (s.setChan n x).deferred = s.deferred := rfl
@[simp] theorem State.setChan_board (s : State) (n : Nat) (x : Chan) : (s.setChan n x).board = s.board := rfl
@[simp] theorem State.setChan_seq (s : State) (n : Nat) (x : Chan) : (s.setChan n x).seq = s.seq := rfl
@[simp] theorem State.setChan_host (s : State) (n : Nat) (x : Chan) : (s.setChan n x).host = s.host := rfl
@[simp] theorem State.setChan_mem (s : State) (n : Nat) (x : Chan) : (s.setChan n x).mem = s.mem := rfl
@[simp] theorem State.setChan_hostMem (s : State) (n : Nat) (x : Chan) : (s.setChan n x).hostMem = s.hostMem := rfl
@[simp] theorem State.setChan_flash (s : State) (n : Nat) (x : Chan) : (s.setChan n x).flash = s.flash := rfl
@[simp] theorem State.setChan_engines (s : State) (n : Nat) (x : Chan) : (s.setChan n x).engines = s.engines := rfl
@[simp] theorem State.setChan_ctxs (s : State) (n : Nat) (x : Chan) : (s.setChan n x).ctxs = s.ctxs := rfl
@[simp] theorem State.setChan_sched (s : State) (n : Nat) (x : Chan) : (s.setChan n x).sched = s.sched := rfl
@[simp] theorem State.setChan_cams (s : State) (n : Nat) (x : Chan) : (s.setChan n x).cams = s.cams := rfl
@[simp] theorem State.setChan_pipes (s : State) (n : Nat) (x : Chan) : (s.setChan n x).pipes = s.pipes := rfl
@[simp] theorem State.setChan_detect (s : State) (n : Nat) (x : Chan) : (s.setChan n x).detect = s.detect := rfl
@[simp] theorem State.setChan_lanes (s : State) (n : Nat) (x : Chan) : (s.setChan n x).lanes = s.lanes := rfl
@[simp] theorem State.setChan_encs (s : State) (n : Nat) (x : Chan) : (s.setChan n x).encs = s.encs := rfl
@[simp] theorem State.setChan_rtu (s : State) (n : Nat) (x : Chan) : (s.setChan n x).rtu = s.rtu := rfl
@[simp] theorem State.setChan_ports (s : State) (n : Nat) (x : Chan) : (s.setChan n x).ports = s.ports := rfl
@[simp] theorem State.setChan_ptp (s : State) (n : Nat) (x : Chan) : (s.setChan n x).ptp = s.ptp := rfl
@[simp] theorem State.setChan_bry (s : State) (n : Nat) (x : Chan) : (s.setChan n x).bry = s.bry := rfl
@[simp] theorem State.setChan_streams (s : State) (n : Nat) (x : Chan) : (s.setChan n x).streams = s.streams := rfl
@[simp] theorem State.setChan_cache (s : State) (n : Nat) (x : Chan) : (s.setChan n x).cache = s.cache := rfl
@[simp] theorem State.setChan_temper (s : State) (n : Nat) (x : Chan) : (s.setChan n x).temper = s.temper := rfl
@[simp] theorem State.setChan_coll (s : State) (n : Nat) (x : Chan) : (s.setChan n x).coll = s.coll := rfl
@[simp] theorem State.setChan_quench (s : State) (n : Nat) (x : Chan) : (s.setChan n x).quench = s.quench := rfl
@[simp] theorem State.setChan_msys (s : State) (n : Nat) (x : Chan) : (s.setChan n x).msys = s.msys := rfl
@[simp] theorem State.setChan_draws (s : State) (n : Nat) (x : Chan) : (s.setChan n x).draws = s.draws := rfl
@[simp] theorem State.setChan_pending (s : State) (n : Nat) (x : Chan) : (s.setChan n x).pending = s.pending := rfl
@[simp] theorem State.setChan_rd (s : State) (n : Nat) (x : Chan) (b : Nat) (g : Fld) (ix : Nat) : (s.setChan n x).rd b g ix = s.rd b g ix := rfl
@[simp] theorem State.setChan_ctr (s : State) (n : Nat) (x : Chan) (q : Nat) : (s.setChan n x).ctr q = s.ctr q := rfl

/-! ### setPort -/

@[simp] theorem State.setPort_regs (s : State) (p : Nat) (x : Port) : (s.setPort p x).regs = s.regs := rfl
@[simp] theorem State.setPort_ctrs (s : State) (p : Nat) (x : Port) : (s.setPort p x).ctrs = s.ctrs := rfl
@[simp] theorem State.setPort_snaps (s : State) (p : Nat) (x : Port) : (s.setPort p x).snaps = s.snaps := rfl
@[simp] theorem State.setPort_openCtrs (s : State) (p : Nat) (x : Port) : (s.setPort p x).openCtrs = s.openCtrs := rfl
@[simp] theorem State.setPort_parityBad (s : State) (p : Nat) (x : Port) : (s.setPort p x).parityBad = s.parityBad := rfl
@[simp] theorem State.setPort_injectArmed (s : State) (p : Nat) (x : Port) : (s.setPort p x).injectArmed = s.injectArmed := rfl
@[simp] theorem State.setPort_snapWait (s : State) (p : Nat) (x : Port) : (s.setPort p x).snapWait = s.snapWait := rfl
@[simp] theorem State.setPort_deferred (s : State) (p : Nat) (x : Port) : (s.setPort p x).deferred = s.deferred := rfl
@[simp] theorem State.setPort_board (s : State) (p : Nat) (x : Port) : (s.setPort p x).board = s.board := rfl
@[simp] theorem State.setPort_seq (s : State) (p : Nat) (x : Port) : (s.setPort p x).seq = s.seq := rfl
@[simp] theorem State.setPort_host (s : State) (p : Nat) (x : Port) : (s.setPort p x).host = s.host := rfl
@[simp] theorem State.setPort_mem (s : State) (p : Nat) (x : Port) : (s.setPort p x).mem = s.mem := rfl
@[simp] theorem State.setPort_hostMem (s : State) (p : Nat) (x : Port) : (s.setPort p x).hostMem = s.hostMem := rfl
@[simp] theorem State.setPort_flash (s : State) (p : Nat) (x : Port) : (s.setPort p x).flash = s.flash := rfl
@[simp] theorem State.setPort_engines (s : State) (p : Nat) (x : Port) : (s.setPort p x).engines = s.engines := rfl
@[simp] theorem State.setPort_ctxs (s : State) (p : Nat) (x : Port) : (s.setPort p x).ctxs = s.ctxs := rfl
@[simp] theorem State.setPort_sched (s : State) (p : Nat) (x : Port) : (s.setPort p x).sched = s.sched := rfl
@[simp] theorem State.setPort_cams (s : State) (p : Nat) (x : Port) : (s.setPort p x).cams = s.cams := rfl
@[simp] theorem State.setPort_pipes (s : State) (p : Nat) (x : Port) : (s.setPort p x).pipes = s.pipes := rfl
@[simp] theorem State.setPort_detect (s : State) (p : Nat) (x : Port) : (s.setPort p x).detect = s.detect := rfl
@[simp] theorem State.setPort_lanes (s : State) (p : Nat) (x : Port) : (s.setPort p x).lanes = s.lanes := rfl
@[simp] theorem State.setPort_encs (s : State) (p : Nat) (x : Port) : (s.setPort p x).encs = s.encs := rfl
@[simp] theorem State.setPort_rtu (s : State) (p : Nat) (x : Port) : (s.setPort p x).rtu = s.rtu := rfl
@[simp] theorem State.setPort_field (s : State) (p : Nat) (x : Port) : (s.setPort p x).field = s.field := rfl
@[simp] theorem State.setPort_ptp (s : State) (p : Nat) (x : Port) : (s.setPort p x).ptp = s.ptp := rfl
@[simp] theorem State.setPort_bry (s : State) (p : Nat) (x : Port) : (s.setPort p x).bry = s.bry := rfl
@[simp] theorem State.setPort_streams (s : State) (p : Nat) (x : Port) : (s.setPort p x).streams = s.streams := rfl
@[simp] theorem State.setPort_cache (s : State) (p : Nat) (x : Port) : (s.setPort p x).cache = s.cache := rfl
@[simp] theorem State.setPort_temper (s : State) (p : Nat) (x : Port) : (s.setPort p x).temper = s.temper := rfl
@[simp] theorem State.setPort_coll (s : State) (p : Nat) (x : Port) : (s.setPort p x).coll = s.coll := rfl
@[simp] theorem State.setPort_quench (s : State) (p : Nat) (x : Port) : (s.setPort p x).quench = s.quench := rfl
@[simp] theorem State.setPort_msys (s : State) (p : Nat) (x : Port) : (s.setPort p x).msys = s.msys := rfl
@[simp] theorem State.setPort_draws (s : State) (p : Nat) (x : Port) : (s.setPort p x).draws = s.draws := rfl
@[simp] theorem State.setPort_pending (s : State) (p : Nat) (x : Port) : (s.setPort p x).pending = s.pending := rfl
@[simp] theorem State.setPort_rd (s : State) (p : Nat) (x : Port) (b : Nat) (g : Fld) (ix : Nat) : (s.setPort p x).rd b g ix = s.rd b g ix := rfl
@[simp] theorem State.setPort_ctr (s : State) (p : Nat) (x : Port) (q : Nat) : (s.setPort p x).ctr q = s.ctr q := rfl

/-! ### setBoard -/

@[simp] theorem State.setBoard_regs (s : State) (x : Board) : (s.setBoard x).regs = s.regs := rfl
@[simp] theorem State.setBoard_ctrs (s : State) (x : Board) : (s.setBoard x).ctrs = s.ctrs := rfl
@[simp] theorem State.setBoard_snaps (s : State) (x : Board) : (s.setBoard x).snaps = s.snaps := rfl
@[simp] theorem State.setBoard_openCtrs (s : State) (x : Board) : (s.setBoard x).openCtrs = s.openCtrs := rfl
@[simp] theorem State.setBoard_parityBad (s : State) (x : Board) : (s.setBoard x).parityBad = s.parityBad := rfl
@[simp] theorem State.setBoard_injectArmed (s : State) (x : Board) : (s.setBoard x).injectArmed = s.injectArmed := rfl
@[simp] theorem State.setBoard_snapWait (s : State) (x : Board) : (s.setBoard x).snapWait = s.snapWait := rfl
@[simp] theorem State.setBoard_deferred (s : State) (x : Board) : (s.setBoard x).deferred = s.deferred := rfl
@[simp] theorem State.setBoard_seq (s : State) (x : Board) : (s.setBoard x).seq = s.seq := rfl
@[simp] theorem State.setBoard_host (s : State) (x : Board) : (s.setBoard x).host = s.host := rfl
@[simp] theorem State.setBoard_mem (s : State) (x : Board) : (s.setBoard x).mem = s.mem := rfl
@[simp] theorem State.setBoard_hostMem (s : State) (x : Board) : (s.setBoard x).hostMem = s.hostMem := rfl
@[simp] theorem State.setBoard_flash (s : State) (x : Board) : (s.setBoard x).flash = s.flash := rfl
@[simp] theorem State.setBoard_engines (s : State) (x : Board) : (s.setBoard x).engines = s.engines := rfl
@[simp] theorem State.setBoard_ctxs (s : State) (x : Board) : (s.setBoard x).ctxs = s.ctxs := rfl
@[simp] theorem State.setBoard_sched (s : State) (x : Board) : (s.setBoard x).sched = s.sched := rfl
@[simp] theorem State.setBoard_cams (s : State) (x : Board) : (s.setBoard x).cams = s.cams := rfl
@[simp] theorem State.setBoard_pipes (s : State) (x : Board) : (s.setBoard x).pipes = s.pipes := rfl
@[simp] theorem State.setBoard_detect (s : State) (x : Board) : (s.setBoard x).detect = s.detect := rfl
@[simp] theorem State.setBoard_lanes (s : State) (x : Board) : (s.setBoard x).lanes = s.lanes := rfl
@[simp] theorem State.setBoard_encs (s : State) (x : Board) : (s.setBoard x).encs = s.encs := rfl
@[simp] theorem State.setBoard_rtu (s : State) (x : Board) : (s.setBoard x).rtu = s.rtu := rfl
@[simp] theorem State.setBoard_field (s : State) (x : Board) : (s.setBoard x).field = s.field := rfl
@[simp] theorem State.setBoard_ports (s : State) (x : Board) : (s.setBoard x).ports = s.ports := rfl
@[simp] theorem State.setBoard_ptp (s : State) (x : Board) : (s.setBoard x).ptp = s.ptp := rfl
@[simp] theorem State.setBoard_bry (s : State) (x : Board) : (s.setBoard x).bry = s.bry := rfl
@[simp] theorem State.setBoard_streams (s : State) (x : Board) : (s.setBoard x).streams = s.streams := rfl
@[simp] theorem State.setBoard_cache (s : State) (x : Board) : (s.setBoard x).cache = s.cache := rfl
@[simp] theorem State.setBoard_temper (s : State) (x : Board) : (s.setBoard x).temper = s.temper := rfl
@[simp] theorem State.setBoard_coll (s : State) (x : Board) : (s.setBoard x).coll = s.coll := rfl
@[simp] theorem State.setBoard_quench (s : State) (x : Board) : (s.setBoard x).quench = s.quench := rfl
@[simp] theorem State.setBoard_msys (s : State) (x : Board) : (s.setBoard x).msys = s.msys := rfl
@[simp] theorem State.setBoard_draws (s : State) (x : Board) : (s.setBoard x).draws = s.draws := rfl
@[simp] theorem State.setBoard_pending (s : State) (x : Board) : (s.setBoard x).pending = s.pending := rfl
@[simp] theorem State.setBoard_rd (s : State) (x : Board) (b : Nat) (g : Fld) (ix : Nat) : (s.setBoard x).rd b g ix = s.rd b g ix := rfl
@[simp] theorem State.setBoard_ctr (s : State) (x : Board) (q : Nat) : (s.setBoard x).ctr q = s.ctr q := rfl

/-! ### setSeq -/

@[simp] theorem State.setSeq_regs (s : State) (x : Seq) : (s.setSeq x).regs = s.regs := rfl
@[simp] theorem State.setSeq_ctrs (s : State) (x : Seq) : (s.setSeq x).ctrs = s.ctrs := rfl
@[simp] theorem State.setSeq_snaps (s : State) (x : Seq) : (s.setSeq x).snaps = s.snaps := rfl
@[simp] theorem State.setSeq_openCtrs (s : State) (x : Seq) : (s.setSeq x).openCtrs = s.openCtrs := rfl
@[simp] theorem State.setSeq_parityBad (s : State) (x : Seq) : (s.setSeq x).parityBad = s.parityBad := rfl
@[simp] theorem State.setSeq_injectArmed (s : State) (x : Seq) : (s.setSeq x).injectArmed = s.injectArmed := rfl
@[simp] theorem State.setSeq_snapWait (s : State) (x : Seq) : (s.setSeq x).snapWait = s.snapWait := rfl
@[simp] theorem State.setSeq_deferred (s : State) (x : Seq) : (s.setSeq x).deferred = s.deferred := rfl
@[simp] theorem State.setSeq_board (s : State) (x : Seq) : (s.setSeq x).board = s.board := rfl
@[simp] theorem State.setSeq_host (s : State) (x : Seq) : (s.setSeq x).host = s.host := rfl
@[simp] theorem State.setSeq_mem (s : State) (x : Seq) : (s.setSeq x).mem = s.mem := rfl
@[simp] theorem State.setSeq_hostMem (s : State) (x : Seq) : (s.setSeq x).hostMem = s.hostMem := rfl
@[simp] theorem State.setSeq_flash (s : State) (x : Seq) : (s.setSeq x).flash = s.flash := rfl
@[simp] theorem State.setSeq_engines (s : State) (x : Seq) : (s.setSeq x).engines = s.engines := rfl
@[simp] theorem State.setSeq_ctxs (s : State) (x : Seq) : (s.setSeq x).ctxs = s.ctxs := rfl
@[simp] theorem State.setSeq_sched (s : State) (x : Seq) : (s.setSeq x).sched = s.sched := rfl
@[simp] theorem State.setSeq_cams (s : State) (x : Seq) : (s.setSeq x).cams = s.cams := rfl
@[simp] theorem State.setSeq_pipes (s : State) (x : Seq) : (s.setSeq x).pipes = s.pipes := rfl
@[simp] theorem State.setSeq_detect (s : State) (x : Seq) : (s.setSeq x).detect = s.detect := rfl
@[simp] theorem State.setSeq_lanes (s : State) (x : Seq) : (s.setSeq x).lanes = s.lanes := rfl
@[simp] theorem State.setSeq_encs (s : State) (x : Seq) : (s.setSeq x).encs = s.encs := rfl
@[simp] theorem State.setSeq_rtu (s : State) (x : Seq) : (s.setSeq x).rtu = s.rtu := rfl
@[simp] theorem State.setSeq_field (s : State) (x : Seq) : (s.setSeq x).field = s.field := rfl
@[simp] theorem State.setSeq_ports (s : State) (x : Seq) : (s.setSeq x).ports = s.ports := rfl
@[simp] theorem State.setSeq_ptp (s : State) (x : Seq) : (s.setSeq x).ptp = s.ptp := rfl
@[simp] theorem State.setSeq_bry (s : State) (x : Seq) : (s.setSeq x).bry = s.bry := rfl
@[simp] theorem State.setSeq_streams (s : State) (x : Seq) : (s.setSeq x).streams = s.streams := rfl
@[simp] theorem State.setSeq_cache (s : State) (x : Seq) : (s.setSeq x).cache = s.cache := rfl
@[simp] theorem State.setSeq_temper (s : State) (x : Seq) : (s.setSeq x).temper = s.temper := rfl
@[simp] theorem State.setSeq_coll (s : State) (x : Seq) : (s.setSeq x).coll = s.coll := rfl
@[simp] theorem State.setSeq_quench (s : State) (x : Seq) : (s.setSeq x).quench = s.quench := rfl
@[simp] theorem State.setSeq_msys (s : State) (x : Seq) : (s.setSeq x).msys = s.msys := rfl
@[simp] theorem State.setSeq_draws (s : State) (x : Seq) : (s.setSeq x).draws = s.draws := rfl
@[simp] theorem State.setSeq_pending (s : State) (x : Seq) : (s.setSeq x).pending = s.pending := rfl
@[simp] theorem State.setSeq_rd (s : State) (x : Seq) (b : Nat) (g : Fld) (ix : Nat) : (s.setSeq x).rd b g ix = s.rd b g ix := rfl
@[simp] theorem State.setSeq_ctr (s : State) (x : Seq) (q : Nat) : (s.setSeq x).ctr q = s.ctr q := rfl

/-! ### setCtx -/

@[simp] theorem State.setCtx_regs (s : State) (c : Nat) (x : Ctx) : (s.setCtx c x).regs = s.regs := rfl
@[simp] theorem State.setCtx_ctrs (s : State) (c : Nat) (x : Ctx) : (s.setCtx c x).ctrs = s.ctrs := rfl
@[simp] theorem State.setCtx_snaps (s : State) (c : Nat) (x : Ctx) : (s.setCtx c x).snaps = s.snaps := rfl
@[simp] theorem State.setCtx_openCtrs (s : State) (c : Nat) (x : Ctx) : (s.setCtx c x).openCtrs = s.openCtrs := rfl
@[simp] theorem State.setCtx_parityBad (s : State) (c : Nat) (x : Ctx) : (s.setCtx c x).parityBad = s.parityBad := rfl
@[simp] theorem State.setCtx_injectArmed (s : State) (c : Nat) (x : Ctx) : (s.setCtx c x).injectArmed = s.injectArmed := rfl
@[simp] theorem State.setCtx_snapWait (s : State) (c : Nat) (x : Ctx) : (s.setCtx c x).snapWait = s.snapWait := rfl
@[simp] theorem State.setCtx_deferred (s : State) (c : Nat) (x : Ctx) : (s.setCtx c x).deferred = s.deferred := rfl
@[simp] theorem State.setCtx_board (s : State) (c : Nat) (x : Ctx) : (s.setCtx c x).board = s.board := rfl
@[simp] theorem State.setCtx_seq (s : State) (c : Nat) (x : Ctx) : (s.setCtx c x).seq = s.seq := rfl
@[simp] theorem State.setCtx_host (s : State) (c : Nat) (x : Ctx) : (s.setCtx c x).host = s.host := rfl
@[simp] theorem State.setCtx_mem (s : State) (c : Nat) (x : Ctx) : (s.setCtx c x).mem = s.mem := rfl
@[simp] theorem State.setCtx_hostMem (s : State) (c : Nat) (x : Ctx) : (s.setCtx c x).hostMem = s.hostMem := rfl
@[simp] theorem State.setCtx_flash (s : State) (c : Nat) (x : Ctx) : (s.setCtx c x).flash = s.flash := rfl
@[simp] theorem State.setCtx_engines (s : State) (c : Nat) (x : Ctx) : (s.setCtx c x).engines = s.engines := rfl
@[simp] theorem State.setCtx_sched (s : State) (c : Nat) (x : Ctx) : (s.setCtx c x).sched = s.sched := rfl
@[simp] theorem State.setCtx_cams (s : State) (c : Nat) (x : Ctx) : (s.setCtx c x).cams = s.cams := rfl
@[simp] theorem State.setCtx_pipes (s : State) (c : Nat) (x : Ctx) : (s.setCtx c x).pipes = s.pipes := rfl
@[simp] theorem State.setCtx_detect (s : State) (c : Nat) (x : Ctx) : (s.setCtx c x).detect = s.detect := rfl
@[simp] theorem State.setCtx_lanes (s : State) (c : Nat) (x : Ctx) : (s.setCtx c x).lanes = s.lanes := rfl
@[simp] theorem State.setCtx_encs (s : State) (c : Nat) (x : Ctx) : (s.setCtx c x).encs = s.encs := rfl
@[simp] theorem State.setCtx_rtu (s : State) (c : Nat) (x : Ctx) : (s.setCtx c x).rtu = s.rtu := rfl
@[simp] theorem State.setCtx_field (s : State) (c : Nat) (x : Ctx) : (s.setCtx c x).field = s.field := rfl
@[simp] theorem State.setCtx_ports (s : State) (c : Nat) (x : Ctx) : (s.setCtx c x).ports = s.ports := rfl
@[simp] theorem State.setCtx_ptp (s : State) (c : Nat) (x : Ctx) : (s.setCtx c x).ptp = s.ptp := rfl
@[simp] theorem State.setCtx_bry (s : State) (c : Nat) (x : Ctx) : (s.setCtx c x).bry = s.bry := rfl
@[simp] theorem State.setCtx_streams (s : State) (c : Nat) (x : Ctx) : (s.setCtx c x).streams = s.streams := rfl
@[simp] theorem State.setCtx_cache (s : State) (c : Nat) (x : Ctx) : (s.setCtx c x).cache = s.cache := rfl
@[simp] theorem State.setCtx_temper (s : State) (c : Nat) (x : Ctx) : (s.setCtx c x).temper = s.temper := rfl
@[simp] theorem State.setCtx_coll (s : State) (c : Nat) (x : Ctx) : (s.setCtx c x).coll = s.coll := rfl
@[simp] theorem State.setCtx_quench (s : State) (c : Nat) (x : Ctx) : (s.setCtx c x).quench = s.quench := rfl
@[simp] theorem State.setCtx_msys (s : State) (c : Nat) (x : Ctx) : (s.setCtx c x).msys = s.msys := rfl
@[simp] theorem State.setCtx_draws (s : State) (c : Nat) (x : Ctx) : (s.setCtx c x).draws = s.draws := rfl
@[simp] theorem State.setCtx_pending (s : State) (c : Nat) (x : Ctx) : (s.setCtx c x).pending = s.pending := rfl
@[simp] theorem State.setCtx_rd (s : State) (c : Nat) (x : Ctx) (b : Nat) (g : Fld) (ix : Nat) : (s.setCtx c x).rd b g ix = s.rd b g ix := rfl
@[simp] theorem State.setCtx_ctr (s : State) (c : Nat) (x : Ctx) (q : Nat) : (s.setCtx c x).ctr q = s.ctr q := rfl

/-! ### setCam -/

@[simp] theorem State.setCam_regs (s : State) (k : Nat) (x : Cam) : (s.setCam k x).regs = s.regs := rfl
@[simp] theorem State.setCam_ctrs (s : State) (k : Nat) (x : Cam) : (s.setCam k x).ctrs = s.ctrs := rfl
@[simp] theorem State.setCam_snaps (s : State) (k : Nat) (x : Cam) : (s.setCam k x).snaps = s.snaps := rfl
@[simp] theorem State.setCam_openCtrs (s : State) (k : Nat) (x : Cam) : (s.setCam k x).openCtrs = s.openCtrs := rfl
@[simp] theorem State.setCam_parityBad (s : State) (k : Nat) (x : Cam) : (s.setCam k x).parityBad = s.parityBad := rfl
@[simp] theorem State.setCam_injectArmed (s : State) (k : Nat) (x : Cam) : (s.setCam k x).injectArmed = s.injectArmed := rfl
@[simp] theorem State.setCam_snapWait (s : State) (k : Nat) (x : Cam) : (s.setCam k x).snapWait = s.snapWait := rfl
@[simp] theorem State.setCam_deferred (s : State) (k : Nat) (x : Cam) : (s.setCam k x).deferred = s.deferred := rfl
@[simp] theorem State.setCam_board (s : State) (k : Nat) (x : Cam) : (s.setCam k x).board = s.board := rfl
@[simp] theorem State.setCam_seq (s : State) (k : Nat) (x : Cam) : (s.setCam k x).seq = s.seq := rfl
@[simp] theorem State.setCam_host (s : State) (k : Nat) (x : Cam) : (s.setCam k x).host = s.host := rfl
@[simp] theorem State.setCam_mem (s : State) (k : Nat) (x : Cam) : (s.setCam k x).mem = s.mem := rfl
@[simp] theorem State.setCam_hostMem (s : State) (k : Nat) (x : Cam) : (s.setCam k x).hostMem = s.hostMem := rfl
@[simp] theorem State.setCam_flash (s : State) (k : Nat) (x : Cam) : (s.setCam k x).flash = s.flash := rfl
@[simp] theorem State.setCam_engines (s : State) (k : Nat) (x : Cam) : (s.setCam k x).engines = s.engines := rfl
@[simp] theorem State.setCam_ctxs (s : State) (k : Nat) (x : Cam) : (s.setCam k x).ctxs = s.ctxs := rfl
@[simp] theorem State.setCam_sched (s : State) (k : Nat) (x : Cam) : (s.setCam k x).sched = s.sched := rfl
@[simp] theorem State.setCam_pipes (s : State) (k : Nat) (x : Cam) : (s.setCam k x).pipes = s.pipes := rfl
@[simp] theorem State.setCam_detect (s : State) (k : Nat) (x : Cam) : (s.setCam k x).detect = s.detect := rfl
@[simp] theorem State.setCam_lanes (s : State) (k : Nat) (x : Cam) : (s.setCam k x).lanes = s.lanes := rfl
@[simp] theorem State.setCam_encs (s : State) (k : Nat) (x : Cam) : (s.setCam k x).encs = s.encs := rfl
@[simp] theorem State.setCam_rtu (s : State) (k : Nat) (x : Cam) : (s.setCam k x).rtu = s.rtu := rfl
@[simp] theorem State.setCam_field (s : State) (k : Nat) (x : Cam) : (s.setCam k x).field = s.field := rfl
@[simp] theorem State.setCam_ports (s : State) (k : Nat) (x : Cam) : (s.setCam k x).ports = s.ports := rfl
@[simp] theorem State.setCam_ptp (s : State) (k : Nat) (x : Cam) : (s.setCam k x).ptp = s.ptp := rfl
@[simp] theorem State.setCam_bry (s : State) (k : Nat) (x : Cam) : (s.setCam k x).bry = s.bry := rfl
@[simp] theorem State.setCam_streams (s : State) (k : Nat) (x : Cam) : (s.setCam k x).streams = s.streams := rfl
@[simp] theorem State.setCam_cache (s : State) (k : Nat) (x : Cam) : (s.setCam k x).cache = s.cache := rfl
@[simp] theorem State.setCam_temper (s : State) (k : Nat) (x : Cam) : (s.setCam k x).temper = s.temper := rfl
@[simp] theorem State.setCam_coll (s : State) (k : Nat) (x : Cam) : (s.setCam k x).coll = s.coll := rfl
@[simp] theorem State.setCam_quench (s : State) (k : Nat) (x : Cam) : (s.setCam k x).quench = s.quench := rfl
@[simp] theorem State.setCam_msys (s : State) (k : Nat) (x : Cam) : (s.setCam k x).msys = s.msys := rfl
@[simp] theorem State.setCam_draws (s : State) (k : Nat) (x : Cam) : (s.setCam k x).draws = s.draws := rfl
@[simp] theorem State.setCam_pending (s : State) (k : Nat) (x : Cam) : (s.setCam k x).pending = s.pending := rfl
@[simp] theorem State.setCam_rd (s : State) (k : Nat) (x : Cam) (b : Nat) (g : Fld) (ix : Nat) : (s.setCam k x).rd b g ix = s.rd b g ix := rfl
@[simp] theorem State.setCam_ctr (s : State) (k : Nat) (x : Cam) (q : Nat) : (s.setCam k x).ctr q = s.ctr q := rfl

/-! ### setPipe -/

@[simp] theorem State.setPipe_regs (s : State) (k : Nat) (x : Pipe) : (s.setPipe k x).regs = s.regs := rfl
@[simp] theorem State.setPipe_ctrs (s : State) (k : Nat) (x : Pipe) : (s.setPipe k x).ctrs = s.ctrs := rfl
@[simp] theorem State.setPipe_snaps (s : State) (k : Nat) (x : Pipe) : (s.setPipe k x).snaps = s.snaps := rfl
@[simp] theorem State.setPipe_openCtrs (s : State) (k : Nat) (x : Pipe) : (s.setPipe k x).openCtrs = s.openCtrs := rfl
@[simp] theorem State.setPipe_parityBad (s : State) (k : Nat) (x : Pipe) : (s.setPipe k x).parityBad = s.parityBad := rfl
@[simp] theorem State.setPipe_injectArmed (s : State) (k : Nat) (x : Pipe) : (s.setPipe k x).injectArmed = s.injectArmed := rfl
@[simp] theorem State.setPipe_snapWait (s : State) (k : Nat) (x : Pipe) : (s.setPipe k x).snapWait = s.snapWait := rfl
@[simp] theorem State.setPipe_deferred (s : State) (k : Nat) (x : Pipe) : (s.setPipe k x).deferred = s.deferred := rfl
@[simp] theorem State.setPipe_board (s : State) (k : Nat) (x : Pipe) : (s.setPipe k x).board = s.board := rfl
@[simp] theorem State.setPipe_seq (s : State) (k : Nat) (x : Pipe) : (s.setPipe k x).seq = s.seq := rfl
@[simp] theorem State.setPipe_host (s : State) (k : Nat) (x : Pipe) : (s.setPipe k x).host = s.host := rfl
@[simp] theorem State.setPipe_mem (s : State) (k : Nat) (x : Pipe) : (s.setPipe k x).mem = s.mem := rfl
@[simp] theorem State.setPipe_hostMem (s : State) (k : Nat) (x : Pipe) : (s.setPipe k x).hostMem = s.hostMem := rfl
@[simp] theorem State.setPipe_flash (s : State) (k : Nat) (x : Pipe) : (s.setPipe k x).flash = s.flash := rfl
@[simp] theorem State.setPipe_engines (s : State) (k : Nat) (x : Pipe) : (s.setPipe k x).engines = s.engines := rfl
@[simp] theorem State.setPipe_ctxs (s : State) (k : Nat) (x : Pipe) : (s.setPipe k x).ctxs = s.ctxs := rfl
@[simp] theorem State.setPipe_sched (s : State) (k : Nat) (x : Pipe) : (s.setPipe k x).sched = s.sched := rfl
@[simp] theorem State.setPipe_cams (s : State) (k : Nat) (x : Pipe) : (s.setPipe k x).cams = s.cams := rfl
@[simp] theorem State.setPipe_detect (s : State) (k : Nat) (x : Pipe) : (s.setPipe k x).detect = s.detect := rfl
@[simp] theorem State.setPipe_lanes (s : State) (k : Nat) (x : Pipe) : (s.setPipe k x).lanes = s.lanes := rfl
@[simp] theorem State.setPipe_encs (s : State) (k : Nat) (x : Pipe) : (s.setPipe k x).encs = s.encs := rfl
@[simp] theorem State.setPipe_rtu (s : State) (k : Nat) (x : Pipe) : (s.setPipe k x).rtu = s.rtu := rfl
@[simp] theorem State.setPipe_field (s : State) (k : Nat) (x : Pipe) : (s.setPipe k x).field = s.field := rfl
@[simp] theorem State.setPipe_ports (s : State) (k : Nat) (x : Pipe) : (s.setPipe k x).ports = s.ports := rfl
@[simp] theorem State.setPipe_ptp (s : State) (k : Nat) (x : Pipe) : (s.setPipe k x).ptp = s.ptp := rfl
@[simp] theorem State.setPipe_bry (s : State) (k : Nat) (x : Pipe) : (s.setPipe k x).bry = s.bry := rfl
@[simp] theorem State.setPipe_streams (s : State) (k : Nat) (x : Pipe) : (s.setPipe k x).streams = s.streams := rfl
@[simp] theorem State.setPipe_cache (s : State) (k : Nat) (x : Pipe) : (s.setPipe k x).cache = s.cache := rfl
@[simp] theorem State.setPipe_temper (s : State) (k : Nat) (x : Pipe) : (s.setPipe k x).temper = s.temper := rfl
@[simp] theorem State.setPipe_coll (s : State) (k : Nat) (x : Pipe) : (s.setPipe k x).coll = s.coll := rfl
@[simp] theorem State.setPipe_quench (s : State) (k : Nat) (x : Pipe) : (s.setPipe k x).quench = s.quench := rfl
@[simp] theorem State.setPipe_msys (s : State) (k : Nat) (x : Pipe) : (s.setPipe k x).msys = s.msys := rfl
@[simp] theorem State.setPipe_draws (s : State) (k : Nat) (x : Pipe) : (s.setPipe k x).draws = s.draws := rfl
@[simp] theorem State.setPipe_pending (s : State) (k : Nat) (x : Pipe) : (s.setPipe k x).pending = s.pending := rfl
@[simp] theorem State.setPipe_rd (s : State) (k : Nat) (x : Pipe) (b : Nat) (g : Fld) (ix : Nat) : (s.setPipe k x).rd b g ix = s.rd b g ix := rfl
@[simp] theorem State.setPipe_ctr (s : State) (k : Nat) (x : Pipe) (q : Nat) : (s.setPipe k x).ctr q = s.ctr q := rfl

/-! ### setDet -/

@[simp] theorem State.setDet_regs (s : State) (k : Nat) (x : Detect) : (s.setDet k x).regs = s.regs := rfl
@[simp] theorem State.setDet_ctrs (s : State) (k : Nat) (x : Detect) : (s.setDet k x).ctrs = s.ctrs := rfl
@[simp] theorem State.setDet_snaps (s : State) (k : Nat) (x : Detect) : (s.setDet k x).snaps = s.snaps := rfl
@[simp] theorem State.setDet_openCtrs (s : State) (k : Nat) (x : Detect) : (s.setDet k x).openCtrs = s.openCtrs := rfl
@[simp] theorem State.setDet_parityBad (s : State) (k : Nat) (x : Detect) : (s.setDet k x).parityBad = s.parityBad := rfl
@[simp] theorem State.setDet_injectArmed (s : State) (k : Nat) (x : Detect) : (s.setDet k x).injectArmed = s.injectArmed := rfl
@[simp] theorem State.setDet_snapWait (s : State) (k : Nat) (x : Detect) : (s.setDet k x).snapWait = s.snapWait := rfl
@[simp] theorem State.setDet_deferred (s : State) (k : Nat) (x : Detect) : (s.setDet k x).deferred = s.deferred := rfl
@[simp] theorem State.setDet_board (s : State) (k : Nat) (x : Detect) : (s.setDet k x).board = s.board := rfl
@[simp] theorem State.setDet_seq (s : State) (k : Nat) (x : Detect) : (s.setDet k x).seq = s.seq := rfl
@[simp] theorem State.setDet_host (s : State) (k : Nat) (x : Detect) : (s.setDet k x).host = s.host := rfl
@[simp] theorem State.setDet_mem (s : State) (k : Nat) (x : Detect) : (s.setDet k x).mem = s.mem := rfl
@[simp] theorem State.setDet_hostMem (s : State) (k : Nat) (x : Detect) : (s.setDet k x).hostMem = s.hostMem := rfl
@[simp] theorem State.setDet_flash (s : State) (k : Nat) (x : Detect) : (s.setDet k x).flash = s.flash := rfl
@[simp] theorem State.setDet_engines (s : State) (k : Nat) (x : Detect) : (s.setDet k x).engines = s.engines := rfl
@[simp] theorem State.setDet_ctxs (s : State) (k : Nat) (x : Detect) : (s.setDet k x).ctxs = s.ctxs := rfl
@[simp] theorem State.setDet_sched (s : State) (k : Nat) (x : Detect) : (s.setDet k x).sched = s.sched := rfl
@[simp] theorem State.setDet_cams (s : State) (k : Nat) (x : Detect) : (s.setDet k x).cams = s.cams := rfl
@[simp] theorem State.setDet_pipes (s : State) (k : Nat) (x : Detect) : (s.setDet k x).pipes = s.pipes := rfl
@[simp] theorem State.setDet_lanes (s : State) (k : Nat) (x : Detect) : (s.setDet k x).lanes = s.lanes := rfl
@[simp] theorem State.setDet_encs (s : State) (k : Nat) (x : Detect) : (s.setDet k x).encs = s.encs := rfl
@[simp] theorem State.setDet_rtu (s : State) (k : Nat) (x : Detect) : (s.setDet k x).rtu = s.rtu := rfl
@[simp] theorem State.setDet_field (s : State) (k : Nat) (x : Detect) : (s.setDet k x).field = s.field := rfl
@[simp] theorem State.setDet_ports (s : State) (k : Nat) (x : Detect) : (s.setDet k x).ports = s.ports := rfl
@[simp] theorem State.setDet_ptp (s : State) (k : Nat) (x : Detect) : (s.setDet k x).ptp = s.ptp := rfl
@[simp] theorem State.setDet_bry (s : State) (k : Nat) (x : Detect) : (s.setDet k x).bry = s.bry := rfl
@[simp] theorem State.setDet_streams (s : State) (k : Nat) (x : Detect) : (s.setDet k x).streams = s.streams := rfl
@[simp] theorem State.setDet_cache (s : State) (k : Nat) (x : Detect) : (s.setDet k x).cache = s.cache := rfl
@[simp] theorem State.setDet_temper (s : State) (k : Nat) (x : Detect) : (s.setDet k x).temper = s.temper := rfl
@[simp] theorem State.setDet_coll (s : State) (k : Nat) (x : Detect) : (s.setDet k x).coll = s.coll := rfl
@[simp] theorem State.setDet_quench (s : State) (k : Nat) (x : Detect) : (s.setDet k x).quench = s.quench := rfl
@[simp] theorem State.setDet_msys (s : State) (k : Nat) (x : Detect) : (s.setDet k x).msys = s.msys := rfl
@[simp] theorem State.setDet_draws (s : State) (k : Nat) (x : Detect) : (s.setDet k x).draws = s.draws := rfl
@[simp] theorem State.setDet_pending (s : State) (k : Nat) (x : Detect) : (s.setDet k x).pending = s.pending := rfl
@[simp] theorem State.setDet_rd (s : State) (k : Nat) (x : Detect) (b : Nat) (g : Fld) (ix : Nat) : (s.setDet k x).rd b g ix = s.rd b g ix := rfl
@[simp] theorem State.setDet_ctr (s : State) (k : Nat) (x : Detect) (q : Nat) : (s.setDet k x).ctr q = s.ctr q := rfl

/-! ### setLane -/

@[simp] theorem State.setLane_regs (s : State) (n : Nat) (x : Lane) : (s.setLane n x).regs = s.regs := rfl
@[simp] theorem State.setLane_ctrs (s : State) (n : Nat) (x : Lane) : (s.setLane n x).ctrs = s.ctrs := rfl
@[simp] theorem State.setLane_snaps (s : State) (n : Nat) (x : Lane) : (s.setLane n x).snaps = s.snaps := rfl
@[simp] theorem State.setLane_openCtrs (s : State) (n : Nat) (x : Lane) : (s.setLane n x).openCtrs = s.openCtrs := rfl
@[simp] theorem State.setLane_parityBad (s : State) (n : Nat) (x : Lane) : (s.setLane n x).parityBad = s.parityBad := rfl
@[simp] theorem State.setLane_injectArmed (s : State) (n : Nat) (x : Lane) : (s.setLane n x).injectArmed = s.injectArmed := rfl
@[simp] theorem State.setLane_snapWait (s : State) (n : Nat) (x : Lane) : (s.setLane n x).snapWait = s.snapWait := rfl
@[simp] theorem State.setLane_deferred (s : State) (n : Nat) (x : Lane) : (s.setLane n x).deferred = s.deferred := rfl
@[simp] theorem State.setLane_board (s : State) (n : Nat) (x : Lane) : (s.setLane n x).board = s.board := rfl
@[simp] theorem State.setLane_seq (s : State) (n : Nat) (x : Lane) : (s.setLane n x).seq = s.seq := rfl
@[simp] theorem State.setLane_host (s : State) (n : Nat) (x : Lane) : (s.setLane n x).host = s.host := rfl
@[simp] theorem State.setLane_mem (s : State) (n : Nat) (x : Lane) : (s.setLane n x).mem = s.mem := rfl
@[simp] theorem State.setLane_hostMem (s : State) (n : Nat) (x : Lane) : (s.setLane n x).hostMem = s.hostMem := rfl
@[simp] theorem State.setLane_flash (s : State) (n : Nat) (x : Lane) : (s.setLane n x).flash = s.flash := rfl
@[simp] theorem State.setLane_engines (s : State) (n : Nat) (x : Lane) : (s.setLane n x).engines = s.engines := rfl
@[simp] theorem State.setLane_ctxs (s : State) (n : Nat) (x : Lane) : (s.setLane n x).ctxs = s.ctxs := rfl
@[simp] theorem State.setLane_sched (s : State) (n : Nat) (x : Lane) : (s.setLane n x).sched = s.sched := rfl
@[simp] theorem State.setLane_cams (s : State) (n : Nat) (x : Lane) : (s.setLane n x).cams = s.cams := rfl
@[simp] theorem State.setLane_pipes (s : State) (n : Nat) (x : Lane) : (s.setLane n x).pipes = s.pipes := rfl
@[simp] theorem State.setLane_detect (s : State) (n : Nat) (x : Lane) : (s.setLane n x).detect = s.detect := rfl
@[simp] theorem State.setLane_encs (s : State) (n : Nat) (x : Lane) : (s.setLane n x).encs = s.encs := rfl
@[simp] theorem State.setLane_rtu (s : State) (n : Nat) (x : Lane) : (s.setLane n x).rtu = s.rtu := rfl
@[simp] theorem State.setLane_field (s : State) (n : Nat) (x : Lane) : (s.setLane n x).field = s.field := rfl
@[simp] theorem State.setLane_ports (s : State) (n : Nat) (x : Lane) : (s.setLane n x).ports = s.ports := rfl
@[simp] theorem State.setLane_ptp (s : State) (n : Nat) (x : Lane) : (s.setLane n x).ptp = s.ptp := rfl
@[simp] theorem State.setLane_bry (s : State) (n : Nat) (x : Lane) : (s.setLane n x).bry = s.bry := rfl
@[simp] theorem State.setLane_streams (s : State) (n : Nat) (x : Lane) : (s.setLane n x).streams = s.streams := rfl
@[simp] theorem State.setLane_cache (s : State) (n : Nat) (x : Lane) : (s.setLane n x).cache = s.cache := rfl
@[simp] theorem State.setLane_temper (s : State) (n : Nat) (x : Lane) : (s.setLane n x).temper = s.temper := rfl
@[simp] theorem State.setLane_coll (s : State) (n : Nat) (x : Lane) : (s.setLane n x).coll = s.coll := rfl
@[simp] theorem State.setLane_quench (s : State) (n : Nat) (x : Lane) : (s.setLane n x).quench = s.quench := rfl
@[simp] theorem State.setLane_msys (s : State) (n : Nat) (x : Lane) : (s.setLane n x).msys = s.msys := rfl
@[simp] theorem State.setLane_draws (s : State) (n : Nat) (x : Lane) : (s.setLane n x).draws = s.draws := rfl
@[simp] theorem State.setLane_pending (s : State) (n : Nat) (x : Lane) : (s.setLane n x).pending = s.pending := rfl
@[simp] theorem State.setLane_rd (s : State) (n : Nat) (x : Lane) (b : Nat) (g : Fld) (ix : Nat) : (s.setLane n x).rd b g ix = s.rd b g ix := rfl
@[simp] theorem State.setLane_ctr (s : State) (n : Nat) (x : Lane) (q : Nat) : (s.setLane n x).ctr q = s.ctr q := rfl

/-! ### setEnc -/

@[simp] theorem State.setEnc_regs (s : State) (e : Nat) (x : Enc) : (s.setEnc e x).regs = s.regs := rfl
@[simp] theorem State.setEnc_ctrs (s : State) (e : Nat) (x : Enc) : (s.setEnc e x).ctrs = s.ctrs := rfl
@[simp] theorem State.setEnc_snaps (s : State) (e : Nat) (x : Enc) : (s.setEnc e x).snaps = s.snaps := rfl
@[simp] theorem State.setEnc_openCtrs (s : State) (e : Nat) (x : Enc) : (s.setEnc e x).openCtrs = s.openCtrs := rfl
@[simp] theorem State.setEnc_parityBad (s : State) (e : Nat) (x : Enc) : (s.setEnc e x).parityBad = s.parityBad := rfl
@[simp] theorem State.setEnc_injectArmed (s : State) (e : Nat) (x : Enc) : (s.setEnc e x).injectArmed = s.injectArmed := rfl
@[simp] theorem State.setEnc_snapWait (s : State) (e : Nat) (x : Enc) : (s.setEnc e x).snapWait = s.snapWait := rfl
@[simp] theorem State.setEnc_deferred (s : State) (e : Nat) (x : Enc) : (s.setEnc e x).deferred = s.deferred := rfl
@[simp] theorem State.setEnc_board (s : State) (e : Nat) (x : Enc) : (s.setEnc e x).board = s.board := rfl
@[simp] theorem State.setEnc_seq (s : State) (e : Nat) (x : Enc) : (s.setEnc e x).seq = s.seq := rfl
@[simp] theorem State.setEnc_host (s : State) (e : Nat) (x : Enc) : (s.setEnc e x).host = s.host := rfl
@[simp] theorem State.setEnc_mem (s : State) (e : Nat) (x : Enc) : (s.setEnc e x).mem = s.mem := rfl
@[simp] theorem State.setEnc_hostMem (s : State) (e : Nat) (x : Enc) : (s.setEnc e x).hostMem = s.hostMem := rfl
@[simp] theorem State.setEnc_flash (s : State) (e : Nat) (x : Enc) : (s.setEnc e x).flash = s.flash := rfl
@[simp] theorem State.setEnc_engines (s : State) (e : Nat) (x : Enc) : (s.setEnc e x).engines = s.engines := rfl
@[simp] theorem State.setEnc_ctxs (s : State) (e : Nat) (x : Enc) : (s.setEnc e x).ctxs = s.ctxs := rfl
@[simp] theorem State.setEnc_sched (s : State) (e : Nat) (x : Enc) : (s.setEnc e x).sched = s.sched := rfl
@[simp] theorem State.setEnc_cams (s : State) (e : Nat) (x : Enc) : (s.setEnc e x).cams = s.cams := rfl
@[simp] theorem State.setEnc_pipes (s : State) (e : Nat) (x : Enc) : (s.setEnc e x).pipes = s.pipes := rfl
@[simp] theorem State.setEnc_detect (s : State) (e : Nat) (x : Enc) : (s.setEnc e x).detect = s.detect := rfl
@[simp] theorem State.setEnc_lanes (s : State) (e : Nat) (x : Enc) : (s.setEnc e x).lanes = s.lanes := rfl
@[simp] theorem State.setEnc_rtu (s : State) (e : Nat) (x : Enc) : (s.setEnc e x).rtu = s.rtu := rfl
@[simp] theorem State.setEnc_field (s : State) (e : Nat) (x : Enc) : (s.setEnc e x).field = s.field := rfl
@[simp] theorem State.setEnc_ports (s : State) (e : Nat) (x : Enc) : (s.setEnc e x).ports = s.ports := rfl
@[simp] theorem State.setEnc_ptp (s : State) (e : Nat) (x : Enc) : (s.setEnc e x).ptp = s.ptp := rfl
@[simp] theorem State.setEnc_bry (s : State) (e : Nat) (x : Enc) : (s.setEnc e x).bry = s.bry := rfl
@[simp] theorem State.setEnc_streams (s : State) (e : Nat) (x : Enc) : (s.setEnc e x).streams = s.streams := rfl
@[simp] theorem State.setEnc_cache (s : State) (e : Nat) (x : Enc) : (s.setEnc e x).cache = s.cache := rfl
@[simp] theorem State.setEnc_temper (s : State) (e : Nat) (x : Enc) : (s.setEnc e x).temper = s.temper := rfl
@[simp] theorem State.setEnc_coll (s : State) (e : Nat) (x : Enc) : (s.setEnc e x).coll = s.coll := rfl
@[simp] theorem State.setEnc_quench (s : State) (e : Nat) (x : Enc) : (s.setEnc e x).quench = s.quench := rfl
@[simp] theorem State.setEnc_msys (s : State) (e : Nat) (x : Enc) : (s.setEnc e x).msys = s.msys := rfl
@[simp] theorem State.setEnc_draws (s : State) (e : Nat) (x : Enc) : (s.setEnc e x).draws = s.draws := rfl
@[simp] theorem State.setEnc_pending (s : State) (e : Nat) (x : Enc) : (s.setEnc e x).pending = s.pending := rfl
@[simp] theorem State.setEnc_rd (s : State) (e : Nat) (x : Enc) (b : Nat) (g : Fld) (ix : Nat) : (s.setEnc e x).rd b g ix = s.rd b g ix := rfl
@[simp] theorem State.setEnc_ctr (s : State) (e : Nat) (x : Enc) (q : Nat) : (s.setEnc e x).ctr q = s.ctr q := rfl

/-! ### setEntry -/

@[simp] theorem State.setEntry_regs (s : State) (n : Nat) (x : RtuEntry) : (s.setEntry n x).regs = s.regs := rfl
@[simp] theorem State.setEntry_ctrs (s : State) (n : Nat) (x : RtuEntry) : (s.setEntry n x).ctrs = s.ctrs := rfl
@[simp] theorem State.setEntry_snaps (s : State) (n : Nat) (x : RtuEntry) : (s.setEntry n x).snaps = s.snaps := rfl
@[simp] theorem State.setEntry_openCtrs (s : State) (n : Nat) (x : RtuEntry) : (s.setEntry n x).openCtrs = s.openCtrs := rfl
@[simp] theorem State.setEntry_parityBad (s : State) (n : Nat) (x : RtuEntry) : (s.setEntry n x).parityBad = s.parityBad := rfl
@[simp] theorem State.setEntry_injectArmed (s : State) (n : Nat) (x : RtuEntry) : (s.setEntry n x).injectArmed = s.injectArmed := rfl
@[simp] theorem State.setEntry_snapWait (s : State) (n : Nat) (x : RtuEntry) : (s.setEntry n x).snapWait = s.snapWait := rfl
@[simp] theorem State.setEntry_deferred (s : State) (n : Nat) (x : RtuEntry) : (s.setEntry n x).deferred = s.deferred := rfl
@[simp] theorem State.setEntry_board (s : State) (n : Nat) (x : RtuEntry) : (s.setEntry n x).board = s.board := rfl
@[simp] theorem State.setEntry_seq (s : State) (n : Nat) (x : RtuEntry) : (s.setEntry n x).seq = s.seq := rfl
@[simp] theorem State.setEntry_host (s : State) (n : Nat) (x : RtuEntry) : (s.setEntry n x).host = s.host := rfl
@[simp] theorem State.setEntry_mem (s : State) (n : Nat) (x : RtuEntry) : (s.setEntry n x).mem = s.mem := rfl
@[simp] theorem State.setEntry_hostMem (s : State) (n : Nat) (x : RtuEntry) : (s.setEntry n x).hostMem = s.hostMem := rfl
@[simp] theorem State.setEntry_flash (s : State) (n : Nat) (x : RtuEntry) : (s.setEntry n x).flash = s.flash := rfl
@[simp] theorem State.setEntry_engines (s : State) (n : Nat) (x : RtuEntry) : (s.setEntry n x).engines = s.engines := rfl
@[simp] theorem State.setEntry_ctxs (s : State) (n : Nat) (x : RtuEntry) : (s.setEntry n x).ctxs = s.ctxs := rfl
@[simp] theorem State.setEntry_sched (s : State) (n : Nat) (x : RtuEntry) : (s.setEntry n x).sched = s.sched := rfl
@[simp] theorem State.setEntry_cams (s : State) (n : Nat) (x : RtuEntry) : (s.setEntry n x).cams = s.cams := rfl
@[simp] theorem State.setEntry_pipes (s : State) (n : Nat) (x : RtuEntry) : (s.setEntry n x).pipes = s.pipes := rfl
@[simp] theorem State.setEntry_detect (s : State) (n : Nat) (x : RtuEntry) : (s.setEntry n x).detect = s.detect := rfl
@[simp] theorem State.setEntry_lanes (s : State) (n : Nat) (x : RtuEntry) : (s.setEntry n x).lanes = s.lanes := rfl
@[simp] theorem State.setEntry_encs (s : State) (n : Nat) (x : RtuEntry) : (s.setEntry n x).encs = s.encs := rfl
@[simp] theorem State.setEntry_field (s : State) (n : Nat) (x : RtuEntry) : (s.setEntry n x).field = s.field := rfl
@[simp] theorem State.setEntry_ports (s : State) (n : Nat) (x : RtuEntry) : (s.setEntry n x).ports = s.ports := rfl
@[simp] theorem State.setEntry_ptp (s : State) (n : Nat) (x : RtuEntry) : (s.setEntry n x).ptp = s.ptp := rfl
@[simp] theorem State.setEntry_bry (s : State) (n : Nat) (x : RtuEntry) : (s.setEntry n x).bry = s.bry := rfl
@[simp] theorem State.setEntry_streams (s : State) (n : Nat) (x : RtuEntry) : (s.setEntry n x).streams = s.streams := rfl
@[simp] theorem State.setEntry_cache (s : State) (n : Nat) (x : RtuEntry) : (s.setEntry n x).cache = s.cache := rfl
@[simp] theorem State.setEntry_temper (s : State) (n : Nat) (x : RtuEntry) : (s.setEntry n x).temper = s.temper := rfl
@[simp] theorem State.setEntry_coll (s : State) (n : Nat) (x : RtuEntry) : (s.setEntry n x).coll = s.coll := rfl
@[simp] theorem State.setEntry_quench (s : State) (n : Nat) (x : RtuEntry) : (s.setEntry n x).quench = s.quench := rfl
@[simp] theorem State.setEntry_msys (s : State) (n : Nat) (x : RtuEntry) : (s.setEntry n x).msys = s.msys := rfl
@[simp] theorem State.setEntry_draws (s : State) (n : Nat) (x : RtuEntry) : (s.setEntry n x).draws = s.draws := rfl
@[simp] theorem State.setEntry_pending (s : State) (n : Nat) (x : RtuEntry) : (s.setEntry n x).pending = s.pending := rfl
@[simp] theorem State.setEntry_rd (s : State) (n : Nat) (x : RtuEntry) (b : Nat) (g : Fld) (ix : Nat) : (s.setEntry n x).rd b g ix = s.rd b g ix := rfl
@[simp] theorem State.setEntry_ctr (s : State) (n : Nat) (x : RtuEntry) (q : Nat) : (s.setEntry n x).ctr q = s.ctr q := rfl

/-! ### setJob -/

@[simp] theorem State.setJob_regs (s : State) (j : Nat) (x : Job) : (s.setJob j x).regs = s.regs := rfl
@[simp] theorem State.setJob_ctrs (s : State) (j : Nat) (x : Job) : (s.setJob j x).ctrs = s.ctrs := rfl
@[simp] theorem State.setJob_snaps (s : State) (j : Nat) (x : Job) : (s.setJob j x).snaps = s.snaps := rfl
@[simp] theorem State.setJob_openCtrs (s : State) (j : Nat) (x : Job) : (s.setJob j x).openCtrs = s.openCtrs := rfl
@[simp] theorem State.setJob_parityBad (s : State) (j : Nat) (x : Job) : (s.setJob j x).parityBad = s.parityBad := rfl
@[simp] theorem State.setJob_injectArmed (s : State) (j : Nat) (x : Job) : (s.setJob j x).injectArmed = s.injectArmed := rfl
@[simp] theorem State.setJob_snapWait (s : State) (j : Nat) (x : Job) : (s.setJob j x).snapWait = s.snapWait := rfl
@[simp] theorem State.setJob_deferred (s : State) (j : Nat) (x : Job) : (s.setJob j x).deferred = s.deferred := rfl
@[simp] theorem State.setJob_board (s : State) (j : Nat) (x : Job) : (s.setJob j x).board = s.board := rfl
@[simp] theorem State.setJob_seq (s : State) (j : Nat) (x : Job) : (s.setJob j x).seq = s.seq := rfl
@[simp] theorem State.setJob_host (s : State) (j : Nat) (x : Job) : (s.setJob j x).host = s.host := rfl
@[simp] theorem State.setJob_mem (s : State) (j : Nat) (x : Job) : (s.setJob j x).mem = s.mem := rfl
@[simp] theorem State.setJob_hostMem (s : State) (j : Nat) (x : Job) : (s.setJob j x).hostMem = s.hostMem := rfl
@[simp] theorem State.setJob_flash (s : State) (j : Nat) (x : Job) : (s.setJob j x).flash = s.flash := rfl
@[simp] theorem State.setJob_engines (s : State) (j : Nat) (x : Job) : (s.setJob j x).engines = s.engines := rfl
@[simp] theorem State.setJob_ctxs (s : State) (j : Nat) (x : Job) : (s.setJob j x).ctxs = s.ctxs := rfl
@[simp] theorem State.setJob_cams (s : State) (j : Nat) (x : Job) : (s.setJob j x).cams = s.cams := rfl
@[simp] theorem State.setJob_pipes (s : State) (j : Nat) (x : Job) : (s.setJob j x).pipes = s.pipes := rfl
@[simp] theorem State.setJob_detect (s : State) (j : Nat) (x : Job) : (s.setJob j x).detect = s.detect := rfl
@[simp] theorem State.setJob_lanes (s : State) (j : Nat) (x : Job) : (s.setJob j x).lanes = s.lanes := rfl
@[simp] theorem State.setJob_encs (s : State) (j : Nat) (x : Job) : (s.setJob j x).encs = s.encs := rfl
@[simp] theorem State.setJob_rtu (s : State) (j : Nat) (x : Job) : (s.setJob j x).rtu = s.rtu := rfl
@[simp] theorem State.setJob_field (s : State) (j : Nat) (x : Job) : (s.setJob j x).field = s.field := rfl
@[simp] theorem State.setJob_ports (s : State) (j : Nat) (x : Job) : (s.setJob j x).ports = s.ports := rfl
@[simp] theorem State.setJob_ptp (s : State) (j : Nat) (x : Job) : (s.setJob j x).ptp = s.ptp := rfl
@[simp] theorem State.setJob_bry (s : State) (j : Nat) (x : Job) : (s.setJob j x).bry = s.bry := rfl
@[simp] theorem State.setJob_streams (s : State) (j : Nat) (x : Job) : (s.setJob j x).streams = s.streams := rfl
@[simp] theorem State.setJob_cache (s : State) (j : Nat) (x : Job) : (s.setJob j x).cache = s.cache := rfl
@[simp] theorem State.setJob_temper (s : State) (j : Nat) (x : Job) : (s.setJob j x).temper = s.temper := rfl
@[simp] theorem State.setJob_coll (s : State) (j : Nat) (x : Job) : (s.setJob j x).coll = s.coll := rfl
@[simp] theorem State.setJob_quench (s : State) (j : Nat) (x : Job) : (s.setJob j x).quench = s.quench := rfl
@[simp] theorem State.setJob_msys (s : State) (j : Nat) (x : Job) : (s.setJob j x).msys = s.msys := rfl
@[simp] theorem State.setJob_draws (s : State) (j : Nat) (x : Job) : (s.setJob j x).draws = s.draws := rfl
@[simp] theorem State.setJob_pending (s : State) (j : Nat) (x : Job) : (s.setJob j x).pending = s.pending := rfl
@[simp] theorem State.setJob_rd (s : State) (j : Nat) (x : Job) (b : Nat) (g : Fld) (ix : Nat) : (s.setJob j x).rd b g ix = s.rd b g ix := rfl
@[simp] theorem State.setJob_ctr (s : State) (j : Nat) (x : Job) (q : Nat) : (s.setJob j x).ctr q = s.ctr q := rfl

/-! ### setTent -/

@[simp] theorem State.setTent_regs (s : State) (n : Nat) (x : Tent) : (s.setTent n x).regs = s.regs := rfl
@[simp] theorem State.setTent_ctrs (s : State) (n : Nat) (x : Tent) : (s.setTent n x).ctrs = s.ctrs := rfl
@[simp] theorem State.setTent_snaps (s : State) (n : Nat) (x : Tent) : (s.setTent n x).snaps = s.snaps := rfl
@[simp] theorem State.setTent_openCtrs (s : State) (n : Nat) (x : Tent) : (s.setTent n x).openCtrs = s.openCtrs := rfl
@[simp] theorem State.setTent_parityBad (s : State) (n : Nat) (x : Tent) : (s.setTent n x).parityBad = s.parityBad := rfl
@[simp] theorem State.setTent_injectArmed (s : State) (n : Nat) (x : Tent) : (s.setTent n x).injectArmed = s.injectArmed := rfl
@[simp] theorem State.setTent_snapWait (s : State) (n : Nat) (x : Tent) : (s.setTent n x).snapWait = s.snapWait := rfl
@[simp] theorem State.setTent_deferred (s : State) (n : Nat) (x : Tent) : (s.setTent n x).deferred = s.deferred := rfl
@[simp] theorem State.setTent_board (s : State) (n : Nat) (x : Tent) : (s.setTent n x).board = s.board := rfl
@[simp] theorem State.setTent_seq (s : State) (n : Nat) (x : Tent) : (s.setTent n x).seq = s.seq := rfl
@[simp] theorem State.setTent_host (s : State) (n : Nat) (x : Tent) : (s.setTent n x).host = s.host := rfl
@[simp] theorem State.setTent_mem (s : State) (n : Nat) (x : Tent) : (s.setTent n x).mem = s.mem := rfl
@[simp] theorem State.setTent_hostMem (s : State) (n : Nat) (x : Tent) : (s.setTent n x).hostMem = s.hostMem := rfl
@[simp] theorem State.setTent_flash (s : State) (n : Nat) (x : Tent) : (s.setTent n x).flash = s.flash := rfl
@[simp] theorem State.setTent_engines (s : State) (n : Nat) (x : Tent) : (s.setTent n x).engines = s.engines := rfl
@[simp] theorem State.setTent_ctxs (s : State) (n : Nat) (x : Tent) : (s.setTent n x).ctxs = s.ctxs := rfl
@[simp] theorem State.setTent_cams (s : State) (n : Nat) (x : Tent) : (s.setTent n x).cams = s.cams := rfl
@[simp] theorem State.setTent_pipes (s : State) (n : Nat) (x : Tent) : (s.setTent n x).pipes = s.pipes := rfl
@[simp] theorem State.setTent_detect (s : State) (n : Nat) (x : Tent) : (s.setTent n x).detect = s.detect := rfl
@[simp] theorem State.setTent_lanes (s : State) (n : Nat) (x : Tent) : (s.setTent n x).lanes = s.lanes := rfl
@[simp] theorem State.setTent_encs (s : State) (n : Nat) (x : Tent) : (s.setTent n x).encs = s.encs := rfl
@[simp] theorem State.setTent_rtu (s : State) (n : Nat) (x : Tent) : (s.setTent n x).rtu = s.rtu := rfl
@[simp] theorem State.setTent_field (s : State) (n : Nat) (x : Tent) : (s.setTent n x).field = s.field := rfl
@[simp] theorem State.setTent_ports (s : State) (n : Nat) (x : Tent) : (s.setTent n x).ports = s.ports := rfl
@[simp] theorem State.setTent_ptp (s : State) (n : Nat) (x : Tent) : (s.setTent n x).ptp = s.ptp := rfl
@[simp] theorem State.setTent_bry (s : State) (n : Nat) (x : Tent) : (s.setTent n x).bry = s.bry := rfl
@[simp] theorem State.setTent_streams (s : State) (n : Nat) (x : Tent) : (s.setTent n x).streams = s.streams := rfl
@[simp] theorem State.setTent_cache (s : State) (n : Nat) (x : Tent) : (s.setTent n x).cache = s.cache := rfl
@[simp] theorem State.setTent_temper (s : State) (n : Nat) (x : Tent) : (s.setTent n x).temper = s.temper := rfl
@[simp] theorem State.setTent_coll (s : State) (n : Nat) (x : Tent) : (s.setTent n x).coll = s.coll := rfl
@[simp] theorem State.setTent_quench (s : State) (n : Nat) (x : Tent) : (s.setTent n x).quench = s.quench := rfl
@[simp] theorem State.setTent_msys (s : State) (n : Nat) (x : Tent) : (s.setTent n x).msys = s.msys := rfl
@[simp] theorem State.setTent_draws (s : State) (n : Nat) (x : Tent) : (s.setTent n x).draws = s.draws := rfl
@[simp] theorem State.setTent_pending (s : State) (n : Nat) (x : Tent) : (s.setTent n x).pending = s.pending := rfl
@[simp] theorem State.setTent_rd (s : State) (n : Nat) (x : Tent) (b : Nat) (g : Fld) (ix : Nat) : (s.setTent n x).rd b g ix = s.rd b g ix := rfl
@[simp] theorem State.setTent_ctr (s : State) (n : Nat) (x : Tent) (q : Nat) : (s.setTent n x).ctr q = s.ctr q := rfl

/-! ### setFlow -/

@[simp] theorem State.setFlow_regs (s : State) (f : Nat) (x : Flow) : (s.setFlow f x).regs = s.regs := rfl
@[simp] theorem State.setFlow_ctrs (s : State) (f : Nat) (x : Flow) : (s.setFlow f x).ctrs = s.ctrs := rfl
@[simp] theorem State.setFlow_snaps (s : State) (f : Nat) (x : Flow) : (s.setFlow f x).snaps = s.snaps := rfl
@[simp] theorem State.setFlow_openCtrs (s : State) (f : Nat) (x : Flow) : (s.setFlow f x).openCtrs = s.openCtrs := rfl
@[simp] theorem State.setFlow_parityBad (s : State) (f : Nat) (x : Flow) : (s.setFlow f x).parityBad = s.parityBad := rfl
@[simp] theorem State.setFlow_injectArmed (s : State) (f : Nat) (x : Flow) : (s.setFlow f x).injectArmed = s.injectArmed := rfl
@[simp] theorem State.setFlow_snapWait (s : State) (f : Nat) (x : Flow) : (s.setFlow f x).snapWait = s.snapWait := rfl
@[simp] theorem State.setFlow_deferred (s : State) (f : Nat) (x : Flow) : (s.setFlow f x).deferred = s.deferred := rfl
@[simp] theorem State.setFlow_board (s : State) (f : Nat) (x : Flow) : (s.setFlow f x).board = s.board := rfl
@[simp] theorem State.setFlow_seq (s : State) (f : Nat) (x : Flow) : (s.setFlow f x).seq = s.seq := rfl
@[simp] theorem State.setFlow_host (s : State) (f : Nat) (x : Flow) : (s.setFlow f x).host = s.host := rfl
@[simp] theorem State.setFlow_mem (s : State) (f : Nat) (x : Flow) : (s.setFlow f x).mem = s.mem := rfl
@[simp] theorem State.setFlow_hostMem (s : State) (f : Nat) (x : Flow) : (s.setFlow f x).hostMem = s.hostMem := rfl
@[simp] theorem State.setFlow_flash (s : State) (f : Nat) (x : Flow) : (s.setFlow f x).flash = s.flash := rfl
@[simp] theorem State.setFlow_engines (s : State) (f : Nat) (x : Flow) : (s.setFlow f x).engines = s.engines := rfl
@[simp] theorem State.setFlow_ctxs (s : State) (f : Nat) (x : Flow) : (s.setFlow f x).ctxs = s.ctxs := rfl
@[simp] theorem State.setFlow_sched (s : State) (f : Nat) (x : Flow) : (s.setFlow f x).sched = s.sched := rfl
@[simp] theorem State.setFlow_cams (s : State) (f : Nat) (x : Flow) : (s.setFlow f x).cams = s.cams := rfl
@[simp] theorem State.setFlow_pipes (s : State) (f : Nat) (x : Flow) : (s.setFlow f x).pipes = s.pipes := rfl
@[simp] theorem State.setFlow_detect (s : State) (f : Nat) (x : Flow) : (s.setFlow f x).detect = s.detect := rfl
@[simp] theorem State.setFlow_lanes (s : State) (f : Nat) (x : Flow) : (s.setFlow f x).lanes = s.lanes := rfl
@[simp] theorem State.setFlow_encs (s : State) (f : Nat) (x : Flow) : (s.setFlow f x).encs = s.encs := rfl
@[simp] theorem State.setFlow_rtu (s : State) (f : Nat) (x : Flow) : (s.setFlow f x).rtu = s.rtu := rfl
@[simp] theorem State.setFlow_field (s : State) (f : Nat) (x : Flow) : (s.setFlow f x).field = s.field := rfl
@[simp] theorem State.setFlow_ports (s : State) (f : Nat) (x : Flow) : (s.setFlow f x).ports = s.ports := rfl
@[simp] theorem State.setFlow_ptp (s : State) (f : Nat) (x : Flow) : (s.setFlow f x).ptp = s.ptp := rfl
@[simp] theorem State.setFlow_streams (s : State) (f : Nat) (x : Flow) : (s.setFlow f x).streams = s.streams := rfl
@[simp] theorem State.setFlow_cache (s : State) (f : Nat) (x : Flow) : (s.setFlow f x).cache = s.cache := rfl
@[simp] theorem State.setFlow_temper (s : State) (f : Nat) (x : Flow) : (s.setFlow f x).temper = s.temper := rfl
@[simp] theorem State.setFlow_coll (s : State) (f : Nat) (x : Flow) : (s.setFlow f x).coll = s.coll := rfl
@[simp] theorem State.setFlow_quench (s : State) (f : Nat) (x : Flow) : (s.setFlow f x).quench = s.quench := rfl
@[simp] theorem State.setFlow_msys (s : State) (f : Nat) (x : Flow) : (s.setFlow f x).msys = s.msys := rfl
@[simp] theorem State.setFlow_draws (s : State) (f : Nat) (x : Flow) : (s.setFlow f x).draws = s.draws := rfl
@[simp] theorem State.setFlow_pending (s : State) (f : Nat) (x : Flow) : (s.setFlow f x).pending = s.pending := rfl
@[simp] theorem State.setFlow_rd (s : State) (f : Nat) (x : Flow) (b : Nat) (g : Fld) (ix : Nat) : (s.setFlow f x).rd b g ix = s.rd b g ix := rfl
@[simp] theorem State.setFlow_ctr (s : State) (f : Nat) (x : Flow) (q : Nat) : (s.setFlow f x).ctr q = s.ctr q := rfl

/-! ### setColl -/

@[simp] theorem State.setColl_regs (s : State) (f : Nat) (x : Coll) : (s.setColl f x).regs = s.regs := rfl
@[simp] theorem State.setColl_ctrs (s : State) (f : Nat) (x : Coll) : (s.setColl f x).ctrs = s.ctrs := rfl
@[simp] theorem State.setColl_snaps (s : State) (f : Nat) (x : Coll) : (s.setColl f x).snaps = s.snaps := rfl
@[simp] theorem State.setColl_openCtrs (s : State) (f : Nat) (x : Coll) : (s.setColl f x).openCtrs = s.openCtrs := rfl
@[simp] theorem State.setColl_parityBad (s : State) (f : Nat) (x : Coll) : (s.setColl f x).parityBad = s.parityBad := rfl
@[simp] theorem State.setColl_injectArmed (s : State) (f : Nat) (x : Coll) : (s.setColl f x).injectArmed = s.injectArmed := rfl
@[simp] theorem State.setColl_snapWait (s : State) (f : Nat) (x : Coll) : (s.setColl f x).snapWait = s.snapWait := rfl
@[simp] theorem State.setColl_deferred (s : State) (f : Nat) (x : Coll) : (s.setColl f x).deferred = s.deferred := rfl
@[simp] theorem State.setColl_board (s : State) (f : Nat) (x : Coll) : (s.setColl f x).board = s.board := rfl
@[simp] theorem State.setColl_seq (s : State) (f : Nat) (x : Coll) : (s.setColl f x).seq = s.seq := rfl
@[simp] theorem State.setColl_host (s : State) (f : Nat) (x : Coll) : (s.setColl f x).host = s.host := rfl
@[simp] theorem State.setColl_mem (s : State) (f : Nat) (x : Coll) : (s.setColl f x).mem = s.mem := rfl
@[simp] theorem State.setColl_hostMem (s : State) (f : Nat) (x : Coll) : (s.setColl f x).hostMem = s.hostMem := rfl
@[simp] theorem State.setColl_flash (s : State) (f : Nat) (x : Coll) : (s.setColl f x).flash = s.flash := rfl
@[simp] theorem State.setColl_engines (s : State) (f : Nat) (x : Coll) : (s.setColl f x).engines = s.engines := rfl
@[simp] theorem State.setColl_ctxs (s : State) (f : Nat) (x : Coll) : (s.setColl f x).ctxs = s.ctxs := rfl
@[simp] theorem State.setColl_sched (s : State) (f : Nat) (x : Coll) : (s.setColl f x).sched = s.sched := rfl
@[simp] theorem State.setColl_cams (s : State) (f : Nat) (x : Coll) : (s.setColl f x).cams = s.cams := rfl
@[simp] theorem State.setColl_pipes (s : State) (f : Nat) (x : Coll) : (s.setColl f x).pipes = s.pipes := rfl
@[simp] theorem State.setColl_detect (s : State) (f : Nat) (x : Coll) : (s.setColl f x).detect = s.detect := rfl
@[simp] theorem State.setColl_lanes (s : State) (f : Nat) (x : Coll) : (s.setColl f x).lanes = s.lanes := rfl
@[simp] theorem State.setColl_encs (s : State) (f : Nat) (x : Coll) : (s.setColl f x).encs = s.encs := rfl
@[simp] theorem State.setColl_rtu (s : State) (f : Nat) (x : Coll) : (s.setColl f x).rtu = s.rtu := rfl
@[simp] theorem State.setColl_field (s : State) (f : Nat) (x : Coll) : (s.setColl f x).field = s.field := rfl
@[simp] theorem State.setColl_ports (s : State) (f : Nat) (x : Coll) : (s.setColl f x).ports = s.ports := rfl
@[simp] theorem State.setColl_ptp (s : State) (f : Nat) (x : Coll) : (s.setColl f x).ptp = s.ptp := rfl
@[simp] theorem State.setColl_streams (s : State) (f : Nat) (x : Coll) : (s.setColl f x).streams = s.streams := rfl
@[simp] theorem State.setColl_cache (s : State) (f : Nat) (x : Coll) : (s.setColl f x).cache = s.cache := rfl
@[simp] theorem State.setColl_temper (s : State) (f : Nat) (x : Coll) : (s.setColl f x).temper = s.temper := rfl
@[simp] theorem State.setColl_coll (s : State) (f : Nat) (x : Coll) : (s.setColl f x).coll = s.coll := rfl
@[simp] theorem State.setColl_quench (s : State) (f : Nat) (x : Coll) : (s.setColl f x).quench = s.quench := rfl
@[simp] theorem State.setColl_msys (s : State) (f : Nat) (x : Coll) : (s.setColl f x).msys = s.msys := rfl
@[simp] theorem State.setColl_draws (s : State) (f : Nat) (x : Coll) : (s.setColl f x).draws = s.draws := rfl
@[simp] theorem State.setColl_pending (s : State) (f : Nat) (x : Coll) : (s.setColl f x).pending = s.pending := rfl
@[simp] theorem State.setColl_rd (s : State) (f : Nat) (x : Coll) (b : Nat) (g : Fld) (ix : Nat) : (s.setColl f x).rd b g ix = s.rd b g ix := rfl
@[simp] theorem State.setColl_ctr (s : State) (f : Nat) (x : Coll) (q : Nat) : (s.setColl f x).ctr q = s.ctr q := rfl

/-! ### setStream -/

@[simp] theorem State.setStream_regs (s : State) (i : Nat) (x : Stream) : (s.setStream i x).regs = s.regs := rfl
@[simp] theorem State.setStream_ctrs (s : State) (i : Nat) (x : Stream) : (s.setStream i x).ctrs = s.ctrs := rfl
@[simp] theorem State.setStream_snaps (s : State) (i : Nat) (x : Stream) : (s.setStream i x).snaps = s.snaps := rfl
@[simp] theorem State.setStream_openCtrs (s : State) (i : Nat) (x : Stream) : (s.setStream i x).openCtrs = s.openCtrs := rfl
@[simp] theorem State.setStream_parityBad (s : State) (i : Nat) (x : Stream) : (s.setStream i x).parityBad = s.parityBad := rfl
@[simp] theorem State.setStream_injectArmed (s : State) (i : Nat) (x : Stream) : (s.setStream i x).injectArmed = s.injectArmed := rfl
@[simp] theorem State.setStream_snapWait (s : State) (i : Nat) (x : Stream) : (s.setStream i x).snapWait = s.snapWait := rfl
@[simp] theorem State.setStream_deferred (s : State) (i : Nat) (x : Stream) : (s.setStream i x).deferred = s.deferred := rfl
@[simp] theorem State.setStream_board (s : State) (i : Nat) (x : Stream) : (s.setStream i x).board = s.board := rfl
@[simp] theorem State.setStream_seq (s : State) (i : Nat) (x : Stream) : (s.setStream i x).seq = s.seq := rfl
@[simp] theorem State.setStream_host (s : State) (i : Nat) (x : Stream) : (s.setStream i x).host = s.host := rfl
@[simp] theorem State.setStream_mem (s : State) (i : Nat) (x : Stream) : (s.setStream i x).mem = s.mem := rfl
@[simp] theorem State.setStream_hostMem (s : State) (i : Nat) (x : Stream) : (s.setStream i x).hostMem = s.hostMem := rfl
@[simp] theorem State.setStream_flash (s : State) (i : Nat) (x : Stream) : (s.setStream i x).flash = s.flash := rfl
@[simp] theorem State.setStream_engines (s : State) (i : Nat) (x : Stream) : (s.setStream i x).engines = s.engines := rfl
@[simp] theorem State.setStream_ctxs (s : State) (i : Nat) (x : Stream) : (s.setStream i x).ctxs = s.ctxs := rfl
@[simp] theorem State.setStream_sched (s : State) (i : Nat) (x : Stream) : (s.setStream i x).sched = s.sched := rfl
@[simp] theorem State.setStream_cams (s : State) (i : Nat) (x : Stream) : (s.setStream i x).cams = s.cams := rfl
@[simp] theorem State.setStream_pipes (s : State) (i : Nat) (x : Stream) : (s.setStream i x).pipes = s.pipes := rfl
@[simp] theorem State.setStream_detect (s : State) (i : Nat) (x : Stream) : (s.setStream i x).detect = s.detect := rfl
@[simp] theorem State.setStream_lanes (s : State) (i : Nat) (x : Stream) : (s.setStream i x).lanes = s.lanes := rfl
@[simp] theorem State.setStream_encs (s : State) (i : Nat) (x : Stream) : (s.setStream i x).encs = s.encs := rfl
@[simp] theorem State.setStream_rtu (s : State) (i : Nat) (x : Stream) : (s.setStream i x).rtu = s.rtu := rfl
@[simp] theorem State.setStream_field (s : State) (i : Nat) (x : Stream) : (s.setStream i x).field = s.field := rfl
@[simp] theorem State.setStream_ports (s : State) (i : Nat) (x : Stream) : (s.setStream i x).ports = s.ports := rfl
@[simp] theorem State.setStream_ptp (s : State) (i : Nat) (x : Stream) : (s.setStream i x).ptp = s.ptp := rfl
@[simp] theorem State.setStream_bry (s : State) (i : Nat) (x : Stream) : (s.setStream i x).bry = s.bry := rfl
@[simp] theorem State.setStream_cache (s : State) (i : Nat) (x : Stream) : (s.setStream i x).cache = s.cache := rfl
@[simp] theorem State.setStream_temper (s : State) (i : Nat) (x : Stream) : (s.setStream i x).temper = s.temper := rfl
@[simp] theorem State.setStream_coll (s : State) (i : Nat) (x : Stream) : (s.setStream i x).coll = s.coll := rfl
@[simp] theorem State.setStream_quench (s : State) (i : Nat) (x : Stream) : (s.setStream i x).quench = s.quench := rfl
@[simp] theorem State.setStream_msys (s : State) (i : Nat) (x : Stream) : (s.setStream i x).msys = s.msys := rfl
@[simp] theorem State.setStream_draws (s : State) (i : Nat) (x : Stream) : (s.setStream i x).draws = s.draws := rfl
@[simp] theorem State.setStream_pending (s : State) (i : Nat) (x : Stream) : (s.setStream i x).pending = s.pending := rfl
@[simp] theorem State.setStream_rd (s : State) (i : Nat) (x : Stream) (b : Nat) (g : Fld) (ix : Nat) : (s.setStream i x).rd b g ix = s.rd b g ix := rfl
@[simp] theorem State.setStream_ctr (s : State) (i : Nat) (x : Stream) (q : Nat) : (s.setStream i x).ctr q = s.ctr q := rfl

/-! ### storeMasked -/

@[simp] theorem State.storeMasked_regs (s : State) (a : Nat) (l : List (Option Byte)) : (s.storeMasked a l).regs = s.regs := rfl
@[simp] theorem State.storeMasked_ctrs (s : State) (a : Nat) (l : List (Option Byte)) : (s.storeMasked a l).ctrs = s.ctrs := rfl
@[simp] theorem State.storeMasked_snaps (s : State) (a : Nat) (l : List (Option Byte)) : (s.storeMasked a l).snaps = s.snaps := rfl
@[simp] theorem State.storeMasked_openCtrs (s : State) (a : Nat) (l : List (Option Byte)) : (s.storeMasked a l).openCtrs = s.openCtrs := rfl
@[simp] theorem State.storeMasked_parityBad (s : State) (a : Nat) (l : List (Option Byte)) : (s.storeMasked a l).parityBad = s.parityBad := rfl
@[simp] theorem State.storeMasked_injectArmed (s : State) (a : Nat) (l : List (Option Byte)) : (s.storeMasked a l).injectArmed = s.injectArmed := rfl
@[simp] theorem State.storeMasked_snapWait (s : State) (a : Nat) (l : List (Option Byte)) : (s.storeMasked a l).snapWait = s.snapWait := rfl
@[simp] theorem State.storeMasked_deferred (s : State) (a : Nat) (l : List (Option Byte)) : (s.storeMasked a l).deferred = s.deferred := rfl
@[simp] theorem State.storeMasked_board (s : State) (a : Nat) (l : List (Option Byte)) : (s.storeMasked a l).board = s.board := rfl
@[simp] theorem State.storeMasked_seq (s : State) (a : Nat) (l : List (Option Byte)) : (s.storeMasked a l).seq = s.seq := rfl
@[simp] theorem State.storeMasked_host (s : State) (a : Nat) (l : List (Option Byte)) : (s.storeMasked a l).host = s.host := rfl
@[simp] theorem State.storeMasked_hostMem (s : State) (a : Nat) (l : List (Option Byte)) : (s.storeMasked a l).hostMem = s.hostMem := rfl
@[simp] theorem State.storeMasked_flash (s : State) (a : Nat) (l : List (Option Byte)) : (s.storeMasked a l).flash = s.flash := rfl
@[simp] theorem State.storeMasked_engines (s : State) (a : Nat) (l : List (Option Byte)) : (s.storeMasked a l).engines = s.engines := rfl
@[simp] theorem State.storeMasked_ctxs (s : State) (a : Nat) (l : List (Option Byte)) : (s.storeMasked a l).ctxs = s.ctxs := rfl
@[simp] theorem State.storeMasked_sched (s : State) (a : Nat) (l : List (Option Byte)) : (s.storeMasked a l).sched = s.sched := rfl
@[simp] theorem State.storeMasked_cams (s : State) (a : Nat) (l : List (Option Byte)) : (s.storeMasked a l).cams = s.cams := rfl
@[simp] theorem State.storeMasked_pipes (s : State) (a : Nat) (l : List (Option Byte)) : (s.storeMasked a l).pipes = s.pipes := rfl
@[simp] theorem State.storeMasked_detect (s : State) (a : Nat) (l : List (Option Byte)) : (s.storeMasked a l).detect = s.detect := rfl
@[simp] theorem State.storeMasked_lanes (s : State) (a : Nat) (l : List (Option Byte)) : (s.storeMasked a l).lanes = s.lanes := rfl
@[simp] theorem State.storeMasked_encs (s : State) (a : Nat) (l : List (Option Byte)) : (s.storeMasked a l).encs = s.encs := rfl
@[simp] theorem State.storeMasked_rtu (s : State) (a : Nat) (l : List (Option Byte)) : (s.storeMasked a l).rtu = s.rtu := rfl
@[simp] theorem State.storeMasked_field (s : State) (a : Nat) (l : List (Option Byte)) : (s.storeMasked a l).field = s.field := rfl
@[simp] theorem State.storeMasked_ports (s : State) (a : Nat) (l : List (Option Byte)) : (s.storeMasked a l).ports = s.ports := rfl
@[simp] theorem State.storeMasked_ptp (s : State) (a : Nat) (l : List (Option Byte)) : (s.storeMasked a l).ptp = s.ptp := rfl
@[simp] theorem State.storeMasked_bry (s : State) (a : Nat) (l : List (Option Byte)) : (s.storeMasked a l).bry = s.bry := rfl
@[simp] theorem State.storeMasked_streams (s : State) (a : Nat) (l : List (Option Byte)) : (s.storeMasked a l).streams = s.streams := rfl
@[simp] theorem State.storeMasked_cache (s : State) (a : Nat) (l : List (Option Byte)) : (s.storeMasked a l).cache = s.cache := rfl
@[simp] theorem State.storeMasked_temper (s : State) (a : Nat) (l : List (Option Byte)) : (s.storeMasked a l).temper = s.temper := rfl
@[simp] theorem State.storeMasked_coll (s : State) (a : Nat) (l : List (Option Byte)) : (s.storeMasked a l).coll = s.coll := rfl
@[simp] theorem State.storeMasked_quench (s : State) (a : Nat) (l : List (Option Byte)) : (s.storeMasked a l).quench = s.quench := rfl
@[simp] theorem State.storeMasked_draws (s : State) (a : Nat) (l : List (Option Byte)) : (s.storeMasked a l).draws = s.draws := rfl
@[simp] theorem State.storeMasked_pending (s : State) (a : Nat) (l : List (Option Byte)) : (s.storeMasked a l).pending = s.pending := rfl
@[simp] theorem State.storeMasked_rd (s : State) (a : Nat) (l : List (Option Byte)) (b : Nat) (g : Fld) (ix : Nat) : (s.storeMasked a l).rd b g ix = s.rd b g ix := rfl
@[simp] theorem State.storeMasked_ctr (s : State) (a : Nat) (l : List (Option Byte)) (q : Nat) : (s.storeMasked a l).ctr q = s.ctr q := rfl

/-! ### store -/

@[simp] theorem State.store_regs (s : State) (a : Nat) (l : List Byte) : (s.store a l).regs = s.regs := rfl
@[simp] theorem State.store_ctrs (s : State) (a : Nat) (l : List Byte) : (s.store a l).ctrs = s.ctrs := rfl
@[simp] theorem State.store_snaps (s : State) (a : Nat) (l : List Byte) : (s.store a l).snaps = s.snaps := rfl
@[simp] theorem State.store_openCtrs (s : State) (a : Nat) (l : List Byte) : (s.store a l).openCtrs = s.openCtrs := rfl
@[simp] theorem State.store_parityBad (s : State) (a : Nat) (l : List Byte) : (s.store a l).parityBad = s.parityBad := rfl
@[simp] theorem State.store_injectArmed (s : State) (a : Nat) (l : List Byte) : (s.store a l).injectArmed = s.injectArmed := rfl
@[simp] theorem State.store_snapWait (s : State) (a : Nat) (l : List Byte) : (s.store a l).snapWait = s.snapWait := rfl
@[simp] theorem State.store_deferred (s : State) (a : Nat) (l : List Byte) : (s.store a l).deferred = s.deferred := rfl
@[simp] theorem State.store_board (s : State) (a : Nat) (l : List Byte) : (s.store a l).board = s.board := rfl
@[simp] theorem State.store_seq (s : State) (a : Nat) (l : List Byte) : (s.store a l).seq = s.seq := rfl
@[simp] theorem State.store_host (s : State) (a : Nat) (l : List Byte) : (s.store a l).host = s.host := rfl
@[simp] theorem State.store_hostMem (s : State) (a : Nat) (l : List Byte) : (s.store a l).hostMem = s.hostMem := rfl
@[simp] theorem State.store_flash (s : State) (a : Nat) (l : List Byte) : (s.store a l).flash = s.flash := rfl
@[simp] theorem State.store_engines (s : State) (a : Nat) (l : List Byte) : (s.store a l).engines = s.engines := rfl
@[simp] theorem State.store_ctxs (s : State) (a : Nat) (l : List Byte) : (s.store a l).ctxs = s.ctxs := rfl
@[simp] theorem State.store_sched (s : State) (a : Nat) (l : List Byte) : (s.store a l).sched = s.sched := rfl
@[simp] theorem State.store_cams (s : State) (a : Nat) (l : List Byte) : (s.store a l).cams = s.cams := rfl
@[simp] theorem State.store_pipes (s : State) (a : Nat) (l : List Byte) : (s.store a l).pipes = s.pipes := rfl
@[simp] theorem State.store_detect (s : State) (a : Nat) (l : List Byte) : (s.store a l).detect = s.detect := rfl
@[simp] theorem State.store_lanes (s : State) (a : Nat) (l : List Byte) : (s.store a l).lanes = s.lanes := rfl
@[simp] theorem State.store_encs (s : State) (a : Nat) (l : List Byte) : (s.store a l).encs = s.encs := rfl
@[simp] theorem State.store_rtu (s : State) (a : Nat) (l : List Byte) : (s.store a l).rtu = s.rtu := rfl
@[simp] theorem State.store_field (s : State) (a : Nat) (l : List Byte) : (s.store a l).field = s.field := rfl
@[simp] theorem State.store_ports (s : State) (a : Nat) (l : List Byte) : (s.store a l).ports = s.ports := rfl
@[simp] theorem State.store_ptp (s : State) (a : Nat) (l : List Byte) : (s.store a l).ptp = s.ptp := rfl
@[simp] theorem State.store_bry (s : State) (a : Nat) (l : List Byte) : (s.store a l).bry = s.bry := rfl
@[simp] theorem State.store_streams (s : State) (a : Nat) (l : List Byte) : (s.store a l).streams = s.streams := rfl
@[simp] theorem State.store_cache (s : State) (a : Nat) (l : List Byte) : (s.store a l).cache = s.cache := rfl
@[simp] theorem State.store_temper (s : State) (a : Nat) (l : List Byte) : (s.store a l).temper = s.temper := rfl
@[simp] theorem State.store_coll (s : State) (a : Nat) (l : List Byte) : (s.store a l).coll = s.coll := rfl
@[simp] theorem State.store_quench (s : State) (a : Nat) (l : List Byte) : (s.store a l).quench = s.quench := rfl
@[simp] theorem State.store_draws (s : State) (a : Nat) (l : List Byte) : (s.store a l).draws = s.draws := rfl
@[simp] theorem State.store_pending (s : State) (a : Nat) (l : List Byte) : (s.store a l).pending = s.pending := rfl
@[simp] theorem State.store_rd (s : State) (a : Nat) (l : List Byte) (b : Nat) (g : Fld) (ix : Nat) : (s.store a l).rd b g ix = s.rd b g ix := rfl
@[simp] theorem State.store_ctr (s : State) (a : Nat) (l : List Byte) (q : Nat) : (s.store a l).ctr q = s.ctr q := rfl

/-! ### clearMem -/

@[simp] theorem State.clearMem_regs (s : State) (a n : Nat) : (s.clearMem a n).regs = s.regs := rfl
@[simp] theorem State.clearMem_ctrs (s : State) (a n : Nat) : (s.clearMem a n).ctrs = s.ctrs := rfl
@[simp] theorem State.clearMem_snaps (s : State) (a n : Nat) : (s.clearMem a n).snaps = s.snaps := rfl
@[simp] theorem State.clearMem_openCtrs (s : State) (a n : Nat) : (s.clearMem a n).openCtrs = s.openCtrs := rfl
@[simp] theorem State.clearMem_parityBad (s : State) (a n : Nat) : (s.clearMem a n).parityBad = s.parityBad := rfl
@[simp] theorem State.clearMem_injectArmed (s : State) (a n : Nat) : (s.clearMem a n).injectArmed = s.injectArmed := rfl
@[simp] theorem State.clearMem_snapWait (s : State) (a n : Nat) : (s.clearMem a n).snapWait = s.snapWait := rfl
@[simp] theorem State.clearMem_deferred (s : State) (a n : Nat) : (s.clearMem a n).deferred = s.deferred := rfl
@[simp] theorem State.clearMem_board (s : State) (a n : Nat) : (s.clearMem a n).board = s.board := rfl
@[simp] theorem State.clearMem_seq (s : State) (a n : Nat) : (s.clearMem a n).seq = s.seq := rfl
@[simp] theorem State.clearMem_host (s : State) (a n : Nat) : (s.clearMem a n).host = s.host := rfl
@[simp] theorem State.clearMem_hostMem (s : State) (a n : Nat) : (s.clearMem a n).hostMem = s.hostMem := rfl
@[simp] theorem State.clearMem_flash (s : State) (a n : Nat) : (s.clearMem a n).flash = s.flash := rfl
@[simp] theorem State.clearMem_engines (s : State) (a n : Nat) : (s.clearMem a n).engines = s.engines := rfl
@[simp] theorem State.clearMem_ctxs (s : State) (a n : Nat) : (s.clearMem a n).ctxs = s.ctxs := rfl
@[simp] theorem State.clearMem_sched (s : State) (a n : Nat) : (s.clearMem a n).sched = s.sched := rfl
@[simp] theorem State.clearMem_cams (s : State) (a n : Nat) : (s.clearMem a n).cams = s.cams := rfl
@[simp] theorem State.clearMem_pipes (s : State) (a n : Nat) : (s.clearMem a n).pipes = s.pipes := rfl
@[simp] theorem State.clearMem_detect (s : State) (a n : Nat) : (s.clearMem a n).detect = s.detect := rfl
@[simp] theorem State.clearMem_lanes (s : State) (a n : Nat) : (s.clearMem a n).lanes = s.lanes := rfl
@[simp] theorem State.clearMem_encs (s : State) (a n : Nat) : (s.clearMem a n).encs = s.encs := rfl
@[simp] theorem State.clearMem_rtu (s : State) (a n : Nat) : (s.clearMem a n).rtu = s.rtu := rfl
@[simp] theorem State.clearMem_field (s : State) (a n : Nat) : (s.clearMem a n).field = s.field := rfl
@[simp] theorem State.clearMem_ports (s : State) (a n : Nat) : (s.clearMem a n).ports = s.ports := rfl
@[simp] theorem State.clearMem_ptp (s : State) (a n : Nat) : (s.clearMem a n).ptp = s.ptp := rfl
@[simp] theorem State.clearMem_bry (s : State) (a n : Nat) : (s.clearMem a n).bry = s.bry := rfl
@[simp] theorem State.clearMem_streams (s : State) (a n : Nat) : (s.clearMem a n).streams = s.streams := rfl
@[simp] theorem State.clearMem_cache (s : State) (a n : Nat) : (s.clearMem a n).cache = s.cache := rfl
@[simp] theorem State.clearMem_temper (s : State) (a n : Nat) : (s.clearMem a n).temper = s.temper := rfl
@[simp] theorem State.clearMem_coll (s : State) (a n : Nat) : (s.clearMem a n).coll = s.coll := rfl
@[simp] theorem State.clearMem_quench (s : State) (a n : Nat) : (s.clearMem a n).quench = s.quench := rfl
@[simp] theorem State.clearMem_msys (s : State) (a n : Nat) : (s.clearMem a n).msys = s.msys := rfl
@[simp] theorem State.clearMem_draws (s : State) (a n : Nat) : (s.clearMem a n).draws = s.draws := rfl
@[simp] theorem State.clearMem_pending (s : State) (a n : Nat) : (s.clearMem a n).pending = s.pending := rfl
@[simp] theorem State.clearMem_rd (s : State) (a n : Nat) (b : Nat) (g : Fld) (ix : Nat) : (s.clearMem a n).rd b g ix = s.rd b g ix := rfl
@[simp] theorem State.clearMem_ctr (s : State) (a n : Nat) (q : Nat) : (s.clearMem a n).ctr q = s.ctr q := rfl

/-! ### draw -/

@[simp] theorem State.draw_regs (s : State) : (s.draw).regs = s.regs := rfl
@[simp] theorem State.draw_ctrs (s : State) : (s.draw).ctrs = s.ctrs := rfl
@[simp] theorem State.draw_snaps (s : State) : (s.draw).snaps = s.snaps := rfl
@[simp] theorem State.draw_openCtrs (s : State) : (s.draw).openCtrs = s.openCtrs := rfl
@[simp] theorem State.draw_parityBad (s : State) : (s.draw).parityBad = s.parityBad := rfl
@[simp] theorem State.draw_injectArmed (s : State) : (s.draw).injectArmed = s.injectArmed := rfl
@[simp] theorem State.draw_snapWait (s : State) : (s.draw).snapWait = s.snapWait := rfl
@[simp] theorem State.draw_deferred (s : State) : (s.draw).deferred = s.deferred := rfl
@[simp] theorem State.draw_board (s : State) : (s.draw).board = s.board := rfl
@[simp] theorem State.draw_seq (s : State) : (s.draw).seq = s.seq := rfl
@[simp] theorem State.draw_host (s : State) : (s.draw).host = s.host := rfl
@[simp] theorem State.draw_mem (s : State) : (s.draw).mem = s.mem := rfl
@[simp] theorem State.draw_hostMem (s : State) : (s.draw).hostMem = s.hostMem := rfl
@[simp] theorem State.draw_flash (s : State) : (s.draw).flash = s.flash := rfl
@[simp] theorem State.draw_engines (s : State) : (s.draw).engines = s.engines := rfl
@[simp] theorem State.draw_ctxs (s : State) : (s.draw).ctxs = s.ctxs := rfl
@[simp] theorem State.draw_sched (s : State) : (s.draw).sched = s.sched := rfl
@[simp] theorem State.draw_cams (s : State) : (s.draw).cams = s.cams := rfl
@[simp] theorem State.draw_pipes (s : State) : (s.draw).pipes = s.pipes := rfl
@[simp] theorem State.draw_detect (s : State) : (s.draw).detect = s.detect := rfl
@[simp] theorem State.draw_lanes (s : State) : (s.draw).lanes = s.lanes := rfl
@[simp] theorem State.draw_encs (s : State) : (s.draw).encs = s.encs := rfl
@[simp] theorem State.draw_rtu (s : State) : (s.draw).rtu = s.rtu := rfl
@[simp] theorem State.draw_field (s : State) : (s.draw).field = s.field := rfl
@[simp] theorem State.draw_ports (s : State) : (s.draw).ports = s.ports := rfl
@[simp] theorem State.draw_ptp (s : State) : (s.draw).ptp = s.ptp := rfl
@[simp] theorem State.draw_bry (s : State) : (s.draw).bry = s.bry := rfl
@[simp] theorem State.draw_streams (s : State) : (s.draw).streams = s.streams := rfl
@[simp] theorem State.draw_cache (s : State) : (s.draw).cache = s.cache := rfl
@[simp] theorem State.draw_temper (s : State) : (s.draw).temper = s.temper := rfl
@[simp] theorem State.draw_coll (s : State) : (s.draw).coll = s.coll := rfl
@[simp] theorem State.draw_quench (s : State) : (s.draw).quench = s.quench := rfl
@[simp] theorem State.draw_msys (s : State) : (s.draw).msys = s.msys := rfl
@[simp] theorem State.draw_pending (s : State) : (s.draw).pending = s.pending := rfl
@[simp] theorem State.draw_rd (s : State) (b : Nat) (g : Fld) (ix : Nat) : (s.draw).rd b g ix = s.rd b g ix := rfl
@[simp] theorem State.draw_ctr (s : State) (q : Nat) : (s.draw).ctr q = s.ctr q := rfl

end Sys2Proof.Machine
end

