-- ==== Sys2Proof/Laws/Map.lean ====
section
/-! SUPPORT. The laws of the sparse maps, and of register fields and counters held in them. -/

namespace Sys2Proof.Machine

variable {α : Type}

@[simp] theorem SMap.get_nil (k : Nat) (d : α) : SMap.get ([] : SMap α) k d = d := rfl

@[simp] theorem SMap.find?_nil (k : Nat) : SMap.find? ([] : SMap α) k = none := rfl

theorem SMap.get_insert_self (m : SMap α) (k : Nat) (v d : α) : SMap.get (SMap.insert m k v) k d = v := by
  induction m with
  | nil => simp [SMap.insert, SMap.get]
  | cons p m ih =>
    obtain ⟨k', v'⟩ := p
    unfold SMap.insert
    split
    · simp [SMap.get]
    · split
      · simp [SMap.get]
      · simp [SMap.get, *]

theorem SMap.get_insert_ne (m : SMap α) {k k' : Nat} (v d : α) (h : k' ≠ k) :
    SMap.get (SMap.insert m k v) k' d = SMap.get m k' d := by
  induction m with
  | nil => simp [SMap.insert, SMap.get, Ne.symm h]
  | cons p m ih =>
    obtain ⟨a, b⟩ := p
    unfold SMap.insert
    split
    · simp [SMap.get, Ne.symm h]
    · split
      · next h2 => subst h2; simp [SMap.get, Ne.symm h]
      · simp [SMap.get, ih]

theorem SMap.get_erase_self (m : SMap α) (k : Nat) (d : α) : SMap.get (SMap.erase m k) k d = d := by
  induction m with
  | nil => rfl
  | cons p m ih =>
    obtain ⟨a, b⟩ := p
    by_cases h : a = k <;> simp_all [SMap.erase, SMap.get]

theorem SMap.get_erase_ne (m : SMap α) {k k' : Nat} (d : α) (h : k' ≠ k) :
    SMap.get (SMap.erase m k) k' d = SMap.get m k' d := by
  induction m with
  | nil => rfl
  | cons p m ih =>
    obtain ⟨a, b⟩ := p
    by_cases h2 : a = k
    · subst h2; simpa [SMap.erase, SMap.get, List.filter_cons, Ne.symm h] using ih
    · by_cases h3 : a = k' <;> simp_all [SMap.erase, SMap.get]

@[simp] theorem SMap.get_set_self [DecidableEq α] (m : SMap α) (k : Nat) (v d : α) :
    SMap.get (SMap.set m k v d) k d = v := by
  unfold SMap.set
  split
  · next h => rw [SMap.get_erase_self, h]
  · exact SMap.get_insert_self ..

theorem SMap.get_set_ne [DecidableEq α] (m : SMap α) {k k' : Nat} (v d e : α) (h : k' ≠ k) :
    SMap.get (SMap.set m k v d) k' e = SMap.get m k' e := by
  unfold SMap.set
  split
  · exact SMap.get_erase_ne m e h
  · exact SMap.get_insert_ne m v e h

theorem SMap.find?_insert_self (m : SMap α) (k : Nat) (v : α) : SMap.find? (SMap.insert m k v) k = some v := by
  induction m with
  | nil => simp [SMap.insert, SMap.find?]
  | cons p m ih =>
    obtain ⟨k', v'⟩ := p
    unfold SMap.insert
    split
    · simp [SMap.find?]
    · split
      · simp [SMap.find?]
      · simp [SMap.find?, *]

theorem SMap.find?_insert_ne (m : SMap α) {k k' : Nat} (v : α) (h : k' ≠ k) :
    SMap.find? (SMap.insert m k v) k' = SMap.find? m k' := by
  induction m with
  | nil => simp [SMap.insert, SMap.find?, Ne.symm h]
  | cons p m ih =>
    obtain ⟨a, b⟩ := p
    unfold SMap.insert
    split
    · simp [SMap.find?, Ne.symm h]
    · split
      · next h2 => subst h2; simp [SMap.find?, Ne.symm h]
      · simp [SMap.find?, ih]

theorem SMap.find?_erase_self (m : SMap α) (k : Nat) : SMap.find? (SMap.erase m k) k = none := by
  induction m with
  | nil => rfl
  | cons p m ih =>
    obtain ⟨a, b⟩ := p
    by_cases h : a = k <;> simp_all [SMap.erase, SMap.find?]

theorem SMap.find?_erase_ne (m : SMap α) {k k' : Nat} (h : k' ≠ k) :
    SMap.find? (SMap.erase m k) k' = SMap.find? m k' := by
  induction m with
  | nil => rfl
  | cons p m ih =>
    obtain ⟨a, b⟩ := p
    by_cases h2 : a = k
    · subst h2; simpa [SMap.erase, SMap.find?, List.filter_cons, Ne.symm h] using ih
    · by_cases h3 : a = k' <;> simp_all [SMap.erase, SMap.find?]

/-! ### Register fields and counters -/

theorem State.rd_wr_self (s : State) (b : Nat) (f : Fld) (v i : Nat) : (s.wr b f v i).rd b f i = v % 2 ^ f.width := by
  simp [State.rd, State.wr]

/-- A field of another key is as it was. -/
theorem State.rd_wr_ne (s : State) {b b' : Nat} {f g : Fld} (v : Nat) {i j : Nat} (h : g.key b' j ≠ f.key b i) :
    (s.wr b f v i).rd b' g j = s.rd b' g j := by
  simp [State.rd, State.wr, SMap.get_set_ne _ _ _ _ h]

/-- Reading any field after a write: the value written where the keys and the fields agree. -/
theorem State.rd_wr (s : State) (b b' : Nat) (f g : Fld) (v i j : Nat) (hr : g.key b' j = f.key b i → g = f) :
    (s.wr b f v i).rd b' g j = if g.key b' j = f.key b i then v % 2 ^ f.width else s.rd b' g j := by
  split
  · next h =>
    have e := hr h
    subst e
    simp only [State.rd, h, State.wr, SMap.get_set_self]
  · next h => exact State.rd_wr_ne s v h

theorem State.ctr_bump_self (s : State) (a n : Nat) : (s.bump a n).ctr a = (s.ctr a + n) % 2 ^ 64 := by
  simp [State.ctr, State.bump]

theorem State.ctr_bump_ne (s : State) {a b : Nat} (n : Nat) (h : b ≠ a) : (s.bump a n).ctr b = s.ctr b := by
  simp [State.ctr, State.bump, SMap.get_set_ne _ _ _ _ h]

theorem State.eng_setEng_self (s : State) (e : Nat) (x : Engine) : (s.setEng e x).eng e = x := by
  simp [State.eng, State.setEng]

theorem State.eng_setEng_ne (s : State) {e e' : Nat} (x : Engine) (h : e' ≠ e) : (s.setEng e x).eng e' = s.eng e' := by
  simp [State.eng, State.setEng, SMap.get_set_ne _ _ _ _ h]

theorem State.chan_setChan_self (s : State) (n : Nat) (x : Chan) : (s.setChan n x).chan n = x := by
  simp [State.chan, State.setChan]

theorem State.chan_setChan_ne (s : State) {n m : Nat} (x : Chan) (h : m ≠ n) : (s.setChan n x).chan m = s.chan m := by
  simp [State.chan, State.setChan, SMap.get_set_ne _ _ _ _ h]

end Sys2Proof.Machine
end

