-- ==== Sys2Proof/Laws/Settle.lean ====
section
/-! SUPPORT. What `settle`, the end of every command, does: it carries out the writes whose block has left active,
sets readiness and the permit, and brings the field outputs to where they are to be; nothing else. -/

namespace Sys2Proof.Machine

/-- s and t agree outside what the end of a command may change: register fields, counters, stored writes, records, queues of a
halted engine, failed archive streams, the permit and the field outputs. -/
structure SettleSame (s t : State) : Prop where
  snaps : t.snaps = s.snaps
  snapWait : t.snapWait = s.snapWait
  parityBad : t.parityBad = s.parityBad
  injectArmed : t.injectArmed = s.injectArmed
  board : t.board = s.board
  mem : t.mem = s.mem
  hostMem : t.hostMem = s.hostMem
  flash : t.flash = s.flash
  ctxs : t.ctxs = s.ctxs
  sched : t.sched = s.sched
  cams : t.cams = s.cams
  pipes : t.pipes = s.pipes
  detect : t.detect = s.detect
  lanes : t.lanes = s.lanes
  encs : t.encs = s.encs
  rtu : t.rtu = s.rtu
  ports : t.ports = s.ports
  ptp : t.ptp = s.ptp
  bry : t.bry = s.bry
  cache : t.cache = s.cache
  temper : t.temper = s.temper
  coll : t.coll = s.coll
  quench : t.quench = s.quench
  msys : t.msys = s.msys
  draws : t.draws = s.draws
  pending : t.pending = s.pending

theorem SettleSame.refl (s : State) : SettleSame s s := by constructor <;> rfl

theorem SettleSame.trans {s t u : State} (h : SettleSame s t) (k : SettleSame t u) : SettleSame s u := by
  cases h; cases k; constructor <;> simp_all

theorem settleSame_foldl {β : Type} (g : State → β → State) (hg : ∀ s b, SettleSame s (g s b)) (l : List β) (s : State) :
    SettleSame s (l.foldl g s) := by
  induction l generalizing s with
  | nil => exact .refl s
  | cons b l ih => exact (hg s b).trans (ih _)

theorem wr_settleSame (s : State) (b : Nat) (f : Fld) (v i : Nat) : SettleSame s (s.wr b f v i) := by constructor <;> rfl

theorem bump_settleSame (s : State) (a n : Nat) : SettleSame s (s.bump a n) := by constructor <;> rfl

theorem setEng_settleSame (s : State) (e : Nat) (x : Engine) : SettleSame s (s.setEng e x) := by constructor <;> rfl

theorem setStream_settleSame (s : State) (i : Nat) (x : Stream) : SettleSame s (s.setStream i x) := by constructor <;> rfl

theorem host_settleSame (s : State) (x : HostSide) : SettleSame s { s with host := x } := by constructor <;> rfl

theorem note_settleSame (s : State) (b : Nat) (w : Why) (n : Nat) : SettleSame s (s.note b w n) := by
  unfold State.note
  repeat' split
  all_goals first | exact bump_settleSame .. | (constructor <;> rfl)

theorem setBlk_settleSame (s : State) (b n : Nat) : SettleSame s (s.setBlk b n) := by
  unfold State.setBlk
  exact wr_settleSame ..

theorem clrBlk_settleSame (s : State) (b n : Nat) : SettleSame s (s.clrBlk b n) := by
  unfold State.clrBlk
  exact wr_settleSame ..

theorem produce_settleSame (s : State) (src : Nat) (l : List EventRec) : SettleSame s (s.produce src l) := by
  have hw : SettleSame s (s.wakeN src) := by
    unfold State.wakeN
    split
    · exact wr_settleSame ..
    · exact .refl s
  unfold State.produce
  dsimp only
  split
  · split
    · exact hw.trans (host_settleSame ..)
    · exact (hw.trans (bump_settleSame ..)).trans ((setBlk_settleSame ..).trans (host_settleSame ..))
  · exact hw.trans (host_settleSame ..)

/-- Raising a record touches the host side, and at most the wake pin, a status bit and a counter. -/
theorem raise_settleSame (s : State) (src typ : Nat) (pl : List Byte) : SettleSame s (s.raise src typ pl) :=
  produce_settleSame ..

theorem blockFaults_settleSame (s : State) (b : Nat) (l : List Nat) : SettleSame s (s.blockFaults b l) := by
  have hm : ∀ n, SettleSame s (s.countMasked b n) := by
    intro n
    unfold State.countMasked
    split
    · exact .refl s
    · exact (note_settleSame ..).trans (bump_settleSame ..)
  have hh : ∀ (t : State) (m : List Nat), SettleSame t (t.holdCauses b m) := by
    intro t m
    unfold State.holdCauses
    dsimp only
    split <;> exact (wr_settleSame ..).trans (wr_settleSame ..)
  have he : ∀ t : State, SettleSame t (t.engineHalt b) := by
    intro t
    unfold State.engineHalt
    split
    · exact setEng_settleSame ..
    · exact .refl t
  have hr : ∀ t : State, SettleSame t (t.raiseBlkFault b) := by
    intro t
    unfold State.raiseBlkFault
    split
    · exact raise_settleSame ..
    · exact .refl t
  unfold State.blockFaults
  dsimp only
  split
  · exact hm _
  · split
    · exact (hm _).trans (hh _ _)
    · exact ((hm _).trans (hh _ _)).trans (((wr_settleSame ..).trans (he _)).trans (hr _))

theorem useCheck_settleSame (s : State) : SettleSame s s.useCheck := by
  refine settleSame_foldl _ (fun t a => ?_) _ _
  split
  · split
    · unfold State.parityFound
      dsimp only
      refine SettleSame.trans ?_ ((wr_settleSame ..).trans (blockFaults_settleSame ..))
      split
      · exact wr_settleSame ..
      · exact .refl t
    · exact .refl t
  · exact .refl t

theorem writeField_settleSame (s : State) (b : Nat) (l : Bool) (v : Nat) (fi : Fld × Nat) :
    SettleSame s (s.writeField b l v fi) := by
  unfold State.writeField
  dsimp only
  split
  · exact wr_settleSame ..
  · exact wr_settleSame ..
  · split
    · exact .refl s
    · exact wr_settleSame ..
  · exact .refl s

theorem writePart_settleSame (s : State) (hold : Bool) (a v : Nat) : SettleSame s (s.writePart hold a v) := by
  unfold State.writePart
  split
  · exact .refl s
  · exact settleSame_foldl _ (fun s fi => writeField_settleSame s _ _ _ fi) _ _

theorem applyDeferred_settleSame (s : State) (l : List (Nat × Nat)) : SettleSame s (s.applyDeferred l) :=
  settleSame_foldl (fun s (p : Nat × Nat) => s.writePart true p.1 p.2) (fun s p => writePart_settleSame s true p.1 p.2) l s

theorem arcFail_settleSame (s : State) (i r : Nat) : SettleSame s (s.arcFail i r) := by
  unfold State.arcFail
  dsimp only
  split
  · exact .refl s
  · refine SettleSame.trans ?_ (raise_settleSame ..)
    refine SettleSame.trans ?_ (setStream_settleSame ..)
    refine SettleSame.trans ?_ (clrBlk_settleSame ..)
    refine SettleSame.trans ?_ (clrBlk_settleSame ..)
    refine SettleSame.trans ?_ (clrBlk_settleSame ..)
    exact SettleSame.trans (wr_settleSame ..) (wr_settleSame ..)

theorem arcLose_settleSame (s : State) (c : Nat) : SettleSame s (s.arcLose c) := by
  refine settleSame_foldl _ (fun t i => ?_) _ _
  split
  · exact arcFail_settleSame ..
  · exact .refl t

theorem primChanged_settleSame (s s0 : State) : SettleSame s (s.primChanged s0) := by
  refine settleSame_foldl _ (fun t c => ?_) _ _
  split
  · exact .refl t
  · exact arcLose_settleSame ..

theorem flushDeferred_settleSame (s : State) : SettleSame s s.flushDeferred := by
  unfold State.flushDeferred
  split
  · exact .refl s
  · refine SettleSame.trans (t := { s with deferred := s.deferred.filter (fun p => s.heldBack p.1) })
      (by constructor <;> rfl) ((applyDeferred_settleSame _ _).trans (primChanged_settleSame _ _))

theorem settlePermit_settleSame (s : State) : SettleSame s s.settlePermit := by
  unfold State.settlePermit
  split
  · split <;> (constructor <;> rfl)
  · constructor <;> rfl

theorem driveChan_settleSame (s : State) (n : Nat) : SettleSame s (s.driveChan n) := by
  unfold State.driveChan
  dsimp only
  split
  · exact .refl s
  · split <;> (constructor <;> rfl)

theorem settle_same (s : State) : SettleSame s (settle s) :=
  (((useCheck_settleSame s).trans (flushDeferred_settleSame _)).trans (settlePermit_settleSame _)).trans
    (settleSame_foldl _ driveChan_settleSame _ _)

/-! ### Registers and counters through the end of a command -/

/-- s and t agree in every register field and every counter but the switching counts, and in what `SettleSame` lists. -/
structure DriveSame (s t : State) : Prop where
  regs : t.regs = s.regs
  openCtrs : t.openCtrs = s.openCtrs
  host : t.host = s.host
  engines : t.engines = s.engines
  streams : t.streams = s.streams
  deferred : t.deferred = s.deferred
  seq : { t.seq with ready := s.seq.ready, wasReady := s.seq.wasReady, permit := s.seq.permit } = s.seq
  field : { t.field with chans := s.field.chans } = s.field
  demand : ∀ n, (t.chan n).demand = (s.chan n).demand ∧ (t.chan n).prot = (s.chan n).prot ∧
    (t.chan n).lastCount = (s.chan n).lastCount
  ctrs : ∀ a, ¬ isSwitchCtr a → t.ctr a = s.ctr a

theorem DriveSame.refl (s : State) : DriveSame s s := ⟨rfl, rfl, rfl, rfl, rfl, rfl, rfl, rfl, fun _ => ⟨rfl, rfl, rfl⟩, fun _ _ => rfl⟩

theorem DriveSame.trans {s t u : State} (h : DriveSame s t) (k : DriveSame t u) : DriveSame s u where
  regs := k.regs.trans h.regs
  openCtrs := k.openCtrs.trans h.openCtrs
  host := k.host.trans h.host
  engines := k.engines.trans h.engines
  streams := k.streams.trans h.streams
  deferred := k.deferred.trans h.deferred
  seq := by have a := h.seq; have b := k.seq; rw [← b] at a; exact a
  field := by have a := h.field; have b := k.field; rw [← b] at a; exact a
  demand n := by
    have a := h.demand n; have b := k.demand n
    exact ⟨b.1.trans a.1, b.2.1.trans a.2.1, b.2.2.trans a.2.2⟩
  ctrs a ha := (k.ctrs a ha).trans (h.ctrs a ha)

theorem settlePermit_driveSame (s : State) : DriveSame s s.settlePermit := by
  unfold State.settlePermit
  split
  · split <;> exact ⟨rfl, rfl, rfl, rfl, rfl, rfl, rfl, rfl, fun _ => ⟨rfl, rfl, rfl⟩, fun _ _ => rfl⟩
  · exact ⟨rfl, rfl, rfl, rfl, rfl, rfl, rfl, rfl, fun _ => ⟨rfl, rfl, rfl⟩, fun _ _ => rfl⟩

theorem setChan_driveSame (s : State) (n : Nat) (x : Chan) (h : x.demand = (s.chan n).demand ∧ x.prot = (s.chan n).prot ∧
    x.lastCount = (s.chan n).lastCount) : DriveSame s (s.setChan n x) := by
  refine ⟨rfl, rfl, rfl, rfl, rfl, rfl, rfl, rfl, fun m => ?_, fun _ _ => rfl⟩
  by_cases hm : m = n
  · subst hm; rw [State.chan_setChan_self]; exact h
  · rw [State.chan_setChan_ne _ _ hm]; exact ⟨rfl, rfl, rfl⟩

theorem driveChan_driveSame (s : State) (n : Nat) (hn : n < 16) : DriveSame s (s.driveChan n) := by
  unfold State.driveChan
  dsimp only
  split
  · exact .refl s
  · split
    · refine DriveSame.trans (t := s.setChan n { s.chan n with
          on := true
          pick := decide (s.rd P.fio Reg.FIO_GLB_path = 0) && decide (s.rd P.fio Reg.FIO_CH_OUTCFG_pick_t n ≠ 0) }) ?_ ?_
      · exact setChan_driveSame s n _ ⟨rfl, rfl, rfl⟩
      · refine ⟨rfl, rfl, rfl, rfl, rfl, rfl, rfl, rfl, fun _ => ⟨rfl, rfl, rfl⟩, fun a ha => ?_⟩
        exact State.ctr_bump_ne _ _ (fun h => ha ⟨n, hn, h⟩)
    · exact setChan_driveSame s n _ ⟨rfl, rfl, rfl⟩

theorem driveList_driveSame (l : List Nat) (hl : ∀ n ∈ l, n < 16) (s : State) : DriveSame s (l.foldl State.driveChan s) := by
  induction l generalizing s with
  | nil => exact .refl s
  | cons n l ih =>
    exact (driveChan_driveSame s n (hl n (List.mem_cons_self ..))).trans
      (ih (fun m hm => hl m (List.mem_cons_of_mem _ hm)) _)

/-- With no stored write and no mismatching register the end of a command is the permit and the outputs. -/
theorem settle_atRest {s : State} (h : s.deferred = []) (hp : s.parityBad = []) : settle s = s.settlePermit.driveAll := by
  simp [settle, State.useCheck, State.flushDeferred, h, hp]

/-- Then it changes no register field. -/
theorem settle_drive {s : State} (h : s.deferred = []) (hp : s.parityBad = []) : DriveSame s (settle s) := by
  rw [settle_atRest h hp]
  exact (settlePermit_driveSame s).trans
    (driveList_driveSame _ (fun n hn => List.mem_range.mp hn) _)

@[simp] theorem settle_rd {s : State} (h : s.deferred = []) (hp : s.parityBad = []) (b : Nat) (f : Fld) (i : Nat) :
    (settle s).rd b f i = s.rd b f i := by simp [State.rd, (settle_drive h hp).regs]

theorem settle_ctr {s : State} (h : s.deferred = []) (hp : s.parityBad = []) {a : Nat} (ha : ¬ isSwitchCtr a) :
    (settle s).ctr a = s.ctr a := (settle_drive h hp).ctrs a ha

@[simp] theorem settle_deferred {s : State} (h : s.deferred = []) (hp : s.parityBad = []) : (settle s).deferred = [] := by
  rw [(settle_drive h hp).deferred, h]

@[simp] theorem settle_openCtrs {s : State} (h : s.deferred = []) (hp : s.parityBad = []) :
    (settle s).openCtrs = s.openCtrs := (settle_drive h hp).openCtrs
@[simp] theorem settle_host {s : State} (h : s.deferred = []) (hp : s.parityBad = []) : (settle s).host = s.host :=
  (settle_drive h hp).host
@[simp] theorem settle_engines {s : State} (h : s.deferred = []) (hp : s.parityBad = []) :
    (settle s).engines = s.engines := (settle_drive h hp).engines
@[simp] theorem settle_streams {s : State} (h : s.deferred = []) (hp : s.parityBad = []) :
    (settle s).streams = s.streams := (settle_drive h hp).streams

@[simp] theorem settle_snaps (s : State) : (settle s).snaps = s.snaps := (settle_same s).snaps
@[simp] theorem settle_snapWait (s : State) : (settle s).snapWait = s.snapWait := (settle_same s).snapWait
@[simp] theorem settle_parityBad (s : State) : (settle s).parityBad = s.parityBad := (settle_same s).parityBad
@[simp] theorem settle_injectArmed (s : State) : (settle s).injectArmed = s.injectArmed := (settle_same s).injectArmed
@[simp] theorem settle_board (s : State) : (settle s).board = s.board := (settle_same s).board
@[simp] theorem settle_mem (s : State) : (settle s).mem = s.mem := (settle_same s).mem
@[simp] theorem settle_hostMem (s : State) : (settle s).hostMem = s.hostMem := (settle_same s).hostMem
@[simp] theorem settle_flash (s : State) : (settle s).flash = s.flash := (settle_same s).flash
@[simp] theorem settle_ctxs (s : State) : (settle s).ctxs = s.ctxs := (settle_same s).ctxs
@[simp] theorem settle_sched (s : State) : (settle s).sched = s.sched := (settle_same s).sched
@[simp] theorem settle_cams (s : State) : (settle s).cams = s.cams := (settle_same s).cams
@[simp] theorem settle_pipes (s : State) : (settle s).pipes = s.pipes := (settle_same s).pipes
@[simp] theorem settle_detect (s : State) : (settle s).detect = s.detect := (settle_same s).detect
@[simp] theorem settle_lanes (s : State) : (settle s).lanes = s.lanes := (settle_same s).lanes
@[simp] theorem settle_encs (s : State) : (settle s).encs = s.encs := (settle_same s).encs
@[simp] theorem settle_rtu (s : State) : (settle s).rtu = s.rtu := (settle_same s).rtu
@[simp] theorem settle_ports (s : State) : (settle s).ports = s.ports := (settle_same s).ports
@[simp] theorem settle_ptp (s : State) : (settle s).ptp = s.ptp := (settle_same s).ptp
@[simp] theorem settle_bry (s : State) : (settle s).bry = s.bry := (settle_same s).bry
@[simp] theorem settle_cache (s : State) : (settle s).cache = s.cache := (settle_same s).cache
@[simp] theorem settle_temper (s : State) : (settle s).temper = s.temper := (settle_same s).temper
@[simp] theorem settle_coll (s : State) : (settle s).coll = s.coll := (settle_same s).coll
@[simp] theorem settle_quench (s : State) : (settle s).quench = s.quench := (settle_same s).quench
@[simp] theorem settle_msys (s : State) : (settle s).msys = s.msys := (settle_same s).msys
@[simp] theorem settle_draws (s : State) : (settle s).draws = s.draws := (settle_same s).draws
@[simp] theorem settle_pending (s : State) : (settle s).pending = s.pending := (settle_same s).pending

end Sys2Proof.Machine
end

