-- ==== Sys2Proof/Laws/Frame.lean ====
section
/-! SUPPORT. Frames: they compose, they may be widened, and each basic update has one. -/

namespace Sys2Proof.Machine

theorem Part.same_refl (p : Part) (s : State) : p.same s s := by
  cases p <;> first | exact rfl | exact ⟨rfl, rfl⟩ | exact ⟨rfl, fun _ => ⟨rfl, rfl, rfl⟩⟩

theorem Part.same_trans (p : Part) {s t u : State} (h : p.same s t) (k : p.same t u) : p.same s u := by
  cases p
  case parity => exact ⟨k.1.trans h.1, k.2.trans h.2⟩
  case snaps => exact ⟨k.1.trans h.1, k.2.trans h.2⟩
  case seq =>
    have a : { t.seq with ready := s.seq.ready, wasReady := s.seq.wasReady, permit := s.seq.permit } = s.seq := h
    have b : { u.seq with ready := t.seq.ready, wasReady := t.seq.wasReady, permit := t.seq.permit } = t.seq := k
    rw [← b] at a
    exact a
  case field =>
    have a : { t.field with chans := s.field.chans } = s.field := h.1
    have b : { u.field with chans := t.field.chans } = t.field := k.1
    rw [← b] at a
    refine ⟨a, fun n => ?_⟩
    exact ⟨(k.2 n).1.trans (h.2 n).1, (k.2 n).2.1.trans (h.2 n).2.1, (k.2 n).2.2.trans (h.2 n).2.2⟩
  all_goals exact Eq.trans (b := _) k h

theorem Frame.refl (s : State) (R C : List Nat) (P : List Part) : Frame s s R C P :=
  ⟨fun _ _ _ _ => rfl, fun _ _ _ => rfl, fun p _ => p.same_refl s⟩

theorem Frame.trans {s t u : State} {R R' C C' : List Nat} {P P' : List Part} (h : Frame s t R C P)
    (k : Frame t u R' C' P') : Frame s u (R ++ R') (C ++ C') (P ++ P') where
  regs b f i hn := by
    simp only [List.mem_append, not_or] at hn
    rw [k.regs b f i hn.2, h.regs b f i hn.1]
  ctrs a hn hs := by
    simp only [List.mem_append, not_or] at hn
    rw [k.ctrs a hn.2 hs, h.ctrs a hn.1 hs]
  parts p hn := by
    simp only [List.mem_append, not_or] at hn
    exact p.same_trans (h.parts p hn.1) (k.parts p hn.2)

theorem Frame.mono {s t : State} {R R' C C' : List Nat} {P P' : List Part} (h : Frame s t R C P) (hR : R ⊆ R')
    (hC : C ⊆ C') (hP : P ⊆ P') : Frame s t R' C' P' :=
  ⟨fun b f i hn => h.regs b f i (fun m => hn (hR m)), fun a hn => h.ctrs a (fun m => hn (hC m)),
    fun p hn => h.parts p (fun m => hn (hP m))⟩

/-- The end of a command, with no stored write and no mismatching register, changes nothing that a frame compares. -/
theorem frame_settle {s : State} (h : s.deferred = []) (hp : s.parityBad = []) : Frame s (settle s) [] [] [] where
  regs b f i _ := settle_rd h hp b f i
  ctrs a _ ha := settle_ctr h hp ha
  parts p _ := by
    cases p
    case parity => exact ⟨settle_parityBad s, settle_injectArmed s⟩
    case snaps => exact ⟨settle_snaps s, settle_snapWait s⟩
    case deferred => exact (settle_drive h hp).deferred
    case seq => exact (settle_drive h hp).seq
    case field => exact ⟨(settle_drive h hp).field, (settle_drive h hp).demand⟩
    all_goals simp [Part.same, h, hp]

theorem Frame.settle {s t : State} {R C : List Nat} {P : List Part} (h : Frame s t R C P) (hd : t.deferred = [])
    (hp : t.parityBad = []) : Frame s (settle t) R C P := by
  simpa using h.trans (frame_settle hd hp)

theorem frame_wr (s : State) (b : Nat) (f : Fld) (v i : Nat) : Frame s (s.wr b f v i) [f.key b i] [] [] where
  regs b' g j hn := s.rd_wr_ne v (by simpa using hn)
  ctrs _ _ _ := rfl
  parts p _ := by cases p <;> first | exact rfl | exact ⟨rfl, rfl⟩ | exact ⟨rfl, fun _ => ⟨rfl, rfl, rfl⟩⟩

theorem frame_bump (s : State) (a n : Nat) : Frame s (s.bump a n) [] [a] [] where
  regs _ _ _ _ := rfl
  ctrs _ hn _ := s.ctr_bump_ne n (by simpa using hn)
  parts p _ := by cases p <;> first | exact rfl | exact ⟨rfl, rfl⟩ | exact ⟨rfl, fun _ => ⟨rfl, rfl, rfl⟩⟩

/-- An update that keeps the register fields, the counters and every part but one. -/
theorem frame_part {s t : State} (q : Part) (hr : t.regs = s.regs) (hc : t.ctrs = s.ctrs)
    (hp : ∀ p, p ≠ q → p.same s t) : Frame s t [] [] [q] where
  regs _ _ _ _ := by simp [State.rd, hr]
  ctrs _ _ _ := by simp [State.ctr, hc]
  parts p hn := hp p (by simpa using hn)

/-- A frame goes on through an update whose own frame it covers. -/
theorem Frame.next {s t u : State} {R R' C C' : List Nat} {P P' : List Part} (h : Frame s t R C P)
    (k : Frame t u R' C' P') (hR : R' ⊆ R) (hC : C' ⊆ C) (hP : P' ⊆ P) : Frame s u R C P :=
  (h.trans k).mono (by simpa using hR) (by simpa using hC) (by simpa using hP)

theorem Frame.wr {s t : State} {R C : List Nat} {P : List Part} (h : Frame s t R C P) (b : Nat) (f : Fld) (v i : Nat)
    (hk : f.key b i ∈ R) : Frame s (t.wr b f v i) R C P :=
  h.next (frame_wr t b f v i) (by simpa using hk) (by simp) (by simp)

theorem Frame.bump {s t : State} {R C : List Nat} {P : List Part} (h : Frame s t R C P) (a n : Nat) (ha : a ∈ C) :
    Frame s (t.bump a n) R C P :=
  h.next (frame_bump t a n) (by simp) (by simpa using ha) (by simp)

/-- A frame goes on through an update of one part that it lists. -/
theorem Frame.part {s t u : State} {R C : List Nat} {P : List Part} (h : Frame s t R C P) {q : Part}
    (k : Frame t u [] [] [q]) (hq : q ∈ P) : Frame s u R C P :=
  h.next k (by simp) (by simp) (by simpa using hq)

/-! ### Updates of one part -/

theorem frame_setEng (s : State) (e : Nat) (x : Engine) : Frame s (s.setEng e x) [] [] [.engines] :=
  frame_part .engines rfl rfl (fun q hq => by
    cases q <;> first | exact rfl | exact ⟨rfl, rfl⟩ | exact ⟨rfl, fun _ => ⟨rfl, rfl, rfl⟩⟩ | exact absurd rfl hq)

theorem frame_setChan (s : State) (n : Nat) (x : Chan) : Frame s (s.setChan n x) [] [] [.field] :=
  frame_part .field rfl rfl (fun q hq => by
    cases q <;> first | exact rfl | exact ⟨rfl, rfl⟩ | exact ⟨rfl, fun _ => ⟨rfl, rfl, rfl⟩⟩ | exact absurd rfl hq)

theorem frame_setPort (s : State) (p : Nat) (x : Port) : Frame s (s.setPort p x) [] [] [.ports] :=
  frame_part .ports rfl rfl (fun q hq => by
    cases q <;> first | exact rfl | exact ⟨rfl, rfl⟩ | exact ⟨rfl, fun _ => ⟨rfl, rfl, rfl⟩⟩ | exact absurd rfl hq)

theorem frame_setBoard (s : State) (x : Board) : Frame s (s.setBoard x) [] [] [.board] :=
  frame_part .board rfl rfl (fun q hq => by
    cases q <;> first | exact rfl | exact ⟨rfl, rfl⟩ | exact ⟨rfl, fun _ => ⟨rfl, rfl, rfl⟩⟩ | exact absurd rfl hq)

theorem frame_setSeq (s : State) (x : Seq) : Frame s (s.setSeq x) [] [] [.seq] :=
  frame_part .seq rfl rfl (fun q hq => by
    cases q <;> first | exact rfl | exact ⟨rfl, rfl⟩ | exact ⟨rfl, fun _ => ⟨rfl, rfl, rfl⟩⟩ | exact absurd rfl hq)

theorem frame_setCtx (s : State) (c : Nat) (x : Ctx) : Frame s (s.setCtx c x) [] [] [.ctxs] :=
  frame_part .ctxs rfl rfl (fun q hq => by
    cases q <;> first | exact rfl | exact ⟨rfl, rfl⟩ | exact ⟨rfl, fun _ => ⟨rfl, rfl, rfl⟩⟩ | exact absurd rfl hq)

theorem frame_setCam (s : State) (k : Nat) (x : Cam) : Frame s (s.setCam k x) [] [] [.cams] :=
  frame_part .cams rfl rfl (fun q hq => by
    cases q <;> first | exact rfl | exact ⟨rfl, rfl⟩ | exact ⟨rfl, fun _ => ⟨rfl, rfl, rfl⟩⟩ | exact absurd rfl hq)

theorem frame_setPipe (s : State) (k : Nat) (x : Pipe) : Frame s (s.setPipe k x) [] [] [.pipes] :=
  frame_part .pipes rfl rfl (fun q hq => by
    cases q <;> first | exact rfl | exact ⟨rfl, rfl⟩ | exact ⟨rfl, fun _ => ⟨rfl, rfl, rfl⟩⟩ | exact absurd rfl hq)

theorem frame_setDet (s : State) (k : Nat) (x : Detect) : Frame s (s.setDet k x) [] [] [.detect] :=
  frame_part .detect rfl rfl (fun q hq => by
    cases q <;> first | exact rfl | exact ⟨rfl, rfl⟩ | exact ⟨rfl, fun _ => ⟨rfl, rfl, rfl⟩⟩ | exact absurd rfl hq)

theorem frame_setLane (s : State) (n : Nat) (x : Lane) : Frame s (s.setLane n x) [] [] [.lanes] :=
  frame_part .lanes rfl rfl (fun q hq => by
    cases q <;> first | exact rfl | exact ⟨rfl, rfl⟩ | exact ⟨rfl, fun _ => ⟨rfl, rfl, rfl⟩⟩ | exact absurd rfl hq)

theorem frame_setEnc (s : State) (e : Nat) (x : Enc) : Frame s (s.setEnc e x) [] [] [.encs] :=
  frame_part .encs rfl rfl (fun q hq => by
    cases q <;> first | exact rfl | exact ⟨rfl, rfl⟩ | exact ⟨rfl, fun _ => ⟨rfl, rfl, rfl⟩⟩ | exact absurd rfl hq)

theorem frame_setEntry (s : State) (n : Nat) (x : RtuEntry) : Frame s (s.setEntry n x) [] [] [.rtu] :=
  frame_part .rtu rfl rfl (fun q hq => by
    cases q <;> first | exact rfl | exact ⟨rfl, rfl⟩ | exact ⟨rfl, fun _ => ⟨rfl, rfl, rfl⟩⟩ | exact absurd rfl hq)

theorem frame_setJob (s : State) (j : Nat) (x : Job) : Frame s (s.setJob j x) [] [] [.sched] :=
  frame_part .sched rfl rfl (fun q hq => by
    cases q <;> first | exact rfl | exact ⟨rfl, rfl⟩ | exact ⟨rfl, fun _ => ⟨rfl, rfl, rfl⟩⟩ | exact absurd rfl hq)

theorem frame_setTent (s : State) (n : Nat) (x : Tent) : Frame s (s.setTent n x) [] [] [.sched] :=
  frame_part .sched rfl rfl (fun q hq => by
    cases q <;> first | exact rfl | exact ⟨rfl, rfl⟩ | exact ⟨rfl, fun _ => ⟨rfl, rfl, rfl⟩⟩ | exact absurd rfl hq)

theorem frame_setFlow (s : State) (f : Nat) (x : Flow) : Frame s (s.setFlow f x) [] [] [.bry] :=
  frame_part .bry rfl rfl (fun q hq => by
    cases q <;> first | exact rfl | exact ⟨rfl, rfl⟩ | exact ⟨rfl, fun _ => ⟨rfl, rfl, rfl⟩⟩ | exact absurd rfl hq)

theorem frame_setColl (s : State) (f : Nat) (x : Coll) : Frame s (s.setColl f x) [] [] [.bry] :=
  frame_part .bry rfl rfl (fun q hq => by
    cases q <;> first | exact rfl | exact ⟨rfl, rfl⟩ | exact ⟨rfl, fun _ => ⟨rfl, rfl, rfl⟩⟩ | exact absurd rfl hq)

theorem frame_setStream (s : State) (i : Nat) (x : Stream) : Frame s (s.setStream i x) [] [] [.streams] :=
  frame_part .streams rfl rfl (fun q hq => by
    cases q <;> first | exact rfl | exact ⟨rfl, rfl⟩ | exact ⟨rfl, fun _ => ⟨rfl, rfl, rfl⟩⟩ | exact absurd rfl hq)

theorem frame_clearMem (s : State) (a n : Nat) : Frame s (s.clearMem a n) [] [] [.mem] :=
  frame_part .mem rfl rfl (fun q hq => by
    cases q <;> first | exact rfl | exact ⟨rfl, rfl⟩ | exact ⟨rfl, fun _ => ⟨rfl, rfl, rfl⟩⟩ | exact absurd rfl hq)

theorem frame_draw (s : State) : Frame s (s.draw) [] [] [.draws] :=
  frame_part .draws rfl rfl (fun q hq => by
    cases q <;> first | exact rfl | exact ⟨rfl, rfl⟩ | exact ⟨rfl, fun _ => ⟨rfl, rfl, rfl⟩⟩ | exact absurd rfl hq)

/-! ### Records -/

/-- A record of a module that is calm is one more record produced. -/
theorem raise_calm {s : State} (hp : s.seq.power = .active) (hl : s.host.pmeLatched = false) (src typ : Nat)
    (pl : List Byte) : s.raise src typ pl =
      { s with host := { s.host with produced := s.host.produced ++
        [{ target := BitVec.ofNat 8 (s.target src), recs := [mkRec s src typ pl s.now] }] } } := by
  simp [State.raise, State.produce, State.wakeN, hl, hp]

theorem raiseAt_calm {s : State} (hp : s.seq.power = .active) (hl : s.host.pmeLatched = false) (src typ : Nat)
    (pl : List Byte) (at_ : Nat) : s.raiseAt src typ pl at_ =
      { s with host := { s.host with produced := s.host.produced ++
        [{ target := BitVec.ofNat 8 (s.target src), recs := [mkRec s src typ pl at_] }] } } := by
  simp [State.raiseAt, State.produce, State.wakeN, hl, hp]

/-- Changing the host side alone. -/
theorem frame_host (s : State) (x : HostSide) : Frame s { s with host := x } [] [] [.host] :=
  frame_part .host rfl rfl (fun p hp => by
    cases p <;> first | exact rfl | exact ⟨rfl, rfl⟩ | exact ⟨rfl, fun _ => ⟨rfl, rfl, rfl⟩⟩ | exact absurd rfl hp)

/-- A record raised is one more record, where the host side is else as it was. -/
theorem recorded_raise {s t : State} (hp : t.seq.power = .active) (hl : t.host.pmeLatched = false) (hh : t.host = s.host)
    {src : Nat} (hs : src < 4096) (typ : Nat) (pl : List Byte) :
    recorded s (t.raise src typ pl) (BitVec.ofNat 12 src) (BitVec.ofNat 8 typ) pl := by
  rw [raise_calm hp hl]
  refine ⟨_, mkRec t src typ pl t.now, by rw [hh], ?_, rfl, rfl, rfl, rfl⟩
  have e : (BitVec.ofNat 12 src).toNat = src := by simp; omega
  simp [State.target, hh, e]

theorem recorded_settle {s t : State} (h : t.deferred = []) (hp : t.parityBad = []) {src : BitVec 12} {typ : BitVec 8}
    {pl : List Byte} : recorded s (settle t) src typ pl ↔ recorded s t src typ pl := by
  simp [recorded, h, hp]

theorem frame_raise {s : State} (hp : s.seq.power = .active) (hl : s.host.pmeLatched = false) (src typ : Nat)
    (pl : List Byte) : Frame s (s.raise src typ pl) [] [] [.host] := by
  rw [raise_calm hp hl]
  exact frame_host s _

end Sys2Proof.Machine
end

