-- ==== Sys2Proof/Laws/Access.lean ====
section
/-! SUPPORT. A register write that reaches its register, and the parity it stores. -/

namespace Sys2Proof.Machine

theorem onWrite_reaches {s : State} {a : Nat} (h : s.reaches a) (k : State → State) :
    s.onWrite a k = k (s.storeParity a) := by
  obtain ⟨h1, h2, h3, h4⟩ := h
  unfold State.onWrite
  simp only [h1, h2, h3, Bool.not_true, Bool.false_eq_true, if_false]
  rw [if_neg (by simpa using h4)]

/-- While the module cannot be reached a register write does nothing (R589). -/
theorem onWrite_unreached {s : State} {a : Nat} (h : s.hostReach = false) (k : State → State) : s.onWrite a k = s := by
  simp [State.onWrite, h]

/-- A write to a page whose clock is stopped sets the register-access latch (R72). -/
theorem onWrite_stopped {s : State} {a : Nat} (h : s.hostReach = true) (hp : s.pageStopped a = true) (k : State → State) :
    s.onWrite a k = s.latch 2 := by
  simp [State.onWrite, h, hp]

/-- Storing parity touches the parity record alone. -/
theorem storeParity_eq (s : State) (a : Nat) : ∃ b i, s.storeParity a = { s with parityBad := b, injectArmed := i } := by
  unfold State.storeParity
  split
  · dsimp only
    split
    · exact ⟨_, _, rfl⟩
    · exact ⟨_, _, rfl⟩
  · exact ⟨_, _, rfl⟩

theorem frame_storeParity (s : State) (a : Nat) : Frame s (s.storeParity a) [] [] [.parity] := by
  obtain ⟨b, i, h⟩ := storeParity_eq s a
  rw [h]
  exact frame_part .parity rfl rfl (fun p hp => by
    cases p <;> first | exact rfl | exact ⟨rfl, rfl⟩ | exact ⟨rfl, fun _ => ⟨rfl, rfl, rfl⟩⟩ | exact absurd rfl hp)

@[simp] theorem storeParity_regs (s : State) (a : Nat) : (s.storeParity a).regs = s.regs := by
  obtain ⟨b, i, h⟩ := storeParity_eq s a; rw [h]
@[simp] theorem storeParity_ctrs (s : State) (a : Nat) : (s.storeParity a).ctrs = s.ctrs := by
  obtain ⟨b, i, h⟩ := storeParity_eq s a; rw [h]
@[simp] theorem storeParity_deferred (s : State) (a : Nat) : (s.storeParity a).deferred = s.deferred := by
  obtain ⟨b, i, h⟩ := storeParity_eq s a; rw [h]
@[simp] theorem storeParity_seq (s : State) (a : Nat) : (s.storeParity a).seq = s.seq := by
  obtain ⟨b, i, h⟩ := storeParity_eq s a; rw [h]
@[simp] theorem storeParity_board (s : State) (a : Nat) : (s.storeParity a).board = s.board := by
  obtain ⟨b, i, h⟩ := storeParity_eq s a; rw [h]
@[simp] theorem storeParity_host (s : State) (a : Nat) : (s.storeParity a).host = s.host := by
  obtain ⟨b, i, h⟩ := storeParity_eq s a; rw [h]
@[simp] theorem storeParity_rtu (s : State) (a : Nat) : (s.storeParity a).rtu = s.rtu := by
  obtain ⟨b, i, h⟩ := storeParity_eq s a; rw [h]
@[simp] theorem storeParity_field (s : State) (a : Nat) : (s.storeParity a).field = s.field := by
  obtain ⟨b, i, h⟩ := storeParity_eq s a; rw [h]
@[simp] theorem storeParity_rd (s : State) (a b : Nat) (f : Fld) (i : Nat) : (s.storeParity a).rd b f i = s.rd b f i := by
  simp [State.rd]
@[simp] theorem storeParity_ctr (s : State) (a b : Nat) : (s.storeParity a).ctr b = s.ctr b := by
  simp [State.ctr]

end Sys2Proof.Machine
end

