-- ==== Sys2Proof/Laws/Memory.lean ====
section
/-! SUPPORT. The laws of the byte memories: a read after a write, and the canonical form kept by every operation. -/

namespace Sys2Proof.Machine

/-! ### Reads after writes -/

theorem Memory.read_write_self (m : Memory) (a : Nat) (b : Byte) : Memory.read (Memory.write m a b) a = b :=
  SMap.get_set_self ..

theorem Memory.read_write_ne (m : Memory) {a x : Nat} (b : Byte) (h : x ≠ a) :
    Memory.read (Memory.write m a b) x = Memory.read m x := SMap.get_set_ne _ _ _ _ h

/-- Outside the bytes stored every byte is as it was. -/
theorem Memory.read_writeBytes_out (l : List Byte) (m : Memory) (a x : Nat) (h : x < a ∨ a + l.length ≤ x) :
    Memory.read (Memory.writeBytes m a l) x = Memory.read m x := by
  induction l generalizing m a with
  | nil => rfl
  | cons b l ih =>
    simp only [List.length_cons] at h
    rw [Memory.writeBytes, ih _ _ (by omega), Memory.read_write_ne _ _ (by omega)]

/-- Inside them the byte stored is read. -/
theorem Memory.read_writeBytes_in (l : List Byte) (m : Memory) (a i : Nat) (h : i < l.length) :
    Memory.read (Memory.writeBytes m a l) (a + i) = l[i] := by
  induction l generalizing m a i with
  | nil => simp at h
  | cons b l ih =>
    rw [Memory.writeBytes]
    cases i with
    | zero => rw [Memory.read_writeBytes_out _ _ _ _ (by omega)]; exact Memory.read_write_self ..
    | succ i =>
      have := ih (Memory.write m a b) (a + 1) i (by simpa using h)
      simpa [Nat.add_assoc, Nat.add_comm 1 i] using this

/-- Bytes written are the bytes read back. -/
theorem Memory.readBytes_writeBytes (bs : List Byte) (m : Memory) (a n : Nat) (hn : bs.length = n) :
    Memory.readBytes (Memory.writeBytes m a bs) a n = bs := by
  have key : ∀ (n b : Nat) (m : Memory), Memory.readBytes m b n = (List.range n).map (fun i => Memory.read m (b + i)) := by
    intro n
    induction n with
    | zero => intro b m; rfl
    | succ n ih =>
      intro b m
      rw [Memory.readBytes, ih, List.range_succ_eq_map, List.map_cons, List.map_map]
      simp [Function.comp_def, Nat.add_assoc, Nat.add_comm 1]
  subst hn
  rw [key]
  apply List.ext_getElem
  · simp
  · intro i h1 h2
    simpa [List.getD_eq_getElem?_getD, h2] using Memory.read_writeBytes_in bs m a i (by simpa using h2)

/-- A masked write leaves a byte that is absent, or outside, as it was. -/
theorem Memory.read_writeMasked_out (l : List (Option Byte)) (m : Memory) (a x : Nat)
    (h : x < a ∨ l.getD (x - a) none = none) : Memory.read (Memory.writeMasked m a l) x = Memory.read m x := by
  induction l generalizing m a with
  | nil => rfl
  | cons o l ih =>
    have hl : x < a + 1 ∨ l.getD (x - (a + 1)) none = none := by
      rcases h with h | h
      · left; omega
      · by_cases hx : x < a + 1
        · exact .inl hx
        · right
          obtain ⟨d, rfl⟩ : ∃ d, x = a + 1 + d := ⟨x - (a + 1), by omega⟩
          have e : a + 1 + d - a = d + 1 := by omega
          rw [e] at h
          simpa using h
    cases o with
    | none => rw [Memory.writeMasked]; exact ih _ _ hl
    | some b =>
      rw [Memory.writeMasked, ih _ _ hl]
      refine Memory.read_write_ne _ _ ?_
      rintro rfl
      rcases h with h | h
      · omega
      · simp at h

/-- A byte present is stored. -/
theorem Memory.read_writeMasked_in (l : List (Option Byte)) (m : Memory) (a i : Nat) (b : Byte)
    (h : l.getD i none = some b) : Memory.read (Memory.writeMasked m a l) (a + i) = b := by
  induction l generalizing m a i with
  | nil => simp at h
  | cons o l ih =>
    cases i with
    | zero =>
      simp only [List.getD_cons_zero] at h
      subst h
      rw [Memory.writeMasked, Memory.read_writeMasked_out _ _ _ _ (by left; omega)]
      exact Memory.read_write_self ..
    | succ i =>
      simp only [List.getD_cons_succ] at h
      cases o with
      | none =>
        have := ih m (a + 1) i h
        rw [Memory.writeMasked]; rwa [show a + (i + 1) = a + 1 + i by omega]
      | some c =>
        have := ih (Memory.write m a c) (a + 1) i h
        rw [Memory.writeMasked]; rwa [show a + (i + 1) = a + 1 + i by omega]

/-! ### The canonical form -/

/-- Every address of m is above a. -/
def Memory.above (a : Nat) (m : Memory) : Prop := ∀ c ∈ m, a < c.1

/-- The form by recursion on the list. -/
theorem Memory.wf_cons (c : Host.Cell) (m : Memory) :
    Memory.wf (c :: m) = true ↔ c.2 ≠ 0 ∧ Memory.above c.1 m ∧ Memory.wf m = true := by
  induction m generalizing c with
  | nil => simp [Memory.wf, Memory.rising, Memory.above]
  | cons d m ih =>
    have hd := ih d
    simp only [Memory.wf, Memory.rising, List.all_cons, Bool.and_eq_true, decide_eq_true_eq, Memory.above,
      List.mem_cons, forall_eq_or_imp] at hd ⊢
    constructor
    · rintro ⟨⟨h1, h2⟩, h3, h4, h5⟩
      have := hd.mp ⟨h2, h4, h5⟩
      exact ⟨h3, ⟨h1, fun c hc => Nat.lt_trans h1 (this.2.1 c hc)⟩, h2, h4, h5⟩
    · rintro ⟨h1, ⟨h2, _⟩, h4, h5, h6⟩
      exact ⟨⟨h2, h4⟩, h1, h5, h6⟩

theorem Memory.wf_nil : Memory.wf [] = true := rfl

theorem Memory.above_filter {a : Nat} {m : Memory} (p : Host.Cell → Bool) (h : Memory.above a m) :
    Memory.above a (m.filter p) := fun c hc => h c (List.mem_filter.mp hc).1

/-- Taking entries out keeps the form. -/
theorem Memory.wf_filter (p : Host.Cell → Bool) {m : Memory} (h : Memory.wf m = true) : Memory.wf (m.filter p) = true := by
  induction m with
  | nil => rfl
  | cons c m ih =>
    obtain ⟨h1, h2, h3⟩ := (Memory.wf_cons c m).mp h
    rw [List.filter_cons]
    split
    · exact (Memory.wf_cons _ _).mpr ⟨h1, Memory.above_filter p h2, ih h3⟩
    · exact ih h3

theorem Memory.above_insert {a k : Nat} {m : Memory} (v : Byte) (h : Memory.above a m) (hk : a < k) :
    Memory.above a (SMap.insert m k v) := by
  induction m with
  | nil =>
    intro c hc
    simp only [SMap.insert, List.mem_singleton] at hc
    simpa [hc] using hk
  | cons d m ih =>
    obtain ⟨k', v'⟩ := d
    have hd : a < k' := h (k', v') (List.mem_cons_self ..)
    have hm : Memory.above a m := fun c hc => h c (List.mem_cons_of_mem _ hc)
    unfold SMap.insert
    split
    · intro c hc
      rcases List.mem_cons.mp hc with rfl | hc
      · exact hk
      · exact h c hc
    · split
      · intro c hc
        rcases List.mem_cons.mp hc with rfl | hc
        · exact hk
        · exact hm c hc
      · intro c hc
        rcases List.mem_cons.mp hc with rfl | hc
        · exact hd
        · exact ih hm c hc

theorem Memory.wf_insert {m : Memory} (k : Nat) {v : Byte} (h : Memory.wf m = true) (hv : v ≠ 0) :
    Memory.wf (SMap.insert m k v) = true := by
  induction m with
  | nil => simpa [SMap.insert, Memory.wf, Memory.rising] using hv
  | cons d m ih =>
    obtain ⟨k', v'⟩ := d
    obtain ⟨h1, h2, h3⟩ := (Memory.wf_cons _ m).mp h
    unfold SMap.insert
    split
    · next hk =>
      refine (Memory.wf_cons _ _).mpr ⟨hv, ?_, h⟩
      intro c hc
      rcases List.mem_cons.mp hc with rfl | hc
      · exact hk
      · exact Nat.lt_trans hk (h2 c hc)
    · split
      · next hk => subst hk; exact (Memory.wf_cons _ _).mpr ⟨hv, h2, h3⟩
      · next hk hk2 => exact (Memory.wf_cons _ _).mpr ⟨h1, Memory.above_insert v h2 (by simp only; omega), ih h3⟩

theorem Memory.wf_write {m : Memory} (a : Nat) (b : Byte) (h : Memory.wf m = true) : Memory.wf (Memory.write m a b) = true := by
  unfold Memory.write SMap.set
  split
  · exact Memory.wf_filter _ h
  · next hb => exact Memory.wf_insert a h hb

theorem Memory.wf_writeBytes (l : List Byte) {m : Memory} (a : Nat) (h : Memory.wf m = true) :
    Memory.wf (Memory.writeBytes m a l) = true := by
  induction l generalizing m a with
  | nil => exact h
  | cons b l ih => exact ih _ (Memory.wf_write a b h)

theorem Memory.wf_writeMasked (l : List (Option Byte)) {m : Memory} (a : Nat) (h : Memory.wf m = true) :
    Memory.wf (Memory.writeMasked m a l) = true := by
  induction l generalizing m a with
  | nil => exact h
  | cons o l ih =>
    cases o with
    | none => exact ih _ h
    | some b => exact ih _ (Memory.wf_write a b h)

theorem Memory.wf_clear {m : Memory} (a n : Nat) (h : Memory.wf m = true) : Memory.wf (Memory.clear m a n) = true :=
  Memory.wf_filter _ h

theorem wf_copyBytes (src : Memory) {dst : Memory} (from_ dest n : Nat) (h : Memory.wf dst = true) :
    Memory.wf (copyBytes src dst from_ dest n) = true := by
  unfold copyBytes
  generalize src.filter _ = l
  have h0 := Memory.wf_clear dest n h
  generalize Memory.clear dst dest n = m at h0
  induction l generalizing m with
  | nil => exact h0
  | cons c l ih => exact ih _ (Memory.wf_write _ _ h0)

theorem State.reset_memOk : State.reset.memOk := ⟨rfl, rfl, rfl⟩

end Sys2Proof.Machine
end

