-- ==== Sys2Proof/Laws/Ready.lean ====
section
/-! SUPPORT. What readiness (R80, R84) and the drive of a field output (R439) are computed from. -/

namespace Sys2Proof.Machine

/-- s and t agree in what readiness is computed from. -/
structure SameReady (s t : State) : Prop where
  regs : t.regs = s.regs
  board : t.board = s.board
  phase : t.seq.phase = s.seq.phase
  ps : t.seq.permitShort = s.seq.permitShort
  ck : t.seq.checked = s.seq.checked
  coll : t.coll = s.coll

/-- Readiness is a function of the register fields, the board, the start and the units that passed or failed. -/
theorem isReady_congr {s t : State} (h : SameReady s t) : t.isReady = s.isReady := by
  obtain ⟨r, b, p, q, c, co⟩ := h
  have hrd : ∀ a f i, t.rd a f i = s.rd a f i := by intros; simp [State.rd, r]
  have h1 : t.inReset = s.inReset := by simp [State.inReset, b, p]
  have h2 : t.unpowered = s.unpowered := by simp [State.unpowered, b]
  have hrdb : ∀ a f i, t.rdb a f i = s.rdb a f i := by intros; simp [State.rdb, hrd]
  have h3 : t.requiredCtxs = s.requiredCtxs := by
    unfold State.requiredCtxs; congr 1; funext c; simp [State.required, hrd]
  have h4 : t.primEn = s.primEn := by funext c; simp [State.primEn, hrdb]
  have h5 : t.primCam = s.primCam := by funext c; simp [State.primCam, hrd]
  have h6 : t.camLtg = s.camLtg := by funext c; simp [State.camLtg, hrd]
  have h7 : t.ctxGroups = s.ctxGroups := by funext c; simp [State.ctxGroups, h4, State.actMap, hrd, hrdb]
  have h8 : t.ctxRuns = s.ctxRuns := by
    funext c
    have hc : t.ctxState c = s.ctxState c := hrd _ _ _
    unfold State.ctxRuns
    rw [hc]
  have h9 : t.inFault = s.inFault := by funext c; simp [State.inFault, hrd]
  have h10 : t.anvFree = s.anvFree := by simp [State.anvFree, State.anvFenced, hrd]
  have h11 : t.tngFree = s.tngFree := by simp [State.tngFree, State.tngFenced, hrd]
  have h12 : t.diagActs = s.diagActs := by funext n; simp [State.diagActs, hrd, hrdb, h3, h7]
  have h13 : t.ctxMissing = s.ctxMissing := by funext n; simp [State.ctxMissing, hrd, h8, h4, h5, h6]
  have h14 : t.ctxEncoders = s.ctxEncoders := by funext n; simp [State.ctxEncoders, hrd, h4, h5, h6, h7]
  have h15 : t.firesLocally = s.firesLocally := by funext n; simp [State.firesLocally, hrd, h7]
  have h16 : t.firesRemotely = s.firesRemotely := by funext n; simp [State.firesRemotely, hrd, h7]
  have h17 : t.timeInvalid = s.timeInvalid := by simp [State.timeInvalid, hrdb]
  have h18 : t.instRequired = s.instRequired := by funext n; simp [State.instRequired, hrd, h3, h4, h5]
  have h19 : t.preStart = s.preStart := by simp [State.preStart, p]
  simp [State.isReady, State.mStart, State.mCtx, State.mEnc, State.mRtu, State.mField, State.mNet, State.mCheck, State.mFault,
    hrd, hrdb, h1, h2, h3, p, q, c, co, h7, h9, h10, h11, h12, h13, h14, h15, h16, h17, h18, h19, State.noPath]

/-- What a field output is to be is a function of the register fields, the board, the start, the RTU and the demands. -/
theorem driveOn_congr {s t : State} (n) (hr : t.regs = s.regs) (hb : t.board = s.board) (hs : t.seq = s.seq) (hrtu : t.rtu = s.rtu)
   (hf : t.field.sideOff = s.field.sideOff) (hd : (t.chan n).demand = (s.chan n).demand) (hp : (t.chan n).prot = (s.chan n).prot) :
   t.driveOn n = s.driveOn n := by
  have hrd : ∀ a f i, t.rd a f i = s.rd a f i := by intros; simp [State.rd, hr]
  have hrdb : ∀ a f i, t.rdb a f i = s.rdb a f i := by intros; simp [State.rdb, hrd]
  simp [State.driveOn, State.demand, State.inReset, State.unpowered, State.works, hrd, hrdb, hb, hs, hrtu, hf, hd, hp]

end Sys2Proof.Machine
end

