-- ==== Sys2Proof/Laws/Traffic.lean ====
section
/-! SUPPORT. What reading and writing device memory for an entry of the bandwidth ledger can do: pages compared as `PageFrame` says,
and memory left as it was by every charge and by a read that meets no uncorrectable word. -/

namespace Sys2Proof.Machine

/-! ### Page frames compose -/

theorem PageFrame.refl (s : State) (N : List Nat) (P : List Part) : PageFrame s s N P :=
  ⟨fun _ _ _ _ => rfl, fun _ _ _ => rfl, fun p _ => p.same_refl s⟩

/-- A page frame goes on through an update whose own it covers. -/
theorem PageFrame.next {s t u : State} {N M : List Nat} {P Q : List Part} (h : PageFrame s t N P) (k : PageFrame t u M Q)
    (hN : M ⊆ N) (hP : Q ⊆ P) : PageFrame s u N P where
  regs b f i hn := by rw [k.regs b f i (fun m => hn (hN m)), h.regs b f i hn]
  ctrs a hn hs := by rw [k.ctrs a (fun m => hn (hN m)) hs, h.ctrs a hn hs]
  parts p hn := p.same_trans (h.parts p hn) (k.parts p (fun m => hn (hP m)))

/-- A frame is one of the pages that its fields and counters lie in. -/
theorem Frame.toPage {s t : State} {R C : List Nat} {P : List Part} (h : Frame s t R C P) (N : List Nat)
    (hR : ∀ r ∈ R, r / 131072 ∈ N) (hC : ∀ c ∈ C, c / 4096 ∈ N) : PageFrame s t N P :=
  ⟨fun b f i hn => h.regs b f i (fun m => hn (hR _ m)), fun a hn => h.ctrs a (fun m => hn (hC _ m)), h.parts⟩

/-! ### Memory -/

@[simp] theorem produce_mem (s : State) (src : Nat) (l : List EventRec) : (s.produce src l).mem = s.mem := by
  unfold State.produce State.wakeN
  dsimp only
  repeat' split
  all_goals rfl

@[simp] theorem raise_mem (s : State) (src typ : Nat) (pl : List Byte) : (s.raise src typ pl).mem = s.mem := produce_mem _ _ _

@[simp] theorem raiseFree_mem (s : State) (src : Nat) (pl : List Byte) : (s.raiseFree src pl).mem = s.mem := raise_mem _ _ _ _

@[simp] theorem charge_mem (s : State) (i k n : Nat) : (s.charge i k n).mem = s.mem := by
  unfold State.charge State.blwTake
  dsimp only
  repeat' split
  all_goals first | rfl | exact raiseFree_mem _ _ _

theorem charge_foldl_mem (i o : Nat) (l : List (Nat × Nat)) (s : State) :
    (l.foldl (fun s p => (s.charge i p.1 p.2).bump (P.drc p.1 + o) (unitsOf p.2)) s).mem = s.mem := by
  induction l generalizing s with
  | nil => rfl
  | cons p l ih => rw [List.foldl_cons, ih]; exact charge_mem _ _ _ _

@[simp] theorem moved_mem (s : State) (i a n o : Nat) : (s.moved i a n o).mem = s.mem := charge_foldl_mem _ _ _ _

/-- Charging traffic meets no uncorrectable word and makes none. -/
theorem charge_poison (s : State) (i k n : Nat) : (s.charge i k n).msys.poison = s.msys.poison := by
  have hp : ∀ (t : State) (src : Nat) (l : List EventRec), (t.produce src l).msys = t.msys := by
    intro t src l
    unfold State.produce State.wakeN
    dsimp only
    repeat' split
    all_goals rfl
  unfold State.charge State.blwTake
  dsimp only
  repeat' split
  all_goals first | rfl | (rw [State.raiseFree, State.raise, hp]; rfl)

theorem moved_poison (s : State) (i a n o : Nat) : (s.moved i a n o).msys.poison = s.msys.poison := by
  unfold State.moved
  generalize stackParts a n = l
  induction l generalizing s with
  | nil => rfl
  | cons p l ih => rw [List.foldl_cons, ih]; exact charge_poison _ _ _ _

/-- A read that meets no uncorrectable word: it is charged where it lies in DRAM, and fails only at a stack in its fault state. -/
theorem fetch_clean {s : State} {a n : Nat} (i : Nat) (h : s.badWords a n = []) :
    s.fetch i a n = if inDram a = true then (s.moved i a n 0x920, (s.moved i a n 0x920).stackDead a) else (s, false) := by
  have hb : (s.moved i a n 0x920).badWords a n = [] := by rw [State.badWords, moved_poison]; exact h
  unfold State.fetch
  cases hd : inDram a
  · simp
  · cases hs : (s.moved i a n 0x920).stackDead a <;> simp [hb, hs]

/-- Such a read leaves memory as it was. -/
theorem fetch_clean_mem {s : State} {a n : Nat} (i : Nat) (h : s.badWords a n = []) : (s.fetch i a n).1.mem = s.mem := by
  rw [fetch_clean i h]
  split
  · exact moved_mem _ _ _ _ _
  · rfl

theorem fetch_clean_load {s : State} {a n : Nat} (i : Nat) (h : s.badWords a n = []) (b m : Nat) :
    (s.fetch i a n).1.load b m = s.load b m := by rw [State.load, State.load, fetch_clean_mem i h]

end Sys2Proof.Machine
end

