-- ==== Sys2Proof/Tests/Slice0.lean ====
section
/-! SUPPORT. The model's own tests: ill-formed commands are refused, a few values that the spec or a named standard gives, and, for every
statement of the obligations that has hypotheses, witnesses: concrete states and operands that meet the hypotheses of its clauses together
(`witness_<statement or part of it>`, one conjunct a clause or a group of clauses that one state meets). -/

section

set_option Elab.async false

open Sys2Proof Sys2Proof.Machine

/-! ### Ill-formed commands -/

def wordOf (op w2 : Nat) : Cmd := { w0 := BitVec.ofNat 32 op, w1 := 0, w2 := BitVec.ofNat 32 w2, w3 := 0 }

/-- One ill-formed term for each check of WellFormed. -/
def illFormed : List Instr := [
  .claim 0x48 0, .release 0x900080 0, .nop 0 0 0 (wordOf 1 0), .load 0 0 0 (wordOf 0 0), .pass 0 0 0 (wordOf 1 0) false,
  .vec 0 0 0 (wordOf 4 0), .pool 0 0 0 (wordOf 3 0), .dma 0 0 0 (wordOf 6 0), .barrier 0 0 0 (wordOf 5 0), .rwait 0 0 0 (wordOf 8 0) (),
  .satbr 0 0 0 (wordOf 7 0), .stepEnd 0 0 0 0 (wordOf 14 0), .crop 0 0 0 (wordOf 0x21 0), .expand 0 0 0 (wordOf 0x20 0),
  .tpass 0 0 0 (wordOf 0x23 0), .softmax 0 0 0 (wordOf 0x22 0), .verdictFinal 0 0 0 (wordOf 0x24 1),
  .verdictEarlyExit 0 0 0 0 (wordOf 0x24 0), .boxes 0 0 (wordOf 0x24 0), .broadcast 0 (List.replicate 1409 0), .bindCam ⟨0, 0⟩ 0 [] 0,
  .attest ⟨0, 0⟩ [] 0, .ownerKey ⟨0, 0⟩ 0 0 0 []]

theorem smoke_ill_formed : illFormed.all (fun c => !c.wf) = true := by decide +kernel

/-- exec refuses a command as ill-formed. -/
def isRefused (o : Host.Outcome State Fault Refusal) : Bool :=
  match o with
  | .refused r => r = .illFormed
  | _ => false

theorem smoke_refused : illFormed.all (fun c => isRefused (exec c State.reset)) = true := by decide +kernel

theorem smoke_well_formed : (Instr.claim 0x900044 0x40010000).wf = true ∧ (Instr.nop 0 0 0 (wordOf 0x30 0)).wf = true ∧
    (Instr.load 0 0 0 (wordOf 1 0)).wf = true ∧ (Instr.boxes 0 0 (wordOf 0x25 0)).wf = true := by decide +kernel

/-! ### Values from the spec and from the standards it names -/

/-- FIPS 180-4's digest of "abc": its first four bytes and its last four. -/
theorem test_sha512_abc : (sha512 [0x61, 0x62, 0x63]).take 4 = [0xdd, 0xaf, 0x35, 0xa1] ∧
    (sha512 [0x61, 0x62, 0x63]).drop 60 = [0xa5, 0x4c, 0xa4, 0x9f] := by decide +kernel

/-- The first n primes, as FIPS 180-4 counts them. -/
def primes (n : Nat) : List Nat :=
  ((List.range 410).filter (fun p => decide (2 ≤ p) && (List.range 21).all (fun d => d < 2 || d = p || p % d ≠ 0))).take n

/-- SHA-512's constants are the first 64 bits of the fractions of the square and cube roots of primes. -/
theorem test_sha_constants :
    ((primes 8).zip shaH0).all (fun x => let r := x.1.sqrt * 2 ^ 64 + x.2; decide (r ^ 2 ≤ x.1 * 2 ^ 128 ∧ x.1 * 2 ^ 128 < (r + 1) ^ 2)) = true ∧
    ((primes 80).zip shaK).all (fun x => let r := ((List.range 8).countP (fun n => (n + 1) ^ 3 ≤ x.1)) * 2 ^ 64 + x.2
      decide (r ^ 3 ≤ x.1 * 2 ^ 192 ∧ x.1 * 2 ^ 192 < (r + 1) ^ 3)) = true ∧ shaK.length = 80 := by decide +kernel

/-- RFC 8032, section 7.1, test 1: the empty message verifies under its key. -/
theorem test_ed25519_rfc8032 : edVerify
    (be 32 0xd75a980182b10ab7d54bfed3c964073a0ee172f3daa62325af021a68f707511a) []
    (be 64 0xe5564300c360ac729086e2cc806e828a84877f1eb8e5d974d873e065224901555fb8821590a33bacc61e39701cf9b46bd25bf5f0595bbe24655141438e7a100b)
    = true := by decide +kernel

/-- The check value of the CRC that R327 names over the bytes of "123456789". -/
theorem test_crc64 : crcFinal ([0x31, 0x32, 0x33, 0x34, 0x35, 0x36, 0x37, 0x38, 0x39].foldl crcByte crcInit) = 0x62ec59e3f1a4f00a := by
  decide +kernel

/-- The example conversions under R177: a tie goes away from zero, 500.0 saturates and is counted. -/
theorem test_conversions : fconv fFP32 fE4M3 0x3f880000 = (0x39, false) ∧ fconv fFP32 fE4M3 0x43960000 = (0x79, false) ∧
    fconv fFP32 fE4M3 0x43fa0000 = (0x7e, true) ∧ fconv fFP32 fBF16 0x3f808000 = (0x3f81, false) ∧
    (fadd 0x7f800000 0).1 = 0x7f7fffff := by decide +kernel

/-- R174, R176: opposite numbers sum to +0, a nonzero value over zero is the largest finite value, zero over zero the canonical NaN. -/
theorem test_fp32_corners : (fadd 0x3f800000 0xbf800000).1 = 0 ∧ (fdiv 0xbf800000 0).1 = 0xff7fffff ∧ (fdiv 0 0).1 = 0x7fc00000 ∧
    (fdiv 0x3f800000 0x40400000).1 = 0x3eaaaaab := by decide +kernel

/-- The integer example under R187: the requantised accumulator and the tie. -/
theorem test_rshift : rshift (40321 * 2034096511) 39 = 149 ∧ rshift (-3 * 2 ^ 30) 31 = -2 := by decide +kernel

/-- The parameter set of the line pipeline's example under R377: column 1 defective, black 120, the flat gain of column 1 as given. -/
def copperSet (flat : Nat) : ParamSet :=
  { (default : ParamSet) with enables := 0x7f, g := [0x1100], defects := [(1, 1)], black := [120, 120, 120], flat := [0x4000, flat, 0x4000] }

/-- That example: the defective column's value is clipped in stage 3 and again in stage 5; with a flat gain of 1.0 it is not. -/
theorem test_line_pipeline :
    (stages123 (some (copperSet 0x5000)) 3 1 12 [3721, 3000, 3718])[1]? = some (4095, true) ∧
    (stages56 (some (copperSet 0x5000)) 12 16 0 (4095, true)).1 = 4095 ∧
    (stages123 (some (copperSet 0x4000)) 3 1 12 [3721, 3000, 3718])[1]? = some (3600, false) ∧
    (stages56 (some (copperSet 0x4000)) 12 16 0 (3600, false)).1 = 3825 := by decide +kernel

/-- R59, R229: after reset every context is EMPTY, no camera is bound, no resource is claimed and all outputs are off. -/
theorem test_reset : (List.range 8).all (fun c => State.reset.ctxState c = 0) = true ∧ State.reset.camState 7 = 0 ∧
    State.reset.owner (chanRes 15) = 0 ∧ State.reset.outputsOff := by decide +kernel

/-- The command in front of the queue runs first, the other stays. -/
theorem test_step_front : step { State.reset with pending := [.quietPoint, .handoverTimeout] } =
    exec .quietPoint { State.reset with pending := [.handoverTimeout] } := rfl

/-! ### Witnesses -/

/-- A module whose cold start is over, with a little of everything listed. -/
def go : State := { State.reset with
  seq := { State.reset.seq with phase := .started, begun := 2047, ended := 2047, checked := List.range 36 },
  mem := [(0x100000, 3), (0x7fffffff, 9)], hostMem := [(5, 4), (0x10000, 2)], flash := [(3, 3)], cache := [(5, default)], snaps := [(4,4)], openCtrs := [(64, 3)], ctrs := [(0x800, 5), (0x10800, 2^64-1)] }

/-- The same later, with the PTP clock running. -/
def go2 : State := { go with ptp := { go.ptp with ns := 123456789012, running := true }, draws := 4, streams := [(3, { (default : Stream) with total := 4 })] }

/-- The state an outcome goes on with. -/
def after (o : Host.Outcome State Fault Refusal) : State :=
  match o with
  | .next t => t
  | _ => State.reset

/-! #### Witnesses: register pages, claims, BAR2 -/

namespace WitA

def bkd (s : State) : State := { s with seq := { s.seq with power := .banked } }
def fault (s : State) : State := ((s.wr 0x100000 Reg.BLK_STAT_state 3).wr 0x100000 Reg.BLK_ERR_cause 4)
def mis (s : State) : State := { s with parityBad := [0x100040] }
def lc (n : Nat) (s : State) : State := s.wr P.tmp Reg.TMP_LC_state n
def outp (s : State) : State := (s.wr P.fio Reg.FIO_CH_CFG_dir 1 0).wr P.fio Reg.FIO_CH_CFG_dir 1 1
def owned (c u : Nat) (s : State) : State := (outp s).setOwner (chanRes 0) c u
def lock (s : State) : State := s.wrb 0x100000 Reg.BLK_CTRL_cfg_lock true
def mis2 (s : State) : State := { s with parityBad := [0x900044] }
def chipOn (s : State) : State := (s.wrb P.chip Reg.BLK_CTRL_en true)
def inj (s : State) : State := { s with injectArmed := [0] }
def evt (s : State) : State := (s.wrb P.fio Reg.BLK_CTRL_evt_en true)
def late2 (s : State) : State := { s with snapWait := [0x401, 0x802, 0x900, 0xb00, 0x611] }
def disarmed (n : Nat) (s : State) : State := s.wr P.ltg Reg.LTG_STAT_state n 1
def bnd (s : State) : State := (s.wr (P.cfeC 0) Reg.CFE_CAM_STAT_state 2).wrb (P.drc 0) Reg.BLK_CTRL_en true
def mm (s : State) : State := {s with mem := [(5,5),(6,7)]}
def hst (s : State) : State := (((s.wr P.bank Reg.BANK_CTL_owner 3 192).wr P.bank Reg.BANK_CTL_pwr 2 192).wr P.bank Reg.BANK_CTL_owner 3 193).wr P.bank Reg.BANK_CTL_pwr 1 193
def dead (s : State) : State := s.wr (P.drc 0) Reg.BLK_STAT_state 3
def pois (s : State) : State := { s with msys := { s.msys with poison := [0] } }
def twin (s : State) : State := s.setCtx 2 { s.ctx 2 with billet := some { (default : Billet) with copy0 := 0, copy1 := 0x400000000, len := 0x1000 } }
def noBor (s : State) : State := (s.wrb P.blw Reg.BLW_CLS_BUD0_borrow false 5).wr P.blw Reg.BLW_CLS_BUD0_budget 6 5
def hand (s : State) : State := { (s.wrb P.bank Reg.BANK_CTL_pend true 192) with msys := { s.msys with handovers := [(192, 3)] } }

theorem witness_FaultClrLeavesTheFaultStateOrIsCounted :
  (∃ (s : State) (page : BitVec 14) (gone : Bool),
    let base : Nat := page.toNat * 4096
    let parity : Bool := s.parityBad.any fun a => decide (a / 4096 = page.toNat)
    s.deferred = [] ∧
    s.parityIdle ∧
    s.reaches (page.toNat * 4096 + 8) ∧
    (pageInfo page.toNat).isSome = true ∧
    (s.inFault base = false ∨ gone = true ∧ parity = false) ∧
    s.inFault base = true ∧
    gone = true ∧
    parity = false) ∧
  (∃ (s : State) (page : BitVec 14) (gone : Bool),
    let base : Nat := page.toNat * 4096
    let parity : Bool := s.parityBad.any fun a => decide (a / 4096 = page.toNat)
    s.deferred = [] ∧
    s.parityIdle ∧
    s.reaches (page.toNat * 4096 + 8) ∧
    (pageInfo page.toNat).isSome = true ∧
    s.inFault base = true ∧
    (gone = false ∨ parity = true)) ∧
  (∃ (s : State) (page : BitVec 14) (gone : Bool),
    let base : Nat := page.toNat * 4096
    let parity : Bool := s.parityBad.any fun a => decide (a / 4096 = page.toNat)
    s.deferred = [] ∧
    s.parityIdle ∧
    s.reaches (page.toNat * 4096 + 8) ∧
    (pageInfo page.toNat).isSome = true ∧
    s.inFault base = false ∧
    (s.inFault base = false ∨ gone = true ∧ parity = false)) := by
  refine ⟨?_, ?_, ?_⟩
  · exact ⟨fault go, 0x100#14, true, by decide +kernel⟩
  · exact ⟨fault go, 0x100#14, false, by decide +kernel⟩
  · exact ⟨go, 0x0#14, true, by decide +kernel⟩

theorem witness_ParityMismatchFaultsTheBlock :
  (∃ (s : State) (addr : Bar0Addr),
    let base : Nat := addr.toNat / 4096 * 4096
    s.deferred = [] ∧
    s.seq.power = ChipPower.active ∧
    s.host.pmeLatched = false ∧
    s.pageStopped addr.toNat = false ∧
    inConfig addr.toNat = true ∧
    (∀ (a : Nat), a ∈ s.parityBad → a / 4096 = addr.toNat / 4096 ∨ Option.all (fun p => !s.pageActive (a / 4096 * 4096) p.kind) (pageInfo (a / 4096)) = true) ∧
    (s.parityBad.contains addr.toNat = false → s.parityIdle) ∧
    engineOfPage (addr.toNat / 4096) = none ∧
    s.parityBad.contains addr.toNat = true ∧
    s.rd base Reg.BLK_ERR_cause = 0) ∧
  (∃ (s : State),
    s.deferred = [] ∧
    s.parityBad = [] ∧
    s.injectArmed = [0] ∧
    s.seq.power = ChipPower.active ∧
    s.host.pmeLatched = false ∧
    s.reaches 96 ∧
    s.works P.chip = true ∧
    s.rdb P.chip Reg.BLK_CTRL_en = true ∧
    s.rd P.chip Reg.BLK_PARITY_count = 0 ∧
    s.rd P.chip Reg.BLK_ERR_cause = 0) ∧
  (∃ (s : State) (addr : Bar0Addr) (e : Nat),
    s.deferred = [] ∧
    s.seq.power = ChipPower.active ∧
    s.host.pmeLatched = false ∧
    s.parityBad = [addr.toNat] ∧
    inConfig addr.toNat = true ∧
    engineOfPage (addr.toNat / 4096) = some e ∧
    s.rd (addr.toNat / 4096 * 4096) Reg.BLK_STAT_state < 3) ∧
  (∃ (s : State) (page : BitVec 14),
    s.deferred = [] ∧
    s.parityIdle ∧
    s.reaches (page.toNat * 4096 + 28) ∧
    (pageInfo page.toNat).isSome = true ∧
    s.rd P.tmp Reg.TMP_LC_state ≠ 1 ∧
    s.rd P.tmp Reg.TMP_LC_state ≠ 4) ∧
  (∃ (s : State) (page : BitVec 14) (n : Nat),
    s.deferred = [] ∧
    s.parityIdle ∧
    s.reaches (page.toNat * 4096 + 28) ∧
    (pageInfo page.toNat).isSome = true ∧
    (s.rd P.tmp Reg.TMP_LC_state = 1 ∨ s.rd P.tmp Reg.TMP_LC_state = 4) ∧
    n ≠ page.toNat) ∧
  (∃ (s : State) (addr : Bar0Addr),
    let base : Nat := addr.toNat / 4096 * 4096
    s.deferred = [] ∧
    s.seq.power = ChipPower.active ∧
    s.host.pmeLatched = false ∧
    s.pageStopped addr.toNat = false ∧
    inConfig addr.toNat = true ∧
    (∀ (a : Nat), a ∈ s.parityBad → a / 4096 = addr.toNat / 4096 ∨ Option.all (fun p => !s.pageActive (a / 4096 * 4096) p.kind) (pageInfo (a / 4096)) = true) ∧
    (s.parityBad.contains addr.toNat = false → s.parityIdle) ∧
    engineOfPage (addr.toNat / 4096) = none ∧
    s.parityBad.contains addr.toNat = true ∧
    s.rd base Reg.BLK_ERR_cause ≠ 0) ∧
  (∃ (s : State) (addr : Bar0Addr),
    s.deferred = [] ∧
    s.seq.power = ChipPower.active ∧
    s.host.pmeLatched = false ∧
    s.pageStopped addr.toNat = false ∧
    inConfig addr.toNat = true ∧
    (∀ (a : Nat), a ∈ s.parityBad → a / 4096 = addr.toNat / 4096 ∨ Option.all (fun p => !s.pageActive (a / 4096 * 4096) p.kind) (pageInfo (a / 4096)) = true) ∧
    (s.parityBad.contains addr.toNat = false → s.parityIdle) ∧
    engineOfPage (addr.toNat / 4096) = none ∧
    s.parityBad.contains addr.toNat = false) := by
  refine ⟨?_, ?_, ?_, ?_, ?_, ?_, ?_⟩
  · exact ⟨mis2 (evt go), 0x900044#26, by decide +kernel⟩
  · exact ⟨inj (chipOn go), by decide +kernel⟩
  · exact ⟨mis go, 0x100040#26, 0, by decide +kernel⟩
  · exact ⟨go, 0x0#14, by decide +kernel⟩
  · exact ⟨lc 1 go, 0x0#14, 1, by decide +kernel⟩
  · exact ⟨mis2 ((evt go).wr P.fio Reg.BLK_ERR_cause 4), 0x900044#26, by decide +kernel⟩
  · exact ⟨go, 0x60#26, by decide +kernel⟩

theorem witness_CaptureCopiesEveryCounterOfThePage :
  (∃ (s : State) (page : BitVec 14) (a : Nat),
    s.atRest ∧
    s.reaches (page.toNat * 4096 + 24) ∧
    page ≠ 0 ∧
    (pageInfo page.toNat).isSome = true ∧
    (¬(page.toNat * 4096 + 2048 ≤ a ∧ a < page.toNat * 4096 + 3072))) ∧
  (∃ (s : State) (page : BitVec 14),
    s.atRest ∧
    (¬page.toNat ∈ s.snapWait ∨ s.clockStopped (page.toNat * 4096) = true)) ∧
  (∃ (s : State) (c : Instr),
    s.atRest ∧
    s.reaches 24 ∧
    (c = Instr.chipSnap false ∨ c = Instr.blkSnap 0 false)) ∧
  (∃ (s : State) (page : BitVec 14),
    s.atRest ∧
    page.toNat ∈ s.snapWait ∧
    s.clockStopped (page.toNat * 4096) = false) ∧
  (∃ (s : State) (c : Instr),
    s.atRest ∧
    s.reaches 24 ∧
    (c = Instr.chipSnap true ∨ c = Instr.blkSnap 0 true)) := by
  refine ⟨?_, ?_, ?_, ?_, ?_⟩
  · exact ⟨go, 0x1#14, 0, by decide +kernel⟩
  · exact ⟨go, 0x1#14, by decide +kernel⟩
  · exact ⟨go, Instr.chipSnap false, by decide +kernel⟩
  · exact ⟨late2 go, 0x802#14, by decide +kernel⟩
  · exact ⟨go, Instr.chipSnap true, by decide +kernel⟩

theorem witness_ReadsReturnTheWordOrZero :
  (∃ (s : State) (a : Bar0Addr),
    let o : Nat := a.toNat % 4096
    let low : Prop := 2048 ≤ o ∧ o < 3072 ∧ o % 8 = 0
    s.hostReach = true ∧
    s.pageStopped a.toNat = false ∧
    s.atRest ∧
    (¬low) ∧
    o % 4 = 0 ∧
    a.toNat ≠ P.ptp + 64) ∧
  (∃ (s : State) (a : Bar0Addr) (isRead : Bool),
    s.pageStopped a.toNat = true ∧
    s.atRest ∧
    isRead = true) ∧
  (∃ (s : State) (a : Bar0Addr),
    let o : Nat := a.toNat % 4096
    let low : Prop := 2048 ≤ o ∧ o < 3072 ∧ o % 8 = 0
    let l : Option (Nat × Nat) := s.host.upperLatch.find? (a.toNat / 4096)
    s.hostReach = true ∧
    s.pageStopped a.toNat = false ∧
    s.atRest ∧
    low ∧
    (pageInfo (a.toNat / 4096)).isSome = true ∧
    Option.all (fun x => decide (x.fst ≠ a.toNat)) l = true) ∧
  (∃ (s : State) (a : Bar0Addr) (isRead : Bool),
    s.pageStopped a.toNat = true ∧
    s.atRest ∧
    isRead = false) := by
  refine ⟨?_, ?_, ?_, ?_⟩
  · exact ⟨go, 0x60#26, by decide +kernel⟩
  · exact ⟨bkd go, 0x60#26, true, by decide +kernel⟩
  · exact ⟨go, 0x100800#26, by decide +kernel⟩
  · exact ⟨bkd go, 0x60#26, false, by decide +kernel⟩

theorem witness_WritesThatDoNotReachChangeNothing :
  (∃ (s : State) (a : Bar0Addr) (v : Word) (c : Instr),
    s.atRest ∧
    (c = Instr.registerWrite a v Requester.driver ∨ c = Instr.registerWrite a v Requester.firmware ∨ isClaimAddr a.toNat = true ∧ (c = Instr.claim a v ∨ c = Instr.release a v)) ∧
    s.hostReach = true ∧
    s.pageStopped a.toNat = true) ∧
  (∃ (s : State) (a : Bar0Addr) (v : Word) (c : Instr),
    let base : Nat := a.toNat / 4096 * 4096
    s.atRest ∧
    (c = Instr.registerWrite a v Requester.driver ∨ c = Instr.registerWrite a v Requester.firmware ∨ isClaimAddr a.toNat = true ∧ (c = Instr.claim a v ∨ c = Instr.release a v)) ∧
    s.hostReach = true ∧
    s.pageStopped a.toNat = false ∧
    (s.underTest base = true ∨ (inConfig a.toNat && s.rdb base Reg.BLK_CTRL_cfg_lock) = true)) ∧
  (∃ (s : State) (a : Bar0Addr) (v : Word) (c : Instr),
    s.atRest ∧
    (c = Instr.registerWrite a v Requester.driver ∨ c = Instr.registerWrite a v Requester.firmware ∨ isClaimAddr a.toNat = true ∧ (c = Instr.claim a v ∨ c = Instr.release a v)) ∧
    s.hostReach = false) := by
  refine ⟨?_, ?_, ?_⟩
  · exact ⟨bkd go, 0x100040#26, 0x5#32, Instr.registerWrite 0x100040#26 0x5#32 (Requester.driver), by decide +kernel⟩
  · exact ⟨lock go, 0x100040#26, 0x5#32, Instr.registerWrite 0x100040#26 0x5#32 (Requester.driver), by decide +kernel⟩
  · exact ⟨{ go with board := { go.board with powerGood := false } }, 0x900040#26, 0x5#32, Instr.claim 0x900040#26 0x5#32, by decide +kernel⟩

theorem witness_ClaimTakesAFreeResourceAndNoOther :
  (∃ (s : State) (a : Bar0Addr) (v : Word) (r : Res),
    let cls : Nat := v.toNat / 2 ^ 16 % 8
    let allowed : Bool := match r.kind with
    | ResKind.chan => decide (cls = 4) || s.rdb P.fio Reg.FIO_CH_CFG_dir r.idx && (decide (cls = 1) || decide (cls = 2) || decide (cls = 3))
    | ResKind.slot => decide (cls = 2) || decide (cls = 4)
    | ResKind.path => decide (cls = 3) || decide (cls = 4)
    | ResKind.timer => decide (cls = 3) || decide (cls = 4)
    s.calm ∧
    s.reaches a.toNat ∧
    resAt a.toNat = some r ∧
    v.toNat / 2 ^ 30 = 1 ∧
    (allowed = false ∨ s.rd r.base r.ownerF r.idx ≠ 0)) ∧
  (∃ (s : State) (a : Bar0Addr) (v : Word) (r : Res),
    let cls : Nat := v.toNat / 2 ^ 16 % 8
    let allowed : Bool := match r.kind with
    | ResKind.chan => decide (cls = 4) || s.rdb P.fio Reg.FIO_CH_CFG_dir r.idx && (decide (cls = 1) || decide (cls = 2) || decide (cls = 3))
    | ResKind.slot => decide (cls = 2) || decide (cls = 4)
    | ResKind.path => decide (cls = 3) || decide (cls = 4)
    | ResKind.timer => decide (cls = 3) || decide (cls = 4)
    s.calm ∧
    s.reaches a.toNat ∧
    resAt a.toNat = some r ∧
    v.toNat / 2 ^ 30 = 1 ∧
    allowed = true ∧
    s.rd r.base r.ownerF r.idx = 0) := by
  refine ⟨?_, ?_⟩
  · exact ⟨go, 0x900040#26, 0x40010000#32, { kind := ResKind.chan, base := 9437184, idx := 0 }, by decide +kernel⟩
  · exact ⟨go, 0x900040#26, 0x40040000#32, { kind := ResKind.chan, base := 9437184, idx := 0 }, by decide +kernel⟩

theorem witness_ReleaseFreesOnlyForTheOwner :
  (∃ (s : State) (a : Bar0Addr) (v : Word) (r : Res),
    let cls : Nat := v.toNat / 2 ^ 16 % 8
    let unit : Nat := v.toNat / 2 ^ 20 % 256
    let owner : Nat := s.rd r.base r.ownerF r.idx
    let mine : Bool := decide (owner = cls) && decide (s.rd r.base r.unitF r.idx = unit) && decide (owner ≠ 0)
    let waits : Nat × RtuEntry → Bool := fun p => decide (p.snd.group = s.rd r.base r.unitF r.idx) && decide (p.snd.state = 1)
    let busy : Prop := r.kind = ResKind.chan ∧ (owner = 2 ∧ ((∃ p, p ∈ s.rtu.entries ∧ waits p = true ∧ r.idx ∈ s.entryChans p.snd) ∨ s.rtu.pulses.get r.idx [] ≠ []) ∨ owner = 3 ∧ (s.chan r.idx).demand = true) ∨ r.kind = ResKind.slot ∧ (2 ≤ s.rd r.base Reg.LSLOT_CTRL_state r.idx ∨ owner = 2 ∧ ∃ p, p ∈ s.rtu.entries ∧ waits p = true)
    s.calm ∧
    s.reaches a.toNat ∧
    resAt a.toNat = some r ∧
    v.toNat / 2 ^ 30 = 2 ∧
    (mine = false ∨ busy)) ∧
  (∃ (s : State) (a : Bar0Addr) (v : Word) (r : Res),
    let cls : Nat := v.toNat / 2 ^ 16 % 8
    let unit : Nat := v.toNat / 2 ^ 20 % 256
    let owner : Nat := s.rd r.base r.ownerF r.idx
    let mine : Bool := decide (owner = cls) && decide (s.rd r.base r.unitF r.idx = unit) && decide (owner ≠ 0)
    let waits : Nat × RtuEntry → Bool := fun p => decide (p.snd.group = s.rd r.base r.unitF r.idx) && decide (p.snd.state = 1)
    let busy : Prop := r.kind = ResKind.chan ∧ (owner = 2 ∧ ((∃ p, p ∈ s.rtu.entries ∧ waits p = true ∧ r.idx ∈ s.entryChans p.snd) ∨ s.rtu.pulses.get r.idx [] ≠ []) ∨ owner = 3 ∧ (s.chan r.idx).demand = true) ∨ r.kind = ResKind.slot ∧ (2 ≤ s.rd r.base Reg.LSLOT_CTRL_state r.idx ∨ owner = 2 ∧ ∃ p, p ∈ s.rtu.entries ∧ waits p = true)
    s.calm ∧
    s.reaches a.toNat ∧
    resAt a.toNat = some r ∧
    v.toNat / 2 ^ 30 = 2 ∧
    mine = true ∧
    (¬busy)) := by
  refine ⟨?_, ?_⟩
  · exact ⟨go, 0x900040#26, 0x80040000#32, { kind := ResKind.chan, base := 9437184, idx := 0 }, by decide +kernel⟩
  · exact ⟨owned 4 0 go, 0x900040#26, 0x80040000#32, { kind := ResKind.chan, base := 9437184, idx := 0 }, by decide +kernel⟩

theorem witness_RegisterWriteFollowsTheAccessCodes :
  (∃ (s : State) (a : Bar0Addr),
    let p : PageInfo := (pageInfo (a.toNat / 4096)).get!
    let l : List (Fld × Nat) := fieldsAt p.kind (a.toNat % 4096)
    let fi : Fld × Nat := (List.drop 0 l).head!
    s.atRest ∧
    s.reaches a.toNat ∧
    64 ≤ a.toNat % 4096 ∧
    a.toNat % 4096 < 2048 ∧
    pageInfo (a.toNat / 4096) = some p ∧
    (p.kind = PKind.clk ∨ p.kind = PKind.pwr ∨ p.kind = PKind.anv2 ∨ p.kind = PKind.drc ∨ p.kind = PKind.noc ∨ p.kind = PKind.replay ∨ p.kind = PKind.lplI ∨ p.kind = PKind.pcie ∨ p.kind = PKind.rtuE ∨ p.kind = PKind.schJ ∨ p.kind = PKind.qch) ∧
    l ≠ [] ∧
    fi.fst.acc = Acc.rw ∧
    s.heldBack a.toNat = false) ∧
  (∃ (s : State),
    s.atRest ∧
    s.reaches 72) ∧
  (∃ (s : State) (i : Nat),
    s.atRest ∧
    s.reaches 96 ∧
    s.rd P.chip Reg.CHIP_WAKE_latch < 2 ^ 10 ∧
    i < 10) ∧
  (∃ (s : State) (l : Fin 4),
    s.atRest ∧
    s.reaches (P.ltg + 64 + 64 * l.val) ∧
    (s.rd P.ltg Reg.LTG_STAT_state l.val = 0 ∨ s.works P.ltg = false)) ∧
  (∃ (s : State) (l : Fin 4),
    s.atRest ∧
    s.reaches (P.ltg + 64 + 64 * l.val) ∧
    s.rd P.ltg Reg.LTG_STAT_state l.val ≠ 0 ∧
    s.works P.ltg = true) ∧
  (∃ (s : State) (a : Bar0Addr),
    s.atRest ∧
    s.reaches a.toNat ∧
    pageInfo (a.toNat / 4096) = none) ∧
  (∃ (s : State) (a : Bar0Addr),
    let p : PageInfo := (pageInfo (a.toNat / 4096)).get!
    let l : List (Fld × Nat) := fieldsAt p.kind (a.toNat % 4096)
    s.atRest ∧
    s.reaches a.toNat ∧
    64 ≤ a.toNat % 4096 ∧
    a.toNat % 4096 < 2048 ∧
    pageInfo (a.toNat / 4096) = some p ∧
    (p.kind = PKind.clk ∨ p.kind = PKind.pwr ∨ p.kind = PKind.anv2 ∨ p.kind = PKind.drc ∨ p.kind = PKind.noc ∨ p.kind = PKind.replay ∨ p.kind = PKind.lplI ∨ p.kind = PKind.pcie ∨ p.kind = PKind.rtuE ∨ p.kind = PKind.schJ ∨ p.kind = PKind.qch) ∧
    l ≠ [] ∧
    s.heldBack a.toNat = true) := by
  refine ⟨?_, ?_, ?_, ?_, ?_, ?_, ?_⟩
  · exact ⟨go, 0x401040#26, by decide +kernel⟩
  · exact ⟨go, by decide +kernel⟩
  · exact ⟨go, 0, by decide +kernel⟩
  · exact ⟨go, 0, by decide +kernel⟩
  · exact ⟨disarmed 2 go, 1, by decide +kernel⟩
  · exact ⟨go, 0x3fffffc#26, by decide +kernel⟩
  · exact ⟨bnd go, 0x405040#26, by decide +kernel⟩

theorem witness_Bar2ReachesDramAndRefusesTheUnmapped_1 :
  (∃ (s : State) (off : BitVec 36) (n : Nat),
    let free : State → BitVec 36 → Prop := fun s off => s.hostReach = true ∧ s.atRest ∧ s.blwTier bwHost (stackOf off.toNat) < 4 ∧ s.blwProt bwHost = false ∧ off.toNat < 34359738368
    free s off ∧
    (off.toNat + n ≤ 17179869184 ∨ 17179869184 ≤ off.toNat) ∧
    inImage off.toNat = false ∧
    s.inFault (P.drc (stackOf off.toNat)) = false ∧
    s.badWords off.toNat n = [] ∧
    (s.inFault (P.drc (stackOf off.toNat)) = true ∨ s.badWords off.toNat n = [])) ∧
  (∃ (s : State) (off : BitVec 36) (n : Nat) (up : Upset),
    let free : State → BitVec 36 → Prop := fun s off => s.hostReach = true ∧ s.atRest ∧ s.blwTier bwHost (stackOf off.toNat) < 4 ∧ s.blwProt bwHost = false ∧ off.toNat < 34359738368
    free s off ∧
    (off.toNat + n ≤ 17179869184 ∨ 17179869184 ≤ off.toNat) ∧
    inImage off.toNat = false ∧
    s.inFault (P.drc (stackOf off.toNat)) = false ∧
    0 < n ∧
    s.calm ∧
    (s.badWords off.toNat n = [off.toNat / 8] ∧ up = Upset.clean ∨ s.badWords off.toNat n = [] ∧ up = Upset.uncorrectable) ∧
    s.billetTwin (off.toNat / 8 * 8) = none) ∧
  (∃ (s : State) (off : BitVec 36) (n : Nat),
    let free : State → BitVec 36 → Prop := fun s off => s.hostReach = true ∧ s.atRest ∧ s.blwTier bwHost (stackOf off.toNat) < 4 ∧ s.blwProt bwHost = false ∧ off.toNat < 34359738368
    free s off ∧
    (off.toNat + n ≤ 17179869184 ∨ 17179869184 ≤ off.toNat) ∧
    inImage off.toNat = false ∧
    s.inFault (P.drc (stackOf off.toNat)) = false ∧
    0 < n ∧
    s.badWords off.toNat n = []) ∧
  (∃ (s : State) (off : BitVec 36),
    s.hostReach = true ∧
    s.atRest ∧
    (34366029824 ≤ off.toNat ∧ off.toNat < 38654705664 ∨
    38788923392 ≤ off.toNat ∧ off.toNat < 42949672960 ∨
    42953867264 ≤ off.toNat ∨
    Option.any
    (fun a =>
    !inDram a &&
    match bankAt a with
    | some b => decide (s.msys.handovers.get b 0 % 8 ≠ 3) && (decide (s.bankOwner b ≠ 3) || decide (s.rd P.bank Reg.BANK_CTL_pwr b ≠ 2) || decide (s.seq.power = ChipPower.banked))
    | none => true)
    (bar2Addr off.toNat) =
    true)) ∧
  (∃ (s : State) (off : BitVec 36),
    let a : Nat := (bar2Addr off.toNat).get!
    let b : Nat := (bankAt a).get!
    bar2Addr off.toNat = some a ∧
    bankAt a = some b ∧
    s.hostReach = true ∧
    s.atRest ∧
    inDram a = false ∧
    s.msys.handovers.get b 0 % 8 ≠ 3 ∧
    s.serves b 3 = true) ∧
  (∃ (s : State) (off : BitVec 36) (data : List (Option Byte)) (x : Nat),
    let free : State → BitVec 36 → Prop := fun s off => s.hostReach = true ∧ s.atRest ∧ s.blwTier bwHost (stackOf off.toNat) < 4 ∧ s.blwProt bwHost = false ∧ off.toNat < 34359738368
    free s off ∧
    (off.toNat + data.length ≤ 17179869184 ∨ 17179869184 ≤ off.toNat) ∧
    off.toNat + data.length ≤ 34359738368 ∧
    (∀ (i : Nat), i < data.length → inImage (off.toNat + i) = false) ∧
    s.inFault (P.drc (stackOf off.toNat)) = false ∧
    (x < off.toNat ∨ data.getD (x - off.toNat) none = none) ∧
    s.mem.wf = true) ∧
  (∃ (s : State) (off : BitVec 36) (data : List (Option Byte)) (i : Nat),
    let free : State → BitVec 36 → Prop := fun s off => s.hostReach = true ∧ s.atRest ∧ s.blwTier bwHost (stackOf off.toNat) < 4 ∧ s.blwProt bwHost = false ∧ off.toNat < 34359738368
    let b : Byte := (data.getD i none).get!
    free s off ∧
    (off.toNat + data.length ≤ 17179869184 ∨ 17179869184 ≤ off.toNat) ∧
    off.toNat + data.length ≤ 34359738368 ∧
    (∀ (i : Nat), i < data.length → inImage (off.toNat + i) = false) ∧
    s.inFault (P.drc (stackOf off.toNat)) = false ∧
    data.getD i none = some b) := by
  refine ⟨?_, ?_, ?_, ?_, ?_, ?_, ?_⟩
  · exact ⟨mm go, 0x0#36, 1, by decide +kernel⟩
  · exact ⟨mm go, 0x0#36, 1, Upset.uncorrectable, by decide +kernel⟩
  · exact ⟨mm go, 0x0#36, 1, by decide +kernel⟩
  · exact ⟨mm go, 0x800000000#36, by decide +kernel⟩
  · exact ⟨hst (mm go), 0x800000000#36, by decide +kernel⟩
  · exact ⟨mm go, 0x5#36, [some 0x3#8], 0, by decide +kernel⟩
  · exact ⟨mm go, 0x5#36, [some 0x3#8], 0, by decide +kernel⟩

theorem witness_Bar2ReachesDramAndRefusesTheUnmapped_2 :
  (∃ (s : State) (off : BitVec 36) (n : Nat) (up : Upset),
    let free : State → BitVec 36 → Prop := fun s off => s.hostReach = true ∧ s.atRest ∧ s.blwTier bwHost (stackOf off.toNat) < 4 ∧ s.blwProt bwHost = false ∧ off.toNat < 34359738368
    let a : Nat := (s.billetTwin (off.toNat / 8 * 8)).get!
    free s off ∧
    (off.toNat + n ≤ 17179869184 ∨ 17179869184 ≤ off.toNat) ∧
    inImage off.toNat = false ∧
    s.inFault (P.drc (stackOf off.toNat)) = false ∧
    0 < n ∧
    s.calm ∧
    (s.badWords off.toNat n = [off.toNat / 8] ∧ up = Upset.clean ∨ s.badWords off.toNat n = [] ∧ up = Upset.uncorrectable) ∧
    s.billetTwin (off.toNat / 8 * 8) = some a ∧
    s.stackDead a = false ∧
    (¬a / 8 ∈ s.msys.poison) ∧
    a / 8 ≠ off.toNat / 8 ∧
    a % 8 = 0) ∧
  (∃ (s : State) (off : BitVec 36),
    s.hostReach = true ∧
    off.toNat < 34359738368 ∧
    s.seq.power = ChipPower.active ∧
    s.blwTier bwHost (stackOf off.toNat) = 4 ∧
    s.periodBoundary.blwTier bwHost (stackOf off.toNat) < 4) ∧
  (∃ (s : State) (off : BitVec 36),
    let b : Nat := ((bar2Addr off.toNat).bind bankAt).get!
    s.hostReach = true ∧
    (bar2Addr off.toNat).bind bankAt = some b ∧
    34359738368 ≤ off.toNat ∧
    s.msys.handovers.get b 0 % 8 = 3 ∧
    s.rdb P.bank Reg.BANK_CTL_pend b = true ∧
    (s.handoverDone b).serves b 3 = true) ∧
  (∃ (b : Nat),
    b < 202) ∧
  (∃ (s : State) (off : BitVec 36) (n : Nat),
    let free : State → BitVec 36 → Prop := fun s off => s.hostReach = true ∧ s.atRest ∧ s.blwTier bwHost (stackOf off.toNat) < 4 ∧ s.blwProt bwHost = false ∧ off.toNat < 34359738368
    free s off ∧
    (off.toNat + n ≤ 17179869184 ∨ 17179869184 ≤ off.toNat) ∧
    inImage off.toNat = false ∧
    s.inFault (P.drc (stackOf off.toNat)) = true) ∧
  (∃ (s : State) (off : BitVec 36) (data : List (Option Byte)),
    let free : State → BitVec 36 → Prop := fun s off => s.hostReach = true ∧ s.atRest ∧ s.blwTier bwHost (stackOf off.toNat) < 4 ∧ s.blwProt bwHost = false ∧ off.toNat < 34359738368
    free s off ∧
    (off.toNat + data.length ≤ 17179869184 ∨ 17179869184 ≤ off.toNat) ∧
    off.toNat + data.length ≤ 34359738368 ∧
    (∀ (i : Nat), i < data.length → inImage (off.toNat + i) = false) ∧
    s.mem.wf = true ∧
    s.inFault (P.drc (stackOf off.toNat)) = true) := by
  refine ⟨?_, ?_, ?_, ?_, ?_, ?_⟩
  · exact ⟨twin (pois (mm go)), 0x0#36, 1, Upset.clean, by decide +kernel⟩
  · exact ⟨noBor (mm go), 0x0#36, by decide +kernel⟩
  · exact ⟨hand (mm go), 0x800000000#36, by decide +kernel⟩
  · exact ⟨0, by decide +kernel⟩
  · exact ⟨dead (mm go), 0x0#36, 0, by decide +kernel⟩
  · exact ⟨dead (mm go), 0x0#36, [], by decide +kernel⟩

end WitA

/-! #### Witnesses: insertion, board management, temperatures -/

namespace WitP

def srcs : State := { go with board := { go.board with alertSrc := 15, smbAlert := true, alertHeld := 15 } }
def bd (f : Board → Board) (s : State) : State := { s with board := f s.board }
def warm : State := bd (fun b => { b with warnRegion := true }) go
def unmated (n : Nat) : State := bd (fun b => { b with mated := n, switch := .off }) go
def off : State := bd (fun b => { b with switch := .off, mated := 4, seated := true }) go
def ramp : State := bd (fun b => { b with switch := .ramping }) go
def held : State := bd (fun b => { b with switch := .off, shutdownHold := true }) go
def hot : State := bd (fun b => { b with thermShutdown := true }) go
def warmHeld : State := { bd (fun b => { b with smbHold := true }) go with seq := { go.seq with phase := .warmHeld } }
def noGood : State := bd (fun b => { b with powerGood := false }) go
def hearthOut : State := { go with coll := { go.coll with hearthHalted := true, hearthCause := 3 } }

theorem witness_InsertionRunsFromContactsToColdStart :
  (∃ (s : State) (stage : Fin 4),
    s.atRest ∧
    s.board.mated = stage.val + 1 ∧
    stage.val ≠ 1) ∧
  (∃ (s : State),
    s.board.switch = Switch.ramping) ∧
  (∃ (s : State) (stage : Fin 4),
    s.atRest ∧
    s.board.mated = stage.val ∧
    stage.val = 1) ∧
  (∃ (s : State),
    s.atRest ∧
    s.board.seated = true ∧
    s.board.mated = 4 ∧
    s.board.switch = Switch.off ∧
    s.board.breaker = false ∧
    s.board.shutdownHold = false) ∧
  (∃ (s : State) (stage : Fin 4),
    s.atRest ∧
    s.board.mated = stage.val + 1 ∧
    stage.val = 1) := by
  refine ⟨?_, ?_, ?_, ?_, ?_⟩
  · exact ⟨ramp, 3, by decide +kernel⟩
  · exact ⟨ramp, by decide +kernel⟩
  · exact ⟨unmated 1, 1, by decide +kernel⟩
  · exact ⟨off, by decide +kernel⟩
  · exact ⟨unmated 2, 1, by decide +kernel⟩

theorem witness_RemovalAndSupplyStopsPowerTheDieOff :
  (∃ (s : State),
    s.board.seated = true) ∧
  (∃ (s : State),
    2 ≤ s.board.mated) ∧
  (∃ (s : State),
    s.board.switch ≠ Switch.off ∧
    s.board.alertHeld.getLsbD 2 = false) ∧
  (∃ (s : State),
    s.board.standby = true) ∧
  (∃ (s : State),
    s.atRest ∧
    s.board.switch = Switch.off) := by
  refine ⟨?_, ?_, ?_, ?_, ?_⟩
  · exact ⟨go, by decide +kernel⟩
  · exact ⟨go, by decide +kernel⟩
  · exact ⟨go, by decide +kernel⟩
  · exact ⟨go, by decide +kernel⟩
  · exact ⟨off, by decide +kernel⟩

theorem witness_SmbusReadsAnswerTheBoardState :
  (∃ (s : State) (f : SmbFrame),
    let u : State := s.supplySeen f.mv.toNat
    s.atRest ∧
    2 ≤ s.board.mated ∧
    s.board.standby = true ∧
    u.board.standby = true ∧
    3 ≤ s.board.mated ∧
    f.settled = true ∧
    f.addr.toNat = 88 + s.board.modAddr.toNat ∧
    s.board.switch = Switch.on ∧
    s.board.powerGood = true ∧
    s.board.thermShutdown = false) ∧
  (∃ (s : State) (f : SmbFrame),
    let u : State := s.supplySeen f.mv.toNat
    s.atRest ∧
    (u.board.standby = false ∨ s.board.mated < 3 ∨ f.settled = false ∨ f.addr.toNat ≠ 12)) ∧
  (∃ (s : State) (f : SmbFrame),
    let u : State := s.supplySeen f.mv.toNat
    s.atRest ∧
    2 ≤ s.board.mated ∧
    s.board.standby = true ∧
    u.board.standby = true ∧
    3 ≤ s.board.mated ∧
    f.settled = true ∧
    f.addr.toNat = 12 ∧
    s.board.smbAlert = false) ∧
  (∃ (s : State) (f : SmbFrame),
    let u : State := s.supplySeen f.mv.toNat
    s.atRest ∧
    (u.board.standby = false ∨ s.board.mated < 3 ∨ f.settled = false ∨ f.addr.toNat ≠ 88 + s.board.modAddr.toNat)) ∧
  (∃ (s : State) (f : SmbFrame),
    let u : State := s.supplySeen f.mv.toNat
    s.atRest ∧
    2 ≤ s.board.mated ∧
    s.board.standby = true ∧
    u.board.standby = true ∧
    3 ≤ s.board.mated ∧
    f.settled = true ∧
    f.addr.toNat = 88 + s.board.modAddr.toNat ∧
    s.board.switch = Switch.off) ∧
  (∃ (s : State) (f : SmbFrame),
    let u : State := s.supplySeen f.mv.toNat
    s.atRest ∧
    u.board.standby = true ∧
    3 ≤ s.board.mated ∧
    f.settled = true ∧
    f.addr.toNat = 88 + s.board.modAddr.toNat ∧
    s.board.switch = Switch.on ∧
    s.board.powerGood = true ∧
    s.board.thermShutdown = true) ∧
  (∃ (s : State) (f : SmbFrame),
    let u : State := s.supplySeen f.mv.toNat
    s.atRest ∧
    u.board.standby = true ∧
    3 ≤ s.board.mated ∧
    f.settled = true ∧
    f.addr.toNat = 88 + s.board.modAddr.toNat ∧
    s.board.switch = Switch.ramping) ∧
  (∃ (s : State) (f : SmbFrame),
    let u : State := s.supplySeen f.mv.toNat
    s.atRest ∧
    u.board.standby = true ∧
    3 ≤ s.board.mated ∧
    f.settled = true ∧
    f.addr.toNat = 12 ∧
    s.board.smbAlert = true) ∧
  (∃ (s : State) (f : SmbFrame),
    let u : State := s.supplySeen f.mv.toNat
    s.atRest ∧
    u.board.standby = true ∧
    3 ≤ s.board.mated ∧
    f.settled = true ∧
    f.addr.toNat = 88 + s.board.modAddr.toNat ∧
    s.board.switch = Switch.on ∧
    s.board.powerGood = false) := by
  refine ⟨?_, ?_, ?_, ?_, ?_, ?_, ?_, ?_, ?_⟩
  · exact ⟨go, { addr := 0x5f#7, pec := none, mv := 0x2ee0#16, settled := true }, by decide +kernel⟩
  · exact ⟨go, { addr := 0x5f#7, pec := none, mv := 0x2ee0#16, settled := true }, by decide +kernel⟩
  · exact ⟨go, { addr := 0xc#7, pec := none, mv := 0x2af8#16, settled := true }, by decide +kernel⟩
  · exact ⟨go, { addr := 0xc#7, pec := none, mv := 0x2af8#16, settled := true }, by decide +kernel⟩
  · exact ⟨off, { addr := 0x5f#7, pec := none, mv := 0x2ee0#16, settled := true }, by decide +kernel⟩
  · exact ⟨hot, { addr := 0x5f#7, pec := none, mv := 0x2ee0#16, settled := true }, by decide +kernel⟩
  · exact ⟨ramp, { addr := 0x5f#7, pec := none, mv := 0x2ee0#16, settled := true }, by decide +kernel⟩
  · exact ⟨srcs, { addr := 0xc#7, pec := none, mv := 0x2af8#16, settled := true }, by decide +kernel⟩
  · exact ⟨noGood, { addr := 0x5f#7, pec := none, mv := 0x2ee0#16, settled := true }, by decide +kernel⟩

theorem witness_SmbusCommandsHoldResetAndClear :
  (∃ (s : State) (f : SmbFrame),
    let u : State := s.supplySeen f.mv.toNat
    let right : Nat → Byte → Bool := fun code b => Option.all (fun p => decide (p.toNat = crc8 (le 1 (2 * (88 + s.board.modAddr.toNat)) ++ le 1 code ++ [b]))) f.pec
    u.board.standby = true ∧
    3 ≤ s.board.mated ∧
    s.seq.power ≠ ChipPower.banked ∧
    f.settled = true ∧
    f.addr.toNat = 88 + s.board.modAddr.toNat ∧
    right 16 1 = true ∧
    s.unpowered = false ∧
    s.inReset = false) ∧
  (∃ (s : State) (f : SmbFrame),
    let u : State := s.supplySeen f.mv.toNat
    let right : Nat → Byte → Bool := fun code b => Option.all (fun p => decide (p.toNat = crc8 (le 1 (2 * (88 + s.board.modAddr.toNat)) ++ le 1 code ++ [b]))) f.pec
    u.board.standby = true ∧
    3 ≤ s.board.mated ∧
    s.seq.power ≠ ChipPower.banked ∧
    f.settled = true ∧
    f.addr.toNat = 88 + s.board.modAddr.toNat ∧
    right 17 165 = true ∧
    s.board.thermShutdown = false ∧
    s.board.breaker = false ∧
    s.board.shutdownHold = false ∧
    s.board.switch = Switch.on ∧
    s.board.powerGood = true ∧
    s.seq.phase ≠ StartPhase.railsOff) ∧
  (∃ (s : State) (f : SmbFrame),
    let u : State := s.supplySeen f.mv.toNat
    let right : Nat → Byte → Bool := fun code b => Option.all (fun p => decide (p.toNat = crc8 (le 1 (2 * (88 + s.board.modAddr.toNat)) ++ le 1 code ++ [b]))) f.pec
    u.board.standby = true ∧
    3 ≤ s.board.mated ∧
    s.seq.power ≠ ChipPower.banked ∧
    f.settled = true ∧
    f.addr.toNat = 88 + s.board.modAddr.toNat ∧
    s.atRest ∧
    right 18 165 = true) ∧
  (∃ (s : State) (f : SmbFrame) (b : Byte) (code : Nat) (want : Byte) (c : Instr),
    let u : State := s.supplySeen f.mv.toNat
    let right : Nat → Byte → Bool := fun code b => Option.all (fun p => decide (p.toNat = crc8 (le 1 (2 * (88 + s.board.modAddr.toNat)) ++ le 1 code ++ [b]))) f.pec
    u.board.standby = true ∧
    3 ≤ s.board.mated ∧
    s.seq.power ≠ ChipPower.banked ∧
    f.settled = true ∧
    f.addr.toNat = 88 + s.board.modAddr.toNat ∧
    s.atRest ∧
    (c, code, want) ∈ [(Instr.hold f b, 16, BitVec.ofNat 8 1), (Instr.holdRelease f b, 16, BitVec.ofNat 8 0), (Instr.coldReset f b, 17, BitVec.ofNat 8 165), (Instr.breakerClear f b, 18, BitVec.ofNat 8 165)] ∧
    (b ≠ want ∨ right code b = false)) ∧
  (∃ (s : State) (f : SmbFrame),
    let u : State := s.supplySeen f.mv.toNat
    let right : Nat → Byte → Bool := fun code b => Option.all (fun p => decide (p.toNat = crc8 (le 1 (2 * (88 + s.board.modAddr.toNat)) ++ le 1 code ++ [b]))) f.pec
    u.board.standby = true ∧
    3 ≤ s.board.mated ∧
    s.seq.power ≠ ChipPower.banked ∧
    f.settled = true ∧
    f.addr.toNat = 88 + s.board.modAddr.toNat ∧
    right 16 1 = true ∧
    s.atRest ∧
    (s.unpowered = true ∨ s.inReset = true)) ∧
  (∃ (s : State) (f : SmbFrame),
    let u : State := s.supplySeen f.mv.toNat
    let right : Nat → Byte → Bool := fun code b => Option.all (fun p => decide (p.toNat = crc8 (le 1 (2 * (88 + s.board.modAddr.toNat)) ++ le 1 code ++ [b]))) f.pec
    u.board.standby = true ∧
    3 ≤ s.board.mated ∧
    s.seq.power ≠ ChipPower.banked ∧
    f.settled = true ∧
    f.addr.toNat = 88 + s.board.modAddr.toNat ∧
    s.atRest ∧
    right 16 0 = true ∧
    s.board.thermShutdown = false ∧
    s.seq.phase = StartPhase.warmHeld) ∧
  (∃ (s : State) (f : SmbFrame),
    let u : State := s.supplySeen f.mv.toNat
    let right : Nat → Byte → Bool := fun code b => Option.all (fun p => decide (p.toNat = crc8 (le 1 (2 * (88 + s.board.modAddr.toNat)) ++ le 1 code ++ [b]))) f.pec
    u.board.standby = true ∧
    3 ≤ s.board.mated ∧
    s.seq.power ≠ ChipPower.banked ∧
    f.settled = true ∧
    f.addr.toNat = 88 + s.board.modAddr.toNat ∧
    s.atRest ∧
    right 16 0 = true ∧
    s.board.thermShutdown = true) ∧
  (∃ (s : State) (f : SmbFrame),
    let u : State := s.supplySeen f.mv.toNat
    let right : Nat → Byte → Bool := fun code b => Option.all (fun p => decide (p.toNat = crc8 (le 1 (2 * (88 + s.board.modAddr.toNat)) ++ le 1 code ++ [b]))) f.pec
    u.board.standby = true ∧
    3 ≤ s.board.mated ∧
    s.seq.power ≠ ChipPower.banked ∧
    f.settled = true ∧
    f.addr.toNat = 88 + s.board.modAddr.toNat ∧
    right 17 165 = true ∧
    s.board.thermShutdown = false ∧
    s.board.breaker = false ∧
    s.atRest ∧
    s.board.shutdownHold = false ∧
    s.board.switch = Switch.ramping) ∧
  (∃ (s : State) (f : SmbFrame),
    let u : State := s.supplySeen f.mv.toNat
    let right : Nat → Byte → Bool := fun code b => Option.all (fun p => decide (p.toNat = crc8 (le 1 (2 * (88 + s.board.modAddr.toNat)) ++ le 1 code ++ [b]))) f.pec
    u.board.standby = true ∧
    3 ≤ s.board.mated ∧
    s.seq.power ≠ ChipPower.banked ∧
    f.settled = true ∧
    f.addr.toNat = 88 + s.board.modAddr.toNat ∧
    right 17 165 = true ∧
    s.board.thermShutdown = false ∧
    s.board.breaker = false ∧
    s.atRest ∧
    s.board.shutdownHold = true) := by
  refine ⟨?_, ?_, ?_, ?_, ?_, ?_, ?_, ?_, ?_⟩
  · exact ⟨go, { addr := 0x5f#7, pec := none, mv := 0x2ee0#16, settled := true }, by decide +kernel⟩
  · exact ⟨go, { addr := 0x5f#7, pec := none, mv := 0x2ee0#16, settled := true }, by decide +kernel⟩
  · exact ⟨go, { addr := 0x5f#7, pec := none, mv := 0x2ee0#16, settled := true }, by decide +kernel⟩
  · exact ⟨warmHeld, { addr := 0x5f#7, pec := none, mv := 0x2ee0#16, settled := true }, 0x0#8, 16, 0x1#8, Instr.hold { addr := 0x5f#7, pec := none, mv := 0x2ee0#16, settled := true } 0x0#8, by decide +kernel⟩
  · exact ⟨warmHeld, { addr := 0x5f#7, pec := none, mv := 0x2ee0#16, settled := true }, by decide +kernel⟩
  · exact ⟨warmHeld, { addr := 0x5f#7, pec := none, mv := 0x2ee0#16, settled := true }, by decide +kernel⟩
  · exact ⟨hot, { addr := 0x5f#7, pec := none, mv := 0x2ee0#16, settled := true }, by decide +kernel⟩
  · exact ⟨ramp, { addr := 0x5f#7, pec := none, mv := 0x2ee0#16, settled := true }, by decide +kernel⟩
  · exact ⟨held, { addr := 0x5f#7, pec := none, mv := 0x2ee0#16, settled := true }, by decide +kernel⟩

theorem witness_TemperaturesWarnShutDownAndRecover :
  (∃ (s : State),
    s.calm ∧
    s.board.powerGood = true ∧
    s.board.warnRegion = false ∧
    s.board.alertHeld.getLsbD 0 = false) ∧
  (∃ (s : State),
    s.unpowered = false ∧
    s.board.thermShutdown = false ∧
    s.board.alertHeld.getLsbD 1 = false) ∧
  (∃ (s : State),
    s.unpowered = false ∧
    s.board.thermShutdown = true ∧
    s.seq.phase ≠ StartPhase.railsOff) ∧
  (∃ (s : State),
    s.calm ∧
    s.board.warnRegion = true) := by
  refine ⟨?_, ?_, ?_, ?_⟩
  · exact ⟨go, by decide +kernel⟩
  · exact ⟨go, by decide +kernel⟩
  · exact ⟨hot, by decide +kernel⟩
  · exact ⟨warm, by decide +kernel⟩

theorem witness_PermitTestsAndLostClocks :
  (∃ (s : State) (c : ClockId) (i : Nat),
    s.unpowered = false ∧
    s.inReset = false ∧
    s.seq.power = ChipPower.active ∧
    (c, i) ∈ [(ClockId.core, 1), (ClockId.dram, 2), (ClockId.pix, 4), (ClockId.enc, 8), (ClockId.reference, 16)]) ∧
  (∃ (s : State),
    s.calm ∧
    s.coll.hearthHalted = true ∧
    s.coll.hearthCause = 3 ∧
    s.rdb P.flt Reg.FLT_HWDG_held = false) ∧
  (∃ (s : State) (a : Bool) (b : Bool),
    s.calm ∧
    s.seq.permit = false ∧
    s.board.powerGood = true ∧
    s.seq.permitShort = false ∧
    (a || b) = true) ∧
  (∃ (s : State) (e : Fin 36) (d : Nat),
    s.atRest ∧
    (s.eng e.val).cur = none ∧
    (s.eng e.val).inflight = [] ∧
    (s.eng e.val).queued = [] ∧
    (s.eng e.val).underTest = false ∧
    s.inReset = false ∧
    s.unpowered = false ∧
    s.seq.power = ChipPower.active ∧
    d ≠ e.val) ∧
  (∃ (s : State),
    s.calm ∧
    s.unpowered = false ∧
    s.inReset = false) := by
  refine ⟨?_, ?_, ?_, ?_, ?_⟩
  · exact ⟨hearthOut, ClockId.core, 1, by decide +kernel⟩
  · exact ⟨hearthOut, by decide +kernel⟩
  · exact ⟨go, true, true, by decide +kernel⟩
  · exact ⟨go, 0, 1, by decide +kernel⟩
  · exact ⟨go, by decide +kernel⟩

end WitP

/-! #### Witnesses: power states, resets, starts -/

namespace WitR

def mm : Memory := [(0,1),(0x100000,5),(0x1000000000,6),(0x1000100010,7),(0x2000000100,8),(0x3000000000,9)]
def ffl : Memory := [(3,3),(0x101000,4),(0x1000000,7),(0x1000001,9),(0x10001bc,20),(0x10001f0,1),(0x10001f1,2)]
def gm : State := {go with mem := mm, flash := ffl}
def bk : State := { gm with seq := {gm.seq with power := .banked}, host := {gm.host with held := [{target := 0x10, recs := []}]} }
def bk2 := (bk.wr P.chip Reg.CHIP_WAKE_latch 5).wr (P.schC 3) Reg.SCH_CTX_STAT_state 4
def rest : State := { State.reset with flash := ffl, hostMem := [(3,3)] }
def keyed (s : State) : State := { s with temper := { s.temper with copyA := some ⟨[(0, [1]), (2, [3])], [2], 0⟩ } }
def stu (s : State) : State := { s with quench := { s.quench with making := (List.range 70).map (fun u => (u, default)) } }

theorem witness_BankedKeepsTheWakeDomainAndWakesByLatch :
  (∃ (s : State) (c : Nat),
    s.atRest ∧
    s.seq.power = ChipPower.banked ∧
    s.rd P.chip Reg.CHIP_WAKE_latch &&& s.rd P.chip Reg.CHIP_WAKE_en ≠ 0 ∧
    s.host.keptDoorbells = [] ∧
    c < 8) ∧
  (∃ (s : State) (v : Word),
    s.atRest ∧
    s.reaches 64 ∧
    bits v.toNat 4 2 = 1 ∧
    (∀ (c : Nat), c < 8 → s.ctxRuns c = false) ∧
    s.rtu.entries = [] ∧
    (∀ (k : Nat), k < 8 → s.camState k ≠ camBound)) ∧
  (∃ (s : State) (v : Word),
    s.atRest ∧
    s.reaches 64 ∧
    bits v.toNat 4 2 = 1 ∧
    ((∃ c, c < 8 ∧ s.ctxRuns c = true) ∨ s.rtu.entries ≠ [])) ∧
  (∃ (s : State) (i : Fin 10) (j : Nat),
    s.atRest ∧
    s.seq.power = ChipPower.banked ∧
    j < 10 ∧
    j ≠ i.val) ∧
  (∃ (s : State),
    s.atRest ∧
    s.seq.power = ChipPower.banked ∧
    s.rd P.chip Reg.CHIP_WAKE_latch &&& s.rd P.chip Reg.CHIP_WAKE_en = 0) ∧
  (∃ (s : State),
    s.atRest ∧
    s.seq.power ≠ ChipPower.banked) := by
  refine ⟨?_, ?_, ?_, ?_, ?_, ?_⟩
  · exact ⟨bk2, 0, by decide +kernel⟩
  · exact ⟨gm, 0x10#32, by decide +kernel⟩
  · exact ⟨(gm.wr (P.schC 2) Reg.SCH_CTX_STAT_state 4), 0x10#32, by decide +kernel⟩
  · exact ⟨bk, 0, 1, by decide +kernel⟩
  · exact ⟨bk, by decide +kernel⟩
  · exact ⟨gm, by decide +kernel⟩

theorem witness_ShutdownWaitsForEntriesAndHoldsOff :
  (∃ (s : State),
    s.clocked = true ∧
    s.quench.waveUnits = [] ∧
    s.coll.hearthHalted = false ∧
    s.seq.shutdownAsked = true ∧
    s.rtu.entries = [] ∧
    s.shutdownStop.quiesced = true ∧
    List.length s.quench.making ≤ 70 ∧
    (∀ (c : Nat), c < 8 → s.ctxRuns c = false ∧ (s.ctx c).swapTo = none)) ∧
  (∃ (s : State) (c : Nat),
    s.clocked = true ∧
    s.quench.waveUnits = [] ∧
    s.coll.hearthHalted = false ∧
    s.seq.shutdownAsked = true ∧
    s.rtu.entries = [] ∧
    s.seq.ctxsStopped = false ∧
    s.shutdownStop.quiesced = false ∧
    s.atRest ∧
    (∀ (c : Nat), c < 8 → (s.ctx c).swapTo = none) ∧
    c < 8) ∧
  (∃ (s : State) (v : Word),
    s.atRest ∧
    s.reaches 64 ∧
    bits v.toNat 4 2 = 2) ∧
  (∃ (s : State),
    s.clocked = true ∧
    s.quench.waveUnits = [] ∧
    s.coll.hearthHalted = false ∧
    s.atRest ∧
    (s.seq.shutdownAsked = false ∨ s.rtu.entries ≠ [])) ∧
  (∃ (s : State) (a : Nat),
    s.clocked = true ∧
    s.quench.waveUnits = [] ∧
    s.coll.hearthHalted = false ∧
    s.seq.shutdownAsked = true ∧
    s.rtu.entries = [] ∧
    s.shutdownStop.quiesced = true ∧
    List.length s.quench.making ≤ 70 ∧
    (¬(1048576 ≤ a ∧ a < 2097152))) := by
  refine ⟨?_, ?_, ?_, ?_, ?_⟩
  · exact ⟨{gm with seq := {gm.seq with shutdownAsked := true}}, by decide +kernel⟩
  · exact ⟨({gm with seq := {gm.seq with shutdownAsked := true}}.setCtxState 3 4 0).setJob 4 {(default : Job) with ctx := 3}, 0, by decide +kernel⟩
  · exact ⟨gm, 0x20#32, by decide +kernel⟩
  · exact ⟨gm, by decide +kernel⟩
  · exact ⟨{gm with seq := {gm.seq with shutdownAsked := true}}.setCtxState 3 4 0, 0, by decide +kernel⟩

theorem witness_StartsBeginAfterTheirResets :
  (∃ (s : State) (m : Nat),
    s.atRest ∧
    s.seq.phase = StartPhase.warmSteps ∧
    bit s.seq.begun 5 = true ∧
    bit s.seq.ended 5 = false ∧
    s.board.smbHold = false ∧
    m < 11 ∧
    bit s.seq.ended 2 = true) ∧
  (∃ (s : State),
    s.atRest ∧
    s.seq.phase = StartPhase.railsOff ∧
    s.board.thermShutdown = false) ∧
  (∃ (s : State),
    s.atRest ∧
    s.seq.phase = StartPhase.warmClearing ∧
    s.board.thermShutdown = false ∧
    s.board.smbHold = false) ∧
  (∃ (s : State),
    s.atRest ∧
    s.seq.phase = StartPhase.warmClearing ∧
    s.board.thermShutdown = false ∧
    s.board.smbHold = true) := by
  refine ⟨?_, ?_, ?_, ?_⟩
  · exact ⟨{gm with seq := {gm.seq with phase := .warmSteps,begun := 47, ended := 5}}, 0, by decide +kernel⟩
  · exact ⟨{gm with seq := {gm.seq with phase := .railsOff}}, by decide +kernel⟩
  · exact ⟨{gm with seq := {gm.seq with phase := .warmClearing}}, by decide +kernel⟩
  · exact ⟨{gm with board := {gm.board with smbHold := true}, seq := {gm.seq with phase := .warmClearing}}, by decide +kernel⟩

theorem witness_StartStepsEndInTheirOrder :
  (∃ (s : State) (n : Fin 11) (rep : StartReport) (m : Nat),
    let cold : Prop := s.seq.phase = StartPhase.coldSteps
    s.atRest ∧
    s.board.thermShutdown = false ∧
    s.board.smbHold = false ∧
    (s.seq.phase = StartPhase.coldSteps ∨ s.seq.phase = StartPhase.warmSteps) ∧
    bit s.seq.begun n.val = true ∧
    bit s.seq.ended n.val = false ∧
    ((n.val = 2 → s.rd P.tmp Reg.TMP_LC_state ≠ 5 ∧ s.inFault P.tmp = false ∧ rep.imageValid = true) ∧ (n.val = 5 → cold → rep.imageValid = true) ∧ (n.val = 6 → cold → s.quenchCaughtUp = true)) ∧
    n.val ≠ 10 ∧
    m < 11 ∧
    n.val = 6 ∧
    cold ∧
    s.calm) ∧
  (∃ (s : State) (n : Fin 11) (rep : StartReport) (e : Nat),
    let cold : Prop := s.seq.phase = StartPhase.coldSteps
    let u : State := if cold then s.recordRead else s
    let failed : List Nat := u.failedAt7 rep
    s.atRest ∧
    s.board.thermShutdown = false ∧
    s.board.smbHold = false ∧
    (s.seq.phase = StartPhase.coldSteps ∨ s.seq.phase = StartPhase.warmSteps) ∧
    bit s.seq.begun n.val = true ∧
    bit s.seq.ended n.val = false ∧
    ((n.val = 2 → s.rd P.tmp Reg.TMP_LC_state ≠ 5 ∧ s.inFault P.tmp = false ∧ rep.imageValid = true) ∧ (n.val = 5 → cold → rep.imageValid = true) ∧ (n.val = 6 → cold → s.quenchCaughtUp = true)) ∧
    n.val = 6 ∧
    e < 32 ∧
    failed.contains e = false ∧
    (rep.failedRq.any fun r => decide (r.val = e)) = false) ∧
  (∃ (s : State) (n : Fin 11) (rep : StartReport) (i : Nat),
    let cold : Prop := s.seq.phase = StartPhase.coldSteps
    s.atRest ∧
    s.board.thermShutdown = false ∧
    s.board.smbHold = false ∧
    (s.seq.phase = StartPhase.coldSteps ∨ s.seq.phase = StartPhase.warmSteps) ∧
    bit s.seq.begun n.val = true ∧
    bit s.seq.ended n.val = false ∧
    ((n.val = 2 → s.rd P.tmp Reg.TMP_LC_state ≠ 5 ∧ s.inFault P.tmp = false ∧ rep.imageValid = true) ∧ (n.val = 5 → cold → rep.imageValid = true) ∧ (n.val = 6 → cold → s.quenchCaughtUp = true)) ∧
    n.val ≠ 10 ∧
    n.val = 1 ∧
    i < 4) ∧
  (∃ (s : State) (n : Fin 11) (rep : StartReport),
    let cold : Prop := s.seq.phase = StartPhase.coldSteps
    s.atRest ∧
    s.board.thermShutdown = false ∧
    s.board.smbHold = false ∧
    (s.seq.phase = StartPhase.coldSteps ∨ s.seq.phase = StartPhase.warmSteps) ∧
    bit s.seq.begun n.val = true ∧
    bit s.seq.ended n.val = false ∧
    ((n.val = 2 → s.rd P.tmp Reg.TMP_LC_state ≠ 5 ∧ s.inFault P.tmp = false ∧ rep.imageValid = true) ∧ (n.val = 5 → cold → rep.imageValid = true) ∧ (n.val = 6 → cold → s.quenchCaughtUp = true)) ∧
    n.val = 10 ∧
    s.hasStartSet = false) ∧
  (∃ (s : State) (n : Fin 11) (rep : StartReport),
    let cold : Prop := s.seq.phase = StartPhase.coldSteps
    s.atRest ∧
    s.board.thermShutdown = false ∧
    s.board.smbHold = false ∧
    (s.seq.phase = StartPhase.coldSteps ∨ s.seq.phase = StartPhase.warmSteps) ∧
    bit s.seq.begun n.val = true ∧
    bit s.seq.ended n.val = false ∧
    ((n.val = 2 → s.rd P.tmp Reg.TMP_LC_state ≠ 5 ∧ s.inFault P.tmp = false ∧ rep.imageValid = true) ∧ (n.val = 5 → cold → rep.imageValid = true) ∧ (n.val = 6 → cold → s.quenchCaughtUp = true)) ∧
    n.val ≠ 10 ∧
    n.val = 3 ∧
    rep.mainUp = true) ∧
  (∃ (s : State) (n : Fin 11) (rep : StartReport),
    let cold : Prop := s.seq.phase = StartPhase.coldSteps
    s.atRest ∧
    s.board.thermShutdown = false ∧
    s.board.smbHold = false ∧
    (s.seq.phase = StartPhase.coldSteps ∨ s.seq.phase = StartPhase.warmSteps) ∧
    bit s.seq.begun n.val = true ∧
    bit s.seq.ended n.val = false ∧
    (n.val = 2 ∨ n.val = 5 ∧ cold) ∧
    rep.imageValid = false) ∧
  (∃ (s : State) (n : Fin 11) (rep : StartReport) (a : Nat),
    let cold : Prop := s.seq.phase = StartPhase.coldSteps
    s.atRest ∧
    s.board.thermShutdown = false ∧
    s.board.smbHold = false ∧
    (s.seq.phase = StartPhase.coldSteps ∨ s.seq.phase = StartPhase.warmSteps) ∧
    bit s.seq.begun n.val = true ∧
    bit s.seq.ended n.val = false ∧
    ((n.val = 2 → s.rd P.tmp Reg.TMP_LC_state ≠ 5 ∧ s.inFault P.tmp = false ∧ rep.imageValid = true) ∧ (n.val = 5 → cold → rep.imageValid = true) ∧ (n.val = 6 → cold → s.quenchCaughtUp = true)) ∧
    n.val ≠ 10 ∧
    n.val = 5 ∧
    cold ∧
    a < 33554432) ∧
  (∃ (s : State) (n : Fin 11) (rep : StartReport),
    let cold : Prop := s.seq.phase = StartPhase.coldSteps
    s.atRest ∧
    s.board.thermShutdown = false ∧
    s.board.smbHold = false ∧
    (s.seq.phase = StartPhase.coldSteps ∨ s.seq.phase = StartPhase.warmSteps) ∧
    bit s.seq.begun n.val = true ∧
    bit s.seq.ended n.val = false ∧
    ((n.val = 2 → s.rd P.tmp Reg.TMP_LC_state ≠ 5 ∧ s.inFault P.tmp = false ∧ rep.imageValid = true) ∧ (n.val = 5 → cold → rep.imageValid = true) ∧ (n.val = 6 → cold → s.quenchCaughtUp = true)) ∧
    n.val ≠ 10 ∧
    n.val = 2 ∧
    cold) ∧
  (∃ (s : State) (n : Fin 11) (rep : StartReport),
    let cold : Prop := s.seq.phase = StartPhase.coldSteps
    s.atRest ∧
    s.board.thermShutdown = false ∧
    s.board.smbHold = false ∧
    (s.seq.phase = StartPhase.coldSteps ∨ s.seq.phase = StartPhase.warmSteps) ∧
    bit s.seq.begun n.val = true ∧
    bit s.seq.ended n.val = false ∧
    ((n.val = 2 → s.rd P.tmp Reg.TMP_LC_state ≠ 5 ∧ s.inFault P.tmp = false ∧ rep.imageValid = true) ∧ (n.val = 5 → cold → rep.imageValid = true) ∧ (n.val = 6 → cold → s.quenchCaughtUp = true)) ∧
    n.val ≠ 10 ∧
    n.val ∈ [0, 4, 7, 8, 9]) := by
  refine ⟨?_, ?_, ?_, ?_, ?_, ?_, ?_, ?_, ?_⟩
  · exact ⟨stu {rest with seq := {rest.seq with begun := 2047, ended := 63}}, 6, { mainUp := true, fallbackUp := true, mainCause := 0x0#8, failedUnits := [], failedRq := [], imageValid := true }, 0, by decide +kernel⟩
  · exact ⟨stu {rest with seq := {rest.seq with begun := 2047, ended := 63}}, 6, { mainUp := true, fallbackUp := true, mainCause := 0x0#8, failedUnits := [], failedRq := [], imageValid := true }, 0, by decide +kernel⟩
  · exact ⟨keyed {rest with seq := {rest.seq with begun := 15, ended := 3-2}}, 1, { mainUp := true, fallbackUp := true, mainCause := 0x0#8, failedUnits := [], failedRq := [], imageValid := true }, 0, by decide +kernel⟩
  · exact ⟨{rest with seq := {rest.seq with begun := 2047, ended := 1023}}, 10, { mainUp := true, fallbackUp := true, mainCause := 0x0#8, failedUnits := [], failedRq := [], imageValid := true }, by decide +kernel⟩
  · exact ⟨keyed {rest with seq := {rest.seq with begun := 15, ended := 3-2}}, 3, { mainUp := true, fallbackUp := true, mainCause := 0x0#8, failedUnits := [], failedRq := [], imageValid := true }, by decide +kernel⟩
  · exact ⟨{rest with seq := {rest.seq with begun := 63, ended := 15}}, 5, { mainUp := true, fallbackUp := true, mainCause := 0x2#8, failedUnits := [3, 40], failedRq := [5], imageValid := false }, by decide +kernel⟩
  · exact ⟨{rest with seq := {rest.seq with begun := 63, ended := 15}}, 5, { mainUp := true, fallbackUp := true, mainCause := 0x0#8, failedUnits := [], failedRq := [], imageValid := true }, 0, by decide +kernel⟩
  · exact ⟨keyed {rest with seq := {rest.seq with begun := 15, ended := 3-2}}, 2, { mainUp := true, fallbackUp := true, mainCause := 0x0#8, failedUnits := [], failedRq := [], imageValid := true }, by decide +kernel⟩
  · exact ⟨rest, 0, { mainUp := true, fallbackUp := true, mainCause := 0x0#8, failedUnits := [], failedRq := [], imageValid := true }, by decide +kernel⟩

theorem witness_WarmAndColdResetsClearAndKeep :
  (∃ (s : State) (by_ : WarmStarter) (base : Nat) (f : Fld) (i : Nat),
    s.unpowered = false ∧
    s.inReset = false ∧
    (match by_ with
    | WarmStarter.chipRst => s.reaches 68
    | WarmStarter.firmware => s.coll.hearthHalted = false ∧ s.seq.power ≠ ChipPower.banked) ∧
    (∀ (p : Nat × Fld), p ∈ fusedFields ++ warmFields → f.key base i ≠ p.snd.key p.fst 0) ∧
    f.key base i ≠ Reg.TMP_STAT_test_open.key P.tmp 0 ∧
    f.key base i ≠ Reg.CHIP_RST_CAUSE_cause.key P.chip 0 ∧
    f.key base i ≠ Reg.CHIP_RST_CAUSE_clk_lost.key P.chip 0) ∧
  (∃ (s : State),
    s.reaches 68) := by
  refine ⟨?_, ?_⟩
  · exact ⟨gm, WarmStarter.chipRst, 0, { off := 8, stride := 0, count := 1, lo := 0, width := 1, acc := Acc.rw, reset := 0 }, 0, by decide +kernel⟩
  · exact ⟨gm, by decide +kernel⟩

theorem witness_UndefinedResetWordsAreOnlyCounted :
  (∃ (s : State) (v : Word),
    s.atRest ∧
    s.reaches 68 ∧
    (bits v.toNat 16 16 ≠ 23063 ∨ bits v.toNat 0 4 = 0 ∨ 5 < bits v.toNat 0 4 ∨ bits v.toNat 0 4 = 2 ∧ 8 ≤ bits v.toNat 8 6 ∨ bits v.toNat 0 4 = 3 ∧ 36 ≤ bits v.toNat 8 6)) :=
  ⟨gm, 0x10#32, by decide +kernel⟩

end WitR

/-! #### Witnesses: host interface -/

namespace WitH

def h0 : HostSide := go.host
def u1 (t : Nat) (n : Nat) : RecUnit := { target := BitVec.ofNat 8 t, recs := List.replicate n default }
def lp (s : State) : State := { s with seq := { s.seq with clkLost := [.eth, .pcie] } }
def er (s : State) : State := { s with seq := { s.seq with engResets := [3], ended := 15 } }
def nn := [go, er go, go2, go2, go, {go with seq := {go.seq with power := .banked}}, {go with host := {h0 with mbxTaken := [(⟨3,4⟩,5)], produced := [u1 0x10 1, u1 0x20 2], keptDoorbells := [(4,4)], lost := [0x12]}}]
def nb (l : List State) := l.map (fun s => {s with seq := {s.seq with begun := 255}})
def busy (s : State) := (s.wrb P.erq Reg.ERQ_HSR_busy true)
def oneb (s : State) := ((s.wrb P.erq Reg.ERQ_HSR_busy true).wr P.erq Reg.ERQ_HSR_cause 1).wrb P.pcie Reg.PCIE_STAT_perst true
def wpoolH0 : List State := (nb nn ++ nb [lp go] ++ nn.map busy ++ nn.map oneb)
def full (s : State) : State := ((List.range 16).foldl (fun s q => (s.wr P.erq Reg.ERQ_QCFG_en 1 q).wr P.erq Reg.ERQ_QCFG_size_log2 q q) s).wrb P.pcie Reg.PCIE_STAT_bme true
def mx (s : State) : State := (full s).wrb P.pcie Reg.PCIE_STAT_msix_en true
def fp (s : State) : State := (mx s).wr P.erq Reg.ERQ_QPROD_prod 15 3
def fq (s : State) : State := ((mx s).wr P.erq Reg.ERQ_QPROD_prod 4 3).wrb P.erq Reg.MSIX_TABLE_mask false 0
def withP (l : List State) := (l.flatMap (fun s => ([u1 0x10 1, u1 0x13 1, u1 0x13 4, u1 0x1f 2, u1 0 3, u1 0x21 1, u1 0x21 300, u1 0x11 0, u1 0x13 70] : List RecUnit).map (fun u => {s with host := {s.host with produced := [u]}})))
def wpoolH1 : List State := (withP (nn ++ nn.map full ++ nn.map mx ++ nn.map fp ++ nn.map fq))
def wpoolH2 : List State := ((nn ++ nn.map full ++ nn.map mx ++ nn.map fp ++ nn.map fq).map (fun s => s.wr P.erq Reg.MBX_CFG_en 1))
def pe (s : State) := (mx s).wr P.erq Reg.MSIX_PBA_pend 65535
def tg (s : State) := {(((s.wr P.erq Reg.MBX_CFG_en 1).wr P.erq Reg.ERQ_TSEL_src 0xe00).wrb P.flt Reg.BLK_CTRL_en true) with host := {s.host with targets := [(0xe00, 0x12)]}}

theorem witness_HostSessionResetEmptiesQueuesAndRings :
  (∃ (s : State) (q : Nat),
    let p : Instr × Nat × Bool := (Instr.perstAssert, 1, true)
    s.atRest ∧
    (p.fst = Instr.hostSessionReset → s.reaches 68) ∧
    s.hostReach = true ∧
    s.seq.engResets = [] ∧
    q < 16 ∧
    p.snd.snd = true ∧
    (p.snd.fst = 1 ∨ p.snd.fst = 4) ∧
    p.snd.fst = 1) ∧
  (∃ (s : State) (c : Nat),
    let p : Instr × Nat × Bool := (Instr.perstAssert, 1, true)
    s.atRest ∧
    (p.fst = Instr.hostSessionReset → s.reaches 68) ∧
    s.hostReach = true ∧
    s.seq.engResets = [] ∧
    c < 8) ∧
  (∃ (s : State),
    let p : Instr × Nat × Bool := (Instr.hostSessionReset, 3, false)
    s.atRest ∧
    (p.fst = Instr.hostSessionReset → s.reaches 68) ∧
    s.hostReach = true ∧
    s.seq.engResets ≠ [] ∧
    p.fst = Instr.hostSessionReset) ∧
  (∃ (s : State),
    let p : Instr × Nat × Bool := (Instr.hostSessionReset, 3, false)
    s.atRest ∧
    (p.fst = Instr.hostSessionReset → s.reaches 68) ∧
    s.hostReach = true ∧
    s.seq.engResets = [] ∧
    p.snd.snd = false) := by
  refine ⟨?_, ?_, ?_, ?_⟩
  · exact ⟨go, 0, by decide +kernel⟩
  · exact ⟨go, 0, by decide +kernel⟩
  · exact ⟨er go, by decide +kernel⟩
  · exact ⟨go, by decide +kernel⟩

theorem witness_EndpointStateFollowsTheLinkAndItsEnables :
  (∃ (s : State),
    s.atRest ∧
    s.hostReach = true ∧
    s.rdb P.pcie Reg.PCIE_STAT_perst = false ∧
    bit s.seq.begun 4 = true) ∧
  (∃ (s : State),
    s.atRest ∧
    s.rdb P.erq Reg.ERQ_HSR_busy = true ∧
    (s.rdb P.pcie Reg.PCIE_STAT_perst = false ∨ s.rd P.erq Reg.ERQ_HSR_cause ≠ 1)) ∧
  (∃ (s : State) (aer : Option Bool),
    s.atRest ∧
    s.hostReach = true ∧
    aer = some true) ∧
  (∃ (s : State) (bar : Option (Fin 6 × Word)) (q : Nat),
    s.atRest ∧
    s.hostReach = true ∧
    s.rdb P.pcie Reg.PCIE_STAT_perst = false ∧
    bit s.seq.ended 6 = true ∧
    bar = none ∧
    q < 16) ∧
  (∃ (s : State) (bar : Option (Fin 6 × Word)),
    let b : Fin 6 × Word := bar.get!
    s.atRest ∧
    s.hostReach = true ∧
    s.rdb P.pcie Reg.PCIE_STAT_perst = false ∧
    bit s.seq.ended 6 = true ∧
    bar = some b) ∧
  (∃ (s : State),
    s.atRest ∧
    s.rdb P.erq Reg.ERQ_HSR_busy = true ∧
    s.rdb P.pcie Reg.PCIE_STAT_perst = true ∧
    s.rd P.erq Reg.ERQ_HSR_cause = 1) ∧
  (∃ (s : State),
    s.atRest ∧
    s.hostReach = true ∧
    bit s.seq.ended 6 = false) := by
  refine ⟨?_, ?_, ?_, ?_, ?_, ?_, ?_⟩
  · exact ⟨wpoolH0.getD 0 go, by decide +kernel⟩
  · exact ⟨wpoolH0.getD 8 go, by decide +kernel⟩
  · exact ⟨wpoolH0.getD 8 go, some true, by decide +kernel⟩
  · exact ⟨wpoolH0.getD 0 go, none, 0, by decide +kernel⟩
  · exact ⟨wpoolH0.getD 0 go, some (0, 0xffffffff#32), by decide +kernel⟩
  · exact ⟨wpoolH0.getD 15 go, by decide +kernel⟩
  · exact ⟨wpoolH0.getD 1 go, by decide +kernel⟩

theorem witness_EventRecordsAreWrittenWholeOrDroppedWhole :
  (∃ (s : State),
    let u : RecUnit := s.host.produced.head!
    let us : List RecUnit := s.host.produced.tail
    let q : Nat := u.target.toNat - 16
    let r : EventRec := u.recs.head!
    s.atRest ∧
    s.host.produced = u :: us ∧
    isHostErq u.target.toNat = true ∧
    s.rdb P.erq Reg.ERQ_QCFG_en q = true ∧
    s.bme = true ∧
    u.recs ≠ [] ∧
    u.recs.length ≤ s.erqFree q ∧
    u.recs = [r] ∧
    s.erqUsed q = 0 ∧
    s.rdb P.pcie Reg.PCIE_STAT_msix_en = true ∧
    s.msixMasked q = true) ∧
  (∃ (s : State),
    let u : RecUnit := s.host.produced.head!
    let us : List RecUnit := s.host.produced.tail
    let k : Nat := u.target.toNat - 32
    s.atRest ∧
    s.host.produced = u :: us ∧
    isHearthQ u.target.toNat = true ∧
    256 < (s.host.hearthQ.get k []).length + u.recs.length) ∧
  (∃ (s : State),
    let u : RecUnit := s.host.produced.head!
    let us : List RecUnit := s.host.produced.tail
    let q : Nat := u.target.toNat - 16
    s.atRest ∧
    s.host.produced = u :: us ∧
    isHostErq u.target.toNat = true ∧
    s.rdb P.erq Reg.ERQ_QCFG_en q = true ∧
    s.bme = true ∧
    u.recs ≠ [] ∧
    s.erqFree q < u.recs.length) ∧
  (∃ (s : State),
    let u : RecUnit := s.host.produced.head!
    let us : List RecUnit := s.host.produced.tail
    let q : Nat := u.target.toNat - 16
    s.atRest ∧
    s.host.produced = u :: us ∧
    (isHostErq u.target.toNat = true ∧ (s.rdb P.erq Reg.ERQ_QCFG_en q = false ∨ s.bme = false) ∨ isHostErq u.target.toNat = false ∧ isHearthQ u.target.toNat = false)) ∧
  (∃ (s : State),
    let u : RecUnit := s.host.produced.head!
    let us : List RecUnit := s.host.produced.tail
    let k : Nat := u.target.toNat - 32
    s.atRest ∧
    s.host.produced = u :: us ∧
    isHearthQ u.target.toNat = true ∧
    (s.host.hearthQ.get k []).length + u.recs.length ≤ 256) ∧
  (∃ (s : State),
    let u : RecUnit := s.host.produced.head!
    let us : List RecUnit := s.host.produced.tail
    let q : Nat := u.target.toNat - 16
    let r : EventRec := u.recs.head!
    s.atRest ∧
    s.host.produced = u :: us ∧
    isHostErq u.target.toNat = true ∧
    s.rdb P.erq Reg.ERQ_QCFG_en q = true ∧
    s.bme = true ∧
    u.recs ≠ [] ∧
    u.recs.length ≤ s.erqFree q ∧
    u.recs = [r] ∧
    s.erqUsed q ≠ 0) ∧
  (∃ (s : State),
    let u : RecUnit := s.host.produced.head!
    let us : List RecUnit := s.host.produced.tail
    let q : Nat := u.target.toNat - 16
    let r : EventRec := u.recs.head!
    s.atRest ∧
    s.host.produced = u :: us ∧
    isHostErq u.target.toNat = true ∧
    s.rdb P.erq Reg.ERQ_QCFG_en q = true ∧
    s.bme = true ∧
    u.recs ≠ [] ∧
    u.recs.length ≤ s.erqFree q ∧
    u.recs = [r] ∧
    s.erqUsed q = 0 ∧
    s.rdb P.pcie Reg.PCIE_STAT_msix_en = true ∧
    s.msixMasked q = false) := by
  refine ⟨?_, ?_, ?_, ?_, ?_, ?_, ?_⟩
  · exact ⟨wpoolH1.getD 126 go, by decide +kernel⟩
  · exact ⟨wpoolH1.getD 6 go, by decide +kernel⟩
  · exact ⟨wpoolH1.getD 71 go, by decide +kernel⟩
  · exact ⟨wpoolH1.getD 0 go, by decide +kernel⟩
  · exact ⟨wpoolH1.getD 5 go, by decide +kernel⟩
  · exact ⟨wpoolH1.getD 253 go, by decide +kernel⟩
  · exact ⟨wpoolH1.getD 252 go, by decide +kernel⟩

theorem witness_DoorbellsMoveAnIndexOrAreCounted :
  (∃ (s : State),
    s.atRest ∧
    s.hostReach = true ∧
    s.seq.power = ChipPower.banked) ∧
  (∃ (s : State) (q : Fin 16) (v : Word),
    let i : Nat := v.toNat % 2 ^ 15
    s.atRest ∧
    s.hostReach = true ∧
    s.seq.power ≠ ChipPower.banked ∧
    (s.rdb P.erq Reg.ERQ_QCFG_en q.val = false ∨ 2 ^ s.erqLog q.val ≤ i)) ∧
  (∃ (s : State) (v : Word),
    let i : Nat := v.toNat % 2 ^ 6
    s.atRest ∧
    s.hostReach = true ∧
    s.seq.power ≠ ChipPower.banked ∧
    s.rdb P.erq Reg.MBX_CFG_en = true ∧
    i < 2 ^ s.mbxLog) ∧
  (∃ (s : State) (q : Fin 16) (v : Word),
    let i : Nat := v.toNat % 2 ^ 15
    let t : State := after (exec (Instr.erqConsumerDoorbell q v) s)
    s.atRest ∧
    s.hostReach = true ∧
    s.seq.power ≠ ChipPower.banked ∧
    s.rdb P.erq Reg.ERQ_QCFG_en q.val = true ∧
    i < 2 ^ s.erqLog q.val ∧
    t.erqUsed q.val = 0) ∧
  (∃ (s : State) (v : Word),
    let i : Nat := v.toNat % 2 ^ 6
    s.atRest ∧
    s.hostReach = true ∧
    s.seq.power ≠ ChipPower.banked ∧
    (s.rdb P.erq Reg.MBX_CFG_en = false ∨ 2 ^ s.mbxLog ≤ i)) ∧
  (∃ (s : State) (q : Fin 16) (v : Word),
    let i : Nat := v.toNat % 2 ^ 15
    let t : State := after (exec (Instr.erqConsumerDoorbell q v) s)
    s.atRest ∧
    s.hostReach = true ∧
    s.seq.power ≠ ChipPower.banked ∧
    s.rdb P.erq Reg.ERQ_QCFG_en q.val = true ∧
    i < 2 ^ s.erqLog q.val ∧
    t.erqUsed q.val ≠ 0 ∧
    s.rdb P.pcie Reg.PCIE_STAT_msix_en = true ∧
    s.bme = true ∧
    s.msixMasked q.val = false) := by
  refine ⟨?_, ?_, ?_, ?_, ?_, ?_⟩
  · exact ⟨wpoolH2.getD 5 go, by decide +kernel⟩
  · exact ⟨wpoolH2.getD 0 go, 0, 0x0#32, by decide +kernel⟩
  · exact ⟨wpoolH2.getD 0 go, 0x0#32, by decide +kernel⟩
  · exact ⟨wpoolH2.getD 7 go, 0, 0x0#32, by decide +kernel⟩
  · exact ⟨wpoolH2.getD 0 go, 0xffffffff#32, by decide +kernel⟩
  · exact ⟨wpoolH2.getD 28 go, 0, 0x1#32, by decide +kernel⟩

theorem witness_QueueMaskAndTargetWritesTakeEffect_1 :
  (∃ (s : State) (q : Fin 16) (v : Word),
    s.atRest ∧
    s.reaches (P.erq + 72 + 32 * q.val) ∧
    s.rdb P.erq Reg.ERQ_QCFG_en q.val = false ∧
    bit v.toNat 0 = true) ∧
  (∃ (s : State) (q : Fin 16),
    s.atRest ∧
    s.reaches (P.erq + 1036 + 16 * q.val)) ∧
  (∃ (s : State) (v : Word),
    s.atRest ∧
    s.reaches (P.erq + 584) ∧
    s.rdb P.erq Reg.MBX_CFG_en = false ∧
    bit v.toNat 0 = true) ∧
  (∃ (s : State) (v : Word),
    s.atRest ∧
    s.reaches (P.erq + 612) ∧
    validTarget (v.toNat % 256) = false) ∧
  (∃ (s : State) (v : Word) (x : Nat),
    let src : Nat := s.rd P.erq Reg.ERQ_TSEL_src
    s.atRest ∧
    s.reaches (P.erq + 612) ∧
    validTarget (v.toNat % 256) = true ∧
    (s.target src = 0 ∨ s.targetMayChange src = true) ∧
    x ≠ src) ∧
  (∃ (s : State) (q : Fin 16),
    s.atRest ∧
    s.reaches (P.erq + 72 + 32 * q.val) ∧
    s.rdb P.erq Reg.ERQ_QCFG_en q.val = true) ∧
  (∃ (s : State) (q : Fin 16),
    s.atRest ∧
    s.reaches (P.erq + 72 + 32 * q.val) ∧
    s.rdb P.erq Reg.ERQ_QCFG_en q.val = true) := by
  refine ⟨?_, ?_, ?_, ?_, ?_, ?_, ?_⟩
  · exact ⟨go, 0, 0x41#32, by decide +kernel⟩
  · exact ⟨go, 0, by decide +kernel⟩
  · exact ⟨go, 0x41#32, by decide +kernel⟩
  · exact ⟨go, 0x41#32, by decide +kernel⟩
  · exact ⟨go, 0x0#32, 1, by decide +kernel⟩
  · exact ⟨full (go), 0, by decide +kernel⟩
  · exact ⟨pe (go), 0, by decide +kernel⟩

theorem witness_QueueMaskAndTargetWritesTakeEffect_2 :
  (∃ (s : State) (q : Fin 16),
    s.atRest ∧
    s.reaches (P.erq + 1036 + 16 * q.val) ∧
    bit (s.rd P.erq Reg.MSIX_PBA_pend) q.val = true ∧
    s.host.funcMask = false ∧
    s.rdb P.pcie Reg.PCIE_STAT_msix_en = true ∧
    s.bme = true) ∧
  (∃ (s : State) (v : Word),
    s.atRest ∧
    s.reaches (P.erq + 584) ∧
    s.rdb P.erq Reg.MBX_CFG_en = false ∧
    bit v.toNat 0 = true) ∧
  (∃ (s : State) (v : Word),
    s.atRest ∧
    s.reaches (P.erq + 612) ∧
    validTarget (v.toNat % 256) = false) ∧
  (∃ (s : State) (q : Fin 16) (v : Word),
    s.atRest ∧
    s.reaches (P.erq + 72 + 32 * q.val) ∧
    s.rdb P.erq Reg.ERQ_QCFG_en q.val = false ∧
    bit v.toNat 0 = true) ∧
  (∃ (s : State),
    s.atRest ∧
    s.reaches (P.erq + 584) ∧
    s.rdb P.erq Reg.MBX_CFG_en = true) ∧
  (∃ (s : State) (v : Word),
    let src : Nat := s.rd P.erq Reg.ERQ_TSEL_src
    s.atRest ∧
    s.reaches (P.erq + 612) ∧
    validTarget (v.toNat % 256) = true ∧
    s.target src ≠ 0 ∧
    s.targetMayChange src = false) ∧
  (∃ (s : State) (v : Word) (x : Nat),
    let src : Nat := s.rd P.erq Reg.ERQ_TSEL_src
    s.atRest ∧
    s.reaches (P.erq + 612) ∧
    validTarget (v.toNat % 256) = true ∧
    (s.target src = 0 ∨ s.targetMayChange src = true) ∧
    x ≠ src) := by
  refine ⟨?_, ?_, ?_, ?_, ?_, ?_, ?_⟩
  · exact ⟨pe (go), 0, by decide +kernel⟩
  · exact ⟨pe (go), 0x41#32, by decide +kernel⟩
  · exact ⟨pe (go), 0x41#32, by decide +kernel⟩
  · exact ⟨tg (go), 0, 0x41#32, by decide +kernel⟩
  · exact ⟨tg (go), by decide +kernel⟩
  · exact ⟨tg (go), 0x0#32, by decide +kernel⟩
  · exact ⟨pe (go), 0x0#32, 1, by decide +kernel⟩

end WitH

/-! #### Witnesses: faults, engine resets, Hearth, Quench -/

namespace WitX

def jb (c tag : Nat) : Job := { (default : Job) with ctx := c, tag := tag, kind := .host, phase := 1, tongs := 1 }
def gj : State := {go with sched := {go.sched with jobs := [(1, jb 2 513),(5, jb 3 5)], order := [5,1]}, ctxs := [(2, {(default : Ctx) with billet := none})], mem := [(0x2000000000,5),(0x2000400009,5),(0x3000000009,8)] }
def fen (s : State) : State := ((([0,1,31].foldl (fun s e => s.setEng e {s.eng e with underTest := true, retest := some true}) s).wr P.schG Reg.SCH_FENCE_mask 0x80000001).wr P.schG Reg.SCH_PLACE_tongs_fenced 3).wr (P.anv 0 0) Reg.BLK_STAT_state 4
def ut (s : State) : State := (List.range 36).foldl (fun s e => s.setEng e {s.eng e with underTest := true, retest := some (e % 2 == 0)}) s
def mskd (s : State) : State := ([0,0x100,0x1f0,0x300,0x330,0x401,0x501,0x802,0x900,0xe00,0x1f] : List (BitVec 12)).foldl (fun s n => (s.wr (n.toNat * 4096) Reg.BLK_ERR_MASK_common 7).wr (n.toNat * 4096) Reg.BLK_ERR_MASK_blk 255) s
def rq (s : State) : State := {(s.wr P.flt Reg.FLT_FENCE_rq 8) with coll := {s.coll with retests := [(67, true)], reloading := true}}
def rl (s : State) : State := {s.wrb P.flt Reg.FLT_STAT_busy true with coll := {s.coll with pendingJobs := [], reloading := true}}
def rl2 (s : State) : State := {s.wrb P.flt Reg.FLT_STAT_busy true with coll := {s.coll with pendingJobs := [513], reloading := true}}
def hi (s : State) : State := {s.wrb P.flt Reg.FLT_HWDG_held false with coll := {s.coll with hearthHalted := true}}
def kk (s : State) : State := {s with coll := {s.coll with kicked := 15}}
def sa (s : State) : State := {s with seq := {s.seq with shutdownAsked := true}}
def wv (s : State) : State := {s with quench := {s.quench with waveUnits := [3,60,69,64,57,4,59,99]}}
def sb (s : State) : State := sa ((s.wr (P.schC 2) Reg.SCH_CTX_STAT_state 4).wr (P.schC 3) Reg.SCH_CTX_STAT_state 5)

theorem witness_EngineResetsClearCheckAndRestart :
  (∃ (s : State) (e : Fin 36) (pass : Bool),
    s.calm ∧
    (s.eng e.val).underTest = true ∧
    s.engFenced e.val = false ∧
    pass = true) ∧
  (∃ (s : State) (e : Fin 36) (d : Nat),
    s.calm ∧
    (s.eng e.val).underTest = true ∧
    d ≠ e.val ∧
    s.engFenced e.val = true) ∧
  (∃ (s : State) (e : Fin 36) (pass : Bool),
    s.calm ∧
    (s.eng e.val).underTest = true ∧
    s.engFenced e.val = false ∧
    pass = false ∧
    s.masked (P.eng e.val) 4 = false) ∧
  (∃ (s : State) (e : Fin 36) (i : Nat),
    let b : Nat := (List.drop 0 (engBanks e.val)).head!
    s.atRest ∧
    s.reaches 68 ∧
    i < bankSize b ∧
    s.engFenced e.val = false) ∧
  (∃ (s : State) (e : Fin 36) (d : Nat),
    s.atRest ∧
    s.reaches 68 ∧
    s.engFenced e.val = true ∧
    d ≠ e.val) ∧
  (∃ (s : State) (e : Fin 36),
    s.calm ∧
    (s.eng e.val).underTest = true ∧
    s.engFenced e.val = true ∧
    s.coll.lastUnit = some e.val) := by
  refine ⟨?_, ?_, ?_, ?_, ?_, ?_⟩
  · exact ⟨ut gj, 0, true, by decide +kernel⟩
  · exact ⟨fen gj, 0, 1, by decide +kernel⟩
  · exact ⟨ut gj, 0, false, by decide +kernel⟩
  · exact ⟨gj, 0, 0, by decide +kernel⟩
  · exact ⟨fen gj, 0, 1, by decide +kernel⟩
  · exact ⟨{ut (fen gj) with coll := {gj.coll with lastUnit := some 0}}, 0, by decide +kernel⟩

theorem witness_FaultsAreRecordedActedOnAndFenced :
  (∃ (s : State) (f : FaultReport) (e : Nat) (i : Nat),
    let n : Nat := f.src.toNat + f.page.toNat
    let base : Nat := n * 4096
    let b : Nat := (List.drop 0 (engBanks e)).head!
    s.calm ∧
    e < 36 ∧
    f.residue = false ∧
    f.also = none ∧
    engineOfPage n = some e ∧
    (pageInfo n).isSome = true ∧
    f.cause ≠ 0 ∧
    s.masked base f.cause.toNat = false ∧
    s.engFenced e = false ∧
    (s.eng e).cur = none ∧
    i < bankSize b) ∧
  (∃ (s : State) (f : FaultReport),
    let n : Nat := f.src.toNat + f.page.toNat
    let base : Nat := n * 4096
    s.calm ∧
    f.residue = false ∧
    f.also = none ∧
    (pageInfo n).isSome = true ∧
    f.cause ≠ 0 ∧
    s.masked base f.cause.toNat = false ∧
    engineOfPage n = none ∧
    (¬(1281 ≤ n ∧ n ≤ 1288 ∧ f.cause = 2)) ∧
    base ≠ P.rtu ∧
    base ≠ P.arcG ∧
    (¬(1536 ≤ n ∧ n < 1561)) ∧
    (¬(1792 ≤ n ∧ n < 1796))) ∧
  (∃ (s : State) (f : FaultReport) (e : Nat),
    let n : Nat := f.src.toNat + f.page.toNat
    s.calm ∧
    e < 32 ∧
    f.residue = true ∧
    engineOfPage f.src.toNat = some e ∧
    engineOfPage n = some e ∧
    s.unitFenced (64 + e) = false ∧
    s.engFenced e = false) ∧
  (∃ (s : State) (f : FaultReport) (e : Nat),
    let n : Nat := f.src.toNat + f.page.toNat
    let base : Nat := n * 4096
    s.calm ∧
    e < 36 ∧
    f.residue = false ∧
    f.also = none ∧
    engineOfPage n = some e ∧
    (pageInfo n).isSome = true ∧
    f.cause ≠ 0 ∧
    s.masked base f.cause.toNat = false ∧
    s.isFenced base = true ∧
    s.engFenced e = true) ∧
  (∃ (s : State) (f : FaultReport),
    let n : Nat := f.src.toNat + f.page.toNat
    let base : Nat := n * 4096
    s.calm ∧
    f.residue = false ∧
    f.also = none ∧
    (pageInfo n).isSome = true ∧
    f.cause ≠ 0 ∧
    s.masked base f.cause.toNat = true ∧
    s.inFault base = false ∧
    s.isFenced base = false ∧
    s.rd base Reg.BLK_ERR_cause ≠ f.cause.toNat ∧
    base ≠ P.arcG) ∧
  (∃ (s : State) (f : FaultReport),
    let n : Nat := f.src.toNat + f.page.toNat
    let base : Nat := n * 4096
    let c : BitVec 8 := f.also.get!
    s.calm ∧
    f.also = some c ∧
    c ≠ 0 ∧
    f.residue = false ∧
    (pageInfo n).isSome = true ∧
    f.cause ≠ 0 ∧
    s.masked base f.cause.toNat = false ∧
    s.masked base c.toNat = false ∧
    engineOfPage n = none ∧
    s.rd base Reg.BLK_ERR_cause = 0 ∧
    s.inFault base = false ∧
    s.isFenced base = false ∧
    (¬(1281 ≤ n ∧ n ≤ 1288))) ∧
  (∃ (s : State) (f : FaultReport),
    let n : Nat := f.src.toNat + f.page.toNat
    s.calm ∧
    f.residue = false ∧
    (pageInfo n = none ∨ f.cause = 0 ∧ f.also = none)) := by
  refine ⟨?_, ?_, ?_, ?_, ?_, ?_, ?_⟩
  · exact ⟨gj, { src := 0x100#12, page := 0x0#7, cause := 0x1#8, residue := false, also := none }, 0, 0, by decide +kernel⟩
  · exact ⟨gj, { src := 0x0#12, page := 0x0#7, cause := 0x1#8, residue := false, also := none }, by decide +kernel⟩
  · exact ⟨gj, { src := 0x100#12, page := 0x0#7, cause := 0x0#8, residue := true, also := none }, 0, by decide +kernel⟩
  · exact ⟨fen gj, { src := 0x100#12, page := 0x0#7, cause := 0x1#8, residue := false, also := none }, 0, by decide +kernel⟩
  · exact ⟨mskd gj, { src := 0x0#12, page := 0x0#7, cause := 0x2#8, residue := false, also := none }, by decide +kernel⟩
  · exact ⟨gj, { src := 0x0#12, page := 0x0#7, cause := 0x1#8, residue := false, also := some 0x3#8 }, by decide +kernel⟩
  · exact ⟨gj, { src := 0x0#12, page := 0x0#7, cause := 0x0#8, residue := false, also := none }, by decide +kernel⟩

theorem witness_UnfenceReturnsOnlyUnitsThatPassed :
  (∃ (s : State) (v : Word),
    let u : Nat := bits v.toNat 0 7
    s.calm ∧
    s.reaches (P.flt + 80) ∧
    bits v.toNat 16 16 = 36651 ∧
    u < 36 ∧
    s.engFenced u = true ∧
    (s.eng u).retest = some true) ∧
  (∃ (s : State),
    s.calm ∧
    s.coll.reloading = true ∧
    s.coll.pendingJobs = [] ∧
    s.rdb P.flt Reg.FLT_STAT_busy = true) ∧
  (∃ (s : State) (v : Word),
    let u : Nat := bits v.toNat 0 7
    s.calm ∧
    s.reaches (P.flt + 80) ∧
    bits v.toNat 16 16 = 36651 ∧
    64 ≤ u ∧
    u < 96 ∧
    s.unitFenced u = true ∧
    s.coll.retests.find? u = some true) ∧
  (∃ (s : State) (v : Word),
    let u : Nat := bits v.toNat 0 7
    s.calm ∧
    s.reaches (P.flt + 80) ∧
    (bits v.toNat 16 16 ≠ 36651 ∨ u ≠ 96 ∧ (s.unitFenced u = false ∨ s.retestOf u ≠ some true))) ∧
  (∃ (s : State),
    s.calm ∧
    s.coll.reloading = true ∧
    s.coll.pendingJobs ≠ []) := by
  refine ⟨?_, ?_, ?_, ?_, ?_⟩
  · exact ⟨rl (fen gj), 0x8f2b0000#32, by decide +kernel⟩
  · exact ⟨rl (fen gj), by decide +kernel⟩
  · exact ⟨rq (gj), 0x8f2b0043#32, by decide +kernel⟩
  · exact ⟨gj, 0x8f2b0000#32, by decide +kernel⟩
  · exact ⟨rl2 (gj), by decide +kernel⟩

theorem witness_HearthHaltsRestartsAndIsHeld :
  (∃ (s : State) (n : BitVec 8),
    let p : (State → Host.Outcome State Fault Refusal) × Nat × Nat := (execHearthWatchdogExpiry n, 1, 241)
    s.calm ∧
    s.inReset = false ∧
    s.unpowered = false ∧
    s.coll.hearthHalted = false ∧
    (p.snd.fst = 1 → s.coll.kicked ≠ 15) ∧
    n.toNat < 3) ∧
  (∃ (s : State),
    s.atRest ∧
    s.reaches (P.flt + 84) ∧
    s.coll.hearthHalted = false) ∧
  (∃ (s : State),
    s.calm ∧
    s.inReset = false ∧
    s.unpowered = false ∧
    s.coll.kicked = 15) ∧
  (∃ (s : State) (n : BitVec 8),
    let p : (State → Host.Outcome State Fault Refusal) × Nat × Nat := (execHearthException n, 2, 242)
    s.calm ∧
    s.inReset = false ∧
    s.unpowered = false ∧
    s.coll.hearthHalted = false ∧
    (p.snd.fst = 1 → s.coll.kicked ≠ 15) ∧
    3 ≤ n.toNat) ∧
  (∃ (s : State),
    s.calm ∧
    s.coll.hearthHalted = true ∧
    s.rdb P.flt Reg.FLT_HWDG_held = false ∧
    s.host.mbxTaken = []) := by
  refine ⟨?_, ?_, ?_, ?_, ?_⟩
  · exact ⟨gj, 0x0#8, by decide +kernel⟩
  · exact ⟨gj, by decide +kernel⟩
  · exact ⟨kk (gj), by decide +kernel⟩
  · exact ⟨kk (gj), 0x4#8, by decide +kernel⟩
  · exact ⟨hi (gj), by decide +kernel⟩

theorem witness_QuenchWavesIsolateTestAndRecord :
  (∃ (s : State),
    (s.rtu.entries ≠ [] ∨ s.seq.shutdownAsked = false) ∧
    s.calm ∧
    s.quench.waveUnits ≠ []) ∧
  (∃ (s : State) (g : BitVec 8) (us : List (Fin 70)) (ok : Bool),
    let plan : Prop := s.rd P.tmp Reg.TMP_LC_state = 1 ∨ s.rd P.tmp Reg.TMP_LC_state = 4 ∨ ∀ (u : Fin 70), u ∈ us → unitGroup u.val = g.toNat
    let u : Fin 70 := (List.drop 0 us).head!
    let _p : Nat := (List.drop 0 (unitPages u.val)).head!
    s.atRest ∧
    s.clocked = true ∧
    s.shutdownStop.quenchAllowed (List.map Fin.val us) = true ∧
    plan ∧
    s.shutdownStop.quench.waveUnits = [] ∧
    ok = true ∧
    (∀ (u : Fin 70), u ∈ us → ∀ (p : Nat), p ∈ unitPages u.val → s.shutdownStop.inFault p = false) ∧
    u.val < 32) ∧
  (∃ (s : State) (g : BitVec 8) (us : List (Fin 70)) (ok : Bool) (c : Nat),
    let plan : Prop := s.rd P.tmp Reg.TMP_LC_state = 1 ∨ s.rd P.tmp Reg.TMP_LC_state = 4 ∨ ∀ (u : Fin 70), u ∈ us → unitGroup u.val = g.toNat
    s.atRest ∧
    s.clocked = true ∧
    s.seq.shutdownAsked = true ∧
    s.seq.ctxsStopped = false ∧
    s.rtu.entries = [] ∧
    c < 8 ∧
    (s.shutdownStop.quenchAllowed (List.map Fin.val us) = false ∨ ¬plan ∨ s.shutdownStop.quench.waveUnits ≠ [] ∨ ok = false)) ∧
  (∃ (s : State) (us : List (Fin 70)),
    (s.rtu.entries ≠ [] ∨ s.seq.shutdownAsked = false) ∧
    s.atRest ∧
    s.quenchAllowed (List.map Fin.val us) = true ∧
    s.quench.waveUnits = []) ∧
  (∃ (s : State),
    s.atRest ∧
    s.clocked = false ∧
    (s.rtu.entries ≠ [] ∨ s.seq.shutdownAsked = false)) := by
  refine ⟨?_, ?_, ?_, ?_, ?_⟩
  · exact ⟨wv (gj), by decide +kernel⟩
  · exact ⟨sb go, 0x2#8, [3, 4, 3], true, by decide +kernel⟩
  · exact ⟨sb gj, 0x2#8, [], true, 0, by decide +kernel⟩
  · exact ⟨gj.wr P.tmp Reg.TMP_LC_state 4, [52, 51], by decide +kernel⟩
  · exact ⟨{gj with seq := {gj.seq with power := .banked}}, by decide +kernel⟩

end WitX

/-! #### Witnesses: engine commands -/

namespace WitE

def bil : Billet := { (default : Billet) with addr := 0, len := 0, formatKnown := true, aUnits := 4, wUnits := 3, pUnits := 3, xUnits := 4, n4Units := 0, n5Units := 0, anvCmds := 10, tngCmds := 10, quota := 3, copy0 := 0, copy1 := 0, primCam := 0, primEn := false, failsafe := false, refLine := 0, prio := 0, specEn := false, actMap := [], decl0 := 0, decl1 := 0, prot := false, thresholds := [3,7], waits := [(0, 2, 0x2000000100, 8, 10),(3, 2, 0x2000000100, 8, 10)], earlyExit := true, inputLen := 0, windows := [(0x100000,0x10000)], stepBytes := [], stepAddrs := [], stepEngines := [], flows := [] }
def jx : Job := { (default : Job) with ctx := 2, kind := .host, tag := 5, counts := [(0, 9), (1, 3)], tongs := 1 }
def jy : Job := { jx with taken := [0] }
def base (x : Job) (e : Nat) : State :=
  let s := { go with ctxs := [(2, { (default : Ctx) with billet := some bil, waitsDone := [50] })], sched := { go.sched with jobs := [(5, x)], order := [5] } }
  let s := s.wr (P.schC 2) Reg.SCH_CTX_STAT_state 4
  let s := s.wr (P.eng e) Reg.ANV_CFG_ctx_en 255
  let s := (s.wr (seqPage e) Reg.ANV_CTX_BUF_base 100 2).wr (seqPage e) Reg.ANV_CTX_BUF_size 300 2
  (List.range 202).foldl (fun s b => s.wr P.bank Reg.BANK_CTL_pwr 2 b) s
def arm (s : State) (e : Nat) (x : Job) (ws : List Cmd) (pos : Nat) (ds : List (Nat × List Byte)) : State :=
  s.setEng e { s.eng e with cur := some 2, jobOf := [(2, x.tag + 1)], begun := [x.tag], progs := [(2, { start := 64, cmds := ws, descs := ds, pos := pos })], tokens := [(33, 4), (34, 255), (50, 3)], gated := true, preReq := some 3 }
def between (s : State) (e : Nat) (x : Job) (ws : List Cmd) (ds : List (Nat × List Byte)) : State :=
  let s := arm s e x ws 0 ds
  s.setEng e { s.eng e with cur := none, preReq := some 2 }
def W (a b c d : Nat) : Cmd := ⟨BitVec.ofNat 32 a, BitVec.ofNat 32 b, BitVec.ofNat 32 c, BitVec.ofNat 32 d⟩
def sg (op tok : Nat) := op + 65536 * tok + 2^20
def wtk (op tok : Nat) := op + 256 * tok + 2^12
def seqW := [W 0 0 0 0, W (sg 0 1) 0 0 0, W (sg 0 2) 0 0 0, W (wtk 0 1) 0 0 0, W (wtk 0 5) 0 0 0, W 9 0 0 0, W 0x20 0 0 0, W 6 1 3 0, W 6 8 3 0, W 6 2 5 0]
def st (e : Nat) (w : Cmd) : State := arm (base jx e) e jx [w] 0 []
def p1 : List State := [0, 33].flatMap (fun e => seqW.map (st e))
def qd (e : Nat) (w : Cmd) : State := let s := st e w; s.setEng e { s.eng e with queued := [⟨2, 5, W (wtk 0 7) 0 0 0, 0⟩], inflight := [(2, W 5 1 2 3), (2, W (sg 2 3) 1 0 0), (2, W 6 1 0 0), (2, W (sg 0x22 1) 1 0 0)] }
def infl (e : Nat) : State := let s := st e (W 0 0 0 0); s.setEng e {s.eng e with inflight := [(2, W 5 1 2 3), (2, W (sg 2 3) 1 0 0), (2, W 6 1 0 0), (2, W (sg 0x22 1) 1 0 0)]}
def infb (e : Nat) : State := let s := infl e; s.setEng e {s.eng e with barrier := some (3, 3)}
def ofW (e : Nat) : State := let s := infl e; s.setEng e {s.eng e with inflight := [(2, W 5 1 2 3)], queued := [⟨2, 5, W 0 0 0 0, 0⟩]}
def bar2 : State := let s := st 0 (W 0 0 0 0); [0,1,32,33].foldl (fun s e => s.setEng e {s.eng e with barrier := some (3, 3), inflight := [(2, W (sg 6 1) 1 3 0), (2, W 5 1 2 3)]}) s
def poisonAt (a : Nat) (s : State) : State := { s with msys := { s.msys with poison := [a / 8] } }
def btw (e : Nat) (w : Cmd) : State := between (base jx e) e jx [w] []
def isMem (e : Nat) : State := let s := between (base jx e) e jx [] []; { s with mem := Memory.writeBytes s.mem 0x1040 ([W 0 0 0 0, W 15 0 0 0].flatMap (fun (w : Cmd) => le 4 w.w0.toNat ++ le 4 w.w1.toNat ++ le 4 w.w2.toNat ++ le 4 w.w3.toNat)) }.wr2 (seqPage e) Reg.ANV_CTX_PROG_lo Reg.ANV_CTX_PROG_hi 0x1000 2
def fl (e : Nat) : State := let s := st e (W 0 0 0 0); s.wr (P.eng e) Reg.BLK_STAT_state 3
def wpoolE0 : List State := (p1 ++ [qd 0 (W 0 0 0 0), qd 0 (W 5 0 0 0), qd 33 (W 0 0 0 0), qd 0 (W 15 0 0 0), infl 0, infl 33, infb 0, infb 33, ofW 0, bar2, fl 0, btw 0 (W 0 0 0 0), btw 33 (W 3 0 0 0), isMem 0, isMem 33, poisonAt 0x1040 (isMem 0), base jx 0])
def st2 (e : Nat) (w : Cmd) : State := arm (base jx e) e jx [w] 0 []
def sty (e : Nat) (w : Cmd) : State := arm (base jy e) e jy [w] 0 []
def pos1 (e : Nat) (w : Cmd) : State := arm (base jx e) e jx [W 0 0 0 0, w] 1 []
def ws1 := [W 7 2 0 0, W (sg 7 1) 2 0 0, W 7 5 0 0, W 8 0 16 0, W 8 1 16 0, W 8 0xffff 32 0, W 8 256 0 0, W 8 3 7 0, W (sg 8 2) 0 32 0]
def ws2 := [W 15 0 0 0, W (sg 15 0) 0 0 0]
def jend : Job := { jx with ended := some 1 }
def stE (e : Nat) (w : Cmd) : State := arm (base jend e) e jend [w] 0 []
def wd (e : Nat) (w : Cmd) : State := let s := st2 e w; s.setCtx 2 {s.ctx 2 with waitsDone := [16 * e + 2, 50]}
def ph (e : Nat) (w : Cmd) : State := let s := st2 e w; s.setEng e {s.eng e with phase := 2}
def sm (e : Nat) (w : Cmd) : State := let s := st2 e w; s.setEng e {s.eng e with sample := some none, branch := some 32}
def br (e : Nat) (w : Cmd) : State := let s := st2 e w; s.setEng e {s.eng e with preReq := some 2, branch := some 32}
def tab (a : Nat) (l : List Cmd) (s : State) (e : Nat) : State := { s with mem := Memory.writeBytes s.mem (0x1000 + a) (l.flatMap (fun (w : Cmd) => le 4 w.w0.toNat ++ le 4 w.w1.toNat ++ le 4 w.w2.toNat ++ le 4 w.w3.toNat)) }.wr2 (seqPage e) Reg.ANV_CTX_PROG_lo Reg.ANV_CTX_PROG_hi 0x1000 2
def lst : List Cmd := [W 15 0 0 0]
def regen (e : Nat) (w : Cmd) : State := st2 e w
def p2 : List State := ([0].flatMap (fun e => (ws1 ++ ws2).map (st2 e))) ++ (ws2.map (st2 33)) ++ (ws1.map (pos1 0)) ++ (ws1.map (wd 0)) ++ (ws1.map (sty 0)) ++ (ws2.map (stE 0)) ++ (ws2.map (stE 33))
 ++ (ws2.flatMap (fun w => [ph 0 w, ph 33 w, sm 0 w, sm 33 w, br 0 w, br 33 w, tab 0x50 lst (st2 0 w) 0, tab 0x50 lst (st2 33 w) 33, tab 32 lst (sm 0 w) 0, tab 32 lst (let s := sm 0 w; s.setEng 0 { s.eng 0 with sample := some (some 3) }) 0]))
def wpoolE1 : List State := p2
def d32 (l : List Nat) : List Byte := l.flatMap (le 4)
def descs : List (Nat × List Byte) := [(0, d32 [0x100, 64, 8, 0, 0, 0, 0x00080008, 0x0202]), (0x20, d32 [0x100, 64, 8, 0, 0x8000, 0, 0x00080008, 0x00070202]),
  (0x40, d32 [0xff000100, 64, 8, 0, 0, 0, 0x00080008, 0x0202]), (0x60, d32 [0x7f00, 64, 8, 0, 0, 0, 0x00080008, 0x0202]), (0x80, d32 [0x100, 64, 8, 0, 0x0000ffff, 0, 0x00080008, 0x00070202]), (0xa0, d32 [0x100, 64, 64, 0, 0, 0, 0x00080008, 0x0202])]
def wr32 (a : Nat) (l : List Nat) (s : State) : State := { s with mem := Memory.writeBytes s.mem a (l.flatMap (le 4)) }
def mem1 (s : State) (e : Nat) : State :=
  let s := wr32 (bankBase (bankOf e 0) + 0x100) [0x04030201, 0x05060708, 0x11121314, 0xf1f2f3f4] s
  let s := wr32 (bankBase (bankOf e 0) + 0x140) [0x14131211, 0x15161718, 0x11121314, 0xf1f2f3f4] s
  let s := wr32 (bankBase (bankOf e 4)) [0x01020304, 0xff020304, 0x7f808182, 0x01000000] s
  wr32 (bankBase (bankOf e 5)) [10, 20, 0x7fffffff, 30] s
def lw (o kt pt : Nat) := W 1 o (kt + 64 * pt) 0
def lww (o kt pt : Nat) := W 1 o (kt + 64 * pt + 2^13) 0
def lws := [lw 0 2 3, lw 0 2 4, lw 0 33 4, lw 0 2 5, lw 0x20 2 3, lw 0x40 2 2, lw 0x60 2 4, lw 0x80 2 4, lw 0xa0 2 4, lww 0 2 4, W (sg 1 1) 0 (2 + 64 * 4) 0, W (sg 1 1) 0x20 (2 + 64 * 4) 0, lw 0 32 1]
def st3 (e : Nat) (w : Cmd) : State := mem1 (arm (base jx e) e jx [w] 0 descs) e
def disown (s : State) (b : Nat) : State := s.wr P.bank Reg.BANK_CTL_owner 3 b
def inP (s : State) (e : Nat) : State := s.setEng e { s.eng e with inflight := [(2, W 2 0 0 0)] }
def skp (s : State) (e : Nat) : State := s.setEng e {s.eng e with skipNext := true}
def wpoolE2 : List State := (lws.flatMap (fun w => [st3 0 w, st3 3 w, disown (st3 0 w) (bankOf 0 0), inP (st3 0 w) 0, skp (st3 0 w) 0]))
def tl (wide : Bool) : Tile := { loaded := true, rows := 2, cols := 3, wide := wide, vals := [1,2,255,4,5,6]}
def pw (m pair acc grp w0 p0 : Nat) := W 2 w0 (m + 2^12 * pair + 2^16 * acc + 2^17 * grp) p0
def pws := [pw 1 0 0 0 0 0, pw 2 0 1 0 0 0, pw 2 1 1 0 8 64, pw 2 2 1 0 0 0, pw 2 4 1 0 0 0, pw 2 6 1 0 0 0, pw 1 2 0 2 0 0, pw 2 2 0 1 0 0, pw 0 0 0 0 0 0, pw 2 10 0 0 0 0, pw 2 0 0 0 0 100000, pw 2 0 0 0 16384 0, W (sg 2 1) 0 1 0]
def tile (s : State) (e : Nat) (wide : Bool) : State := s.setEng e {s.eng e with shadow := tl wide}
def pnd (s : State) (e : Nat) : State := s.setEng e {s.eng e with pendInit := [(4, 8)]}
def msk (s : State) (e : Nat) : State := s.wr (P.eng e) Reg.BLK_ERR_MASK_blk 1
def wpoolE3 : List State := (pws.flatMap (fun w => let p := tile (st3 0 w) 0 false; [p, tile (st3 3 w) 3 false, tile (st3 0 w) 0 true, st3 0 w, skp p 0, pnd p 0, disown p (bankOf 0 4), disown p (bankOf 0 5), msk p 0]))
def descs4 : List (Nat × List Byte) := [(0x1100, d32 [0x100000, 0x2000, 0x00000010, 0x00010005, 1, 0, 0, 0]), (0x1120, d32 [0x100000, 0x2000, 0x00000010, 0x00010000, 1, 0, 0, 0]),
  (0x1140, d32 [0x900000, 0x2000, 0x00000010, 0x00010004, 1, 0, 0, 0]), (0x1160, d32 [0x100010, 0x0000, 0x00100012, 0x00010008, 1, 0, 0, 0]), (0x1180, d32 [0x00000010, 0x0020, 0x00100012, 0x00010008, 1, 0, 0, 0]),
  (0x11a0, d32 [0x100010, 0x10000, 0x00100012, 0x00010008, 1, 0, 0, 0]), (0x11c0, d32 [0x100010, 0x20000, 0x00100012, 0x00010008, 1, 0, 0, 0])] ++ (List.range 12).map (fun i => (64 * i, List.replicate 64 (BitVec.ofNat 8 i)))
def dmem (s : State) : State :=
  let s := wr32 0x100000 [0x01020304,0x05060708, 0xffff] s
  let s := wr32 (bankBase (bankOf 0 1)) [0x01020304,0x05060708, 0xff80ffff, 0x3f800000, 0x40000000] s
  let s := wr32 (bankBase (bankX0 1)) [0x01020304,0x05060708, 0xff80ffff, 0x3f800000] s
  let s := wr32 (bankBase (bankOf 0 5)) [10, 20, 0x7fffffff, 30, 0x3f800000] s
  wr32 0x100010 [0x01020304,0x05060708, 0xffff] s
def cmds := (List.range 11).flatMap (fun i => [W 3 (64 * i) 1 0, W 3 (64 * i) 5 0, W 3 (64 * i) 2 16, W 4 (64 * i) 3 0]) ++ [W 3 64 2 (2^20), W 3 0 0 0, W 3 0 1 0, W 3 0 2 0, W 3 0 0 16, W 3 64 2 0, W 4 0 0 0, W 4 0 1 3, W 4 64 1 0, W 5 0x1100 0 0, W 5 0x1120 0 0, W 5 0x1140 0 0, W 5 0x1160 0 0, W 5 0x1180 0 0, W 5 0x11a0 0 0, W 5 0x11c0 0 0, W (sg 5 1) 0x160 0 0]
def poi (s : State) : State := {s with msys := {s.msys with poison := [0x100010/8]}}
def st4 (e : Nat) (w : Cmd) : State := dmem (arm (base jx e) e jx [w] 0 descs4)
def disown4 (s : State) (b : Nat) : State := s.wr P.bank Reg.BANK_CTL_owner 3 b
def wpoolE4 : List State := (cmds.flatMap (fun w => [st4 0 w, st4 33 w, disown4 (st4 0 w) (bankOf 0 0), poi (st4 0 w), poi (st4 33 w)]))

theorem witness_SequencerCommandsMoveSlotTokensAndBarriers_1 :
  (∃ (s : State) (e : Fin 36) (c : Fin 8) (w : Cmd) (up : Upset) (n : Nat),
    let g : Engine := s.eng e.val
    let held : Prop := cmdOp w = 6 ∧ g.barrier ≠ none ∨ cmdOp w = 7 ∧ g.rwait.contains (c.val, w.w1.toNat) = true
    let can : Prop := g.inflight.contains (c.val, w) = true ∧ ¬held ∧ s.engWorks e.val = true
    let u : State := s.bankUpset (ownBank e.val 0) up
    s.calm ∧
    can ∧
    u.engWorks e.val = true ∧
    g.queued = [] ∧
    (cmdSignals w = true → s.tokens e.val c.val (cmdSigTok w) ≠ 255) ∧
    n < 16) ∧
  (∃ (s : State) (e : Fin 36) (c : Fin 8) (w : Cmd) (up : Upset) (d : Nat),
    let g : Engine := s.eng e.val
    let held : Prop := cmdOp w = 6 ∧ g.barrier ≠ none ∨ cmdOp w = 7 ∧ g.rwait.contains (c.val, w.w1.toNat) = true
    let can : Prop := g.inflight.contains (c.val, w) = true ∧ ¬held ∧ s.engWorks e.val = true
    let u : State := s.bankUpset (ownBank e.val 0) up
    s.calm ∧
    can ∧
    u.engWorks e.val = true ∧
    g.queued = [] ∧
    (cmdSignals w = true → s.tokens e.val c.val (cmdSigTok w) ≠ 255) ∧
    d ≠ e.val) ∧
  (∃ (s : State) (e : Fin 36) (c : Nat),
    s.calm ∧
    c < 8 ∧
    (s.eng e.val).cur = some c ∧
    s.engWorks e.val = true) ∧
  (∃ (s : State) (e : Fin 36) (c : Fin 8) (w : Cmd) (up : Upset),
    let g : Engine := s.eng e.val
    let held : Prop := cmdOp w = 6 ∧ g.barrier ≠ none ∨ cmdOp w = 7 ∧ g.rwait.contains (c.val, w.w1.toNat) = true
    let can : Prop := g.inflight.contains (c.val, w) = true ∧ ¬held ∧ s.engWorks e.val = true
    let u : State := s.bankUpset (ownBank e.val 0) up
    s.calm ∧
    can ∧
    u.engWorks e.val = false ∧
    up = Upset.uncorrectable ∧
    s.rd (P.eng e.val) Reg.BLK_ERR_cause = 0) ∧
  (∃ (s : State) (id : Fin 16) (m : Word) (e : Nat) (n : Nat),
    let full : List Nat → Prop := fun es => s.clocked = true ∧ s.barrierFull es id.val m.toNat = true
    let leaves : Nat → Prop := fun e => e < 32 ∧ full (bitsOf 32 m.toNat) ∧ bit m.toNat e = true ∨ 32 ≤ e ∧ full (List.map (fun x => x + 32) (bitsOf 4 m.toNat)) ∧ bit m.toNat (e - 32) = true
    let at_ : Nat → Option (Nat × Cmd) := fun e => List.find? (fun f => decide (cmdOp f.snd = 6)) (s.eng e).inflight
    let f : Nat × Cmd := (at_ e).get!
    s.atRest ∧
    (∀ (e : Nat), e ∈ List.range 36 → leaves e → (s.eng e).queued = [] ∧ Option.all (fun f => !cmdSignals f.snd || decide (s.tokens e f.fst (cmdSigTok f.snd) ≠ 255)) (at_ e) = true) ∧
    e < 36 ∧
    leaves e ∧
    at_ e = some f ∧
    n < 16) ∧
  (∃ (s : State) (e : Fin 36) (c : Fin 8) (w : Cmd) (up : Upset),
    let g : Engine := s.eng e.val
    let held : Prop := cmdOp w = 6 ∧ g.barrier ≠ none ∨ cmdOp w = 7 ∧ g.rwait.contains (c.val, w.w1.toNat) = true
    let can : Prop := g.inflight.contains (c.val, w) = true ∧ ¬held ∧ s.engWorks e.val = true
    s.calm ∧
    (¬can) ∧
    up = Upset.correctable) ∧
  (∃ (s : State) (e : Fin 36) (c : Fin 8) (j : Fin 512) (w : Cmd) (x : Job),
    s.calm ∧
    s.issues e.val c.val j.val w x ∧
    cmdOp w = 6 ∧
    bit w.w1.toNat (maskBit e.val) = true) ∧
  (∃ (s : State) (e : Fin 36),
    s.calm ∧
    ((s.eng e.val).cur = none ∨ s.engWorks e.val = false)) := by
  refine ⟨?_, ?_, ?_, ?_, ?_, ?_, ?_, ?_⟩
  · exact ⟨wpoolE0.getD 24 go, 0, 2, { w0 := 0x5#32, w1 := 0x1#32, w2 := 0x2#32, w3 := 0x3#32 }, Upset.clean, 1, by decide +kernel⟩
  · exact ⟨wpoolE0.getD 24 go, 0, 2, { w0 := 0x5#32, w1 := 0x1#32, w2 := 0x2#32, w3 := 0x3#32 }, Upset.clean, 1, by decide +kernel⟩
  · exact ⟨wpoolE0.getD 24 go, 0, 2, by decide +kernel⟩
  · exact ⟨wpoolE0.getD 20 go, 0, 2, { w0 := 0x5#32, w1 := 0x1#32, w2 := 0x2#32, w3 := 0x3#32 }, Upset.uncorrectable, by decide +kernel⟩
  · exact ⟨wpoolE0.getD 29 go, 3, 0x3#32, 0, 0, by decide +kernel⟩
  · exact ⟨wpoolE0.getD 0 go, 0, 2, { w0 := 0x0#32, w1 := 0x0#32, w2 := 0x0#32, w3 := 0x0#32 }, Upset.correctable, by decide +kernel⟩
  · exact ⟨wpoolE0.getD 7 go, 0, 2, 5, { w0 := 0x6#32, w1 := 0x1#32, w2 := 0x3#32, w3 := 0x0#32 }, jx, by decide +kernel⟩
  · exact ⟨wpoolE0.getD 0 go, 3, by decide +kernel⟩

theorem witness_SequencerCommandsMoveSlotTokensAndBarriers_2 :
  (∃ (s : State) (e : Fin 36) (c : Fin 8) (j : Fin 512) (w : Cmd) (x : Job),
    let u : State := s.staged e.val c.val j.val w x
    s.calm ∧
    s.issues e.val c.val j.val w x ∧
    cmdOp w = 0 ∧
    u.signalFits e.val c.val w) ∧
  (∃ (s : State) (e : Fin 36) (c : Fin 8) (j : Fin 512) (w : Cmd) (x : Job),
    s.calm ∧
    s.nextIs e.val c.val j.val w x ∧
    (cmdOp w = 0 ∨ takesOp e.val (cmdOp w) = false)) ∧
  (∃ (s : State) (id : Fin 16) (m : Word) (e : Nat),
    let full : List Nat → Prop := fun es => s.clocked = true ∧ s.barrierFull es id.val m.toNat = true
    let leaves : Nat → Prop := fun e => e < 32 ∧ full (bitsOf 32 m.toNat) ∧ bit m.toNat e = true ∨ 32 ≤ e ∧ full (List.map (fun x => x + 32) (bitsOf 4 m.toNat)) ∧ bit m.toNat (e - 32) = true
    let at_ : Nat → Option (Nat × Cmd) := fun e => List.find? (fun f => decide (cmdOp f.snd = 6)) (s.eng e).inflight
    s.atRest ∧
    (∀ (e : Nat), e ∈ List.range 36 → leaves e → (s.eng e).queued = [] ∧ Option.all (fun f => !cmdSignals f.snd || decide (s.tokens e f.fst (cmdSigTok f.snd) ≠ 255)) (at_ e) = true) ∧
    e < 36 ∧
    (¬leaves e)) ∧
  (∃ (s : State) (e : Fin 32) (c : Fin 8) (j : Fin 512) (w : Cmd) (b : Bool),
    let q : Nat × Instr × Nat := (2, Instr.pass e c j w b, b2n b)
    s.calm ∧
    cmdOp w = q.fst) ∧
  (∃ (s : State) (e : Fin 36) (c : Fin 8) (w : Cmd) (up : Upset),
    let g : Engine := s.eng e.val
    let held : Prop := cmdOp w = 6 ∧ g.barrier ≠ none ∨ cmdOp w = 7 ∧ g.rwait.contains (c.val, w.w1.toNat) = true
    let can : Prop := g.inflight.contains (c.val, w) = true ∧ ¬held ∧ s.engWorks e.val = true
    s.calm ∧
    (¬can) ∧
    up = Upset.clean) ∧
  (∃ (s : State) (e : Fin 36) (c : Fin 8) (j : Fin 512) (w : Cmd) (x : Job),
    let u : State := s.staged e.val c.val j.val w x
    s.calm ∧
    s.issues e.val c.val j.val w x ∧
    cmdOp w = 0 ∧
    (¬u.signalFits e.val c.val w)) ∧
  (∃ (s : State) (e : Fin 36) (c : Fin 8) (j : Fin 512) (w : Cmd) (x : Job),
    s.calm ∧
    s.issues e.val c.val j.val w x ∧
    cmdOp w ≠ 0 ∧
    takesOp e.val (cmdOp w) = false) ∧
  (∃ (s : State) (e : Fin 36) (c : Fin 8) (j : Fin 512) (w : Cmd) (x : Job),
    s.calm ∧
    s.issues e.val c.val j.val w x ∧
    cmdOp w = 6 ∧
    bit w.w1.toNat (maskBit e.val) = false) := by
  refine ⟨?_, ?_, ?_, ?_, ?_, ?_, ?_, ?_⟩
  · exact ⟨wpoolE0.getD 0 go, 0, 2, 5, { w0 := 0x0#32, w1 := 0x0#32, w2 := 0x0#32, w3 := 0x0#32 }, jx, by decide +kernel⟩
  · exact ⟨wpoolE0.getD 0 go, 0, 2, 5, { w0 := 0x0#32, w1 := 0x0#32, w2 := 0x0#32, w3 := 0x0#32 }, jx, by decide +kernel⟩
  · exact ⟨wpoolE0.getD 0 go, 0, 0x0#32, 0, by decide +kernel⟩
  · exact ⟨wpoolE0.getD 0 go, 0, 2, 5, { w0 := 0x130002#32, w1 := 0x1#32, w2 := 0x0#32, w3 := 0x0#32 }, true, by decide +kernel⟩
  · exact ⟨wpoolE0.getD 0 go, 0, 2, { w0 := 0x0#32, w1 := 0x0#32, w2 := 0x0#32, w3 := 0x0#32 }, Upset.clean, by decide +kernel⟩
  · exact ⟨wpoolE0.getD 2 go, 0, 2, 5, { w0 := 0x120000#32, w1 := 0x0#32, w2 := 0x0#32, w3 := 0x0#32 }, jx, by decide +kernel⟩
  · exact ⟨wpoolE0.getD 5 go, 0, 2, 5, { w0 := 0x9#32, w1 := 0x0#32, w2 := 0x0#32, w3 := 0x0#32 }, jx, by decide +kernel⟩
  · exact ⟨wpoolE0.getD 8 go, 0, 2, 5, { w0 := 0x6#32, w1 := 0x8#32, w2 := 0x3#32, w3 := 0x0#32 }, jx, by decide +kernel⟩

theorem witness_WaitsBranchesAndStepEnds_1 :
  (∃ (s : State) (e : Fin 36) (c : Fin 8) (j : Fin 512) (k : BitVec 16) (w : Cmd) (x : Job) (d : Nat),
    let u : State := s.staged e.val c.val j.val w x k.toNat
    let g : Engine := u.eng e.val
    let req : Option Nat := g.sample.getD g.preReq
    let t : State := after (exec (Instr.stepEnd e c j k w) s)
    s.calm ∧
    s.issues e.val c.val j.val w x k.toNat ∧
    cmdOp w = 15 ∧
    x.check = none ∧
    s.sched.regen = none ∧
    g.phase = 0 ∧
    u.signalFits e.val c.val w ∧
    x.ended = none ∧
    d < 8 ∧
    req = some d ∧
    d ≠ c.val ∧
    t.jobReady e.val x = true) ∧
  (∃ (s : State) (e : Fin 32) (c : Fin 8) (j : Fin 512) (w : Cmd) (x : Job) (d : Nat),
    let ent : Nat := w.w1.toNat
    let first : Prop := ((s.taken e.val c.val x).prog e.val c.val).pos = 0
    let done : Bool := Option.any (fun y => decide (y.tag = x.tag)) (s.oldestJob c.val) && s.waitDone c.val e.val ent
    s.calm ∧
    s.issues e.val c.val j.val w x ∧
    cmdOp w = 7 ∧
    first ∧
    s.waitEntry c.val e.val ent ≠ none ∧
    done = false ∧
    d ≠ e.val) ∧
  (∃ (s : State) (e : Fin 32) (c : Fin 8) (j : Fin 512) (w : Cmd) (x : Job) (n : Nat),
    let ent : Nat := w.w1.toNat
    let first : Prop := ((s.taken e.val c.val x).prog e.val c.val).pos = 0
    let done : Bool := Option.any (fun y => decide (y.tag = x.tag)) (s.oldestJob c.val) && s.waitDone c.val e.val ent
    s.calm ∧
    s.issues e.val c.val j.val w x ∧
    cmdOp w = 7 ∧
    first ∧
    s.waitEntry c.val e.val ent ≠ none ∧
    done = false ∧
    n < 16) ∧
  (∃ (s : State) (e : Fin 32) (c : Fin 8) (j : Fin 512) (w : Cmd) (x : Job),
    let u : State := s.staged e.val c.val j.val w x
    let i : Nat := bits w.w1.toNat 0 16
    let bad : Prop := bits w.w1.toNat 16 16 ≠ 0 ∨ 255 < i ∧ i ≠ 65535 ∨ w.w2.toNat % 16 ≠ 0
    let above : Prop := s.threshold c.val i < x.counts.get i 0
    s.calm ∧
    s.issues e.val c.val j.val w x ∧
    cmdOp w = 8 ∧
    (¬bad) ∧
    u.signalFits e.val c.val w ∧
    i ≠ 65535 ∧
    above ∧
    x.taken.contains i = false) ∧
  (∃ (s : State) (e : Fin 36) (c : Fin 8) (j : Fin 512) (k : BitVec 16) (w : Cmd) (x : Job),
    let u : State := s.staged e.val c.val j.val w x k.toNat
    let g : Engine := u.eng e.val
    let req : Option Nat := g.sample.getD g.preReq
    s.calm ∧
    s.issues e.val c.val j.val w x k.toNat ∧
    cmdOp w = 15 ∧
    x.check = none ∧
    s.sched.regen = none ∧
    g.phase = 0 ∧
    u.signalFits e.val c.val w ∧
    x.ended = none ∧
    (req = none ∨ req = some c.val)) ∧
  (∃ (s : State) (e : Fin 36) (c : Fin 8) (j : Fin 512) (k : BitVec 16) (w : Cmd) (x : Job),
    let u : State := s.staged e.val c.val j.val w x k.toNat
    let g : Engine := u.eng e.val
    s.calm ∧
    s.issues e.val c.val j.val w x k.toNat ∧
    cmdOp w = 15 ∧
    x.check = none ∧
    s.sched.regen = none ∧
    g.phase = 0 ∧
    u.signalFits e.val c.val w ∧
    x.ended ≠ none) ∧
  (∃ (s : State) (e : Fin 32) (c : Fin 8) (j : Fin 512) (w : Cmd) (x : Job),
    let u : State := s.staged e.val c.val j.val w x
    let ent : Nat := w.w1.toNat
    let first : Prop := ((s.taken e.val c.val x).prog e.val c.val).pos = 0
    let done : Bool := Option.any (fun y => decide (y.tag = x.tag)) (s.oldestJob c.val) && s.waitDone c.val e.val ent
    s.calm ∧
    s.issues e.val c.val j.val w x ∧
    cmdOp w = 7 ∧
    first ∧
    s.waitEntry c.val e.val ent ≠ none ∧
    done = true ∧
    u.signalFits e.val c.val w) := by
  refine ⟨?_, ?_, ?_, ?_, ?_, ?_, ?_⟩
  · exact ⟨wpoolE1.getD 50 go, 0, 2, 5, 0x0#16, { w0 := 0xf#32, w1 := 0x0#32, w2 := 0x0#32, w3 := 0x0#32 }, jx, 3, by decide +kernel⟩
  · exact ⟨wpoolE1.getD 0 go, 0, 2, 5, { w0 := 0x7#32, w1 := 0x2#32, w2 := 0x0#32, w3 := 0x0#32 }, jx, 1, by decide +kernel⟩
  · exact ⟨wpoolE1.getD 0 go, 0, 2, 5, { w0 := 0x7#32, w1 := 0x2#32, w2 := 0x0#32, w3 := 0x0#32 }, jx, 1, by decide +kernel⟩
  · exact ⟨wpoolE1.getD 3 go, 0, 2, 5, { w0 := 0x8#32, w1 := 0x0#32, w2 := 0x10#32, w3 := 0x0#32 }, jx, by decide +kernel⟩
  · exact ⟨wpoolE1.getD 46 go, 0, 2, 5, 0x0#16, { w0 := 0xf#32, w1 := 0x0#32, w2 := 0x0#32, w3 := 0x0#32 }, jx, by decide +kernel⟩
  · exact ⟨wpoolE1.getD 40 go, 0, 2, 5, 0x0#16, { w0 := 0xf#32, w1 := 0x0#32, w2 := 0x0#32, w3 := 0x0#32 }, jend, by decide +kernel⟩
  · exact ⟨wpoolE1.getD 22 go, 0, 2, 5, { w0 := 0x7#32, w1 := 0x2#32, w2 := 0x0#32, w3 := 0x0#32 }, jx, by decide +kernel⟩

theorem witness_WaitsBranchesAndStepEnds_2 :
  (∃ (s : State) (e : Fin 36) (c : Fin 8) (j : Fin 512) (k : BitVec 16) (w : Cmd) (x : Job) (d : Nat),
    let u : State := s.staged e.val c.val j.val w x k.toNat
    let g : Engine := u.eng e.val
    let req : Option Nat := g.sample.getD g.preReq
    let t : State := after (exec (Instr.stepEnd e c j k w) s)
    s.calm ∧
    s.issues e.val c.val j.val w x k.toNat ∧
    cmdOp w = 15 ∧
    x.check = none ∧
    s.sched.regen = none ∧
    g.phase = 0 ∧
    u.signalFits e.val c.val w ∧
    d ≠ e.val ∧
    x.ended = none ∧
    d < 8 ∧
    req = some d ∧
    d ≠ c.val ∧
    t.jobReady e.val x = false) ∧
  (∃ (s : State) (e : Fin 36) (c : Fin 8) (j : Fin 512) (k : BitVec 16) (w : Cmd) (x : Job) (n : Nat),
    let u : State := s.staged e.val c.val j.val w x k.toNat
    let g : Engine := u.eng e.val
    s.calm ∧
    s.issues e.val c.val j.val w x k.toNat ∧
    cmdOp w = 15 ∧
    x.check = none ∧
    s.sched.regen = none ∧
    g.phase = 0 ∧
    u.signalFits e.val c.val w ∧
    n < 16) ∧
  (∃ (s : State) (e : Fin 32) (c : Fin 8) (j : Fin 512) (w : Cmd) (x : Job),
    let u : State := s.staged e.val c.val j.val w x
    let i : Nat := bits w.w1.toNat 0 16
    let bad : Prop := bits w.w1.toNat 16 16 ≠ 0 ∨ 255 < i ∧ i ≠ 65535 ∨ w.w2.toNat % 16 ≠ 0
    let above : Prop := s.threshold c.val i < x.counts.get i 0
    s.calm ∧
    s.issues e.val c.val j.val w x ∧
    cmdOp w = 8 ∧
    (¬bad) ∧
    u.signalFits e.val c.val w ∧
    (i = 65535 ∨ ¬above ∨ x.taken.contains i = true)) ∧
  (∃ (s : State) (e : Fin 32) (c : Fin 8) (j : Fin 512) (w : Cmd) (x : Job),
    let ent : Nat := w.w1.toNat
    let first : Prop := ((s.taken e.val c.val x).prog e.val c.val).pos = 0
    s.calm ∧
    s.issues e.val c.val j.val w x ∧
    cmdOp w = 7 ∧
    (¬first ∨ s.waitEntry c.val e.val ent = none)) ∧
  (∃ (s : State) (e : Fin 32) (c : Fin 8) (j : Fin 512) (w : Cmd) (x : Job),
    let i : Nat := bits w.w1.toNat 0 16
    let bad : Prop := bits w.w1.toNat 16 16 ≠ 0 ∨ 255 < i ∧ i ≠ 65535 ∨ w.w2.toNat % 16 ≠ 0
    s.calm ∧
    s.issues e.val c.val j.val w x ∧
    cmdOp w = 8 ∧
    bad) ∧
  (∃ (s : State) (e : Fin 36) (c : Fin 8) (j : Fin 512) (k : BitVec 16) (w : Cmd) (x : Job),
    let u : State := s.staged e.val c.val j.val w x k.toNat
    let g : Engine := u.eng e.val
    s.calm ∧
    s.issues e.val c.val j.val w x k.toNat ∧
    cmdOp w = 15 ∧
    x.check = none ∧
    s.sched.regen = none ∧
    g.phase ≠ 0) := by
  refine ⟨?_, ?_, ?_, ?_, ?_, ?_⟩
  · exact ⟨wpoolE1.getD 9 go, 0, 2, 5, 0x0#16, { w0 := 0xf#32, w1 := 0x0#32, w2 := 0x0#32, w3 := 0x0#32 }, jx, 3, by decide +kernel⟩
  · exact ⟨wpoolE1.getD 9 go, 0, 2, 5, 0x0#16, { w0 := 0xf#32, w1 := 0x0#32, w2 := 0x0#32, w3 := 0x0#32 }, jx, 3, by decide +kernel⟩
  · exact ⟨wpoolE1.getD 4 go, 0, 2, 5, { w0 := 0x8#32, w1 := 0x1#32, w2 := 0x10#32, w3 := 0x0#32 }, jx, by decide +kernel⟩
  · exact ⟨wpoolE1.getD 2 go, 0, 2, 5, { w0 := 0x7#32, w1 := 0x5#32, w2 := 0x0#32, w3 := 0x0#32 }, jx, by decide +kernel⟩
  · exact ⟨wpoolE1.getD 6 go, 0, 2, 5, { w0 := 0x8#32, w1 := 0x100#32, w2 := 0x0#32, w3 := 0x0#32 }, jx, by decide +kernel⟩
  · exact ⟨wpoolE1.getD 44 go, 0, 2, 5, 0x0#16, { w0 := 0xf#32, w1 := 0x0#32, w2 := 0x0#32, w3 := 0x0#32 }, jx, by decide +kernel⟩

theorem witness_LoadFillsTheStationaryTile :
  (∃ (s : State) (e : Fin 32) (c : Fin 8) (j : Fin 512) (w : Cmd) (x : Job) (r : Nat) (y : Nat),
    let u : State := s.staged e.val c.val j.val w x
    let kt : Nat := bits w.w2.toNat 0 6
    let pt : Nat := bits w.w2.toNat 6 7
    let wide : Bool := bit w.w2.toNat 13
    let d : AgDesc := readAg (u.descBytes e.val c.val w.w1.toNat)
    let fits : Prop := (u.eng e.val).skipNext = false ∧ 1 ≤ kt ∧ kt ≤ 32 ∧ 1 ≤ pt ∧ pt ≤ 64 ∧ d.ok pt wide = true
    let empty : Prop := ∀ (y : Nat), y < pt → d.addr 0 y = none
    let apart : Prop := allDistinct (List.map (fun x => x % 64) (List.filterMap (d.addr 0) (List.range pt))) = true
    let inside : Prop := ∀ (r : Nat),
    r < kt →
    ∀ (y : Nat),
    y < pt →
    ∀ a ∈ d.addr r y, u.inShare e.val c.val d.bank a 1 = true ∧ (wide = true → u.inShare e.val c.val d.bank (a + d.chPitch / 2) 1 = true)
    s.calm ∧
    s.issues e.val c.val j.val w x ∧
    cmdOp w = 1 ∧
    fits ∧
    u.ownServes e.val d.bank = true ∧
    (¬empty) ∧
    apart ∧
    inside ∧
    r < kt ∧
    y < pt) ∧
  (∃ (s : State) (e : Fin 32) (c : Fin 8) (j : Fin 512) (w : Cmd) (x : Job),
    let u : State := s.staged e.val c.val j.val w x
    let kt : Nat := bits w.w2.toNat 0 6
    let pt : Nat := bits w.w2.toNat 6 7
    let wide : Bool := bit w.w2.toNat 13
    let d : AgDesc := readAg (u.descBytes e.val c.val w.w1.toNat)
    let fits : Prop := (u.eng e.val).skipNext = false ∧ 1 ≤ kt ∧ kt ≤ 32 ∧ 1 ≤ pt ∧ pt ≤ 64 ∧ d.ok pt wide = true
    let empty : Prop := ∀ (y : Nat), y < pt → d.addr 0 y = none
    s.calm ∧
    s.issues e.val c.val j.val w x ∧
    cmdOp w = 1 ∧
    fits ∧
    u.ownServes e.val d.bank = true ∧
    empty ∧
    u.signalFits e.val c.val w) ∧
  (∃ (s : State) (e : Fin 32) (c : Fin 8) (j : Fin 512) (w : Cmd) (x : Job),
    let u : State := s.staged e.val c.val j.val w x
    let kt : Nat := bits w.w2.toNat 0 6
    let pt : Nat := bits w.w2.toNat 6 7
    let wide : Bool := bit w.w2.toNat 13
    let d : AgDesc := readAg (u.descBytes e.val c.val w.w1.toNat)
    let fits : Prop := (u.eng e.val).skipNext = false ∧ 1 ≤ kt ∧ kt ≤ 32 ∧ 1 ≤ pt ∧ pt ≤ 64 ∧ d.ok pt wide = true
    s.calm ∧
    s.issues e.val c.val j.val w x ∧
    cmdOp w = 1 ∧
    fits ∧
    u.ownServes e.val d.bank = false) ∧
  (∃ (s : State) (e : Fin 32) (c : Fin 8) (j : Fin 512) (w : Cmd) (x : Job),
    let u : State := s.staged e.val c.val j.val w x
    let kt : Nat := bits w.w2.toNat 0 6
    let pt : Nat := bits w.w2.toNat 6 7
    let wide : Bool := bit w.w2.toNat 13
    let d : AgDesc := readAg (u.descBytes e.val c.val w.w1.toNat)
    let fits : Prop := (u.eng e.val).skipNext = false ∧ 1 ≤ kt ∧ kt ≤ 32 ∧ 1 ≤ pt ∧ pt ≤ 64 ∧ d.ok pt wide = true
    s.calm ∧
    s.issues e.val c.val j.val w x ∧
    cmdOp w = 1 ∧
    (¬fits)) ∧
  (∃ (s : State) (e : Fin 32) (c : Fin 8) (j : Fin 512) (w : Cmd) (x : Job),
    let u : State := s.staged e.val c.val j.val w x
    let kt : Nat := bits w.w2.toNat 0 6
    let pt : Nat := bits w.w2.toNat 6 7
    let wide : Bool := bit w.w2.toNat 13
    let d : AgDesc := readAg (u.descBytes e.val c.val w.w1.toNat)
    let fits : Prop := (u.eng e.val).skipNext = false ∧ 1 ≤ kt ∧ kt ≤ 32 ∧ 1 ≤ pt ∧ pt ≤ 64 ∧ d.ok pt wide = true
    let empty : Prop := ∀ (y : Nat), y < pt → d.addr 0 y = none
    let apart : Prop := allDistinct (List.map (fun x => x % 64) (List.filterMap (d.addr 0) (List.range pt))) = true
    let inside : Prop := ∀ (r : Nat),
    r < kt →
    ∀ (y : Nat),
    y < pt →
    ∀ a ∈ d.addr r y, u.inShare e.val c.val d.bank a 1 = true ∧ (wide = true → u.inShare e.val c.val d.bank (a + d.chPitch / 2) 1 = true)
    s.calm ∧
    s.issues e.val c.val j.val w x ∧
    cmdOp w = 1 ∧
    fits ∧
    u.ownServes e.val d.bank = true ∧
    (¬empty) ∧
    (¬(apart ∧ inside))) := by
  refine ⟨?_, ?_, ?_, ?_, ?_⟩
  · exact ⟨wpoolE2.getD 0 go, 0, 2, 5, { w0 := 0x1#32, w1 := 0x0#32, w2 := 0xc2#32, w3 := 0x0#32 }, jx, 0, 0, by decide +kernel⟩
  · exact ⟨wpoolE2.getD 20 go, 0, 2, 5, { w0 := 0x1#32, w1 := 0x20#32, w2 := 0xc2#32, w3 := 0x0#32 }, jx, by decide +kernel⟩
  · exact ⟨wpoolE2.getD 2 go, 0, 2, 5, { w0 := 0x1#32, w1 := 0x0#32, w2 := 0xc2#32, w3 := 0x0#32 }, jx, by decide +kernel⟩
  · exact ⟨wpoolE2.getD 4 go, 0, 2, 5, { w0 := 0x1#32, w1 := 0x0#32, w2 := 0xc2#32, w3 := 0x0#32 }, jx, by decide +kernel⟩
  · exact ⟨wpoolE2.getD 30 go, 0, 2, 5, { w0 := 0x1#32, w1 := 0x60#32, w2 := 0x102#32, w3 := 0x0#32 }, jx, by decide +kernel⟩

theorem witness_PassAddsEachColumnIntoItsWord :
  (∃ (s : State) (e : Fin 32) (c : Fin 8) (j : Fin 512) (w : Cmd) (x : Job) (starved : Bool) (m : Nat) (y : Nat),
    let u : State := s.staged e.val c.val j.val w x (b2n starved)
    let g : Engine := u.eng e.val
    let a : PassArgs := readPass w
    let base : Nat := u.shareAt e.val c.val 5 + 4 * a.p0
    let n : Nat := passBytes a.pair a.m
    let last : Prop := a.group = 0 ∨ g.phase = groupPasses a.group - 1
    let own : Prop := u.ownServes e.val 4 = true ∧ u.ownServes e.val 5 = true
    let pIn : Prop := u.inShare e.val c.val 5 base (256 * a.m) = true
    let wIn : Prop := u.inShare e.val c.val 4 a.w0 (n + if a.group ≠ 0 ∧ last then 2 * a.m else 0) = true
    let v : Tile := g.shadow
    let filled : Prop := v.loaded = true ∧ v.wide = decide (10 ≤ a.pair)
    let good : Prop := u.passBad e.val a = false ∧ own ∧ pIn
    s.calm ∧
    s.issues e.val c.val j.val w x (b2n starved) ∧
    cmdOp w = 2 ∧
    good ∧
    g.skipNext = false ∧
    filled ∧
    wIn ∧
    starved = false ∧
    v.cols ≤ 64 ∧
    a.group = 0 ∧
    (pairAct a.pair).isFloat = false ∧
    m < a.m ∧
    y < v.cols ∧
    last) ∧
  (∃ (s : State) (e : Fin 32) (c : Fin 8) (j : Fin 512) (w : Cmd) (x : Job) (starved : Bool) (p : Nat),
    let u : State := s.staged e.val c.val j.val w x (b2n starved)
    let g : Engine := u.eng e.val
    let a : PassArgs := readPass w
    let base : Nat := u.shareAt e.val c.val 5 + 4 * a.p0
    let n : Nat := passBytes a.pair a.m
    let last : Prop := a.group = 0 ∨ g.phase = groupPasses a.group - 1
    let own : Prop := u.ownServes e.val 4 = true ∧ u.ownServes e.val 5 = true
    let pIn : Prop := u.inShare e.val c.val 5 base (256 * a.m) = true
    let wIn : Prop := u.inShare e.val c.val 4 a.w0 (n + if a.group ≠ 0 ∧ last then 2 * a.m else 0) = true
    let v : Tile := g.shadow
    let filled : Prop := v.loaded = true ∧ v.wide = decide (10 ≤ a.pair)
    let good : Prop := u.passBad e.val a = false ∧ own ∧ pIn
    s.calm ∧
    s.issues e.val c.val j.val w x (b2n starved) ∧
    cmdOp w = 2 ∧
    good ∧
    g.skipNext = false ∧
    filled ∧
    wIn ∧
    starved = false ∧
    v.cols ≤ 64 ∧
    (¬(bankBase (ownBank e.val 5) + base ≤ p ∧ p < bankBase (ownBank e.val 5) + base + 256 * a.m))) ∧
  (∃ (s : State) (e : Fin 32) (c : Fin 8) (j : Fin 512) (w : Cmd) (x : Job) (starved : Bool),
    let u : State := s.staged e.val c.val j.val w x (b2n starved)
    let g : Engine := u.eng e.val
    let a : PassArgs := readPass w
    let base : Nat := u.shareAt e.val c.val 5 + 4 * a.p0
    let own : Prop := u.ownServes e.val 4 = true ∧ u.ownServes e.val 5 = true
    let pIn : Prop := u.inShare e.val c.val 5 base (256 * a.m) = true
    let good : Prop := u.passBad e.val a = false ∧ own ∧ pIn
    s.calm ∧
    s.issues e.val c.val j.val w x (b2n starved) ∧
    cmdOp w = 2 ∧
    good ∧
    g.skipNext = true ∧
    u.signalFits e.val c.val w) ∧
  (∃ (s : State) (e : Fin 32) (c : Fin 8) (j : Fin 512) (w : Cmd) (x : Job) (starved : Bool),
    let u : State := s.staged e.val c.val j.val w x (b2n starved)
    let g : Engine := u.eng e.val
    let a : PassArgs := readPass w
    let base : Nat := u.shareAt e.val c.val 5 + 4 * a.p0
    let n : Nat := passBytes a.pair a.m
    let last : Prop := a.group = 0 ∨ g.phase = groupPasses a.group - 1
    let own : Prop := u.ownServes e.val 4 = true ∧ u.ownServes e.val 5 = true
    let pIn : Prop := u.inShare e.val c.val 5 base (256 * a.m) = true
    let wIn : Prop := u.inShare e.val c.val 4 a.w0 (n + if a.group ≠ 0 ∧ last then 2 * a.m else 0) = true
    let v : Tile := g.shadow
    let filled : Prop := v.loaded = true ∧ v.wide = decide (10 ≤ a.pair)
    let good : Prop := u.passBad e.val a = false ∧ own ∧ pIn
    s.calm ∧
    s.issues e.val c.val j.val w x (b2n starved) ∧
    cmdOp w = 2 ∧
    good ∧
    g.skipNext = false ∧
    filled ∧
    wIn ∧
    starved = true ∧
    u.masked (P.eng e.val) 23 = false) ∧
  (∃ (s : State) (e : Fin 32) (c : Fin 8) (j : Fin 512) (w : Cmd) (x : Job) (starved : Bool),
    let u : State := s.staged e.val c.val j.val w x (b2n starved)
    let a : PassArgs := readPass w
    let own : Prop := u.ownServes e.val 4 = true ∧ u.ownServes e.val 5 = true
    s.calm ∧
    s.issues e.val c.val j.val w x (b2n starved) ∧
    cmdOp w = 2 ∧
    u.passBad e.val a = false ∧
    (¬own)) ∧
  (∃ (s : State) (e : Fin 32) (c : Fin 8) (j : Fin 512) (w : Cmd) (x : Job) (starved : Bool),
    let u : State := s.staged e.val c.val j.val w x (b2n starved)
    let g : Engine := u.eng e.val
    let a : PassArgs := readPass w
    let base : Nat := u.shareAt e.val c.val 5 + 4 * a.p0
    let n : Nat := passBytes a.pair a.m
    let last : Prop := a.group = 0 ∨ g.phase = groupPasses a.group - 1
    let own : Prop := u.ownServes e.val 4 = true ∧ u.ownServes e.val 5 = true
    let pIn : Prop := u.inShare e.val c.val 5 base (256 * a.m) = true
    let wIn : Prop := u.inShare e.val c.val 4 a.w0 (n + if a.group ≠ 0 ∧ last then 2 * a.m else 0) = true
    let v : Tile := g.shadow
    let filled : Prop := v.loaded = true ∧ v.wide = decide (10 ≤ a.pair)
    let good : Prop := u.passBad e.val a = false ∧ own ∧ pIn
    s.calm ∧
    s.issues e.val c.val j.val w x (b2n starved) ∧
    cmdOp w = 2 ∧
    good ∧
    g.skipNext = false ∧
    filled ∧
    wIn ∧
    starved = false ∧
    v.cols ≤ 64 ∧
    (¬last)) ∧
  (∃ (s : State) (e : Fin 32) (c : Fin 8) (j : Fin 512) (w : Cmd) (x : Job) (starved : Bool),
    let u : State := s.staged e.val c.val j.val w x (b2n starved)
    let g : Engine := u.eng e.val
    let a : PassArgs := readPass w
    let base : Nat := u.shareAt e.val c.val 5 + 4 * a.p0
    let n : Nat := passBytes a.pair a.m
    let last : Prop := a.group = 0 ∨ g.phase = groupPasses a.group - 1
    let own : Prop := u.ownServes e.val 4 = true ∧ u.ownServes e.val 5 = true
    let pIn : Prop := u.inShare e.val c.val 5 base (256 * a.m) = true
    let wIn : Prop := u.inShare e.val c.val 4 a.w0 (n + if a.group ≠ 0 ∧ last then 2 * a.m else 0) = true
    let v : Tile := g.shadow
    let filled : Prop := v.loaded = true ∧ v.wide = decide (10 ≤ a.pair)
    let good : Prop := u.passBad e.val a = false ∧ own ∧ pIn
    s.calm ∧
    s.issues e.val c.val j.val w x (b2n starved) ∧
    cmdOp w = 2 ∧
    good ∧
    g.skipNext = false ∧
    filled ∧
    wIn ∧
    starved = true ∧
    u.masked (P.eng e.val) 23 = true) ∧
  (∃ (s : State) (e : Fin 32) (c : Fin 8) (j : Fin 512) (w : Cmd) (x : Job) (starved : Bool),
    let u : State := s.staged e.val c.val j.val w x (b2n starved)
    let g : Engine := u.eng e.val
    let a : PassArgs := readPass w
    let base : Nat := u.shareAt e.val c.val 5 + 4 * a.p0
    let n : Nat := passBytes a.pair a.m
    let last : Prop := a.group = 0 ∨ g.phase = groupPasses a.group - 1
    let own : Prop := u.ownServes e.val 4 = true ∧ u.ownServes e.val 5 = true
    let pIn : Prop := u.inShare e.val c.val 5 base (256 * a.m) = true
    let wIn : Prop := u.inShare e.val c.val 4 a.w0 (n + if a.group ≠ 0 ∧ last then 2 * a.m else 0) = true
    let v : Tile := g.shadow
    let filled : Prop := v.loaded = true ∧ v.wide = decide (10 ≤ a.pair)
    let good : Prop := u.passBad e.val a = false ∧ own ∧ pIn
    s.calm ∧
    s.issues e.val c.val j.val w x (b2n starved) ∧
    cmdOp w = 2 ∧
    good ∧
    g.skipNext = false ∧
    (¬(filled ∧ wIn))) ∧
  (∃ (s : State) (e : Fin 32) (c : Fin 8) (j : Fin 512) (w : Cmd) (x : Job) (starved : Bool),
    let u : State := s.staged e.val c.val j.val w x (b2n starved)
    let a : PassArgs := readPass w
    s.calm ∧
    s.issues e.val c.val j.val w x (b2n starved) ∧
    cmdOp w = 2 ∧
    u.passBad e.val a = true) ∧
  (∃ (s : State) (e : Fin 32) (c : Fin 8) (j : Fin 512) (w : Cmd) (x : Job) (starved : Bool),
    let u : State := s.staged e.val c.val j.val w x (b2n starved)
    let a : PassArgs := readPass w
    let base : Nat := u.shareAt e.val c.val 5 + 4 * a.p0
    let own : Prop := u.ownServes e.val 4 = true ∧ u.ownServes e.val 5 = true
    let pIn : Prop := u.inShare e.val c.val 5 base (256 * a.m) = true
    s.calm ∧
    s.issues e.val c.val j.val w x (b2n starved) ∧
    cmdOp w = 2 ∧
    u.passBad e.val a = false ∧
    own ∧
    (¬pIn)) := by
  refine ⟨?_, ?_, ?_, ?_, ?_, ?_, ?_, ?_, ?_, ?_⟩
  · exact ⟨wpoolE3.getD 0 go, 0, 2, 5, { w0 := 0x2#32, w1 := 0x0#32, w2 := 0x1#32, w3 := 0x0#32 }, jx, false, 0, 0, by decide +kernel⟩
  · exact ⟨wpoolE3.getD 0 go, 0, 2, 5, { w0 := 0x2#32, w1 := 0x0#32, w2 := 0x1#32, w3 := 0x0#32 }, jx, false, 0, by decide +kernel⟩
  · exact ⟨wpoolE3.getD 4 go, 0, 2, 5, { w0 := 0x2#32, w1 := 0x0#32, w2 := 0x1#32, w3 := 0x0#32 }, jx, true, by decide +kernel⟩
  · exact ⟨wpoolE3.getD 0 go, 0, 2, 5, { w0 := 0x2#32, w1 := 0x0#32, w2 := 0x1#32, w3 := 0x0#32 }, jx, true, by decide +kernel⟩
  · exact ⟨wpoolE3.getD 6 go, 0, 2, 5, { w0 := 0x2#32, w1 := 0x0#32, w2 := 0x1#32, w3 := 0x0#32 }, jx, true, by decide +kernel⟩
  · exact ⟨wpoolE3.getD 54 go, 0, 2, 5, { w0 := 0x2#32, w1 := 0x0#32, w2 := 0x42001#32, w3 := 0x0#32 }, jx, false, by decide +kernel⟩
  · exact ⟨wpoolE3.getD 8 go, 0, 2, 5, { w0 := 0x2#32, w1 := 0x0#32, w2 := 0x1#32, w3 := 0x0#32 }, jx, true, by decide +kernel⟩
  · exact ⟨wpoolE3.getD 2 go, 0, 2, 5, { w0 := 0x2#32, w1 := 0x0#32, w2 := 0x1#32, w3 := 0x0#32 }, jx, true, by decide +kernel⟩
  · exact ⟨wpoolE3.getD 72 go, 0, 2, 5, { w0 := 0x2#32, w1 := 0x0#32, w2 := 0x0#32, w3 := 0x0#32 }, jx, true, by decide +kernel⟩
  · exact ⟨wpoolE3.getD 90 go, 0, 2, 5, { w0 := 0x2#32, w1 := 0x0#32, w2 := 0x2#32, w3 := 0x186a0#32 }, jx, true, by decide +kernel⟩

theorem witness_VectorAndDmaCommandsWriteTheirPlaces :
  (∃ (s : State) (e : Fin 36) (c : Fin 8) (j : Fin 512) (w : Cmd) (x : Job) (p : Nat),
    let u : State := s.staged e.val c.val j.val w x
    let d : DmaDesc := readDma (u.descBytes e.val c.val w.w1.toNat)
    let bad : Prop := 4 ≤ d.flags ∨ d.n0 = 0 ∨ d.n1 = 0 ∨ d.n2 = 0
    let inside : Bool := d.rows.all fun p => u.dmaReach c.val p.fst d.n0 && u.dmaReach c.val p.snd d.n0
    let a : Nat := d.rows.head!.fst
    let b : Nat := d.rows.head!.snd
    let r : State × Bool := u.dmaFetch c.val a d.n0
    s.calm ∧
    s.issues e.val c.val j.val w x ∧
    cmdOp w = 5 ∧
    (¬bad) ∧
    inside = true ∧
    d.rows = [(a, b)] ∧
    r.snd = false ∧
    bit d.flags 0 = false ∧
    (¬(b ≤ p ∧ p < b + d.n0)) ∧
    e.val < 32) ∧
  (∃ (s : State) (e : Fin 36) (c : Fin 8) (j : Fin 512) (w : Cmd) (x : Job) (d : VecDesc),
    let u : State := s.staged e.val c.val j.val w x
    let q : Instr × Nat × Bool := (Instr.vec e c j w, 3, false)
    let xs : List VecElem := List.map (vecElem d q.snd.snd) (List.range w.w2.toNat)
    let cause : Option Nat := u.vecCause e.val c.val w.w3.toNat d xs q.snd.snd
    let n : Nat := (nfmt d.outFmt).bytes
    let places : Nat → List Nat := fun o => elemBytes e.val d.outBank.val n d.outCh.toNat o
    let y : VecElem := xs.head!
    let o : Nat := y.dest.head!
    s.calm ∧
    s.issues e.val c.val j.val w x ∧
    cmdOp w = q.snd.fst ∧
    cause = none ∧
    e.val < 32 ∧
    xs = [y] ∧
    y.dest = [o] ∧
    allDistinct (places o) = true ∧
    d.count = none) ∧
  (∃ (s : State) (e : Fin 36) (c : Fin 8) (j : Fin 512) (w : Cmd) (x : Job),
    let u : State := s.staged e.val c.val j.val w x
    let d : DmaDesc := readDma (u.descBytes e.val c.val w.w1.toNat)
    let bad : Prop := 4 ≤ d.flags ∨ d.n0 = 0 ∨ d.n1 = 0 ∨ d.n2 = 0
    let inside : Bool := d.rows.all fun p => u.dmaReach c.val p.fst d.n0 && u.dmaReach c.val p.snd d.n0
    s.calm ∧
    s.issues e.val c.val j.val w x ∧
    cmdOp w = 5 ∧
    (¬bad) ∧
    inside = false ∧
    e.val < 32) ∧
  (∃ (s : State) (e : Fin 36) (c : Fin 8) (j : Fin 512) (w : Cmd) (x : Job),
    let u : State := s.staged e.val c.val j.val w x
    let d : DmaDesc := readDma (u.descBytes e.val c.val w.w1.toNat)
    let bad : Prop := 4 ≤ d.flags ∨ d.n0 = 0 ∨ d.n1 = 0 ∨ d.n2 = 0
    let inside : Bool := d.rows.all fun p => u.dmaReach c.val p.fst d.n0 && u.dmaReach c.val p.snd d.n0
    let a : Nat := d.rows.head!.fst
    let b : Nat := d.rows.head!.snd
    let r : State × Bool := u.dmaFetch c.val a d.n0
    s.calm ∧
    s.issues e.val c.val j.val w x ∧
    cmdOp w = 5 ∧
    (¬bad) ∧
    inside = true ∧
    d.rows = [(a, b)] ∧
    r.snd = true) ∧
  (∃ (s : State) (e : Fin 36) (c : Fin 8) (j : Fin 512) (w : Cmd) (x : Job),
    let u : State := s.staged e.val c.val j.val w x
    let d : DmaDesc := readDma (u.descBytes e.val c.val w.w1.toNat)
    let bad : Prop := 4 ≤ d.flags ∨ d.n0 = 0 ∨ d.n1 = 0 ∨ d.n2 = 0
    s.calm ∧
    s.issues e.val c.val j.val w x ∧
    cmdOp w = 5 ∧
    bad) ∧
  (∃ (s : State) (e : Fin 36) (c : Fin 8) (j : Fin 512) (w : Cmd) (x : Job),
    let u : State := s.staged e.val c.val j.val w x
    let d : DmaDesc := readDma (u.descBytes e.val c.val w.w1.toNat)
    let bad : Prop := 4 ≤ d.flags ∨ d.n0 = 0 ∨ d.n1 = 0 ∨ d.n2 = 0
    let inside : Bool := d.rows.all fun p => u.dmaReach c.val p.fst d.n0 && u.dmaReach c.val p.snd d.n0
    let a : Nat := d.rows.head!.fst
    let b : Nat := d.rows.head!.snd
    let r : State × Bool := u.dmaFetch c.val a d.n0
    let i : Nat := (List.drop 0 (List.range d.n0)).head!
    s.calm ∧
    s.issues e.val c.val j.val w x ∧
    cmdOp w = 5 ∧
    (¬bad) ∧
    inside = true ∧
    d.rows = [(a, b)] ∧
    r.snd = false ∧
    bit d.flags 0 = false ∧
    r.fst.takes b i ∧
    e.val < 32) ∧
  (∃ (s : State) (e : Fin 36) (c : Fin 8) (j : Fin 512) (w : Cmd) (x : Job) (d : VecDesc),
    let u : State := s.staged e.val c.val j.val w x
    let q : Instr × Nat × Bool := (Instr.vec e c j w, 3, false)
    let xs : List VecElem := List.map (vecElem d q.snd.snd) (List.range w.w2.toNat)
    let cause : Option Nat := u.vecCause e.val c.val w.w3.toNat d xs q.snd.snd
    let f : Nat := cause.get!
    s.calm ∧
    s.issues e.val c.val j.val w x ∧
    cmdOp w = q.snd.fst ∧
    cause = some f) ∧
  (∃ (s : State) (e : Fin 36) (c : Fin 8) (j : Fin 512) (w : Cmd) (x : Job) (d : VecDesc) (p : Nat),
    let u : State := s.staged e.val c.val j.val w x
    let q : Instr × Nat × Bool := (Instr.vec e c j w, 3, false)
    let xs : List VecElem := List.map (vecElem d q.snd.snd) (List.range w.w2.toNat)
    let cause : Option Nat := u.vecCause e.val c.val w.w3.toNat d xs q.snd.snd
    let n : Nat := (nfmt d.outFmt).bytes
    let places : Nat → List Nat := fun o => elemBytes e.val d.outBank.val n d.outCh.toNat o
    s.calm ∧
    s.issues e.val c.val j.val w x ∧
    cmdOp w = q.snd.fst ∧
    cause = none ∧
    e.val < 32 ∧
    (∀ (y : VecElem), y ∈ xs → ∀ (o : Nat), o ∈ y.dest → ∀ (b : Nat), b ∈ places o → p ≠ bankBase (ownBank e.val d.outBank.val) + b) ∧
    d.count = none) := by
  refine ⟨?_, ?_, ?_, ?_, ?_, ?_, ?_, ?_⟩
  · exact ⟨wpoolE4.getD 265 go, 0, 2, 5, { w0 := 0x5#32, w1 := 0x1100#32, w2 := 0x0#32, w3 := 0x0#32 }, jx, 0, by decide +kernel⟩
  · exact ⟨wpoolE4.getD 0 go, 0, 2, 5, { w0 := 0x3#32, w1 := 0x0#32, w2 := 0x1#32, w3 := 0x0#32 }, jx, { floating := true, tw := 0x2#16, th := 0x2#16, ch0 := 0x0#16, inP0 := false, inBank := 1, inFmt := 5, inBase := 0x0#20, inCh := 0x40#20, inRow := 0x8#20, inCol := 0x1#20, biasOn := false, scaleOn := false, recBank := 0, recBase := 0x0#20, chans := 0x4#16, actKind := 1, lo := 0x0#32, hi := 0x0#32, alpha := 0x0#32, x0 := 0x0#32, exp := 0x0#9, tabBank := 3, tabAt := 0x100#20, eltKind := 0, eltScale := false, eltBank := 0, eltFmt := 0, eltBase := 0x0#20, eltCh := 0x40#20, eltRow := 0x8#20, eltCol := 0x1#20, zE := 0x0#16, qE := 0x0#31, shE := 0x0#6, shM := 0x0#6, eScale := 0x0#32, zY := 0x0#16, outBank := 2, outFmt := 2, outBase := 0x0#20, outCh := 0x42#20, outRow := 0x8#20, outCol := 0x1#20, outPhase := 0x0#20, oy0 := 0x0#16, ox0 := 0x0#16, phY := 0, phX := 0, up := 0, outSh := 0x0#5, count := none, kh := 0, kw := 0, stepY := 0, stepX := 0, poolMax := true, poolN := 0x0#16 }, by decide +kernel⟩
  · exact ⟨wpoolE4.getD 275 go, 0, 2, 5, { w0 := 0x5#32, w1 := 0x1140#32, w2 := 0x0#32, w3 := 0x0#32 }, jx, by decide +kernel⟩
  · exact ⟨wpoolE4.getD 283 go, 0, 2, 5, { w0 := 0x5#32, w1 := 0x1160#32, w2 := 0x0#32, w3 := 0x0#32 }, jx, by decide +kernel⟩
  · exact ⟨wpoolE4.getD 270 go, 0, 2, 5, { w0 := 0x5#32, w1 := 0x1120#32, w2 := 0x0#32, w3 := 0x0#32 }, jx, by decide +kernel⟩
  · exact ⟨wpoolE4.getD 265 go, 0, 2, 5, { w0 := 0x5#32, w1 := 0x1100#32, w2 := 0x0#32, w3 := 0x0#32 }, jx, by decide +kernel⟩
  · exact ⟨wpoolE4.getD 0 go, 0, 2, 5, { w0 := 0x3#32, w1 := 0x0#32, w2 := 0x1#32, w3 := 0x0#32 }, jx, { floating := false, tw := 0x2#16, th := 0x2#16, ch0 := 0x0#16, inP0 := true, inBank := 1, inFmt := 8, inBase := 0xffff0#20, inCh := 0x40#20, inRow := 0x8#20, inCol := 0x1#20, biasOn := false, scaleOn := false, recBank := 0, recBase := 0x0#20, chans := 0x4#16, actKind := 0, lo := 0x0#32, hi := 0x0#32, alpha := 0x0#32, x0 := 0x0#32, exp := 0x0#9, tabBank := 3, tabAt := 0x100#20, eltKind := 0, eltScale := false, eltBank := 0, eltFmt := 0, eltBase := 0x0#20, eltCh := 0x40#20, eltRow := 0x8#20, eltCol := 0x1#20, zE := 0x0#16, qE := 0x0#31, shE := 0x0#6, shM := 0x0#6, eScale := 0x0#32, zY := 0x0#16, outBank := 2, outFmt := 0, outBase := 0x0#20, outCh := 0x40#20, outRow := 0x8#20, outCol := 0x1#20, outPhase := 0x0#20, oy0 := 0x0#16, ox0 := 0x0#16, phY := 0, phX := 0, up := 0, outSh := 0x0#5, count := none, kh := 0, kw := 0, stepY := 0, stepX := 0, poolMax := true, poolN := 0x0#16 }, by decide +kernel⟩
  · exact ⟨wpoolE4.getD 0 go, 0, 2, 5, { w0 := 0x3#32, w1 := 0x0#32, w2 := 0x1#32, w3 := 0x0#32 }, jx, { floating := false, tw := 0x2#16, th := 0x2#16, ch0 := 0x0#16, inP0 := false, inBank := 1, inFmt := 0, inBase := 0x0#20, inCh := 0x40#20, inRow := 0x8#20, inCol := 0x1#20, biasOn := false, scaleOn := false, recBank := 0, recBase := 0x0#20, chans := 0x4#16, actKind := 0, lo := 0x0#32, hi := 0x0#32, alpha := 0x0#32, x0 := 0x0#32, exp := 0x0#9, tabBank := 3, tabAt := 0x100#20, eltKind := 0, eltScale := false, eltBank := 0, eltFmt := 0, eltBase := 0x0#20, eltCh := 0x40#20, eltRow := 0x8#20, eltCol := 0x1#20, zE := 0x0#16, qE := 0x0#31, shE := 0x0#6, shM := 0x0#6, eScale := 0x0#32, zY := 0x0#16, outBank := 2, outFmt := 0, outBase := 0x0#20, outCh := 0x40#20, outRow := 0x8#20, outCol := 0x1#20, outPhase := 0x0#20, oy0 := 0x0#16, ox0 := 0x0#16, phY := 0, phX := 0, up := 0, outSh := 0x0#5, count := none, kh := 0, kw := 0, stepY := 0, stepX := 0, poolMax := true, poolN := 0x0#16 }, 0, by decide +kernel⟩

end WitE

/-! #### Witnesses: Tongs commands (where a descriptor's layout is open, the witness names the value the descriptor may take) -/

namespace WitG

def bil : Billet := { (default : Billet) with addr := 0, len := 0, formatKnown := true, aUnits := 4, wUnits := 3, pUnits := 3, xUnits := 4, n4Units := 0, n5Units := 0, anvCmds := 10, tngCmds := 10, quota := 3, copy0 := 0, copy1 := 0, primCam := 0, primEn := false, failsafe := false, refLine := 0, prio := 0, specEn := false, actMap := [], decl0 := 0, decl1 := 0, prot := false, thresholds := [3,7], waits := [(0, 2, 0x2000000100, 8, 10),(3, 2, 0x2000000100, 8, 10)], earlyExit := true, inputLen := 0, windows := [(0x100000,0x10000)], stepBytes := [], stepAddrs := [], stepEngines := [], flows := [] }
def jx : Job := { (default : Job) with ctx := 2, kind := .host, tag := 5, counts := [(0, 9), (1, 3)], tongs := 1 }
def base (x : Job) (e : Nat) : State :=
  let s := { go with ctxs := [(2, { (default : Ctx) with billet := some bil, waitsDone := [50] })], sched := { go.sched with jobs := [(5, x)], order := [5] } }
  let s := s.wr (P.schC 2) Reg.SCH_CTX_STAT_state 4
  let s := s.wr (P.eng e) Reg.ANV_CFG_ctx_en 255
  let s := (s.wr (seqPage e) Reg.ANV_CTX_BUF_base 100 2).wr (seqPage e) Reg.ANV_CTX_BUF_size 300 2
  (List.range 202).foldl (fun s b => s.wr P.bank Reg.BANK_CTL_pwr 2 b) s
def arm (s : State) (e : Nat) (x : Job) (ws : List Cmd) (pos : Nat) (ds : List (Nat × List Byte)) : State :=
  s.setEng e { s.eng e with cur := some 2, jobOf := [(2, x.tag + 1)], begun := [x.tag], progs := [(2, { start := 64, cmds := ws, descs := ds, pos := pos })], tokens := [(33, 4), (34, 255), (50, 3)], gated := true, preReq := some 3 }
def bx : Box := { first := 8, last := 15, col0 := 2, col1 := 9, object := 3, camera := 0, noVerdict := false }
def hj : HostJob := { (default : HostJob) with kind := 1, width := 20, height := 20, c1 := 10, l1 := 10, input := 0x100000 }
def j0 : Job := { jx with kind := .host, desc := some hj }
def j1 : Job := { jx with kind := .box, box := some bx, lastLine := 20 }
def jend : Job := { j1 with ended := some 0 }
def j2 : Job := jx
def W (a b c d : Nat) : Cmd := ⟨BitVec.ofNat 32 a, BitVec.ofNat 32 b, BitVec.ofNat 32 c, BitVec.ofNat 32 d⟩
def sg (op tok : Nat) := op + 65536 * tok + 2^20
def d32 (l : List Nat) : List Byte := l.flatMap (le 4)
def descs : List (Nat × List Byte) := [(0x1100, d32 [0, 8, 0x400, 0x01100004, 0, 4, 0x00080008, 0]), (0x1120, d32 [0, 8, 0x401, 0x01100004, 0, 4, 0x00080008, 0]), (0x1140, d32 [0, 8, 0x10000, 0x01100004, 0, 4, 0x00080008, 0])] ++ (List.range 9).map (fun i => (64 * i, List.replicate 64 (BitVec.ofNat 8 i)))
def cmds : List Cmd := [W 0x20 0 64 0, W 0x20 1 64 0, W 0x21 0x1100 0 1, W 0x21 0x1120 0 1, W (sg 0x21 1) 0x1100 0 2, W 0x21 0x1140 0 1, W 0x22 0 1 1024, W 0x22 0 (1 + 2^16) 1024, W 0x22 0 (1+2^17) 1024, W 0x22 0 (1+2*2^17) 2048, W 0x22 0 0 0, W 0x22 0x8000 1 0, W 0x22 0x20000 1 0]
  ++ [W 0x23 64 0 0, W 0x24 64 0 0] ++ [W 0x24 0 2 0, W (sg 0x24 3) 64 0 0]
def wr32 (a : Nat) (l : List Nat) (s : State) : State := { s with mem := Memory.writeBytes s.mem a (l.flatMap (le 4)) }
def em (s : State) : State :=
  let s := wr32 (bankBase (bankX0 1)) [0x01020304,0x05060708,0x01020304,0xff02ff04,0xff02ff04] s
  let s := wr32 (bankBase (bankX0 1) + 0x100) ([0x3f800000, 0x3f000000, 0x3e000000]) s
  wr32 0x100000 ((List.range 6).map (fun i => 0x01020304 + 77777 * i)) s
def g1 (x : Job) (w : Cmd) : State := em (arm (base x 33) 33 x [w] 0 descs)
def disown (s : State) : State := s.wr P.bank Reg.BANK_CTL_owner 0 (bankX0 1)
def wk (s : State) (_w : Cmd) : State := s.setEng 33 { s.eng 33 with queued := [⟨2, 5, W (0x23 + 256 * 7 + 2^12) 0 0 0, 0⟩] }
def cam0 (s : State) : State :=
  let s := ((((s.wr (P.cfeC 0) Reg.CFE_CAM_FMT_width 20).wr (P.cfeC 0) Reg.CFE_CAM_BLK_h 8).wr P.replay Reg.REPLAY_GEOM_slots 4).wr P.replay Reg.REPLAY_SLOT_z 1).wr2 P.replay Reg.REPLAY_BASE_lo Reg.REPLAY_BASE_hi 0x200000
  let s := s.setReplay (s.slotPlace 0 8) { (default : ReplayEntry) with flags := 1, camera := 0, first := 8, lines := 8 }
  (List.range 8).foldl (fun s i => { s with mem := Memory.writeBytes s.mem (0x201200 + 8 * i) (le 8 (8 + i)) }) s
def poi (s : State) : State := {s with msys := {s.msys with poison := [0x100010/8]}}
def poi2 (s : State) : State := {s with msys := {s.msys with poison := [0x200000/8 + 8]}}
def crops := cmds.filter (fun w => cmdOp w = 0x20)
def wpoolG0 : List State := (crops.flatMap (fun w => [g1 j0 w, g1 j1 w, g1 j2 w, g1 jend w, cam0 (g1 j1 w), poi2 (cam0 (g1 j1 w)), poi (g1 j0 w), disown (g1 j0 w)]))
def wpoolG1 : List State := (cmds.flatMap (fun w => [g1 j0 w, disown (g1 j0 w), wk (g1 j0 w) w]))
def pr (s : State) : State := s.setCtx 2 {s.ctx 2 with probes := [(1,2),(0,2),(0,3)]}
def atm (a : Nat) (i : Nat) (s : State) : State := { s with mem := Memory.writeBytes s.mem a [BitVec.ofNat 8 i] }
def prog (s : State) : State := (List.range 9).foldl (fun s i => atm (0x1000 + 64 * i) i s) (s.wr2 (seqPage 33) Reg.ANV_CTX_PROG_lo Reg.ANV_CTX_PROG_hi 0x1000 2)
def detc (cam : Nat) (s : State) : State :=
  let s := (((cam0 s).wr (P.schC 2) Reg.SCH_CTX_CFG_prim_en 1).wr (P.schC 2) Reg.SCH_CTX_CFG_prim_cam cam).wr (P.tng 1 0) Reg.TNG_CFG_cams 9
  let s := s.wr (P.cfeC cam) Reg.CFE_CAM_FMT_width 3
  let s := s.setCtx 2 { s.ctx 2 with billet := some { bil with primEn := true, primCam := Fin.ofNat 8 cam } }
  s.setPipe cam { s.pipe cam with done := [{ first := 8, lines := 2, mark := false }] }
def ent : RtuEntry := { (default : RtuEntry) with ctx := 2, object := 1, camera := 2, state := 1 }
def withE (l : List (Nat × RtuEntry)) (s : State) : State := { s with rtu := { s.rtu with entries := l } }
def ppool : List State := let s := prog (g1 j0 (W 0 0 0 0)); [s, pr s, withE [(4, ent), (5, { ent with object := 0 })] (pr s), withE [(4, { ent with nv := true })] (pr s), disown (pr s), { pr s with msys := { s.msys with poison := [0x1040/8] } }, s.setPipe 0 { s.pipe 0 with done := [⟨8,8,false,[]⟩]}, detc 0 s, detc 3 s, disown (detc 3 s), detc 3 (prog (g1 j2 (W 0 0 0 0))), { detc 3 s with msys := { s.msys with poison := [0x1040/8, 0x1000/8] } }]
def wpoolG2 : List State := (((cmds.filter (fun w => cmdOp w = 0x24)).flatMap (fun w => [g1 j0 w, g1 j1 w, g1 jend w, disown (g1 j1 w)])) ++ ppool)

theorem witness_CropWritesItsSamplesOrEndsTheJob :
  (∃ (s : State) (k : Fin 4) (c : Fin 8) (j : Fin 512) (w : Cmd) (x : Job),
    let h : HostJob := x.desc.get!
    s.calm ∧
    s.issues (32 + k.val) c.val j.val w x ∧
    cmdOp w = 32 ∧
    x.box = none ∧
    x.desc = some h ∧
    h.kind = 1) ∧
  (∃ (s : State) (k : Fin 4) (c : Fin 8) (j : Fin 512) (w : Cmd) (x : Job),
    let bx : Box := x.box.get!
    s.calm ∧
    s.issues (32 + k.val) c.val j.val w x ∧
    cmdOp w = 32 ∧
    x.box = some bx) ∧
  (∃ (s : State) (k : Fin 4) (c : Fin 8) (j : Fin 512) (w : Cmd) (x : Job),
    s.calm ∧
    s.issues (32 + k.val) c.val j.val w x ∧
    cmdOp w = 32 ∧
    x.box = none ∧
    (∀ (h : HostJob), x.desc = some h → h.kind ≠ 1)) := by
  refine ⟨?_, ?_, ?_⟩
  · exact ⟨wpoolG0.getD 0 go, 1, 2, 5, { w0 := 0x20#32, w1 := 0x0#32, w2 := 0x40#32, w3 := 0x0#32 }, j0, by decide +kernel⟩
  · exact ⟨wpoolG0.getD 4 go, 1, 2, 5, { w0 := 0x20#32, w1 := 0x0#32, w2 := 0x40#32, w3 := 0x0#32 }, j1, by decide +kernel⟩
  · exact ⟨wpoolG0.getD 2 go, 1, 2, 5, { w0 := 0x20#32, w1 := 0x0#32, w2 := 0x40#32, w3 := 0x0#32 }, jx, by decide +kernel⟩

theorem witness_TongsArrayCommandsWriteTheirResults_1 :
  (∃ (s : State) (k : Fin 4) (c : Fin 8) (j : Fin 512) (w : Cmd) (x : Job) (a0 : Nat) (r : Nat) (y : Nat),
    let e : Nat := 32 + k.val
    let u : State := s.staged e c.val j.val w x
    let n : Nat := bits w.w2.toNat 0 11
    let pf : Nat := bits w.w2.toNat 17 3
    let b : Nat := if 2 ≤ pf then 2 else 1
    let fits : Prop := 1 ≤ n ∧ n ≤ 1024 ∧ pf ≤ 3
    let own : Prop := u.ownServes e 0 = true
    let at_ : Nat → Nat := fun _x => a0
    let inside : Bool := u.inShare e c.val 0 w.w1.toNat (1024 * b) && u.inShare e c.val 0 w.w3.toNat (128 * n) && (List.range n).all fun i => u.inShare e c.val 0 (at_ i) (32 * b)
    s.calm ∧
    s.issues (32 + k.val) c.val j.val w x ∧
    cmdOp w = 34 ∧
    fits ∧
    own ∧
    inside = true ∧
    r < 32 ∧
    y < 32) ∧
  (∃ (s : State) (k : Fin 4) (c : Fin 8) (j : Fin 512) (w : Cmd) (x : Job) (a0 : Nat) (y : Nat),
    let e : Nat := 32 + k.val
    let u : State := s.staged e c.val j.val w x
    let n : Nat := bits w.w2.toNat 0 11
    let pf : Nat := bits w.w2.toNat 17 3
    let b : Nat := if 2 ≤ pf then 2 else 1
    let fits : Prop := 1 ≤ n ∧ n ≤ 1024 ∧ pf ≤ 3
    let own : Prop := u.ownServes e 0 = true
    let at_ : Nat → Nat := fun _x => a0
    let inside : Bool := u.inShare e c.val 0 w.w1.toNat (1024 * b) && u.inShare e c.val 0 w.w3.toNat (128 * n) && (List.range n).all fun i => u.inShare e c.val 0 (at_ i) (32 * b)
    s.calm ∧
    s.issues (32 + k.val) c.val j.val w x ∧
    cmdOp w = 34 ∧
    fits ∧
    own ∧
    inside = true ∧
    n = 1 ∧
    pf < 2 ∧
    y < 32) ∧
  (∃ (s : State) (k : Fin 4) (c : Fin 8) (j : Fin 512) (w : Cmd) (x : Job) (a0 : Nat) (p : Nat),
    let e : Nat := 32 + k.val
    let u : State := s.staged e c.val j.val w x
    let n : Nat := bits w.w2.toNat 0 11
    let pf : Nat := bits w.w2.toNat 17 3
    let b : Nat := if 2 ≤ pf then 2 else 1
    let fits : Prop := 1 ≤ n ∧ n ≤ 1024 ∧ pf ≤ 3
    let own : Prop := u.ownServes e 0 = true
    let at_ : Nat → Nat := fun _x => a0
    let inside : Bool := u.inShare e c.val 0 w.w1.toNat (1024 * b) && u.inShare e c.val 0 w.w3.toNat (128 * n) && (List.range n).all fun i => u.inShare e c.val 0 (at_ i) (32 * b)
    s.calm ∧
    s.issues (32 + k.val) c.val j.val w x ∧
    cmdOp w = 34 ∧
    fits ∧
    own ∧
    inside = true ∧
    (¬(bankBase (ownBank e 0) + w.w3.toNat ≤ p ∧ p < bankBase (ownBank e 0) + w.w3.toNat + 128 * n))) ∧
  (∃ (s : State) (k : Fin 4) (c : Fin 8) (j : Fin 512) (w : Cmd) (x : Job),
    let e : Nat := 32 + k.val
    let u : State := s.staged e c.val j.val w x
    let d : ExpDesc := readExp (u.descBytes e c.val w.w1.toNat)
    let ps : List Nat := List.map (fun x => x + w.w2.toNat) (List.range w.w3.toNat)
    let inside : Bool := ps.all fun p => u.inShare e c.val 0 (d.dest p) (d.kPad * d.bytes) && (List.range d.k).all fun i => Option.all (fun a => u.inShare e c.val 0 a d.bytes) (d.addr p i)
    let own : Prop := u.ownServes e 0 = true
    s.calm ∧
    s.issues (32 + k.val) c.val j.val w x ∧
    cmdOp w = 33 ∧
    d.ok = true ∧
    own ∧
    inside = true ∧
    w.w3 = 1) ∧
  (∃ (s : State) (k : Fin 4) (c : Fin 8) (j : Fin 512) (w : Cmd) (x : Job) (d : HeadDesc) (p : Nat),
    let e : Nat := 32 + k.val
    let u : State := s.staged e c.val j.val w x
    s.calm ∧
    s.issues (32 + k.val) c.val j.val w x ∧
    cmdOp w = 35 ∧
    u.headCause e c.val d true = none ∧
    (¬(bankBase (ownBank e 0) + d.probsAt.toNat ≤ p ∧ p < bankBase (ownBank e 0) + d.probsAt.toNat + 4 * d.classes.toNat))) ∧
  (∃ (s : State) (w : Cmd),
    s.calm ∧
    cmdOp w = 36 ∧
    w.w2 ≠ 1) ∧
  (∃ (s : State) (k : Fin 4) (c : Fin 8) (j : Fin 512) (w : Cmd),
    let q : Nat × Instr := (32, Instr.crop k c j w)
    s.calm ∧
    cmdOp w = q.fst) := by
  refine ⟨?_, ?_, ?_, ?_, ?_, ?_, ?_⟩
  · exact ⟨wpoolG1.getD 18 go, 1, 2, 5, { w0 := 0x22#32, w1 := 0x0#32, w2 := 0x1#32, w3 := 0x400#32 }, j0, 0, 0, 0, by decide +kernel⟩
  · exact ⟨wpoolG1.getD 18 go, 1, 2, 5, { w0 := 0x22#32, w1 := 0x0#32, w2 := 0x1#32, w3 := 0x400#32 }, j0, 0, 0, by decide +kernel⟩
  · exact ⟨wpoolG1.getD 18 go, 1, 2, 5, { w0 := 0x22#32, w1 := 0x0#32, w2 := 0x1#32, w3 := 0x400#32 }, j0, 0, 0, by decide +kernel⟩
  · exact ⟨wpoolG1.getD 6 go, 1, 2, 5, { w0 := 0x21#32, w1 := 0x1100#32, w2 := 0x0#32, w3 := 0x1#32 }, j0, by decide +kernel⟩
  · exact ⟨wpoolG1.getD 39 go, 1, 2, 5, { w0 := 0x23#32, w1 := 0x40#32, w2 := 0x0#32, w3 := 0x0#32 }, j0, { classes := 0x3#9, floating := true, logitsAt := 0x0#20, tableAt := 0x100#20, x0 := 0x0#32, exp := 0x0#9, mask := 0x7#256, confMin := 0x64#16, lowReject := false, probsAt := 0x200#20 }, 0, by decide +kernel⟩
  · exact ⟨wpoolG1.getD 0 go, { w0 := 0x24#32, w1 := 0x40#32, w2 := 0x0#32, w3 := 0x0#32 }, by decide +kernel⟩
  · exact ⟨wpoolG1.getD 0 go, 1, 2, 5, { w0 := 0x20#32, w1 := 0x0#32, w2 := 0x40#32, w3 := 0x0#32 }, by decide +kernel⟩

theorem witness_TongsArrayCommandsWriteTheirResults_2 :
  (∃ (s : State) (k : Fin 4) (c : Fin 8) (j : Fin 512) (w : Cmd) (x : Job),
    let e : Nat := 32 + k.val
    let u : State := s.staged e c.val j.val w x
    let d : ExpDesc := readExp (u.descBytes e c.val w.w1.toNat)
    let own : Prop := u.ownServes e 0 = true
    s.calm ∧
    s.issues (32 + k.val) c.val j.val w x ∧
    cmdOp w = 33 ∧
    d.ok = true ∧
    (¬own)) ∧
  (∃ (s : State) (k : Fin 4) (c : Fin 8) (j : Fin 512) (w : Cmd) (x : Job),
    let e : Nat := 32 + k.val
    let u : State := s.staged e c.val j.val w x
    let d : ExpDesc := readExp (u.descBytes e c.val w.w1.toNat)
    s.calm ∧
    s.issues (32 + k.val) c.val j.val w x ∧
    cmdOp w = 33 ∧
    d.ok = false) ∧
  (∃ (s : State) (k : Fin 4) (c : Fin 8) (j : Fin 512) (w : Cmd) (x : Job),
    let e : Nat := 32 + k.val
    let u : State := s.staged e c.val j.val w x
    let d : ExpDesc := readExp (u.descBytes e c.val w.w1.toNat)
    let ps : List Nat := List.map (fun x => x + w.w2.toNat) (List.range w.w3.toNat)
    let inside : Bool := ps.all fun p => u.inShare e c.val 0 (d.dest p) (d.kPad * d.bytes) && (List.range d.k).all fun i => Option.all (fun a => u.inShare e c.val 0 a d.bytes) (d.addr p i)
    let own : Prop := u.ownServes e 0 = true
    s.calm ∧
    s.issues (32 + k.val) c.val j.val w x ∧
    cmdOp w = 33 ∧
    d.ok = true ∧
    own ∧
    inside = false) ∧
  (∃ (s : State) (k : Fin 4) (c : Fin 8) (j : Fin 512) (w : Cmd) (x : Job) (a0 : Nat),
    let e : Nat := 32 + k.val
    let u : State := s.staged e c.val j.val w x
    let n : Nat := bits w.w2.toNat 0 11
    let pf : Nat := bits w.w2.toNat 17 3
    let b : Nat := if 2 ≤ pf then 2 else 1
    let fits : Prop := 1 ≤ n ∧ n ≤ 1024 ∧ pf ≤ 3
    let own : Prop := u.ownServes e 0 = true
    let at_ : Nat → Nat := fun _x => a0
    let inside : Bool := u.inShare e c.val 0 w.w1.toNat (1024 * b) && u.inShare e c.val 0 w.w3.toNat (128 * n) && (List.range n).all fun i => u.inShare e c.val 0 (at_ i) (32 * b)
    s.calm ∧
    s.issues (32 + k.val) c.val j.val w x ∧
    cmdOp w = 34 ∧
    fits ∧
    own ∧
    inside = false) ∧
  (∃ (s : State) (k : Fin 4) (c : Fin 8) (j : Fin 512) (w : Cmd) (x : Job),
    let e : Nat := 32 + k.val
    let u : State := s.staged e c.val j.val w x
    let n : Nat := bits w.w2.toNat 0 11
    let pf : Nat := bits w.w2.toNat 17 3
    let fits : Prop := 1 ≤ n ∧ n ≤ 1024 ∧ pf ≤ 3
    let own : Prop := u.ownServes e 0 = true
    s.calm ∧
    s.issues (32 + k.val) c.val j.val w x ∧
    cmdOp w = 34 ∧
    fits ∧
    (¬own)) ∧
  (∃ (s : State) (k : Fin 4) (c : Fin 8) (j : Fin 512) (w : Cmd) (x : Job),
    let n : Nat := bits w.w2.toNat 0 11
    let pf : Nat := bits w.w2.toNat 17 3
    let fits : Prop := 1 ≤ n ∧ n ≤ 1024 ∧ pf ≤ 3
    s.calm ∧
    s.issues (32 + k.val) c.val j.val w x ∧
    cmdOp w = 34 ∧
    (¬fits)) ∧
  (∃ (s : State) (k : Fin 4) (c : Fin 8) (j : Fin 512) (w : Cmd) (x : Job) (d : HeadDesc),
    let e : Nat := 32 + k.val
    let u : State := s.staged e c.val j.val w x
    let f : Nat := (u.headCause e c.val d true).get!
    s.calm ∧
    s.issues (32 + k.val) c.val j.val w x ∧
    cmdOp w = 35 ∧
    u.headCause e c.val d true = some f) := by
  refine ⟨?_, ?_, ?_, ?_, ?_, ?_, ?_⟩
  · exact ⟨wpoolG1.getD 7 go, 1, 2, 5, { w0 := 0x21#32, w1 := 0x1100#32, w2 := 0x0#32, w3 := 0x1#32 }, j0, by decide +kernel⟩
  · exact ⟨wpoolG1.getD 9 go, 1, 2, 5, { w0 := 0x21#32, w1 := 0x1120#32, w2 := 0x0#32, w3 := 0x1#32 }, j0, by decide +kernel⟩
  · exact ⟨wpoolG1.getD 15 go, 1, 2, 5, { w0 := 0x21#32, w1 := 0x1140#32, w2 := 0x0#32, w3 := 0x1#32 }, j0, by decide +kernel⟩
  · exact ⟨wpoolG1.getD 33 go, 1, 2, 5, { w0 := 0x22#32, w1 := 0x8000#32, w2 := 0x1#32, w3 := 0x0#32 }, j0, 0, by decide +kernel⟩
  · exact ⟨wpoolG1.getD 19 go, 1, 2, 5, { w0 := 0x22#32, w1 := 0x0#32, w2 := 0x1#32, w3 := 0x400#32 }, j0, by decide +kernel⟩
  · exact ⟨wpoolG1.getD 30 go, 1, 2, 5, { w0 := 0x22#32, w1 := 0x0#32, w2 := 0x0#32, w3 := 0x0#32 }, j0, by decide +kernel⟩
  · exact ⟨wpoolG1.getD 40 go, 1, 2, 5, { w0 := 0x23#32, w1 := 0x40#32, w2 := 0x0#32, w3 := 0x0#32 }, j0, { classes := 0x3#9, floating := true, logitsAt := 0x0#20, tableAt := 0x100#20, x0 := 0x0#32, exp := 0x0#9, mask := 0x7#256, confMin := 0x64#16, lowReject := false, probsAt := 0x200#20 }, by decide +kernel⟩

theorem witness_VerdictsAndBoxesReachTheScheduler_1 :
  (∃ (s : State) (k : Fin 4) (c : Fin 8) (obj : BitVec 32) (cam : Fin 8) (w : Cmd) (d : HeadDesc),
    let e : Nat := 32 + k.val
    let probe : Prop := s.mayProbe e c.val w = true ∧ (s.ctx c.val).probes.contains (obj.toNat, cam.val) = true
    let u : State := (s.probeToken e c.val w).probeFetch e c.val w
    let v : Verdict := headVerdict d (u.headExp e d)
    let good : Prop := probe ∧ u.engWorks e = true ∧ u.headCause e c.val d false = none
    let es : List Nat := u.objEntries c.val cam.val obj.toNat
    let landed : Bool := List.any u.rtu.entries fun p => decide (p.snd.ctx = c.val) && decide (p.snd.camera = cam.val) && decide (p.snd.object = obj.toNat) && (p.snd.decision.isSome || p.snd.nv)
    s.calm ∧
    cmdOp w = 36 ∧
    w.w2 = 1 ∧
    good ∧
    v.noVerdict = false ∧
    landed = false ∧
    es ≠ []) ∧
  (∃ (s : State) (k : Fin 4) (c : Fin 8) (j : Fin 512) (w : Cmd) (x : Job) (d : HeadDesc),
    let e : Nat := 32 + k.val
    let u : State := s.staged e c.val j.val w x
    let v : Verdict := headVerdict d (u.headExp e d)
    let good : Prop := w.w2 = 0 ∧ u.headCause e c.val d false = none
    s.calm ∧
    s.issues (32 + k.val) c.val j.val w x ∧
    cmdOp w = 36 ∧
    w.w2 ≠ 1 ∧
    good ∧
    x.ended = none ∧
    v.noVerdict = false ∧
    x.kind ≠ JobKind.box) ∧
  (∃ (s : State) (k : Fin 4) (c : Fin 8) (w : Cmd) (d : BoxDesc),
    let e : Nat := 32 + k.val
    let a : State := s.probeFetch e c.val w
    let cam : Nat := d.camera.val
    let u : State := a.probeToken e c.val w
    let gy : Nat := d.gy.toNat
    let gx : Nat := d.gx.toNat
    let sized : Prop := 1 ≤ gy ∧ gy ≤ 64 ∧ 1 ≤ gx ∧ gx ≤ 64 ∧ List.find? (fun n => bit (u.rd (P.tng n 0) Reg.TNG_CFG_cams) cam) (List.range 4) = some k.val
    let own : Prop := u.ownServes e 0 = true
    let b : DoneBlk := (s.pipe cam).done.head!
    let inside : Prop := u.inShare e c.val 0 d.mapAt.toNat ((b.lines + gy - 1) / gy * ((u.camWidth cam + gx - 1) / gx)) = true
    s.calm ∧
    cmdOp w = 37 ∧
    (s.pipe cam).done = [b] ∧
    b.mark = false ∧
    b.took = [] ∧
    a.detects c.val cam b.first = true ∧
    s.mayProbe e c.val w = true ∧
    u.engWorks e = true ∧
    sized ∧
    own ∧
    inside ∧
    1 ≤ b.lines ∧
    b.lines ≤ gy ∧
    1 ≤ u.camWidth cam ∧
    u.camWidth cam ≤ gx ∧
    (s.det cam).openBoxes = [] ∧
    (s.det cam).lastRow = []) ∧
  (∃ (s : State) (k : Fin 4) (c : Fin 8) (obj : BitVec 32) (cam : Fin 8) (w : Cmd) (d : HeadDesc),
    let e : Nat := 32 + k.val
    let probe : Prop := s.mayProbe e c.val w = true ∧ (s.ctx c.val).probes.contains (obj.toNat, cam.val) = true
    let u : State := (s.probeToken e c.val w).probeFetch e c.val w
    let v : Verdict := headVerdict d (u.headExp e d)
    let good : Prop := probe ∧ u.engWorks e = true ∧ u.headCause e c.val d false = none
    let landed : Bool := List.any u.rtu.entries fun p => decide (p.snd.ctx = c.val) && decide (p.snd.camera = cam.val) && decide (p.snd.object = obj.toNat) && (p.snd.decision.isSome || p.snd.nv)
    s.calm ∧
    cmdOp w = 36 ∧
    w.w2 = 1 ∧
    good ∧
    (v.noVerdict = true ∨ landed = true)) ∧
  (∃ (s : State) (k : Fin 4) (c : Fin 8) (w : Cmd) (d : BoxDesc),
    let e : Nat := 32 + k.val
    let cam : Nat := d.camera.val
    s.calm ∧
    cmdOp w = 37 ∧
    (s.mayProbe e c.val w = false ∨ (s.pipe cam).done = [])) ∧
  (∃ (s : State) (k : Fin 4) (c : Fin 8) (w : Cmd) (d : BoxDesc),
    let e : Nat := 32 + k.val
    let a : State := s.probeFetch e c.val w
    let cam : Nat := d.camera.val
    let u : State := a.probeToken e c.val w
    let gy : Nat := d.gy.toNat
    let gx : Nat := d.gx.toNat
    let sized : Prop := 1 ≤ gy ∧ gy ≤ 64 ∧ 1 ≤ gx ∧ gx ≤ 64 ∧ List.find? (fun n => bit (u.rd (P.tng n 0) Reg.TNG_CFG_cams) cam) (List.range 4) = some k.val
    let b : DoneBlk := (s.pipe cam).done.head!
    s.calm ∧
    cmdOp w = 37 ∧
    (s.pipe cam).done = [b] ∧
    b.mark = false ∧
    b.took = [] ∧
    a.detects c.val cam b.first = true ∧
    s.mayProbe e c.val w = true ∧
    u.engWorks e = true ∧
    (¬sized)) ∧
  (∃ (s : State) (k : Fin 4) (c : Fin 8) (w : Cmd) (d : BoxDesc),
    let e : Nat := 32 + k.val
    let a : State := s.probeFetch e c.val w
    let cam : Nat := d.camera.val
    let u : State := a.probeToken e c.val w
    let gy : Nat := d.gy.toNat
    let gx : Nat := d.gx.toNat
    let sized : Prop := 1 ≤ gy ∧ gy ≤ 64 ∧ 1 ≤ gx ∧ gx ≤ 64 ∧ List.find? (fun n => bit (u.rd (P.tng n 0) Reg.TNG_CFG_cams) cam) (List.range 4) = some k.val
    let own : Prop := u.ownServes e 0 = true
    let b : DoneBlk := (s.pipe cam).done.head!
    let inside : Prop := u.inShare e c.val 0 d.mapAt.toNat ((b.lines + gy - 1) / gy * ((u.camWidth cam + gx - 1) / gx)) = true
    s.calm ∧
    cmdOp w = 37 ∧
    (s.pipe cam).done = [b] ∧
    b.mark = false ∧
    b.took = [] ∧
    a.detects c.val cam b.first = true ∧
    s.mayProbe e c.val w = true ∧
    u.engWorks e = true ∧
    sized ∧
    own ∧
    (¬inside)) ∧
  (∃ (s : State) (k : Fin 4) (c : Fin 8) (w : Cmd) (d : BoxDesc),
    let e : Nat := 32 + k.val
    let a : State := s.probeFetch e c.val w
    let cam : Nat := d.camera.val
    let u : State := a.probeToken e c.val w
    let gy : Nat := d.gy.toNat
    let gx : Nat := d.gx.toNat
    let sized : Prop := 1 ≤ gy ∧ gy ≤ 64 ∧ 1 ≤ gx ∧ gx ≤ 64 ∧ List.find? (fun n => bit (u.rd (P.tng n 0) Reg.TNG_CFG_cams) cam) (List.range 4) = some k.val
    let own : Prop := u.ownServes e 0 = true
    let b : DoneBlk := (s.pipe cam).done.head!
    s.calm ∧
    cmdOp w = 37 ∧
    (s.pipe cam).done = [b] ∧
    b.mark = false ∧
    b.took = [] ∧
    a.detects c.val cam b.first = true ∧
    s.mayProbe e c.val w = true ∧
    u.engWorks e = true ∧
    sized ∧
    (¬own)) := by
  refine ⟨?_, ?_, ?_, ?_, ?_, ?_, ?_, ?_⟩
  · exact ⟨wpoolG2.getD 14 go, 1, 2, 0x0#32, 2, { w0 := 0x24#32, w1 := 0x40#32, w2 := 0x1#32, w3 := 0x0#32 }, { classes := 0x3#9, floating := true, logitsAt := 0x0#20, tableAt := 0x100#20, x0 := 0x0#32, exp := 0x0#9, mask := 0x7#256, confMin := 0x64#16, lowReject := false, probsAt := 0x200#20 }, by decide +kernel⟩
  · exact ⟨wpoolG2.getD 0 go, 1, 2, 5, { w0 := 0x24#32, w1 := 0x40#32, w2 := 0x0#32, w3 := 0x0#32 }, j0, { classes := 0x3#9, floating := true, logitsAt := 0x0#20, tableAt := 0x100#20, x0 := 0x0#32, exp := 0x0#9, mask := 0x7#256, confMin := 0x64#16, lowReject := false, probsAt := 0x200#20 }, by decide +kernel⟩
  · exact ⟨wpoolG2.getD 20 go, 1, 2, { w0 := 0x25#32, w1 := 0x40#32, w2 := 0x0#32, w3 := 0x0#32 }, { mapAt := 0x0#20, threshold := 0xa#8, gy := 0x2#7, gx := 0x3#7, camera := 3, aspect := none }, by decide +kernel⟩
  · exact ⟨wpoolG2.getD 15 go, 1, 2, 0x1#32, 2, { w0 := 0x24#32, w1 := 0x40#32, w2 := 0x1#32, w3 := 0x0#32 }, { classes := 0x3#9, floating := true, logitsAt := 0x0#20, tableAt := 0x100#20, x0 := 0x0#32, exp := 0x0#9, mask := 0x7#256, confMin := 0x64#16, lowReject := false, probsAt := 0x200#20 }, by decide +kernel⟩
  · exact ⟨wpoolG2.getD 0 go, 1, 2, { w0 := 0x25#32, w1 := 0x40#32, w2 := 0x0#32, w3 := 0x0#32 }, { mapAt := 0x0#20, threshold := 0xa#8, gy := 0x2#7, gx := 0x3#7, camera := 3, aspect := none }, by decide +kernel⟩
  · exact ⟨wpoolG2.getD 20 go, 1, 2, { w0 := 0x25#32, w1 := 0x40#32, w2 := 0x0#32, w3 := 0x0#32 }, { mapAt := 0x0#20, threshold := 0xa#8, gy := 0x0#7, gx := 0x3#7, camera := 3, aspect := none }, by decide +kernel⟩
  · exact ⟨wpoolG2.getD 20 go, 1, 2, { w0 := 0x25#32, w1 := 0x40#32, w2 := 0x0#32, w3 := 0x0#32 }, { mapAt := 0xfffff#20, threshold := 0xa#8, gy := 0x2#7, gx := 0x3#7, camera := 3, aspect := none }, by decide +kernel⟩
  · exact ⟨wpoolG2.getD 21 go, 1, 2, { w0 := 0x25#32, w1 := 0x40#32, w2 := 0x0#32, w3 := 0x0#32 }, { mapAt := 0x0#20, threshold := 0xa#8, gy := 0x2#7, gx := 0x3#7, camera := 3, aspect := none }, by decide +kernel⟩

theorem witness_VerdictsAndBoxesReachTheScheduler_2 :
  (∃ (s : State) (k : Fin 4) (c : Fin 8) (w : Cmd) (d : BoxDesc),
    let e : Nat := 32 + k.val
    let a : State := s.probeFetch e c.val w
    let cam : Nat := d.camera.val
    let u : State := a.probeToken e c.val w
    let b : DoneBlk := (s.pipe cam).done.head!
    s.calm ∧
    cmdOp w = 37 ∧
    (s.pipe cam).done = [b] ∧
    b.mark = false ∧
    b.took = [] ∧
    a.detects c.val cam b.first = true ∧
    s.mayProbe e c.val w = true ∧
    u.engWorks e = false) ∧
  (∃ (s : State) (k : Fin 4) (c : Fin 8) (obj : BitVec 32) (cam : Fin 8) (w : Cmd),
    let e : Nat := 32 + k.val
    let probe : Prop := s.mayProbe e c.val w = true ∧ (s.ctx c.val).probes.contains (obj.toNat, cam.val) = true
    s.calm ∧
    cmdOp w = 36 ∧
    w.w2 = 1 ∧
    (¬probe)) ∧
  (∃ (s : State) (k : Fin 4) (c : Fin 8) (obj : BitVec 32) (cam : Fin 8) (w : Cmd),
    let e : Nat := 32 + k.val
    let probe : Prop := s.mayProbe e c.val w = true ∧ (s.ctx c.val).probes.contains (obj.toNat, cam.val) = true
    let u : State := (s.probeToken e c.val w).probeFetch e c.val w
    s.calm ∧
    cmdOp w = 36 ∧
    w.w2 = 1 ∧
    probe ∧
    u.engWorks e = false) ∧
  (∃ (s : State) (k : Fin 4) (c : Fin 8) (obj : BitVec 32) (cam : Fin 8) (w : Cmd) (d : HeadDesc),
    let e : Nat := 32 + k.val
    let probe : Prop := s.mayProbe e c.val w = true ∧ (s.ctx c.val).probes.contains (obj.toNat, cam.val) = true
    let u : State := (s.probeToken e c.val w).probeFetch e c.val w
    let f : Nat := (u.headCause e c.val d false).get!
    s.calm ∧
    cmdOp w = 36 ∧
    w.w2 = 1 ∧
    probe ∧
    u.engWorks e = true ∧
    u.headCause e c.val d false = some f) ∧
  (∃ (s : State) (k : Fin 4) (c : Fin 8) (j : Fin 512) (w : Cmd) (x : Job) (d : HeadDesc),
    let e : Nat := 32 + k.val
    let u : State := s.staged e c.val j.val w x
    let v : Verdict := headVerdict d (u.headExp e d)
    let good : Prop := w.w2 = 0 ∧ u.headCause e c.val d false = none
    s.calm ∧
    s.issues (32 + k.val) c.val j.val w x ∧
    cmdOp w = 36 ∧
    w.w2 ≠ 1 ∧
    good ∧
    x.ended = none ∧
    v.noVerdict = false ∧
    x.kind = JobKind.box) ∧
  (∃ (s : State) (k : Fin 4) (c : Fin 8) (j : Fin 512) (w : Cmd) (x : Job),
    s.calm ∧
    s.issues (32 + k.val) c.val j.val w x ∧
    cmdOp w = 36 ∧
    w.w2 ≠ 1 ∧
    w.w2 ≠ 0) ∧
  (∃ (s : State) (k : Fin 4) (c : Fin 8) (j : Fin 512) (w : Cmd) (x : Job) (d : HeadDesc),
    let e : Nat := 32 + k.val
    let u : State := s.staged e c.val j.val w x
    let f : Nat := (u.headCause e c.val d false).get!
    s.calm ∧
    s.issues (32 + k.val) c.val j.val w x ∧
    cmdOp w = 36 ∧
    w.w2 ≠ 1 ∧
    w.w2 = 0 ∧
    u.headCause e c.val d false = some f) ∧
  (∃ (s : State) (k : Fin 4) (c : Fin 8) (j : Fin 512) (w : Cmd) (x : Job) (d : HeadDesc),
    let e : Nat := 32 + k.val
    let u : State := s.staged e c.val j.val w x
    let good : Prop := w.w2 = 0 ∧ u.headCause e c.val d false = none
    s.calm ∧
    s.issues (32 + k.val) c.val j.val w x ∧
    cmdOp w = 36 ∧
    w.w2 ≠ 1 ∧
    good ∧
    x.ended ≠ none) := by
  refine ⟨?_, ?_, ?_, ?_, ?_, ?_, ?_, ?_⟩
  · exact ⟨wpoolG2.getD 23 go, 1, 2, { w0 := 0x25#32, w1 := 0x40#32, w2 := 0x0#32, w3 := 0x0#32 }, { mapAt := 0x0#20, threshold := 0xa#8, gy := 0x2#7, gx := 0x3#7, camera := 3, aspect := none }, by decide +kernel⟩
  · exact ⟨wpoolG2.getD 0 go, 1, 2, 0x0#32, 2, { w0 := 0x24#32, w1 := 0x40#32, w2 := 0x1#32, w3 := 0x0#32 }, by decide +kernel⟩
  · exact ⟨wpoolG2.getD 17 go, 1, 2, 0x0#32, 2, { w0 := 0x24#32, w1 := 0x40#32, w2 := 0x1#32, w3 := 0x0#32 }, by decide +kernel⟩
  · exact ⟨wpoolG2.getD 16 go, 1, 2, 0x0#32, 2, { w0 := 0x24#32, w1 := 0x40#32, w2 := 0x1#32, w3 := 0x0#32 }, { classes := 0x3#9, floating := true, logitsAt := 0x0#20, tableAt := 0x100#20, x0 := 0x0#32, exp := 0x0#9, mask := 0x7#256, confMin := 0x64#16, lowReject := false, probsAt := 0x200#20 }, by decide +kernel⟩
  · exact ⟨wpoolG2.getD 1 go, 1, 2, 5, { w0 := 0x24#32, w1 := 0x40#32, w2 := 0x0#32, w3 := 0x0#32 }, j1, { classes := 0x3#9, floating := true, logitsAt := 0x0#20, tableAt := 0x100#20, x0 := 0x0#32, exp := 0x0#9, mask := 0x7#256, confMin := 0x64#16, lowReject := false, probsAt := 0x200#20 }, by decide +kernel⟩
  · exact ⟨wpoolG2.getD 4 go, 1, 2, 5, { w0 := 0x24#32, w1 := 0x0#32, w2 := 0x2#32, w3 := 0x0#32 }, j0, by decide +kernel⟩
  · exact ⟨wpoolG2.getD 3 go, 1, 2, 5, { w0 := 0x24#32, w1 := 0x40#32, w2 := 0x0#32, w3 := 0x0#32 }, j1, { classes := 0x3#9, floating := true, logitsAt := 0x0#20, tableAt := 0x100#20, x0 := 0x0#32, exp := 0x0#9, mask := 0x7#256, confMin := 0x64#16, lowReject := false, probsAt := 0x200#20 }, by decide +kernel⟩
  · exact ⟨wpoolG2.getD 2 go, 1, 2, 5, { w0 := 0x24#32, w1 := 0x40#32, w2 := 0x0#32, w3 := 0x0#32 }, jend, { classes := 0x3#9, floating := true, logitsAt := 0x0#20, tableAt := 0x100#20, x0 := 0x0#32, exp := 0x0#9, mask := 0x7#256, confMin := 0x64#16, lowReject := false, probsAt := 0x200#20 }, by decide +kernel⟩

end WitG

/-! #### Witnesses: banks and budgets -/

namespace WitB

def bon (s : State) : State := { (List.range 202).foldl (fun s b => s.wr P.bank Reg.BANK_CTL_pwr 2 b) s with mem := [(5,5),(0x2000000000,3),(0x2007fc0000,1),(0x1000000000,4),(0x1000100005,5),(0x3000000001,3)] }
def pend (s : State) : State := { ((s.wrb P.bank Reg.BANK_CTL_pend true 0).wrb P.bank Reg.BANK_CTL_pend true 192).wrb P.bank Reg.BANK_CTL_pend true 195 with msys := { s.msys with handovers := [(0, 3), (192, 10+8),(195,5)] } }
def bl (s : State) : State := {(((s.wr P.blw Reg.BLW_CLS_BUD0_budget 100 1).wr P.blw Reg.BLW_CLS_BUD1_budget 100 1).wr P.blw Reg.BLW_CLS_BUD0_prot 1 1).wr P.blw Reg.BLW_CLS_BUD0_borrow 1 3 with msys := {s.msys with left := [(0,5),(2,5),(3,8),(4,9),(18,7)], pendingRegs := [(clsAddr 1 0, 0x1000005),(clsAddr 2 2, 64),(P.blw+0x40, 100)]}}
def bl2 (s : State) : State := {s with msys := {s.msys with rot := 3, overrun := [0,2], left := [(31,5)]}}
def ow (s : State) (i k : Nat) : State := {s with msys := {s.msys with pendingRegs := [], owed := [(i,k,7)]}}
def bkd : State := { go with seq := {go.seq with power := .banked}}

theorem witness_BankWritesHandOverAndSwitch :
  (∃ (s : State) (b : Fin 202) (v : Word),
    let o : Nat := bits v.toNat 0 3
    let u : Nat := bits v.toNat 4 2
    let p : Nat := bits v.toNat 12 2
    let was : Nat := s.rd P.bank Reg.BANK_CTL_pwr b.val
    let asks : Prop := ¬(o = s.bankOwner b.val ∧ u = s.rd P.bank Reg.BANK_CTL_unit b.val)
    let pend : Prop := s.rdb P.bank Reg.BANK_CTL_pend b.val = true
    let why : Nat := if ownerPermitted b.val o = false then 1 else if s.shareHeld b.val = true ∧ o ≠ serviceOwner b.val then 2 else if was ≠ 2 then 3 else 0
    let powers : Prop := p ≠ was ∧ powerValue b.val p = true
    let held : Prop := p ≠ 2 ∧ s.shareHeld b.val = true
    s.atRest ∧
    s.reaches (P.bank + 64 + 4 * b.val) ∧
    asks ∧
    (¬pend) ∧
    why = 0 ∧
    (¬powers ∨ held) ∧
    (¬(powers ∧ ¬held ∧ (p = 0 ∨ was = 0)))) ∧
  (∃ (s : State) (b : Fin 202),
    s.atRest ∧
    s.rdb P.bank Reg.BANK_CTL_pend b.val = false) ∧
  (∃ (s : State) (b : Fin 202),
    s.atRest ∧
    s.rdb P.bank Reg.BANK_CTL_pend b.val = true) ∧
  (∃ (s : State) (b : Fin 202) (v : Word) (a : Nat),
    let o : Nat := bits v.toNat 0 3
    let u : Nat := bits v.toNat 4 2
    let p : Nat := bits v.toNat 12 2
    let was : Nat := s.rd P.bank Reg.BANK_CTL_pwr b.val
    let asks : Prop := ¬(o = s.bankOwner b.val ∧ u = s.rd P.bank Reg.BANK_CTL_unit b.val)
    let pend : Prop := s.rdb P.bank Reg.BANK_CTL_pend b.val = true
    let why : Nat := if ownerPermitted b.val o = false then 1 else if s.shareHeld b.val = true ∧ o ≠ serviceOwner b.val then 2 else if was ≠ 2 then 3 else 0
    let powers : Prop := p ≠ was ∧ powerValue b.val p = true
    let held : Prop := p ≠ 2 ∧ s.shareHeld b.val = true
    let inBank : Nat → Prop := fun a => bankBase b.val ≤ a ∧ a < bankBase b.val + bankSize b.val
    s.atRest ∧
    s.reaches (P.bank + 64 + 4 * b.val) ∧
    (¬asks ∨ pend ∨ why ≠ 0) ∧
    powers ∧
    (¬held) ∧
    (powers ∧ ¬held ∧ (p = 0 ∨ was = 0)) ∧
    (¬inBank a)) ∧
  (∃ (s : State) (b : Fin 202) (v : Word) (a : Nat),
    let o : Nat := bits v.toNat 0 3
    let u : Nat := bits v.toNat 4 2
    let p : Nat := bits v.toNat 12 2
    let was : Nat := s.rd P.bank Reg.BANK_CTL_pwr b.val
    let asks : Prop := ¬(o = s.bankOwner b.val ∧ u = s.rd P.bank Reg.BANK_CTL_unit b.val)
    let pend : Prop := s.rdb P.bank Reg.BANK_CTL_pend b.val = true
    let why : Nat := if ownerPermitted b.val o = false then 1 else if s.shareHeld b.val = true ∧ o ≠ serviceOwner b.val then 2 else if was ≠ 2 then 3 else 0
    let powers : Prop := p ≠ was ∧ powerValue b.val p = true
    let held : Prop := p ≠ 2 ∧ s.shareHeld b.val = true
    let inBank : Nat → Prop := fun a => bankBase b.val ≤ a ∧ a < bankBase b.val + bankSize b.val
    s.atRest ∧
    s.reaches (P.bank + 64 + 4 * b.val) ∧
    (¬asks ∨ pend ∨ why ≠ 0) ∧
    powers ∧
    (¬held) ∧
    (powers ∧ ¬held ∧ (p = 0 ∨ was = 0)) ∧
    inBank a) := by
  refine ⟨?_, ?_, ?_, ?_, ?_⟩
  · exact ⟨go, 0, 0x2010#32, by decide +kernel⟩
  · exact ⟨go, 0, by decide +kernel⟩
  · exact ⟨pend (bon go), 0, by decide +kernel⟩
  · exact ⟨go, 0, 0x0#32, 0, by decide +kernel⟩
  · exact ⟨go, 0, 0x0#32, 137438953472, by decide +kernel⟩

theorem witness_BudgetsAreAdmittedReloadedAndSpent_1 :
  (∃ (s : State) (v : Word),
    let n : Nat := v.toNat % 1024
    let q : Plan := (((s.holdReg (P.blw + 64) n).holdReg (clsAddr 2 2) ((64 * n + 99) / 100)).holdReg (clsAddr 2 3) ((64 * n + 99) / 100)).nextPlan
    let prots : List Nat := List.filter q.prot (List.range 16)
    let short : Prop := ∃ i, i ∈ prots ∧ (q.budget i 0 < q.decl i 0 ∨ q.budget i 1 < q.decl i 1)
    let above : Nat → Prop := fun k => 3125 * n < (List.map (fun j => q.budget j k) prots).sum
    s.atRest ∧
    s.reaches (P.blw + 64) ∧
    10 ≤ n ∧
    n ≤ 1000 ∧
    (¬(short ∨ above 0 ∨ above 1))) ∧
  (∃ (s : State) (k : Fin 2) (i : Fin 16),
    let tier : Nat → Nat := fun i => if s.blwProt i = true ∧ 0 < s.blwLeft i k.val then 1 else if s.blwProt i = true ∨ 0 < s.blwLeft i k.val then 2 else if s.blwBorrow i = true then 3 else 4
    s.calm ∧
    tier i.val ≠ 4 ∧
    (¬(s.blwProt i.val = true ∧ s.blwLeft i.val k.val = 0))) ∧
  (∃ (s : State) (v : Word),
    let n : Nat := v.toNat % 1024
    s.atRest ∧
    s.reaches (P.blw + 64) ∧
    (n < 10 ∨ 1000 < n)) ∧
  (∃ (s : State) (i : Fin 16) (r : Fin 4) (v : Word),
    let w : Nat := clsFix i.val r.val v.toNat
    let p : Plan := (s.holdReg (clsAddr i.val r.val) w).nextPlan
    let prots : List Nat := List.filter p.prot (List.range 16)
    let short : Nat → Prop := fun k => p.budget i.val k < p.decl i.val k
    let above : Nat → Prop := fun k => 3125 * p.period < (List.map (fun j => p.budget j k) prots).sum
    let fixed : Prop := i.val = 2 ∧ 2 ≤ r.val
    let bad : Prop := p.prot i.val = true ∧ (short 0 ∨ short 1 ∨ above 0 ∨ above 1)
    s.atRest ∧
    s.reaches (clsAddr i.val r.val) ∧
    (¬fixed) ∧
    bad) ∧
  (∃ (s : State) (i : Fin 16) (r : Fin 4) (v : Word) (a : Nat),
    let w : Nat := clsFix i.val r.val v.toNat
    let p : Plan := (s.holdReg (clsAddr i.val r.val) w).nextPlan
    let prots : List Nat := List.filter p.prot (List.range 16)
    let short : Nat → Prop := fun k => p.budget i.val k < p.decl i.val k
    let above : Nat → Prop := fun k => 3125 * p.period < (List.map (fun j => p.budget j k) prots).sum
    let fixed : Prop := i.val = 2 ∧ 2 ≤ r.val
    let bad : Prop := p.prot i.val = true ∧ (short 0 ∨ short 1 ∨ above 0 ∨ above 1)
    s.atRest ∧
    s.reaches (clsAddr i.val r.val) ∧
    (¬fixed) ∧
    (¬bad) ∧
    a ≠ clsAddr i.val r.val) ∧
  (∃ (s : State) (k : Fin 2) (i : Fin 16),
    s.calm ∧
    s.blwProt i.val = true ∧
    s.blwLeft i.val k.val = 0 ∧
    (¬i.val ∈ s.msys.overrun)) ∧
  (∃ (s : State) (k : Fin 2) (i : Fin 16),
    let tier : Nat → Nat := fun i => if s.blwProt i = true ∧ 0 < s.blwLeft i k.val then 1 else if s.blwProt i = true ∨ 0 < s.blwLeft i k.val then 2 else if s.blwBorrow i = true then 3 else 4
    s.calm ∧
    tier i.val = 4) ∧
  (∃ (s : State) (v : Word),
    let n : Nat := v.toNat % 1024
    let q : Plan := (((s.holdReg (P.blw + 64) n).holdReg (clsAddr 2 2) ((64 * n + 99) / 100)).holdReg (clsAddr 2 3) ((64 * n + 99) / 100)).nextPlan
    let prots : List Nat := List.filter q.prot (List.range 16)
    let short : Prop := ∃ i, i ∈ prots ∧ (q.budget i 0 < q.decl i 0 ∨ q.budget i 1 < q.decl i 1)
    let above : Nat → Prop := fun k => 3125 * n < (List.map (fun j => q.budget j k) prots).sum
    s.atRest ∧
    s.reaches (P.blw + 64) ∧
    10 ≤ n ∧
    n ≤ 1000 ∧
    (short ∨ above 0 ∨ above 1)) := by
  refine ⟨?_, ?_, ?_, ?_, ?_, ?_, ?_, ?_⟩
  · exact ⟨go, 0x2010#32, by decide +kernel⟩
  · exact ⟨ow (bl go) 1 0, 0, 0, by decide +kernel⟩
  · exact ⟨ow (bl go) 1 0, 0x0#32, by decide +kernel⟩
  · exact ⟨ow (bl go) 1 0, 0, 2, 0x2010#32, by decide +kernel⟩
  · exact ⟨ow (bl go) 1 0, 0, 0, 0x0#32, 0, by decide +kernel⟩
  · exact ⟨ow (bl go) 1 0, 1, 0, by decide +kernel⟩
  · exact ⟨ow (bl go) 1 0, 0, 15, by decide +kernel⟩
  · exact ⟨go, 0x190#32, by decide +kernel⟩

theorem witness_BudgetsAreAdmittedReloadedAndSpent_2 :
  (∃ (s : State) (i : Nat) (k : Nat),
    let x : Nat × Nat × Nat := (List.drop 0 s.msys.owed).head!
    s.atRest ∧
    s.seq.power ≠ ChipPower.banked ∧
    s.msys.pendingRegs = [] ∧
    i < 16 ∧
    k < 2 ∧
    s.msys.owed = [(i, k, x.snd.snd)] ∧
    0 < s.blwBudget i k) ∧
  (∃ (s : State) (k : Fin 2) (i : Fin 16) (j : Fin 16),
    let tier : Nat → Nat := fun i => if s.blwProt i = true ∧ 0 < s.blwLeft i k.val then 1 else if s.blwProt i = true ∨ 0 < s.blwLeft i k.val then 2 else if s.blwBorrow i = true then 3 else 4
    s.calm ∧
    i ≠ j ∧
    tier i.val = 3 ∧
    tier j.val ≤ 2) ∧
  (∃ (s : State) (i : Nat) (k : Nat),
    s.atRest ∧
    s.seq.power ≠ ChipPower.banked ∧
    s.msys.owed = [] ∧
    i < 16 ∧
    k < 2 ∧
    (∀ (x : Nat × Nat), x ∈ s.msys.pendingRegs → x.fst = P.blw + 64 ∨ ∃ i, i < 16 ∧ ∃ r, r < 4 ∧ x.fst = clsAddr i r) ∧
    (List.map Prod.fst s.msys.pendingRegs).Nodup ∧
    s.msys.pendingRegs = []) ∧
  (∃ (s : State) (i : Nat) (k : Nat),
    let x : Nat × Nat × Nat := (List.drop 0 s.msys.owed).head!
    s.atRest ∧
    s.seq.power ≠ ChipPower.banked ∧
    s.msys.pendingRegs = [] ∧
    i < 16 ∧
    k < 2 ∧
    s.msys.owed = [(i, k, x.snd.snd)] ∧
    s.blwBudget i k = 0 ∧
    s.blwProt i = false ∧
    s.blwBorrow i = false) ∧
  (∃ (s : State),
    s.atRest ∧
    s.seq.power = ChipPower.banked) ∧
  (∃ (s : State) (i : Fin 16) (r : Fin 4),
    let fixed : Prop := i.val = 2 ∧ 2 ≤ r.val
    s.atRest ∧
    s.reaches (clsAddr i.val r.val) ∧
    fixed) ∧
  (∃ (s : State) (k : Fin 2) (i : Fin 16),
    s.calm ∧
    s.blwProt i.val = true ∧
    s.blwLeft i.val k.val = 0 ∧
    i.val ∈ s.msys.overrun) := by
  refine ⟨?_, ?_, ?_, ?_, ?_, ?_, ?_⟩
  · exact ⟨ow (bl go) 1 0, 1, 0, by decide +kernel⟩
  · exact ⟨ow (bl go) 1 0, 0, 3, 0, by decide +kernel⟩
  · exact ⟨go, 0, 0, by decide +kernel⟩
  · exact ⟨ow go 9 1, 9, 1, by decide +kernel⟩
  · exact ⟨bkd, by decide +kernel⟩
  · exact ⟨ow (bl go) 1 0, 2, 2, by decide +kernel⟩
  · exact ⟨bl2 (bl go), 0, 0, by decide +kernel⟩

end WitB

/-! #### Witnesses: DRAM -/

namespace WitD

def bil : Billet := { (default : Billet) with len := 0x1000, formatKnown := true, aUnits := 4, wUnits := 3, pUnits := 3, xUnits := 4, anvCmds := 10, tngCmds := 10, quota := 3, thresholds := [3,7], windows := [(0x100000,0x10000)], copy0 := 0x200000, copy1 := 0x400300000 }
def jx : Job := { (default : Job) with ctx := 2, kind := .host, tag := 5, counts := [(0, 9), (1, 3)], tongs := 1 }
def jy : Job := { jx with tag := 6, dataErr := true }
def g0 : State := { go with mem := [(0x200000,9),(0x20001a,5),(0x400300000,3),(0x40030000b,7)], ctxs := [(2, { (default : Ctx) with billet := some bil })], sched := { go.sched with jobs := [(5, jx),(6,jy)], order := [5,6] }, engines := [(0,{(default : Engine) with cur := some 2, jobOf := [(2,6)]})] }
def g : State := {((g0.wr P.bry Reg.BRY_FLOW_N_n 2).wr P.bry Reg.BRY_FLOW_BASE_addr_lo 0x7000).wr (seqPage 0) Reg.ANV_CTX_STAT_state 1 2 with mem := g0.mem.filter (fun p => p.1 < 0x7000) ++ [(0x7000,1),(0x7002,2)] ++ g0.mem.filter (fun p => 0x8000 < p.1), bry := {go.bry with flows := [(0,{(default : Flow) with landing := [default]})]}}
def po (s : State) : State := {s with msys := {s.msys with poison := [0x100008/8, 0x400300018/8], scrubAt := [(0,0x20001),(1,0x7fffffff)]}}
def lf (s : State) : State := {s with msys := {s.msys with left := [(8,3),(9,3),(10,1),(11,5),(12,4),(14,9),(15,2),(20,4),(21,9)]}}

theorem witness_DramReadsCountRepairAndPoison_1 :
  (∃ (s : State) (addr : DevAddr) (who : DramRequester) (up : Upset) (j : Fin 512),
    let a : Nat := addr.toNat
    let k : Nat := stackOf a
    let p : Nat := P.drc k
    let e : Nat := s.requesterEntry who
    let u : State := s.moved e a 8 2336
    let bad : Prop := a / 8 ∈ s.msys.poison ∨ up = Upset.uncorrectable
    let twin : Option Nat := Option.filter (fun w => decide (w / 8 ≠ a / 8) && !s.msys.poison.contains (w / 8) && !s.stackDead w) (s.billetTwin a)
    let x : Job := (s.job j.val).get!
    s.calm ∧
    inDram a = true ∧
    a % 8 = 0 ∧
    0 < s.blwLeft e k ∧
    s.dramAlive = true ∧
    s.inFault p = false ∧
    bad ∧
    twin = none ∧
    who = DramRequester.engineDma j ∧
    s.job j.val = some x ∧
    x.ended = none ∧
    j.val ∈ s.sched.order ∧
    x.restarts < 2 ∧
    u.ctxFlows x.ctx = [] ∧
    x.dataErr = false) ∧
  (∃ (s : State) (addr : DevAddr) (who : DramRequester) (up : Upset) (j : Fin 512),
    let a : Nat := addr.toNat
    let k : Nat := stackOf a
    let p : Nat := P.drc k
    let e : Nat := s.requesterEntry who
    let u : State := s.moved e a 8 2336
    let bad : Prop := a / 8 ∈ s.msys.poison ∨ up = Upset.uncorrectable
    let twin : Option Nat := Option.filter (fun w => decide (w / 8 ≠ a / 8) && !s.msys.poison.contains (w / 8) && !s.stackDead w) (s.billetTwin a)
    let x : Job := (s.job j.val).get!
    s.calm ∧
    inDram a = true ∧
    a % 8 = 0 ∧
    0 < s.blwLeft e k ∧
    s.dramAlive = true ∧
    s.inFault p = false ∧
    bad ∧
    twin = none ∧
    who = DramRequester.crop j ∧
    s.job j.val = some x ∧
    x.ended = none ∧
    u.ctxFlows x.ctx = []) ∧
  (∃ (s : State) (addr : DevAddr) (who : DramRequester) (up : Upset),
    let a : Nat := addr.toNat
    let k : Nat := stackOf a
    let p : Nat := P.drc k
    let e : Nat := s.requesterEntry who
    let bad : Prop := a / 8 ∈ s.msys.poison ∨ up = Upset.uncorrectable
    let twin : Option Nat := Option.filter (fun w => decide (w / 8 ≠ a / 8) && !s.msys.poison.contains (w / 8) && !s.stackDead w) (s.billetTwin a)
    let w : Nat := twin.get!
    s.calm ∧
    inDram a = true ∧
    s.dramAlive = true ∧
    s.inFault p = false ∧
    bad ∧
    twin = some w ∧
    s.masked p 21 = false ∧
    s.rd p Reg.BLK_ERR_cause = 0 ∧
    s.rdb p Reg.BLK_CTRL_evt_en = true ∧
    a % 8 = 0 ∧
    s.blwTier e k = 4) ∧
  (∃ (s : State) (addr : DevAddr) (who : DramRequester) (up : Upset) (g : Fin 36),
    let a : Nat := addr.toNat
    let k : Nat := stackOf a
    let p : Nat := P.drc k
    let bad : Prop := a / 8 ∈ s.msys.poison ∨ up = Upset.uncorrectable
    let twin : Option Nat := Option.filter (fun w => decide (w / 8 ≠ a / 8) && !s.msys.poison.contains (w / 8) && !s.stackDead w) (s.billetTwin a)
    s.calm ∧
    inDram a = true ∧
    s.dramAlive = true ∧
    s.inFault p = false ∧
    bad ∧
    twin = none ∧
    who = DramRequester.programFetch g ∧
    s.isFenced (P.eng g.val) = false ∧
    s.rd (P.eng g.val) Reg.BLK_ERR_cause = 0) ∧
  (∃ (s : State) (addr : DevAddr) (who : DramRequester) (up : Upset),
    let a : Nat := addr.toNat
    let k : Nat := stackOf a
    let p : Nat := P.drc k
    let plain : Prop := who ∈ [DramRequester.billet, DramRequester.hearth, DramRequester.bar2, DramRequester.archive]
    let bad : Prop := a / 8 ∈ s.msys.poison ∨ up = Upset.uncorrectable
    let twin : Option Nat := Option.filter (fun w => decide (w / 8 ≠ a / 8) && !s.msys.poison.contains (w / 8) && !s.stackDead w) (s.billetTwin a)
    s.calm ∧
    inDram a = true ∧
    s.dramAlive = true ∧
    s.inFault p = false ∧
    bad ∧
    twin = none ∧
    plain) ∧
  (∃ (s : State) (addr : DevAddr) (who : DramRequester) (up : Upset),
    let a : Nat := addr.toNat
    let k : Nat := stackOf a
    let p : Nat := P.drc k
    let e : Nat := s.requesterEntry who
    let bad : Prop := a / 8 ∈ s.msys.poison ∨ up = Upset.uncorrectable
    s.calm ∧
    inDram a = true ∧
    a % 8 = 0 ∧
    0 < s.blwLeft e k ∧
    s.dramAlive = true ∧
    s.inFault p = false ∧
    (¬bad) ∧
    up = Upset.correctable) := by
  refine ⟨?_, ?_, ?_, ?_, ?_, ?_⟩
  · exact ⟨lf (po g0), 0x100008#40, DramRequester.engineDma 5, Upset.clean, 5, by decide +kernel⟩
  · exact ⟨lf (po g0), 0x100008#40, DramRequester.crop 5, Upset.clean, 5, by decide +kernel⟩
  · exact ⟨g, 0x200018#40, DramRequester.crop 5, Upset.uncorrectable, by decide +kernel⟩
  · exact ⟨lf (po g), 0x100008#40, DramRequester.programFetch 0, Upset.clean, 0, by decide +kernel⟩
  · exact ⟨lf (po g0), 0x100008#40, DramRequester.bar2, Upset.clean, by decide +kernel⟩
  · exact ⟨lf (po g0), 0x0#40, DramRequester.bar2, Upset.correctable, by decide +kernel⟩

theorem witness_DramReadsCountRepairAndPoison_2 :
  (∃ (s : State) (addr : DevAddr) (up : Upset) (i : Nat),
    let a : Nat := addr.toNat
    let k : Nat := stackOf a
    let p : Nat := P.drc k
    let bad : Prop := a / 8 ∈ s.msys.poison ∨ up = Upset.uncorrectable
    let twin : Option Nat := Option.filter (fun w => decide (w / 8 ≠ a / 8) && !s.msys.poison.contains (w / 8) && !s.stackDead w) (s.billetTwin a)
    let w : Nat := twin.get!
    s.calm ∧
    inDram a = true ∧
    s.dramAlive = true ∧
    s.inFault p = false ∧
    bad ∧
    twin = some w ∧
    i < 8 ∧
    s.masked p 21 = false ∧
    s.rd p Reg.BLK_ERR_cause = 0 ∧
    s.rdb p Reg.BLK_CTRL_evt_en = true) ∧
  (∃ (s : State) (addr : DevAddr) (up : Upset) (x : Nat),
    let a : Nat := addr.toNat
    let k : Nat := stackOf a
    let p : Nat := P.drc k
    let bad : Prop := a / 8 ∈ s.msys.poison ∨ up = Upset.uncorrectable
    let twin : Option Nat := Option.filter (fun w => decide (w / 8 ≠ a / 8) && !s.msys.poison.contains (w / 8) && !s.stackDead w) (s.billetTwin a)
    let w : Nat := twin.get!
    s.calm ∧
    inDram a = true ∧
    s.dramAlive = true ∧
    s.inFault p = false ∧
    bad ∧
    twin = some w ∧
    (x < a / 8 * 8 ∨ a / 8 * 8 + 8 ≤ x)) ∧
  (∃ (s : State) (addr : DevAddr),
    let a : Nat := addr.toNat
    s.calm ∧
    (inDram a = false ∨ s.dramAlive = false)) ∧
  (∃ (s : State) (addr : DevAddr) (who : DramRequester) (up : Upset),
    let a : Nat := addr.toNat
    let k : Nat := stackOf a
    let p : Nat := P.drc k
    let e : Nat := s.requesterEntry who
    let bad : Prop := a / 8 ∈ s.msys.poison ∨ up = Upset.uncorrectable
    s.calm ∧
    inDram a = true ∧
    a % 8 = 0 ∧
    0 < s.blwLeft e k ∧
    s.dramAlive = true ∧
    s.inFault p = false ∧
    (¬bad) ∧
    up = Upset.clean) ∧
  (∃ (s : State) (addr : DevAddr) (who : DramRequester) (up : Upset) (j : Fin 512),
    let a : Nat := addr.toNat
    let k : Nat := stackOf a
    let p : Nat := P.drc k
    let bad : Prop := a / 8 ∈ s.msys.poison ∨ up = Upset.uncorrectable
    let twin : Option Nat := Option.filter (fun w => decide (w / 8 ≠ a / 8) && !s.msys.poison.contains (w / 8) && !s.stackDead w) (s.billetTwin a)
    let x : Job := (s.job j.val).get!
    s.calm ∧
    inDram a = true ∧
    s.dramAlive = true ∧
    s.inFault p = false ∧
    bad ∧
    twin = none ∧
    who = DramRequester.engineDma j ∧
    s.job j.val = some x ∧
    x.ended = none ∧
    j.val ∈ s.sched.order ∧
    x.restarts < 2 ∧
    x.dataErr = true) ∧
  (∃ (s : State) (addr : DevAddr) (who : DramRequester),
    let a : Nat := addr.toNat
    let k : Nat := stackOf a
    let p : Nat := P.drc k
    let plain : Prop := who ∈ [DramRequester.billet, DramRequester.hearth, DramRequester.bar2, DramRequester.archive]
    s.calm ∧
    inDram a = true ∧
    s.dramAlive = true ∧
    s.inFault p = true ∧
    plain) := by
  refine ⟨?_, ?_, ?_, ?_, ?_, ?_⟩
  · exact ⟨lf (po g0), 0x400300008#40, Upset.uncorrectable, 0, by decide +kernel⟩
  · exact ⟨lf (po g0), 0x400300008#40, Upset.uncorrectable, 0, by decide +kernel⟩
  · exact ⟨lf g, 0x800000000#40, by decide +kernel⟩
  · exact ⟨lf (po g0), 0x0#40, DramRequester.bar2, Upset.clean, by decide +kernel⟩
  · exact ⟨po g, 0x100008#40, DramRequester.engineDma 6, Upset.clean, 6, by decide +kernel⟩
  · exact ⟨po (g.wr (P.drc 0) Reg.BLK_STAT_state 3), 0x0#40, DramRequester.bar2, by decide +kernel⟩

theorem witness_RefreshScrubAndTemperatureAct :
  (∃ (s : State) (k : Fin 2) (up : Upset),
    let p : Nat := P.drc k.val
    let i : Nat := s.msys.scrubAt.get k.val 0
    let a : Nat := k.val * 17179869184 + 8 * i
    let runs : Prop := s.dramAlive = true ∧ s.inFault p = false ∧ s.rdb p Reg.DRC_CFG_scrub_en = true
    s.calm ∧
    runs ∧
    (a / 8 ∈ s.msys.poison ∨ up = Upset.uncorrectable) ∧
    s.masked p 17 = false ∧
    s.rd p Reg.BLK_ERR_cause = 0) ∧
  (∃ (s : State) (k : Fin 2) (v : StackTemp),
    let p : Nat := P.drc k.val
    s.calm ∧
    s.dramAlive = true ∧
    v = StackTemp.above ∧
    s.isFenced p = false ∧
    s.rd p Reg.BLK_ERR_cause = 0) ∧
  (∃ (s : State),
    s.atRest ∧
    s.dramAlive = true) ∧
  (∃ (s : State) (k : Fin 2) (up : Upset),
    let p : Nat := P.drc k.val
    let i : Nat := s.msys.scrubAt.get k.val 0
    let a : Nat := k.val * 17179869184 + 8 * i
    let runs : Prop := s.dramAlive = true ∧ s.inFault p = false ∧ s.rdb p Reg.DRC_CFG_scrub_en = true
    s.calm ∧
    runs ∧
    (¬a / 8 ∈ s.msys.poison) ∧
    up = Upset.correctable) ∧
  (∃ (s : State) (k : Fin 2) (up : Upset),
    let p : Nat := P.drc k.val
    let i : Nat := s.msys.scrubAt.get k.val 0
    let a : Nat := k.val * 17179869184 + 8 * i
    let runs : Prop := s.dramAlive = true ∧ s.inFault p = false ∧ s.rdb p Reg.DRC_CFG_scrub_en = true
    s.calm ∧
    runs ∧
    (¬a / 8 ∈ s.msys.poison) ∧
    up = Upset.clean) ∧
  (∃ (s : State) (v : StackTemp),
    s.calm ∧
    s.dramAlive = true ∧
    v ≠ StackTemp.above) ∧
  (∃ (s : State),
    s.atRest ∧
    s.dramAlive = false) ∧
  (∃ (s : State) (k : Fin 2),
    let p : Nat := P.drc k.val
    let runs : Prop := s.dramAlive = true ∧ s.inFault p = false ∧ s.rdb p Reg.DRC_CFG_scrub_en = true
    s.calm ∧
    (¬runs)) := by
  refine ⟨?_, ?_, ?_, ?_, ?_, ?_, ?_, ?_⟩
  · exact ⟨po g, 0, Upset.clean, by decide +kernel⟩
  · exact ⟨g, 0, StackTemp.above, by decide +kernel⟩
  · exact ⟨lf g, by decide +kernel⟩
  · exact ⟨g, 0, Upset.correctable, by decide +kernel⟩
  · exact ⟨g, 0, Upset.clean, by decide +kernel⟩
  · exact ⟨g, StackTemp.hot, by decide +kernel⟩
  · exact ⟨{po g with seq := {g.seq with phase := .warmClearing}}, by decide +kernel⟩
  · exact ⟨po (g.wr (P.drc 0) Reg.BLK_STAT_state 3), 0, by decide +kernel⟩

end WitD

/-! #### Witnesses: contexts -/

namespace WitC

def bil : Billet := { (default : Billet) with addr := 0x1000, len := 0x40, formatKnown := true, aUnits := 4, wUnits := 3, pUnits := 3, xUnits := 4, n4Units := 1, n5Units := 0, anvCmds := 300, tngCmds := 200, quota := 3, copy0 := 0x200000, copy1 := 0x400300000, primCam := 1, primEn := true, failsafe := true, refLine := 1, prio := 3, specEn := true, actMap := [(0,40,3,5),(30,100,4,6)], decl0 := 3, decl1 := 4, prot := false, thresholds := [3,7], waits := [], earlyExit := true, inputLen := 0, windows := [(0x100000,0x10000)], stepBytes := [], stepAddrs := [], stepEngines := [], flows := [(3, [1,0,2])] }
def g : State := Id.run do
  let mut s : State := { go with mem := [(0x1000,3),(0x1004,0x11),(0x2000000000,3),(0x2000004005,7),(0x1000400003,5),(0x3000000001,3)], ctxs := [(2, { (default : Ctx) with billet := some bil, aBase := 0, pBase := 1 }), (3, { (default : Ctx) with billet := some bil, aBase := 4, since := 5, boxQ := [default], hostQ := [.ring,.ring] })] }
  s := s.wr P.erq Reg.MBX_CFG_en 1
  s := s.wr P.erq Reg.MBX_STAT_prod 3
  for c in [2,3] do
    s := (s.wr (P.schC c) Reg.SCH_CTX_CFG_prim_cam 1).wr (P.schC c) Reg.SCH_CTX_CFG_prim_en 1
    s := (((s.wr (P.schC c) Reg.SCH_CTX_ACT_GRP_valid 1 0).wr (P.schC c) Reg.SCH_CTX_ACT_COLS_last 30 0).wr (P.schC c) Reg.SCH_CTX_ACT_GRP_grp 3 0).wr (P.schC c) Reg.SCH_CTX_ACT_GRP_valid 1 4
    s := ((s.wr (P.schC c) Reg.SCH_CTX_ACT_COLS_first 31 4).wr (P.schC c) Reg.SCH_CTX_ACT_COLS_last 99 4).wr (P.schC c) Reg.SCH_CTX_ACT_GRP_grp 4 4
  s := ((s.wr (P.cfeC 1) Reg.CFE_CAM_FMT_width 100).wr (P.cfeC 1) Reg.CFE_CAM_STAT_state 2).wr (P.cfeC 1) Reg.CFE_CAM_BLK_h 32
  s := (s.wr P.cfe0 Reg.CLAIM_CFE0_owner 3 1).wr P.cfe0 Reg.CLAIM_CFE0_unit 2 1
  s := s.wr P.ltg Reg.LTG_CFG_enc 2 2
  for gg in [3,4] do s := (s.wr P.rtu Reg.RTU_GRP_CFG_armed 1 gg).wr P.rtu Reg.RTU_GRP_CFG_enc 2 gg
  pure s
def st (a b : Nat) (s : State) : State := (s.wr (P.schC 2) Reg.SCH_CTX_STAT_state a).wr (P.schC 3) Reg.SCH_CTX_STAT_state b
def sw (x : Bool) (l : Nat) (s : State) : State := s.setCtx 2 {s.ctx 2 with swapTo := some (3, l), swapped := x}
def adm (s : State) : State := st 1 1 (s.setCtx 2 {s.ctx 2 with req := some ⟨7, 0x10000⟩})
def withM (s : State) : State := {s with host := {s.host with mbxTaken := [(⟨7,0x10000⟩,0x10),(⟨7,0x10000⟩,0x20)]}}
def jx : Job := { (default : Job) with ctx := 2, kind := .host, tag := 5, counts := [(0, 9), (1, 3)], tongs := 1 }
def job (s : State) : State := {s with sched := {s.sched with jobs := [(5,jx),(7,{jx with tag := 7, ended := some 1}),(9, {jx with ctx := 3})], order := [5,7,9]}}
def nl (n : Nat) (s : State) : State := s.setCam 1 {s.cam 1 with nextLine := n}
def seedO : List Byte := List.replicate 32 9
def pubO := edPublic seedO
def mkO (seed : List Byte) (kind svn bind : Nat) (body : List Byte) : List Byte :=
  let head := le 4 0x4b317e3a ++ le 2 kind ++ le 2 1 ++ le 4 body.length ++ le 4 svn ++ le 8 bind ++ le 4 0xffffffff ++ le 4 0 ++ sha512 body ++ edPublic seed
  head ++ edSign seed (sha512 head) ++ body
def bl : List Byte := mkO seedO 2 0 0 (List.replicate 20 7)
def sb (s : State) : State := Id.run do
  let mut s := {s with mem := Memory.writeBytes s.mem 0x600000 bl}
  s := (s.wr P.tmp Reg.TMP_LC_count 2).wr P.tmp Reg.TMP_LC_state 2
  s := {s with temper := {s.temper with ownerKeys := [(0, pubO)]}}
  pure s.slotsShow

theorem witness_ContextCommandsFollowTheirStateTable_1 :
  (∃ (s : State) (c : Fin 8) (d : Nat),
    let k : Nat := s.primCam c.val
    let p : Plan := s.nextPlan
    let above : Nat → Prop := fun i => 3125 * p.period < (List.map (fun j => p.budget j i) (List.filter p.prot (List.range 16))).sum
    let noBudget : Prop := p.prot (8 + c.val) = true ∧ (p.budget (8 + c.val) 0 < p.decl (8 + c.val) 0 ∨ p.budget (8 + c.val) 1 < p.decl (8 + c.val) 1 ∨ above 0 ∨ above 1)
    let armed : Prop := ∀ (m : Nat × Nat × Nat × Nat), m ∈ s.actMap c.val → s.rd P.rtu Reg.RTU_GRP_CFG_armed m.snd.snd.fst = 1 ∧ Option.map (fun l => s.rd P.ltg Reg.LTG_CFG_enc l) (s.camLtg k) = some (s.rd P.rtu Reg.RTU_GRP_CFG_enc m.snd.snd.fst)
    let covers : Prop := ∀ (x : Nat), x < s.camWidth k → ∃ m, m ∈ s.actMap c.val ∧ m.fst ≤ x ∧ x ≤ m.snd.fst
    let code : Nat := if s.ctxState c.val ≠ 2 then 1 else if noBudget then 3 else if s.primEn c.val = false then 0 else if s.rd (P.cfeC k) Reg.CFE_CAM_STAT_state ≠ 2 ∨ s.camLtg k = none then 2 else if ¬armed then 5 else if ¬covers then 8 else 0
    s.calm ∧
    s.reaches (P.schG + 80) ∧
    s.works P.schG = true ∧
    code = 0 ∧
    30 ≤ s.anvFree.length ∧
    d ≠ k ∧
    d ≠ c.val) ∧
  (∃ (s : State) (c : Fin 8),
    let ok : Prop := (s.ctxState c.val = 4 ∨ s.ctxState c.val = 3) ∧ s.swapNames c.val = false
    s.calm ∧
    s.reaches (P.schG + 80) ∧
    s.works P.schG = true ∧
    (¬ok)) ∧
  (∃ (s : State) (c : Fin 8),
    let feeds : Nat → Prop := fun i => s.rd (P.arcS i) Reg.ARC_SCFG_ctx = c.val ∧ s.rd (P.arcS i) Reg.ARC_SSTAT_state ≠ 0 ∧ s.rd (P.arcS i) Reg.ARC_SSTAT_state ≠ 4
    s.calm ∧
    s.reaches (P.schG + 80) ∧
    s.works P.schG = true ∧
    s.ctxState c.val = 2 ∧
    (∀ (i : Nat), i < 64 → ¬feeds i)) ∧
  (∃ (s : State) (c : Fin 8) (d : Nat),
    let ok : Prop := (s.ctxState c.val = 4 ∨ s.ctxState c.val = 3) ∧ s.swapNames c.val = false
    s.calm ∧
    s.reaches (P.schG + 80) ∧
    s.works P.schG = true ∧
    ok ∧
    d ≠ c.val ∧
    (∀ (q : HostItem), q ∈ (s.ctx c.val).hostQ → q = HostItem.ring)) ∧
  (∃ (s : State) (a : Fin 8) (b : Fin 8),
    let k : Nat := s.primCam b.val
    let armed : Prop := ∀ (m : Nat × Nat × Nat × Nat), m ∈ s.actMap b.val → s.rd P.rtu Reg.RTU_GRP_CFG_armed m.snd.snd.fst = 1 ∧ Option.map (fun l => s.rd P.ltg Reg.LTG_CFG_enc l) (s.camLtg k) = some (s.rd P.rtu Reg.RTU_GRP_CFG_enc m.snd.snd.fst)
    let covers : Prop := ∀ (x : Nat), x < s.camWidth k → ∃ m, m ∈ s.actMap b.val ∧ m.fst ≤ x ∧ x ≤ m.snd.fst
    let code : Nat := if s.ctxState a.val ≠ 4 ∨ s.ctxState b.val ≠ 3 ∨ s.swapNames a.val = true ∨ s.swapNames b.val = true ∨ (s.ctx a.val).swapped = true then 1 else if s.primCam a.val ≠ k ∨ s.primEn a.val = false ∨ s.primEn b.val = false then 4 else if ¬armed then 5 else if ¬covers then 8 else 0
    s.calm ∧
    s.reaches (P.schG + 80) ∧
    s.works P.schG = true ∧
    code ≠ 0) ∧
  (∃ (s : State) (c : Fin 8),
    s.calm ∧
    s.reaches (P.schG + 80) ∧
    s.works P.schG = true ∧
    s.ctxState c.val ≠ 2) ∧
  (∃ (s : State) (v : Word),
    let op : Nat := bits v.toNat 0 4
    s.calm ∧
    s.reaches (P.schG + 80) ∧
    s.works P.schG = true ∧
    (bits v.toNat 16 16 ≠ 23629 ∨ op = 0 ∨ 5 < op)) := by
  refine ⟨?_, ?_, ?_, ?_, ?_, ?_, ?_⟩
  · exact ⟨st 2 2 g, 2, 0, by decide +kernel⟩
  · exact ⟨st 2 2 g, 2, by decide +kernel⟩
  · exact ⟨st 2 2 g, 2, by decide +kernel⟩
  · exact ⟨st 4 3 g, 2, 0, by decide +kernel⟩
  · exact ⟨st 4 3 g, 2, 0, by decide +kernel⟩
  · exact ⟨st 4 3 g, 2, by decide +kernel⟩
  · exact ⟨g, 0x5c4d0020#32, by decide +kernel⟩

theorem witness_ContextCommandsFollowTheirStateTable_2 :
  (∃ (s : State) (a : Fin 8) (b : Fin 8) (d : Nat),
    let k : Nat := s.primCam b.val
    let armed : Prop := ∀ (m : Nat × Nat × Nat × Nat), m ∈ s.actMap b.val → s.rd P.rtu Reg.RTU_GRP_CFG_armed m.snd.snd.fst = 1 ∧ Option.map (fun l => s.rd P.ltg Reg.LTG_CFG_enc l) (s.camLtg k) = some (s.rd P.rtu Reg.RTU_GRP_CFG_enc m.snd.snd.fst)
    let covers : Prop := ∀ (x : Nat), x < s.camWidth k → ∃ m, m ∈ s.actMap b.val ∧ m.fst ≤ x ∧ x ≤ m.snd.fst
    let code : Nat := if s.ctxState a.val ≠ 4 ∨ s.ctxState b.val ≠ 3 ∨ s.swapNames a.val = true ∨ s.swapNames b.val = true ∨ (s.ctx a.val).swapped = true then 1 else if s.primCam a.val ≠ k ∨ s.primEn a.val = false ∨ s.primEn b.val = false then 4 else if ¬armed then 5 else if ¬covers then 8 else 0
    s.calm ∧
    s.reaches (P.schG + 80) ∧
    s.works P.schG = true ∧
    code = 0 ∧
    d ≠ a.val) ∧
  (∃ (s : State) (c : Fin 8) (i : Nat),
    let feeds : Nat → Prop := fun i => s.rd (P.arcS i) Reg.ARC_SCFG_ctx = c.val ∧ s.rd (P.arcS i) Reg.ARC_SSTAT_state ≠ 0 ∧ s.rd (P.arcS i) Reg.ARC_SSTAT_state ≠ 4
    s.calm ∧
    s.reaches (P.schG + 80) ∧
    s.works P.schG = true ∧
    s.ctxState c.val = 2 ∧
    i < 64 ∧
    feeds i) ∧
  (∃ (s : State) (c : Fin 8) (a : Nat),
    let names : Nat → Bool := fun a => !(s.ctx a).swapped && Option.any (fun p => decide (a = c.val) || decide (p.fst = c.val)) (s.ctx a).swapTo
    s.calm ∧
    s.reaches (P.schG + 80) ∧
    s.works P.schG = true ∧
    (8 ≤ a ∨ names a = false)) ∧
  (∃ (s : State) (c : Fin 8) (a : Nat),
    let names : Nat → Bool := fun a => !(s.ctx a).swapped && Option.any (fun p => decide (a = c.val) || decide (p.fst = c.val)) (s.ctx a).swapTo
    s.calm ∧
    s.reaches (P.schG + 80) ∧
    s.works P.schG = true ∧
    a < 8 ∧
    names a = true) ∧
  (∃ (s : State) (c : Fin 8),
    let k : Nat := s.primCam c.val
    let p : Plan := s.nextPlan
    let above : Nat → Prop := fun i => 3125 * p.period < (List.map (fun j => p.budget j i) (List.filter p.prot (List.range 16))).sum
    let noBudget : Prop := p.prot (8 + c.val) = true ∧ (p.budget (8 + c.val) 0 < p.decl (8 + c.val) 0 ∨ p.budget (8 + c.val) 1 < p.decl (8 + c.val) 1 ∨ above 0 ∨ above 1)
    let armed : Prop := ∀ (m : Nat × Nat × Nat × Nat), m ∈ s.actMap c.val → s.rd P.rtu Reg.RTU_GRP_CFG_armed m.snd.snd.fst = 1 ∧ Option.map (fun l => s.rd P.ltg Reg.LTG_CFG_enc l) (s.camLtg k) = some (s.rd P.rtu Reg.RTU_GRP_CFG_enc m.snd.snd.fst)
    let covers : Prop := ∀ (x : Nat), x < s.camWidth k → ∃ m, m ∈ s.actMap c.val ∧ m.fst ≤ x ∧ x ≤ m.snd.fst
    let code : Nat := if s.ctxState c.val ≠ 2 then 1 else if noBudget then 3 else if s.primEn c.val = false then 0 else if s.rd (P.cfeC k) Reg.CFE_CAM_STAT_state ≠ 2 ∨ s.camLtg k = none then 2 else if ¬armed then 5 else if ¬covers then 8 else 0
    s.calm ∧
    s.reaches (P.schG + 80) ∧
    s.works P.schG = true ∧
    code = 0 ∧
    s.anvFree.length < 30) ∧
  (∃ (s : State),
    s.calm ∧
    s.reaches (P.schG + 80) ∧
    s.works P.schG = false) := by
  refine ⟨?_, ?_, ?_, ?_, ?_, ?_⟩
  · exact ⟨st 4 3 g, 2, 3, 0, by decide +kernel⟩
  · exact ⟨st 2 4 (((g.wr (P.arcS 5) Reg.ARC_SCFG_ctx 2).wr (P.arcS 5) Reg.ARC_SSTAT_state 2)), 2, 5, by decide +kernel⟩
  · exact ⟨g, 0, 0, by decide +kernel⟩
  · exact ⟨st 4 3 (sw false 64 g), 2, 2, by decide +kernel⟩
  · exact ⟨st 2 2 (g.wr P.schG Reg.SCH_FENCE_mask 7), 2, by decide +kernel⟩
  · exact ⟨(st 4 3 g).wr P.schG Reg.BLK_STAT_state 3, by decide +kernel⟩

theorem witness_ContextsLoadDrainSwapAndReset_1 :
  (∃ (s : State) (c : Fin 8),
    s.calm ∧
    s.ctxState c.val ≠ 7) ∧
  (∃ (s : State) (c : Fin 8) (b : Fin 8) (l : Nat) (i : Nat),
    let busy : Prop := s.swapBusy c.val l = true ∨ s.ctxState c.val ≠ 4
    s.calm ∧
    (s.ctx c.val).swapTo = some (b.val, l) ∧
    b ≠ c ∧
    (s.ctx c.val).swapped = false ∧
    l < (s.cam (s.primCam c.val)).nextLine ∧
    i < 8 ∧
    (¬busy)) ∧
  (∃ (s : State) (c : Fin 8),
    s.calm ∧
    (s.alive = false ∨ s.ctxJobs c.val ≠ [] ∨ (s.ctx c.val).boxQ ≠ [] ∨ s.ctxState c.val ≠ 5) ∧
    ((s.ctx c.val).swapped = false ∨ s.ctxState c.val ≠ 4)) ∧
  (∃ (s : State) (c : Fin 8) (b : Billet) (g : Nat),
    s.calm ∧
    s.hearthRuns = true ∧
    s.ctxState c.val = 1 ∧
    ((s.ctx c.val).billet = some b) ∧
    g < 8 ∧
    (s.ctx c.val).req = none) ∧
  (∃ (s : State) (c : Fin 8) (b : Billet) (e : Nat),
    s.calm ∧
    s.hearthRuns = true ∧
    s.ctxState c.val = 1 ∧
    ((s.ctx c.val).billet = some b) ∧
    e < 36) ∧
  (∃ (s : State) (c : Fin 8),
    s.calm ∧
    ((s.ctx c.val).swapTo = none ∨ (s.ctx c.val).swapped = true)) ∧
  (∃ (s : State) (c : Fin 8),
    let resets : Prop := s.ctxResident c.val = true ∧ s.seq.engResets = []
    s.calm ∧
    s.reaches 68 ∧
    (¬resets)) := by
  refine ⟨?_, ?_, ?_, ?_, ?_, ?_, ?_⟩
  · exact ⟨st 4 3 (nl 100 (sw false 64 g)), 2, by decide +kernel⟩
  · exact ⟨st 4 3 (nl 100 (sw false 64 g)), 2, 3, 64, 0, by decide +kernel⟩
  · exact ⟨st 4 3 (nl 100 (sw false 64 g)), 2, by decide +kernel⟩
  · exact ⟨withM (adm g), 3, bil, 0, by decide +kernel⟩
  · exact ⟨withM (adm g), 3, bil, 0, by decide +kernel⟩
  · exact ⟨withM (adm g), 3, by decide +kernel⟩
  · exact ⟨withM (adm g), 3, by decide +kernel⟩

theorem witness_ContextsLoadDrainSwapAndReset_2 :
  (∃ (s : State) (c : Fin 8) (b : Billet) (i : Nat),
    let place : Prop := blobPlace b.addr.toNat b.len.toNat = true
    let v : State × Nat × List Byte × Option Nat := s.verifyBillet b.addr.toNat b.len.toNat
    let x : Bases := (s.admitCode b (decide (v.snd.fst = 0))).getRight?.get!
    s.calm ∧
    s.mbxCanTake = true ∧
    place ∧
    s.ctxState c.val = 0 ∧
    s.works P.tmp = true ∧
    s.admitCode b (decide (v.snd.fst = 0)) = Sum.inr x ∧
    flowsLegal b = true ∧
    i < b.len.toNat ∧
    s.takes b.copy0.toNat i ∧
    s.takes b.copy1.toNat i) ∧
  (∃ (s : State) (c : Fin 8) (b : Nat) (i : Nat),
    let o : Nat := (s.share c.val b).get!.fst
    let n : Nat := (s.share c.val b).get!.snd
    s.calm ∧
    s.ctxState c.val = 7 ∧
    b < 202 ∧
    s.share c.val b = some (o, n) ∧
    i < n ∧
    (∀ (q : HostItem), q ∈ (s.ctx c.val).hostQ → q = HostItem.ring)) ∧
  (∃ (s : State) (c : Fin 8) (d : Nat),
    s.calm ∧
    s.ctxState c.val = 7 ∧
    d ≠ c.val) ∧
  (∃ (s : State) (c : Fin 8),
    s.calm ∧
    s.alive = true ∧
    s.ctxState c.val = 5 ∧
    s.ctxJobs c.val = [] ∧
    (s.ctx c.val).boxQ = [] ∧
    (∀ (k : Nat), k < 8 → ∀ (x : Issued), x ∈ (s.det k).issued → ¬c.val ∈ x.dest) ∧
    ((s.ctx c.val).swapTo = none ∨ (s.ctx c.val).swapped = false)) ∧
  (∃ (s : State) (c : Fin 8) (b : Billet),
    let place : Prop := blobPlace b.addr.toNat b.len.toNat = true
    let v : State × Nat × List Byte × Option Nat := s.verifyBillet b.addr.toNat b.len.toNat
    let n : Nat := (s.admitCode b (decide (v.snd.fst = 0))).getLeft?.get!
    s.calm ∧
    s.mbxCanTake = true ∧
    place ∧
    s.ctxState c.val = 0 ∧
    s.works P.tmp = true ∧
    (s.admitCode b (decide (v.snd.fst = 0))).getLeft? = some n) ∧
  (∃ (s : State) (c : Fin 8) (b : Billet),
    let place : Prop := blobPlace b.addr.toNat b.len.toNat = true
    s.calm ∧
    s.mbxCanTake = true ∧
    place ∧
    s.ctxState c.val = 0 ∧
    s.works P.tmp = false) ∧
  (∃ (s : State) (b : Billet),
    let place : Prop := blobPlace b.addr.toNat b.len.toNat = true
    s.calm ∧
    s.mbxCanTake = true ∧
    (¬place)) := by
  refine ⟨?_, ?_, ?_, ?_, ?_, ?_, ?_⟩
  · exact ⟨sb g, 0, { addr := 0x600000#40, len := 0xd4#32, formatKnown := true, aUnits := 0x4#8, wUnits := 0x3#8, pUnits := 0x3#8, xUnits := 0x4#8, n4Units := 0x1#5, n5Units := 0x0#5, anvCmds := 0x12c#11, tngCmds := 0xc8#11, quota := 0x3#10, copy0 := 0x700000#40, copy1 := 0x400400000#40, primCam := 1, primEn := true, failsafe := true, refLine := 0x1#2, prio := 0x3#3, specEn := true, actMap := [(0x0#16, 0x28#16, 0x3#5, 0x5#31), (0x1e#16, 0x64#16, 0x4#5, 0x6#31)], decl0 := 0x3#24, decl1 := 0x4#24, prot := false, thresholds := [0x3#32, 0x7#32], waits := [], earlyExit := true, exitLines := 0x0#16, outAt := 0x0#40, outWindow := 0x0#40, outLen := 0x0#32, inputLen := 0x0#32, windows := [(0x100000#40, 0x10000#32)], stepBytes := [], stepAddrs := [], stepEngines := [], flows := [(0x3#12, [0x1#8, 0x0#8, 0x2#8])] }, 0, by decide +kernel⟩
  · exact ⟨st 7 7 g, 2, 0, 0, by decide +kernel⟩
  · exact ⟨st 7 7 g, 2, 0, by decide +kernel⟩
  · exact ⟨st 5 4 g, 2, by decide +kernel⟩
  · exact ⟨g, 0, bil, by decide +kernel⟩
  · exact ⟨g.wr P.tmp Reg.BLK_STAT_state 3, 0, bil, by decide +kernel⟩
  · exact ⟨g, { addr := 0x900000000#40, len := 0x40#32, formatKnown := true, aUnits := 0x4#8, wUnits := 0x3#8, pUnits := 0x3#8, xUnits := 0x4#8, n4Units := 0x1#5, n5Units := 0x0#5, anvCmds := 0x12c#11, tngCmds := 0xc8#11, quota := 0x3#10, copy0 := 0x200000#40, copy1 := 0x400300000#40, primCam := 1, primEn := true, failsafe := true, refLine := 0x1#2, prio := 0x3#3, specEn := true, actMap := [(0x0#16, 0x28#16, 0x3#5, 0x5#31), (0x1e#16, 0x64#16, 0x4#5, 0x6#31)], decl0 := 0x3#24, decl1 := 0x4#24, prot := false, thresholds := [0x3#32, 0x7#32], waits := [], earlyExit := true, exitLines := 0x0#16, outAt := 0x0#40, outWindow := 0x0#40, outLen := 0x0#32, inputLen := 0x0#32, windows := [(0x100000#40, 0x10000#32)], stepBytes := [], stepAddrs := [], stepEngines := [], flows := [(0x3#12, [0x1#8, 0x0#8, 0x2#8])] }, by decide +kernel⟩

theorem witness_ContextsLoadDrainSwapAndReset_3 :
  (∃ (s : State) (c : Fin 8) (b : Billet),
    let place : Prop := blobPlace b.addr.toNat b.len.toNat = true
    s.calm ∧
    s.mbxCanTake = true ∧
    place ∧
    s.ctxState c.val ≠ 0) ∧
  (∃ (s : State) (c : Fin 8),
    let b : Nat := (s.ctx c.val).swapTo.get!.fst
    let l : Nat := (s.ctx c.val).swapTo.get!.snd
    s.calm ∧
    s.alive = true ∧
    s.ctxState c.val = 5 ∧
    s.ctxJobs c.val = [] ∧
    (s.ctx c.val).boxQ = [] ∧
    (∀ (k : Nat), k < 8 → ∀ (x : Issued), x ∈ (s.det k).issued → ¬c.val ∈ x.dest) ∧
    (s.ctx c.val).swapTo = some (b, l) ∧
    (s.ctx c.val).swapped = true) ∧
  (∃ (s : State) (c : Fin 8) (j : Nat),
    let resets : Prop := s.ctxResident c.val = true ∧ s.seq.engResets = []
    let x : Job := (s.job j).get!
    s.calm ∧
    s.reaches 68 ∧
    resets ∧
    j < 512 ∧
    s.job j = some x ∧
    x.ctx = c.val ∧
    x.ended = none) ∧
  (∃ (s : State) (c : Fin 8) (i : Nat),
    let resets : Prop := s.ctxResident c.val = true ∧ s.seq.engResets = []
    s.calm ∧
    s.reaches 68 ∧
    resets ∧
    i < 64 ∧
    s.rd (P.arcS i) Reg.ARC_SCFG_ctx = c.val ∧
    s.rd (P.arcS i) Reg.ARC_SSTAT_state ≠ 0) ∧
  (∃ (s : State) (c : Fin 8) (b : Fin 8) (l : Nat),
    let busy : Prop := s.swapBusy c.val l = true ∨ s.ctxState c.val ≠ 4
    s.calm ∧
    (s.ctx c.val).swapTo = some (b.val, l) ∧
    b ≠ c ∧
    (s.ctx c.val).swapped = false ∧
    l < (s.cam (s.primCam c.val)).nextLine ∧
    busy) ∧
  (∃ (s : State) (c : Fin 8) (b : Billet),
    let r : MbxReq := (s.ctx c.val).req.get!
    s.calm ∧
    s.hearthRuns = true ∧
    s.ctxState c.val = 1 ∧
    ((s.ctx c.val).billet = some b) ∧
    (s.ctx c.val).req = some r ∧
    (r, 16) ∈ s.host.mbxTaken) ∧
  (∃ (s : State) (c : Fin 8) (b : Nat) (i : Nat),
    let resets : Prop := s.ctxResident c.val = true ∧ s.seq.engResets = []
    let o : Nat := (s.share c.val b).get!.fst
    let n : Nat := (s.share c.val b).get!.snd
    s.calm ∧
    s.reaches 68 ∧
    resets ∧
    b < 202 ∧
    s.share c.val b = some (o, n) ∧
    i < n) := by
  refine ⟨?_, ?_, ?_, ?_, ?_, ?_, ?_⟩
  · exact ⟨adm g, 2, bil, by decide +kernel⟩
  · exact ⟨st 5 5 (sw true 64 g), 2, by decide +kernel⟩
  · exact ⟨st 6 6 (((job g).wr (P.arcS 5) Reg.ARC_SCFG_ctx 2).wr (P.arcS 5) Reg.ARC_SSTAT_state 2), 2, 5, by decide +kernel⟩
  · exact ⟨st 6 6 (((job g).wr (P.arcS 5) Reg.ARC_SCFG_ctx 2).wr (P.arcS 5) Reg.ARC_SSTAT_state 2), 2, 5, by decide +kernel⟩
  · exact ⟨((st 4 3 (nl 100 (sw false 64 g))).setDet 1 {(default : Detect) with openBoxes := [(2, default)]}).wr P.chip Reg.CHIP_READY_ctx_req 7, 2, 3, 64, by decide +kernel⟩
  · exact ⟨withM (adm g), 2, bil, by decide +kernel⟩
  · exact ⟨(st 5 5 g).wr P.schG Reg.BLK_STAT_state 1, 2, 0, 0, by decide +kernel⟩

end WitC

/-! #### Witnesses: boxes, jobs and verdicts -/

namespace WitJ

def bil : Billet := { (default : Billet) with addr := 0x1000, len := 0x40, formatKnown := true, aUnits := 4, wUnits := 3, pUnits := 3, xUnits := 4, n4Units := 1, n5Units := 0, anvCmds := 300, tngCmds := 200, quota := 3, copy0 := 0x200000, copy1 := 0x400300000, primCam := 1, primEn := true, failsafe := true, refLine := 1, prio := 3, specEn := true, actMap := [(0,40,3,5),(30,100,4,6)], decl0 := 3, decl1 := 4, prot := false, thresholds := [3,7], waits := [(0, 2, 0x2000000100, 8, 10),(3, 2, 0x2000000100, 8, 10)], earlyExit := true, inputLen := 16, windows := [(0x100000,0x10000)], stepBytes := [], stepAddrs := [], stepEngines := [], flows := [(3, [1,0,2])], outAt := 0x100000, outWindow := 0x104000, outLen := 48 }
def b1 : Box := { first := 100, last := 120, col0 := 3, col1 := 20, object := 9, camera := 1, noVerdict := false }
def b2 : Box := { b1 with noVerdict := true, object := 10 }
def b3 : Box := { b1 with col0 := 50, col1 := 60 }
def b4 : Box := { b1 with col0 := 200, col1 := 260 }
def b5 : Box := { b4 with noVerdict := true }
def is (b : Box) : Issued := { box := b, last := 127, dest := [2,3], stamps := [(96, 5000), (64, 4900)] }
def vd : Verdict := { (default : Verdict) with cls := 3, conf := 700, reject := true, digest := [1,2,3] }
def jx : Job := { (default : Job) with ctx := 2, kind := .host, tag := 5, counts := [(0, 9), (1, 3)], tongs := 1 }
def dd : HostJob := readDesc ((List.range 64).map (fun i => if i = 42 ∨ i = 43 ∨ i = 44 then 0 else if i = 26 then 0x10 else if i = 41 then 2 else 0))
def je : Job := { jx with tag := 7, ended := some 0, verdict := some vd, desc := some dd, restarts := 1, folded := true }
def jb : Job := { jx with tag := 9, kind := .box, ended := some 4 }
def g : State := Id.run do
  let mut s : State := { go with mem := [(0x1000,3),(0x100000,3),(0x100014,16),(0x100002,0x10),(0x10001a,0x10),(0x100029,2),(0x100042,0x10), (0x10006a,5)], ctxs := [(2, { (default : Ctx) with billet := some bil }), (3, { (default : Ctx) with billet := some bil })] }
  for c in [2,3] do
    s := (s.wr (P.schC c) Reg.SCH_CTX_CFG_prim_cam 1).wr (P.schC c) Reg.SCH_CTX_CFG_prim_en 1
    s := (((s.wr (P.schC c) Reg.SCH_CTX_ACT_GRP_valid 1 0).wr (P.schC c) Reg.SCH_CTX_ACT_COLS_last 30 0).wr (P.schC c) Reg.SCH_CTX_ACT_GRP_grp 3 0).wr (P.schC c) Reg.SCH_CTX_ACT_GRP_valid 1 4
    s := ((s.wr (P.schC c) Reg.SCH_CTX_ACT_COLS_first 31 4).wr (P.schC c) Reg.SCH_CTX_ACT_COLS_last 99 4).wr (P.schC c) Reg.SCH_CTX_ACT_GRP_grp 4 4
    s := ((s.wr (P.schC c) Reg.SCH_CTX_ACT_OFF_c_off 400 0).wr (P.schC c) Reg.SCH_CTX_CFG_quota 5).wr (P.schC c) Reg.SCH_CTX_HQ_BASE_lo 0x100000
  s := ((s.wr (P.cfeC 1) Reg.CFE_CAM_FMT_width 100).wr (P.cfeC 1) Reg.CFE_CAM_STAT_state 2).wr (P.cfeC 1) Reg.CFE_CAM_BLK_h 32
  s := s.setDet 1 { (default : Detect) with issued := [is b1, is b2, is b3, is b4, is b5] }
  s := s.setPipe 1 { s.pipe 1 with stamps := [(96, 5000), (64, 4900)] }
  for t in [0,1,2,3] do s := s.wr (P.tng t 0) Reg.TNG_CFG_ctx_en 255
  s := (s.wr P.rtu Reg.RTU_GRP_ACT_n_act 12 3).wr P.rtu Reg.RTU_GRP_CFG_enc 2 3
  pure s
def st (a b : Nat) (s : State) : State := (s.wr (P.schC 2) Reg.SCH_CTX_STAT_state a).wr (P.schC 3) Reg.SCH_CTX_STAT_state b
def ent : RtuEntry := { (default : RtuEntry) with target := 100, group := 3, state := 1, ctx := 2, job := some 5 }
def full (s : State) : State := {s with rtu := {s.rtu with entries := (List.range 4096).map (fun i => (i, ent))}}
def job (s : State) : State := {s with sched := {s.sched with jobs := [(5,jx),(7,je),(9, jb)], order := [5,7,9], slotGen := [(7,127)]}}
def rq (s : State) : State := {s with sched := {s.sched with restartQ := [5]}}
def hq (q : List HostItem) (bq : List QBox) (s : State) : State := s.setCtx 2 {s.ctx 2 with hostQ := q, boxQ := bq}
def cr (s : State) : State := {s with rtu := {s.rtu with entries := [(0, ent), (3, {ent with job := some 6}), (4, {ent with state := 2})], crossing := [{ slot := 5, tag := 5, ctx := 2, verdict := vd, flags := 2 },{ slot := 7, tag := 77, ctx := 2, verdict := vd, flags := 2 }]}}
def ow (s : State) : State := {s with sched := {s.sched with jobs := [(7,{je with desc := some {dd with flags := 3}})]}}
def q1 : QBox := { box := b1, rtuFirst := 3, lastLine := 127, key := 4 }

theorem witness_BoxesAndHostJobsAreAdmittedInOrder_1 :
  (∃ (s : State) (c : Fin 8),
    let back : Option Nat := List.find? (fun j => Option.any (fun x => decide (x.ctx = c.val)) (s.job j)) s.sched.restartQ
    let ring : Nat := s.rd (P.schC c.val) Reg.SCH_CTX_HQ_cons
    let at_ : Nat := s.rd2 (P.schC c.val) Reg.SCH_CTX_HQ_BASE_lo Reg.SCH_CTX_HQ_BASE_hi / 64 * 64 + 64 * ring
    let u : State := (s.fetch 2 at_ 64).fst
    let desc : List Byte := u.load at_ 64
    let runs : Prop := (s.fetch 2 at_ 64).snd = false ∧ s.descValid c.val desc = true
    let j : Nat := (s.slotFor c.val).get!
    let tn : Nat := (s.assignTongs c.val).get!
    let qs : List HostItem := (s.ctx c.val).hostQ.tail
    s.calm ∧
    s.alive = true ∧
    back = none ∧
    s.slotFor c.val = some j ∧
    s.assignTongs c.val = some tn ∧
    (s.ctxState c.val = 3 ∨ s.ctxState c.val = 4 ∧ (s.ctx c.val).boxQ = []) ∧
    (s.ctx c.val).hostQ = HostItem.ring :: qs ∧
    runs) ∧
  (∃ (s : State) (c : Fin 8),
    let back : Option Nat := List.find? (fun j => Option.any (fun x => decide (x.ctx = c.val)) (s.job j)) s.sched.restartQ
    let j : Nat := (s.slotFor c.val).get!
    let tn : Nat := (s.assignTongs c.val).get!
    let q : QBox := (s.ctx c.val).boxQ.head!
    let qs : List QBox := (s.ctx c.val).boxQ.tail
    s.calm ∧
    s.alive = true ∧
    back = none ∧
    s.slotFor c.val = some j ∧
    s.assignTongs c.val = some tn ∧
    s.ctxRuns c.val = true ∧ s.ctxState c.val ≠ 3 ∧
    (s.ctx c.val).boxQ = q :: qs) ∧
  (∃ (s : State) (c : Fin 8) (b : Box) (x : Issued),
    let overlap : List (Nat × Nat × Nat × Nat) := List.filter (fun m => decide (m.fst ≤ b.col1.toNat) && decide (b.col0.toNat ≤ m.snd.fst)) (s.actMap c.val)
    let waits : Prop := b.noVerdict = false ∧ (s.ctx c.val).boxQ.length < 1024
    let m : Nat × Nat × Nat × Nat := overlap.head!
    let target : Nat := (s.lineCount b.camera.val x.stamps (s.refLine c.val b) + m.snd.snd.snd) % 2 ^ 32
    s.calm ∧
    s.alive = true ∧
    (s.ctxState c.val = 4 ∨ s.ctxState c.val = 5) ∧
    List.find? (fun y => decide (y.box = b) && y.dest.contains c.val) (s.det b.camera.val).issued = some x ∧
    s.rdb P.rtu Reg.RTU_STAT_ovf = false ∧
    s.tentAt c.val b.camera.val b.object.toNat = none ∧
    overlap = [m] ∧
    List.length s.rtu.entries < 4096 ∧
    passed (s.groupCount m.snd.snd.fst) target = false ∧
    (¬waits)) ∧
  (∃ (s : State) (c : Fin 8),
    let back : Option Nat := List.find? (fun j => Option.any (fun x => decide (x.ctx = c.val)) (s.job j)) s.sched.restartQ
    s.calm ∧
    (s.alive = false ∨ s.ctxRuns c.val = false ∨ back = none ∧ (s.slotFor c.val = none ∨ s.assignTongs c.val = none) ∨ back = none ∧ (s.ctxState c.val ≠ 3 → (s.ctx c.val).boxQ = []) ∧ (s.ctxState c.val ≠ 5 → (s.ctx c.val).hostQ = []))) ∧
  (∃ (s : State) (c : Fin 8),
    let back : Option Nat := List.find? (fun j => Option.any (fun x => decide (x.ctx = c.val)) (s.job j)) s.sched.restartQ
    let j : Nat := back.get!
    let x : Job := (s.job j).get!
    let tn : Nat := (s.assignTongs c.val).get!
    s.calm ∧
    s.alive = true ∧
    s.ctxRuns c.val = true ∧
    back = some j ∧
    s.job j = some x ∧
    s.assignTongs c.val = some tn) ∧
  (∃ (s : State) (c : Fin 8) (b : Box) (x : Issued),
    let overlap : List (Nat × Nat × Nat × Nat) := List.filter (fun m => decide (m.fst ≤ b.col1.toNat) && decide (b.col0.toNat ≤ m.snd.fst)) (s.actMap c.val)
    let m : Nat × Nat × Nat × Nat := overlap.head!
    let target : Nat := (s.lineCount b.camera.val x.stamps (s.refLine c.val b) + m.snd.snd.snd) % 2 ^ 32
    s.calm ∧
    s.alive = true ∧
    (s.ctxState c.val = 4 ∨ s.ctxState c.val = 5) ∧
    List.find? (fun y => decide (y.box = b) && y.dest.contains c.val) (s.det b.camera.val).issued = some x ∧
    s.rdb P.rtu Reg.RTU_STAT_ovf = false ∧
    s.tentAt c.val b.camera.val b.object.toNat = none ∧
    overlap = [m] ∧
    List.length s.rtu.entries < 4096 ∧
    passed (s.groupCount m.snd.snd.fst) target = true) ∧
  (∃ (s : State) (c : Fin 8) (v : Word) (d : Nat),
    let i : Nat := v.toNat % 4096
    let size : Nat := 2 ^ s.hqLog c.val
    s.atRest ∧
    s.hostReach = true ∧
    s.seq.power ≠ ChipPower.banked ∧
    s.arcFeeds c.val = none ∧
    i < size ∧
    s.ctxResident c.val = true ∧
    d ≠ c.val) ∧
  (∃ (s : State) (c : Fin 8) (b : Box) (x : Issued),
    let overlap : List (Nat × Nat × Nat × Nat) := List.filter (fun m => decide (m.fst ≤ b.col1.toNat) && decide (b.col0.toNat ≤ m.snd.fst)) (s.actMap c.val)
    let m : Nat × Nat × Nat × Nat := overlap.head!
    s.calm ∧
    s.alive = true ∧
    (s.ctxState c.val = 4 ∨ s.ctxState c.val = 5) ∧
    List.find? (fun y => decide (y.box = b) && y.dest.contains c.val) (s.det b.camera.val).issued = some x ∧
    s.rdb P.rtu Reg.RTU_STAT_ovf = false ∧
    s.tentAt c.val b.camera.val b.object.toNat = none ∧
    overlap = [m] ∧
    4096 ≤ List.length s.rtu.entries) ∧
  (∃ (s : State) (c : Fin 8),
    let n : Nat := (s.arcFeeds c.val).get!
    s.atRest ∧
    s.hostReach = true ∧
    s.seq.power ≠ ChipPower.banked ∧
    s.arcFeeds c.val = some n) := by
  refine ⟨?_, ?_, ?_, ?_, ?_, ?_, ?_, ?_, ?_⟩
  · exact ⟨st 3 3 (hq [.ring] [q1] g), 2, by decide +kernel⟩
  · exact ⟨st 4 3 (hq [.ring] [q1] (job g)), 2, by decide +kernel⟩
  · exact ⟨st 4 5 g, 2, b2, { box := b2, last := 127, dest := [2, 3], stamps := [(96, 5000), (64, 4900)] }, by decide +kernel⟩
  · exact ⟨st 4 5 g, 2, by decide +kernel⟩
  · exact ⟨rq (st 4 4 (job g)), 2, by decide +kernel⟩
  · exact ⟨(st 4 4 g).wr P.enc Reg.ENC_CNT_count 6000 2, 2, b2, { box := b2, last := 127, dest := [2, 3], stamps := [(96, 5000), (64, 4900)] }, by decide +kernel⟩
  · exact ⟨st 4 5 g, 2, 0x0#32, 0, by decide +kernel⟩
  · exact ⟨full (st 4 4 g), 2, b2, { box := b2, last := 127, dest := [2, 3], stamps := [(96, 5000), (64, 4900)] }, by decide +kernel⟩
  · exact ⟨(st 4 4 g).wr (P.arcS 3) Reg.ARC_SSTAT_state 2, 0, by decide +kernel⟩

theorem witness_BoxesAndHostJobsAreAdmittedInOrder_2 :
  (∃ (s : State) (c : Fin 8),
    let back : Option Nat := List.find? (fun j => Option.any (fun x => decide (x.ctx = c.val)) (s.job j)) s.sched.restartQ
    let ring : Nat := s.rd (P.schC c.val) Reg.SCH_CTX_HQ_cons
    let at_ : Nat := s.rd2 (P.schC c.val) Reg.SCH_CTX_HQ_BASE_lo Reg.SCH_CTX_HQ_BASE_hi / 64 * 64 + 64 * ring
    let u : State := (s.fetch 2 at_ 64).fst
    let desc : List Byte := u.load at_ 64
    let runs : Prop := (s.fetch 2 at_ 64).snd = false ∧ s.descValid c.val desc = true
    let j : Nat := (s.slotFor c.val).get!
    let tn : Nat := (s.assignTongs c.val).get!
    let qs : List HostItem := (s.ctx c.val).hostQ.tail
    s.calm ∧
    s.alive = true ∧
    back = none ∧
    s.slotFor c.val = some j ∧
    s.assignTongs c.val = some tn ∧
    (s.ctxState c.val = 3 ∨ s.ctxState c.val = 4 ∧ (s.ctx c.val).boxQ = []) ∧
    (s.ctx c.val).hostQ = HostItem.ring :: qs ∧
    (¬runs)) ∧
  (∃ (s : State) (c : Fin 8) (b : Box) (x : Issued),
    let overlap : List (Nat × Nat × Nat × Nat) := List.filter (fun m => decide (m.fst ≤ b.col1.toNat) && decide (b.col0.toNat ≤ m.snd.fst)) (s.actMap c.val)
    let waits : Prop := b.noVerdict = false ∧ (s.ctx c.val).boxQ.length < 1024
    s.calm ∧
    s.alive = true ∧
    (s.ctxState c.val = 4 ∨ s.ctxState c.val = 5) ∧
    List.find? (fun y => decide (y.box = b) && y.dest.contains c.val) (s.det b.camera.val).issued = some x ∧
    s.rdb P.rtu Reg.RTU_STAT_ovf = false ∧
    s.tentAt c.val b.camera.val b.object.toNat = none ∧
    overlap = [] ∧
    (¬waits)) ∧
  (∃ (s : State) (c : Fin 8) (v : Word),
    let i : Nat := v.toNat % 4096
    let size : Nat := 2 ^ s.hqLog c.val
    s.atRest ∧
    s.hostReach = true ∧
    s.seq.power ≠ ChipPower.banked ∧
    s.arcFeeds c.val = none ∧
    (size ≤ i ∨ s.ctxResident c.val = false)) ∧
  (∃ (s : State) (c : Fin 8) (b : Box) (x : Issued),
    s.calm ∧
    s.alive = true ∧
    s.ctxState c.val ≠ 4 ∧
    s.ctxState c.val ≠ 5 ∧
    List.find? (fun y => decide (y.box = b) && y.dest.contains c.val) (s.det b.camera.val).issued = some x) ∧
  (∃ (s : State) (c : Fin 8) (b : Box) (x : Issued),
    s.calm ∧
    s.alive = true ∧
    (s.ctxState c.val = 4 ∨ s.ctxState c.val = 5) ∧
    List.find? (fun y => decide (y.box = b) && y.dest.contains c.val) (s.det b.camera.val).issued = some x ∧
    s.rdb P.rtu Reg.RTU_STAT_ovf = true) ∧
  (∃ (s : State) (c : Fin 8) (b : Box),
    s.calm ∧
    (∀ (x : Issued), x ∈ (s.det b.camera.val).issued → ¬(x.box = b ∧ c.val ∈ x.dest))) ∧
  (∃ (s : State),
    s.calm ∧
    s.alive = false) ∧
  (∃ (s : State) (c : Fin 8) (b : Box) (x : Issued),
    let overlap : List (Nat × Nat × Nat × Nat) := List.filter (fun m => decide (m.fst ≤ b.col1.toNat) && decide (b.col0.toNat ≤ m.snd.fst)) (s.actMap c.val)
    let waits : Prop := b.noVerdict = false ∧ (s.ctx c.val).boxQ.length < 1024
    s.calm ∧
    s.alive = true ∧
    (s.ctxState c.val = 4 ∨ s.ctxState c.val = 5) ∧
    List.find? (fun y => decide (y.box = b) && y.dest.contains c.val) (s.det b.camera.val).issued = some x ∧
    s.rdb P.rtu Reg.RTU_STAT_ovf = false ∧
    s.tentAt c.val b.camera.val b.object.toNat = none ∧
    overlap = [] ∧
    waits) ∧
  (∃ (s : State) (c : Fin 8) (b : Box) (x : Issued),
    let overlap : List (Nat × Nat × Nat × Nat) := List.filter (fun m => decide (m.fst ≤ b.col1.toNat) && decide (b.col0.toNat ≤ m.snd.fst)) (s.actMap c.val)
    let waits : Prop := b.noVerdict = false ∧ (s.ctx c.val).boxQ.length < 1024
    let m : Nat × Nat × Nat × Nat := overlap.head!
    let target : Nat := (s.lineCount b.camera.val x.stamps (s.refLine c.val b) + m.snd.snd.snd) % 2 ^ 32
    s.calm ∧
    s.alive = true ∧
    (s.ctxState c.val = 4 ∨ s.ctxState c.val = 5) ∧
    List.find? (fun y => decide (y.box = b) && y.dest.contains c.val) (s.det b.camera.val).issued = some x ∧
    s.rdb P.rtu Reg.RTU_STAT_ovf = false ∧
    s.tentAt c.val b.camera.val b.object.toNat = none ∧
    overlap = [m] ∧
    List.length s.rtu.entries < 4096 ∧
    passed (s.groupCount m.snd.snd.fst) target = false ∧
    waits) := by
  refine ⟨?_, ?_, ?_, ?_, ?_, ?_, ?_, ?_, ?_⟩
  · exact ⟨st 3 3 (hq [.ring] [] (g.wr (P.schC 2) Reg.SCH_CTX_HQ_cons 1)), 2, by decide +kernel⟩
  · exact ⟨st 4 5 g, 2, b5, { box := b5, last := 127, dest := [2, 3], stamps := [(96, 5000), (64, 4900)] }, by decide +kernel⟩
  · exact ⟨g, 0, 0x0#32, by decide +kernel⟩
  · exact ⟨g, 2, b2, { box := b2, last := 127, dest := [2, 3], stamps := [(96, 5000), (64, 4900)] }, by decide +kernel⟩
  · exact ⟨st 4 4 (g.wr P.rtu Reg.RTU_STAT_ovf 1), 2, b2, { box := b2, last := 127, dest := [2, 3], stamps := [(96, 5000), (64, 4900)] }, by decide +kernel⟩
  · exact ⟨g, 0, b2, by decide +kernel⟩
  · exact ⟨(st 4 4 g).wr P.schG Reg.BLK_STAT_state 3, by decide +kernel⟩
  · exact ⟨st 4 5 g, 2, b4, { box := b4, last := 127, dest := [2, 3], stamps := [(96, 5000), (64, 4900)] }, by decide +kernel⟩
  · exact ⟨st 4 5 g, 2, b1, { box := b1, last := 127, dest := [2, 3], stamps := [(96, 5000), (64, 4900)] }, by decide +kernel⟩

theorem witness_VerdictsLandAndJobsComplete :
  (∃ (s : State) (j : Fin 512),
    s.atRest ∧
    ((∀ (x : Crossing), x ∈ s.rtu.crossing → x.slot ≠ j.val) ∨ s.hostReach = false)) ∧
  (∃ (s : State) (j : Fin 512) (x : Job) (st : Nat),
    s.calm ∧
    s.alive = true ∧
    s.job j.val = some x ∧
    x.ended = some st ∧
    st < 256 ∧
    s.coll.pendingJobs.contains x.tag = false ∧
    s.sched.regen = none ∧
    x.kind ≠ JobKind.host ∧
    x.kind ≠ JobKind.regen) ∧
  (∃ (s : State) (j : Fin 512) (x : Crossing),
    let takes : RtuEntry → Bool := fun e => decide (e.job = some x.tag) && e.decision.isNone && decide (e.state = 1)
    s.calm ∧
    s.rtuAlive = true ∧
    List.find? (fun y => decide (y.slot = j.val)) s.rtu.crossing = some x ∧
    s.coll.pendingJobs.contains x.tag = false ∧
    (∀ (p : Nat × RtuEntry), p ∈ s.rtu.entries → takes p.snd = false)) ∧
  (∃ (s : State) (j : Fin 512) (x : Job) (st : Nat) (i : Nat),
    let d : HostJob := x.desc.get!
    s.calm ∧
    s.alive = true ∧
    s.job j.val = some x ∧
    x.ended = some st ∧
    st < 256 ∧
    s.coll.pendingJobs.contains x.tag = false ∧
    s.sched.regen = none ∧
    x.kind = JobKind.host ∧
    x.desc = some d ∧
    bit d.flags 1 = true ∧
    i < 8 ∧
    s.resultValid x.ctx d = true ∧
    s.takes d.result i) ∧
  (∃ (s : State) (j : Fin 512) (x : Job) (st : Nat) (a : Nat),
    let d : HostJob := x.desc.get!
    s.calm ∧
    s.alive = true ∧
    s.job j.val = some x ∧
    x.ended = some st ∧
    st < 256 ∧
    s.coll.pendingJobs.contains x.tag = false ∧
    s.sched.regen = none ∧
    x.kind = JobKind.host ∧
    x.desc = some d ∧
    (bit d.flags 0 = false ∨ st ≠ 0 ∨ (s.ctx x.ctx).billet = none) ∧
    (a < d.result ∨ d.result + 64 ≤ a)) ∧
  (∃ (s : State) (j : Fin 512) (x : Crossing),
    let takes : RtuEntry → Bool := fun e => decide (e.job = some x.tag) && e.decision.isNone && decide (e.state = 1)
    s.calm ∧
    s.rtuAlive = true ∧
    List.find? (fun y => decide (y.slot = j.val)) s.rtu.crossing = some x ∧
    s.coll.pendingJobs.contains x.tag = false ∧
    (∃ p, p ∈ s.rtu.entries ∧ takes p.snd = true)) ∧
  (∃ (s : State) (j : Fin 512),
    s.atRest ∧
    ((∀ (x : Job), s.job j.val = some x → x.ended = none) ∨ s.alive = false)) ∧
  (∃ (s : State) (j : Fin 512) (x : Job) (st : Nat) (a : Nat),
    let d : HostJob := x.desc.get!
    let b : Billet := (s.ctx x.ctx).billet.get!
    s.calm ∧
    s.alive = true ∧
    s.job j.val = some x ∧
    x.ended = some st ∧
    st < 256 ∧
    s.coll.pendingJobs.contains x.tag = false ∧
    s.sched.regen = none ∧
    x.kind = JobKind.host ∧
    x.desc = some d ∧
    bit d.flags 1 = true ∧
    ((s.ctx x.ctx).billet = some b) ∧
    bit d.flags 0 = true ∧
    st = 0 ∧
    (a < d.result ∨ d.result + 64 ≤ a)) ∧
  (∃ (s : State) (j : Fin 512) (x : Job) (st : Nat),
    let d : HostJob := x.desc.get!
    s.calm ∧
    s.alive = true ∧
    s.job j.val = some x ∧
    x.ended = some st ∧
    st < 256 ∧
    s.coll.pendingJobs.contains x.tag = false ∧
    s.sched.regen = none ∧
    x.kind = JobKind.host ∧
    x.desc = some d ∧
    bit d.flags 1 = false) := by
  refine ⟨?_, ?_, ?_, ?_, ?_, ?_, ?_, ?_, ?_⟩
  · exact ⟨st 4 3 (job g), 9, by decide +kernel⟩
  · exact ⟨st 4 3 (job g), 9, jb, 4, by decide +kernel⟩
  · exact ⟨cr (job g), 7, { slot := 7, tag := 77, ctx := 2, verdict := { noVerdict := false, cls := 3, conf := 700, reject := true, digest := [0x1#8, 0x2#8, 0x3#8] }, flags := 2 }, by decide +kernel⟩
  · exact ⟨st 4 3 (job g), 7, je, 0, 0, by decide +kernel⟩
  · exact ⟨st 4 3 (job g), 7, je, 0, 0, by decide +kernel⟩
  · exact ⟨cr (job g), 5, { slot := 5, tag := 5, ctx := 2, verdict := { noVerdict := false, cls := 3, conf := 700, reject := true, digest := [0x1#8, 0x2#8, 0x3#8] }, flags := 2 }, by decide +kernel⟩
  · exact ⟨g, 0, by decide +kernel⟩
  · exact ⟨(ow (job g)), 7, { ctx := 2, kind := JobKind.host, tag := 7, phase := 0, box := none, desc := some { input := 0, width := 0, height := 0, c0 := 0, c1 := 0, l0 := 0, l1 := 0, len := 0, result := 1048576, userTag := 0, kind := 0, flags := 3, identity := [0x0#8, 0x0#8, 0x0#8, 0x0#8, 0x0#8, 0x0#8, 0x0#8, 0x0#8, 0x0#8, 0x0#8, 0x0#8, 0x0#8, 0x0#8, 0x0#8, 0x0#8, 0x0#8] }, identity := [], base := 0, folded := true, fallback := false, restarts := 1, tongs := 1, rotation := 0, jseq := 0, counts := [(0, 9), (1, 3)], verdict := some { noVerdict := false, cls := 3, conf := 700, reject := true, digest := [0x1#8, 0x2#8, 0x3#8] }, ended := some 0, rtuFirst := 0, lastLine := 0, key := 0, xcheck := false, check := none, faultAt := none, dataErr := false, taken := [] }, 0, 0, by decide +kernel⟩
  · exact ⟨{job g with sched := {(job g).sched with jobs := [(7,{je with desc := some {dd with flags := 0, result := 0x100041}})]}}, 7, { ctx := 2, kind := JobKind.host, tag := 7, phase := 0, box := none, desc := some { input := 0, width := 0, height := 0, c0 := 0, c1 := 0, l0 := 0, l1 := 0, len := 0, result := 1048641, userTag := 0, kind := 0, flags := 0, identity := [0x0#8, 0x0#8, 0x0#8, 0x0#8, 0x0#8, 0x0#8, 0x0#8, 0x0#8, 0x0#8, 0x0#8, 0x0#8, 0x0#8, 0x0#8, 0x0#8, 0x0#8, 0x0#8] }, identity := [], base := 0, folded := true, fallback := false, restarts := 1, tongs := 1, rotation := 0, jseq := 0, counts := [(0, 9), (1, 3)], verdict := some { noVerdict := false, cls := 3, conf := 700, reject := true, digest := [0x1#8, 0x2#8, 0x3#8] }, ended := some 0, rtuFirst := 0, lastLine := 0, key := 0, xcheck := false, check := none, faultAt := none, dataErr := false, taken := [] }, 0, by decide +kernel⟩

end WitJ

/-! #### Witnesses: waits, checks and regeneration -/

namespace WitK

def bil : Billet := { (default : Billet) with addr := 0x1000, len := 0x40, formatKnown := true, aUnits := 4, wUnits := 3, pUnits := 3, xUnits := 4, n4Units := 1, n5Units := 0, anvCmds := 300, tngCmds := 200, quota := 3, copy0 := 0x200000, copy1 := 0x400300000, primCam := 1, primEn := true, failsafe := true, refLine := 1, prio := 3, specEn := true, actMap := [(0,40,3,5),(30,100,4,6)], decl0 := 3, decl1 := 4, prot := false, thresholds := [3,7], waits := [(0, 2, 0x2000000100, 8, 10),(3, 2, 0x2000000100, 8, 10)], earlyExit := true, inputLen := 16, windows := [(0x100000,0x10000)], stepBytes := [], stepAddrs := [], stepEngines := [], flows := [(3, [1,0,2])], outAt := 0x100000, outWindow := 0x104000, outLen := 48 }
def b1 : Box := { first := 100, last := 120, col0 := 3, col1 := 20, object := 9, camera := 1, noVerdict := false }
def b2 : Box := { b1 with noVerdict := true, object := 10 }
def b3 : Box := { b1 with col0 := 50, col1 := 60 }
def b4 : Box := { b1 with col0 := 200, col1 := 260 }
def b5 : Box := { b4 with noVerdict := true }
def is (b : Box) : Issued := { box := b, last := 127, dest := [2,3], stamps := [(96, 5000), (64, 4900)] }
def vd : Verdict := { (default : Verdict) with cls := 3, conf := 700, reject := true, digest := [1,2,3] }
def jx : Job := { (default : Job) with ctx := 2, kind := .host, tag := 5, counts := [(0, 9), (1, 3)], tongs := 1 }
def dd : HostJob := readDesc ((List.range 64).map (fun i => if i = 42 ∨ i = 43 ∨ i = 44 then 0 else if i = 26 then 0x10 else if i = 41 then 2 else 0))
def je : Job := { jx with tag := 7, ended := some 0, verdict := some vd, desc := some dd, restarts := 1, folded := true }
def jb : Job := { jx with tag := 9, kind := .box, ended := some 4 }
def g : State := Id.run do
  let mut s : State := { go with mem := [(0x1000,3),(0x100000,3),(0x100014,16),(0x100002,0x10),(0x10001a,0x10),(0x100029,2),(0x100042,0x10), (0x10006a,5)], ctxs := [(2, { (default : Ctx) with billet := some bil }), (3, { (default : Ctx) with billet := some bil })] }
  for c in [2,3] do
    s := (s.wr (P.schC c) Reg.SCH_CTX_CFG_prim_cam 1).wr (P.schC c) Reg.SCH_CTX_CFG_prim_en 1
    s := (((s.wr (P.schC c) Reg.SCH_CTX_ACT_GRP_valid 1 0).wr (P.schC c) Reg.SCH_CTX_ACT_COLS_last 30 0).wr (P.schC c) Reg.SCH_CTX_ACT_GRP_grp 3 0).wr (P.schC c) Reg.SCH_CTX_ACT_GRP_valid 1 4
    s := ((s.wr (P.schC c) Reg.SCH_CTX_ACT_COLS_first 31 4).wr (P.schC c) Reg.SCH_CTX_ACT_COLS_last 99 4).wr (P.schC c) Reg.SCH_CTX_ACT_GRP_grp 4 4
    s := ((s.wr (P.schC c) Reg.SCH_CTX_ACT_OFF_c_off 400 0).wr (P.schC c) Reg.SCH_CTX_CFG_quota 5).wr (P.schC c) Reg.SCH_CTX_HQ_BASE_lo 0x100000
  s := ((s.wr (P.cfeC 1) Reg.CFE_CAM_FMT_width 100).wr (P.cfeC 1) Reg.CFE_CAM_STAT_state 2).wr (P.cfeC 1) Reg.CFE_CAM_BLK_h 32
  s := s.setDet 1 { (default : Detect) with issued := [is b1, is b2, is b3, is b4, is b5] }
  s := s.setPipe 1 { s.pipe 1 with stamps := [(96, 5000), (64, 4900)] }
  for t in [0,1,2,3] do s := s.wr (P.tng t 0) Reg.TNG_CFG_ctx_en 255
  s := (s.wr P.rtu Reg.RTU_GRP_ACT_n_act 12 3).wr P.rtu Reg.RTU_GRP_CFG_enc 2 3
  pure s
def st (a b : Nat) (s : State) : State := (s.wr (P.schC 2) Reg.SCH_CTX_STAT_state a).wr (P.schC 3) Reg.SCH_CTX_STAT_state b
def job (s : State) : State := {s with sched := {s.sched with jobs := [(5,jx),(7,je),(9, jb)], order := [5,7,9], slotGen := [(7,127)]}}
def wz (s : State) : State := let s := s.setEng 0 {s.eng 0 with rwait := [(2,2),(2,3),(3,2)], jobOf := [(2,6)]}; s.setEng 3 {s.eng 3 with rwait := [(2,2)], jobOf := [(2,6)], cur := some 2}
def ld (s : State) : State := s.setCtx 2 {s.ctx 2 with landed := [(2, 8),(50,3)], waitsDone := [50, 3]}
def pr (n : Nat) (s : State) : State := ((s.setCtx 2 {s.ctx 2 with probes := (List.range n).map (fun i => (100+i, 1))}).wr (P.schC 2) Reg.SCH_CTX_CFG_spec_en 1).setDet 1 {(default : Detect) with openBoxes := [(2, {b1 with object := 5})], eyeOpen := some (1, 3, false)}
def rwc : Cmd := { w0 := 0x00130007, w1 := 2, w2 := 0, w3 := 0 }
def wi (s : State) : State := s.setEng 0 {s.eng 0 with inflight := [(2,rwc),(3,rwc)]}
def z16 : List Byte := List.replicate 16 0
def d1 : List Byte := [1,2,3,4,5,6,7,8,9,10,11,12,13,14,15,16]
def d2 : List Byte := [1,2,3,4,5,6,7,8,9,10,11,12,13,14,15,17]
def mk (o c : Option (List Byte)) (a t : Option Nat) (e : Bool) : Check := { (default : Check) with proto := {jx with box := some b1, kind := .box}, origDigest := o, copyDigest := c, arb := a, arbTrace := t, arbEnded := e }
def cks : List Check := [mk (some z16) (some d1) none none false, mk (some d1) (some d1) none none false, mk (some d1) (some d2) none none false, mk none none (some 1) (some 7) true,mk none none (some 1) (some 9) true,mk none none (some 1) (some 5) true, mk none none (some 1) none true]
def tr (s : State) : State := (s.setCtx 2 {s.ctx 2 with billet := some {bil with stepEngines := [3,4,5]}}).wr P.xck Reg.XCK_TRACE_BASE_lo 0x40000000
def tm (k : Nat) (s : State) : State := { s with mem := Memory.writeBytes (Memory.writeBytes s.mem (0x40000000 + k*0x100000 + 8) (le 8 7)) (0x40000000 + k*0x100000+0x80000 + 8) (le 8 9) }
def cs (c : Check) (s : State) : State := {s with sched := {s.sched with checks := [(0, c),(2,c)]}}
def fe (s : State) : State := s.wr P.xck Reg.XCK_CFG_fence_en 0
def rgd (hash : List Byte) (s : State) : State := (({ s with mem := Memory.writeBytes s.mem 0x50000000 (hash ++ List.replicate 16 0 ++ le 2 1 ++ le 6 0 ++ le 8 0x60000000 ++ le 8 64 ++ List.replicate 24 0 ++ ((List.range 64).map (fun i => if i = 2 then 0x10 else if i = 20 then 16 else if i = 26 then 0x10 else 0))) }).wr P.xck Reg.XCK_REGEN_ADDR_lo 0x50000000).wr (P.schC 3) Reg.SCH_CTX_CFG_prim_en 0
def z64 : List Byte := List.replicate 64 0

theorem witness_WaitsEndAndProbesStart :
  (∃ (s : State) (e : Fin 32) (c : Fin 8) (n : Fin 16) (i : Nat),
    let g : Engine := s.eng e.val
    let waits : Prop := s.clocked = true ∧ g.rwait.contains (c.val, n.val) = true ∧ s.waitDone c.val e.val n.val = true
    let f : Option (Nat × Cmd) := List.find? (fun f => decide (f.fst = c.val) && decide (cmdOp f.snd = 7)) g.inflight
    let signals : Nat → Prop := fun i => Option.any (fun f => cmdSignals f.snd && decide (cmdSigTok f.snd = i)) f = true
    s.atRest ∧
    waits ∧
    g.queued = [] ∧
    (∀ (i : Nat), i < 16 → signals i → s.tokens e.val c.val i ≠ 255) ∧
    i < 16) ∧
  (∃ (s : State) (e : Fin 32) (c : Fin 8) (n : Fin 16) (d : Nat),
    let g : Engine := s.eng e.val
    let waits : Prop := s.clocked = true ∧ g.rwait.contains (c.val, n.val) = true ∧ s.waitDone c.val e.val n.val = true
    let f : Option (Nat × Cmd) := List.find? (fun f => decide (f.fst = c.val) && decide (cmdOp f.snd = 7)) g.inflight
    let signals : Nat → Prop := fun i => Option.any (fun f => cmdSignals f.snd && decide (cmdSigTok f.snd = i)) f = true
    s.atRest ∧
    waits ∧
    g.queued = [] ∧
    (∀ (i : Nat), i < 16 → signals i → s.tokens e.val c.val i ≠ 255) ∧
    d ≠ e.val ∧
    d < 36 ∧
    (s.eng d).preReq = none ∧
    d ≠ c.val) ∧
  (∃ (s : State) (e : Fin 32) (c : Fin 8) (n : Fin 16) (j : Fin 512),
    s.atRest ∧
    (s.clocked = false ∨ s.job j.val = none ∨ (s.eng e.val).rwait.contains (c.val, n.val) = false ∨ s.waitDone c.val e.val n.val = true)) ∧
  (∃ (s : State) (e : Fin 32) (c : Fin 8) (n : Fin 16),
    let g : Engine := s.eng e.val
    let waits : Prop := s.clocked = true ∧ g.rwait.contains (c.val, n.val) = true ∧ s.waitDone c.val e.val n.val = true
    s.atRest ∧
    (¬waits)) ∧
  (∃ (s : State) (e : Fin 32) (c : Fin 8) (n : Fin 16) (j : Fin 512) (d : Nat),
    let x : Job := (s.job j.val).get!
    s.atRest ∧
    s.job j.val = some x ∧
    s.clocked = true ∧
    (s.eng e.val).rwait.contains (c.val, n.val) = true ∧
    s.waitDone c.val e.val n.val = false ∧
    s.onJob e.val x = true ∧
    x.ctx = c.val ∧
    x.ended = none ∧
    d < 36 ∧
    s.onJob d x = true) ∧
  (∃ (s : State) (c : Fin 8) (obj : BitVec 32) (k : Fin 8),
    let lines : Nat := (Option.map (fun b => b.exitLines.toNat) (s.ctx c.val).billet).getD 0
    let now : Nat := s.lineCount k.val (s.pipe k.val).stamps ((s.cam k.val).nextLine - 1)
    let starts : Prop := s.alive = true ∧ s.ctxState c.val = 4 ∧ s.rdb (P.schC c.val) Reg.SCH_CTX_CFG_spec_en = true ∧ Option.map Billet.earlyExit (s.ctx c.val).billet = some true ∧ s.primCam c.val = k.val ∧ (((s.det k.val).openBoxes.any fun b => decide (b.fst = c.val) && decide (b.snd.object = obj) && decide (lines ≤ b.snd.last.toNat - b.snd.first.toNat + 1)) = true ∨ Option.any (fun x => decide (x.fst = obj.toNat) && passed now ((x.snd.fst + s.rd P.fio Reg.FIO_EYE_OFF_off_ct k.val + (lines * s.camSpacing k.val + 65535) / 65536) % 2 ^ 32)) (s.det k.val).eyeOpen = true) ∧ ¬(obj.toNat, k.val) ∈ (s.ctx c.val).probes
    s.atRest ∧
    starts ∧
    (s.ctx c.val).probes.length < 64) ∧
  (∃ (s : State) (c : Fin 8) (obj : BitVec 32) (k : Fin 8),
    let lines : Nat := (Option.map (fun b => b.exitLines.toNat) (s.ctx c.val).billet).getD 0
    let now : Nat := s.lineCount k.val (s.pipe k.val).stamps ((s.cam k.val).nextLine - 1)
    let starts : Prop := s.alive = true ∧ s.ctxState c.val = 4 ∧ s.rdb (P.schC c.val) Reg.SCH_CTX_CFG_spec_en = true ∧ Option.map Billet.earlyExit (s.ctx c.val).billet = some true ∧ s.primCam c.val = k.val ∧ (((s.det k.val).openBoxes.any fun b => decide (b.fst = c.val) && decide (b.snd.object = obj) && decide (lines ≤ b.snd.last.toNat - b.snd.first.toNat + 1)) = true ∨ Option.any (fun x => decide (x.fst = obj.toNat) && passed now ((x.snd.fst + s.rd P.fio Reg.FIO_EYE_OFF_off_ct k.val + (lines * s.camSpacing k.val + 65535) / 65536) % 2 ^ 32)) (s.det k.val).eyeOpen = true) ∧ ¬(obj.toNat, k.val) ∈ (s.ctx c.val).probes
    s.atRest ∧
    starts ∧
    64 ≤ (s.ctx c.val).probes.length) ∧
  (∃ (s : State) (c : Fin 8) (obj : BitVec 32) (k : Fin 8),
    let lines : Nat := (Option.map (fun b => b.exitLines.toNat) (s.ctx c.val).billet).getD 0
    let now : Nat := s.lineCount k.val (s.pipe k.val).stamps ((s.cam k.val).nextLine - 1)
    let starts : Prop := s.alive = true ∧ s.ctxState c.val = 4 ∧ s.rdb (P.schC c.val) Reg.SCH_CTX_CFG_spec_en = true ∧ Option.map Billet.earlyExit (s.ctx c.val).billet = some true ∧ s.primCam c.val = k.val ∧ (((s.det k.val).openBoxes.any fun b => decide (b.fst = c.val) && decide (b.snd.object = obj) && decide (lines ≤ b.snd.last.toNat - b.snd.first.toNat + 1)) = true ∨ Option.any (fun x => decide (x.fst = obj.toNat) && passed now ((x.snd.fst + s.rd P.fio Reg.FIO_EYE_OFF_off_ct k.val + (lines * s.camSpacing k.val + 65535) / 65536) % 2 ^ 32)) (s.det k.val).eyeOpen = true) ∧ ¬(obj.toNat, k.val) ∈ (s.ctx c.val).probes
    s.atRest ∧
    (¬starts)) := by
  refine ⟨?_, ?_, ?_, ?_, ?_, ?_, ?_, ?_⟩
  · exact ⟨wi (wz (ld (job g))), 0, 2, 2, 5, by decide +kernel⟩
  · exact ⟨wi (wz (ld (job g))), 0, 2, 2, 5, by decide +kernel⟩
  · exact ⟨wi (wz (ld (job g))), 0, 2, 2, 5, by decide +kernel⟩
  · exact ⟨wz (job g), 0, 2, 2, by decide +kernel⟩
  · exact ⟨wz (job g), 0, 2, 2, 5, 0, by decide +kernel⟩
  · exact ⟨pr 3 (st 4 4 g), 2, 0x5#32, 1, by decide +kernel⟩
  · exact ⟨pr 64 (st 4 4 g), 2, 0x5#32, 1, by decide +kernel⟩
  · exact ⟨wi (wz (ld (job g))), 1, 0x1#32, 1, by decide +kernel⟩

theorem witness_ChecksEndAndRegenerationsWait_1 :
  (∃ (s : State) (c : Fin 8),
    let a : Nat := s.rd2 P.xck Reg.XCK_REGEN_ADDR_lo Reg.XCK_REGEN_ADDR_hi / 64 * 64
    let b : List Byte := (s.fetch 2 a 192).fst.load a 192
    let busy : Prop := s.rdb P.xck Reg.XCK_REGEN_CTL_busy = true ∨ s.works P.xck = false
    let st : Nat := (s.regenRefusal c.val b).get!
    s.calm ∧
    s.reaches (P.xck + 136) ∧
    s.regenRefusal c.val b = some st ∧
    (¬busy)) ∧
  (∃ (s : State) (k : Fin 4) (ck : Check) (n : Nat),
    s.calm ∧
    s.xckActs = true ∧
    s.sched.checks.find? k.val = some ck ∧
    ck.arb = some n ∧
    ck.arbEnded = true ∧
    (∀ (v : Nat), ck.arbTrace = some v → v ≠ s.trace k.val 1 n ∧ v ≠ s.trace k.val 0 n) ∧
    s.isFenced P.xck = false ∧
    s.rdb P.xck Reg.XCK_CFG_fence_en = false) ∧
  (∃ (s : State) (k : Fin 4) (ck : Check) (o : List Byte) (c : List Byte),
    let zero : List Byte := List.replicate 16 0
    s.calm ∧
    s.xckActs = true ∧
    s.sched.checks.find? k.val = some ck ∧
    ck.origDigest = some o ∧
    ck.copyDigest = some c ∧
    ck.arb = none ∧
    o ≠ zero ∧
    c ≠ zero ∧
    o = c) ∧
  (∃ (s : State) (c : Fin 8),
    let a : Nat := s.rd2 P.xck Reg.XCK_REGEN_ADDR_lo Reg.XCK_REGEN_ADDR_hi / 64 * 64
    let b : List Byte := (s.fetch 2 a 192).fst.load a 192
    let busy : Prop := s.rdb P.xck Reg.XCK_REGEN_CTL_busy = true ∨ s.works P.xck = false
    s.calm ∧
    s.reaches (P.xck + 136) ∧
    s.regenRefusal c.val b = none ∧
    (¬busy)) ∧
  (∃ (s : State) (k : Fin 4) (ck : Check) (n : Nat),
    let v : Nat := ck.arbTrace.get!
    s.calm ∧
    s.xckActs = true ∧
    s.sched.checks.find? k.val = some ck ∧
    ck.arb = some n ∧
    ck.arbEnded = true ∧
    ck.arbTrace = some v ∧
    v ≠ s.trace k.val 1 n ∧
    v = s.trace k.val 0 n ∧
    s.rdb P.xck Reg.XCK_CFG_fence_en = false) ∧
  (∃ (s : State) (k : Fin 4) (ck : Check) (n : Nat),
    let v : Nat := ck.arbTrace.get!
    s.calm ∧
    s.xckActs = true ∧
    s.sched.checks.find? k.val = some ck ∧
    ck.arb = some n ∧
    ck.arbEnded = true ∧
    s.rdb P.xck Reg.XCK_CFG_fence_en = false ∧
    ck.arbTrace = some v ∧
    v = s.trace k.val 1 n) := by
  refine ⟨?_, ?_, ?_, ?_, ?_, ?_⟩
  · exact ⟨cs (mk none none (some 1) (some 7) true) g, 0, by decide +kernel⟩
  · exact ⟨fe (tm 0 (tr (cs (mk none none (some 1) none true) g))), 0, { proto := { ctx := 2, kind := JobKind.box, tag := 5, phase := 0, box := some b1, desc := none, identity := [], base := 0, folded := false, fallback := false, restarts := 0, tongs := 1, rotation := 0, jseq := 0, counts := [(0, 9), (1, 3)], verdict := none, ended := none, rtuFirst := 0, lastLine := 0, key := 0, xcheck := false, check := none, faultAt := none, dataErr := false, taken := [] }, origDigest := none, copyDigest := none, copyTongs := 0, arb := some 1, arbTrace := none, arbEnded := true }, 1, by decide +kernel⟩
  · exact ⟨cs (mk (some d1) (some d1) none none false) g, 0, { proto := { ctx := 2, kind := JobKind.box, tag := 5, phase := 0, box := some b1, desc := none, identity := [], base := 0, folded := false, fallback := false, restarts := 0, tongs := 1, rotation := 0, jseq := 0, counts := [(0, 9), (1, 3)], verdict := none, ended := none, rtuFirst := 0, lastLine := 0, key := 0, xcheck := false, check := none, faultAt := none, dataErr := false, taken := [] }, origDigest := some [0x1#8, 0x2#8, 0x3#8, 0x4#8, 0x5#8, 0x6#8, 0x7#8, 0x8#8, 0x9#8, 0xa#8, 0xb#8, 0xc#8, 0xd#8, 0xe#8, 0xf#8, 0x10#8], copyDigest := some [0x1#8, 0x2#8, 0x3#8, 0x4#8, 0x5#8, 0x6#8, 0x7#8, 0x8#8, 0x9#8, 0xa#8, 0xb#8, 0xc#8, 0xd#8, 0xe#8, 0xf#8, 0x10#8], copyTongs := 0, arb := none, arbTrace := none, arbEnded := false }, [0x1#8, 0x2#8, 0x3#8, 0x4#8, 0x5#8, 0x6#8, 0x7#8, 0x8#8, 0x9#8, 0xa#8, 0xb#8, 0xc#8, 0xd#8, 0xe#8, 0xf#8, 0x10#8], [0x1#8, 0x2#8, 0x3#8, 0x4#8, 0x5#8, 0x6#8, 0x7#8, 0x8#8, 0x9#8, 0xa#8, 0xb#8, 0xc#8, 0xd#8, 0xe#8, 0xf#8, 0x10#8], by decide +kernel⟩
  · exact ⟨st 4 4 (rgd z64 g), 3, by decide +kernel⟩
  · exact ⟨fe (tm 0 (tr (cs (mk none none (some 1) (some 7) true) g))), 0, { proto := { ctx := 2, kind := JobKind.box, tag := 5, phase := 0, box := some b1, desc := none, identity := [], base := 0, folded := false, fallback := false, restarts := 0, tongs := 1, rotation := 0, jseq := 0, counts := [(0, 9), (1, 3)], verdict := none, ended := none, rtuFirst := 0, lastLine := 0, key := 0, xcheck := false, check := none, faultAt := none, dataErr := false, taken := [] }, origDigest := none, copyDigest := none, copyTongs := 0, arb := some 1, arbTrace := some 7, arbEnded := true }, 1, by decide +kernel⟩
  · exact ⟨fe (tm 0 (tr (cs (mk none none (some 1) (some 9) true) g))), 0, { proto := { ctx := 2, kind := JobKind.box, tag := 5, phase := 0, box := some b1, desc := none, identity := [], base := 0, folded := false, fallback := false, restarts := 0, tongs := 1, rotation := 0, jseq := 0, counts := [(0, 9), (1, 3)], verdict := none, ended := none, rtuFirst := 0, lastLine := 0, key := 0, xcheck := false, check := none, faultAt := none, dataErr := false, taken := [] }, origDigest := none, copyDigest := none, copyTongs := 0, arb := some 1, arbTrace := some 9, arbEnded := true }, 1, by decide +kernel⟩

theorem witness_ChecksEndAndRegenerationsWait_2 :
  (∃ (s : State) (k : Fin 4) (ck : Check) (o : List Byte) (c : List Byte),
    let zero : List Byte := List.replicate 16 0
    s.calm ∧
    s.xckActs = true ∧
    s.sched.checks.find? k.val = some ck ∧
    ck.origDigest = some o ∧
    ck.copyDigest = some c ∧
    ck.arb = none ∧
    o ≠ zero ∧
    c ≠ zero ∧
    o ≠ c ∧
    s.firstDiff k.val ck.proto.ctx = none ∧
    s.isFenced P.xck = false) ∧
  (∃ (s : State) (k : Fin 4) (ck : Check) (o : List Byte) (c : List Byte),
    let zero : List Byte := List.replicate 16 0
    s.calm ∧
    s.xckActs = true ∧
    s.sched.checks.find? k.val = some ck ∧
    ck.origDigest = some o ∧
    ck.copyDigest = some c ∧
    ck.arb = none ∧
    (o = zero ∨ c = zero)) ∧
  (∃ (s : State) (k : Fin 4),
    s.atRest ∧
    (s.sched.checks.find? k.val = none ∨ s.xckActs = false)) ∧
  (∃ (s : State),
    let busy : Prop := s.rdb P.xck Reg.XCK_REGEN_CTL_busy = true ∨ s.works P.xck = false
    s.calm ∧
    s.reaches (P.xck + 136) ∧
    busy) ∧
  (∃ (s : State) (k : Fin 4) (ck : Check) (o : List Byte) (c : List Byte),
    let zero : List Byte := List.replicate 16 0
    let n : Nat := (s.firstDiff k.val ck.proto.ctx).get!
    s.calm ∧
    s.xckActs = true ∧
    s.sched.checks.find? k.val = some ck ∧
    ck.origDigest = some o ∧
    ck.copyDigest = some c ∧
    ck.arb = none ∧
    o ≠ zero ∧
    c ≠ zero ∧
    o ≠ c ∧
    s.firstDiff k.val ck.proto.ctx = some n) := by
  refine ⟨?_, ?_, ?_, ?_, ?_⟩
  · exact ⟨cs (mk (some d1) (some d2) none none false) g, 0, { proto := { ctx := 2, kind := JobKind.box, tag := 5, phase := 0, box := some b1, desc := none, identity := [], base := 0, folded := false, fallback := false, restarts := 0, tongs := 1, rotation := 0, jseq := 0, counts := [(0, 9), (1, 3)], verdict := none, ended := none, rtuFirst := 0, lastLine := 0, key := 0, xcheck := false, check := none, faultAt := none, dataErr := false, taken := [] }, origDigest := some [0x1#8, 0x2#8, 0x3#8, 0x4#8, 0x5#8, 0x6#8, 0x7#8, 0x8#8, 0x9#8, 0xa#8, 0xb#8, 0xc#8, 0xd#8, 0xe#8, 0xf#8, 0x10#8], copyDigest := some [0x1#8, 0x2#8, 0x3#8, 0x4#8, 0x5#8, 0x6#8, 0x7#8, 0x8#8, 0x9#8, 0xa#8, 0xb#8, 0xc#8, 0xd#8, 0xe#8, 0xf#8, 0x11#8], copyTongs := 0, arb := none, arbTrace := none, arbEnded := false }, [0x1#8, 0x2#8, 0x3#8, 0x4#8, 0x5#8, 0x6#8, 0x7#8, 0x8#8, 0x9#8, 0xa#8, 0xb#8, 0xc#8, 0xd#8, 0xe#8, 0xf#8, 0x10#8], [0x1#8, 0x2#8, 0x3#8, 0x4#8, 0x5#8, 0x6#8, 0x7#8, 0x8#8, 0x9#8, 0xa#8, 0xb#8, 0xc#8, 0xd#8, 0xe#8, 0xf#8, 0x11#8], by decide +kernel⟩
  · exact ⟨cs (mk (some z16) (some d1) none none false) g, 0, { proto := { ctx := 2, kind := JobKind.box, tag := 5, phase := 0, box := some b1, desc := none, identity := [], base := 0, folded := false, fallback := false, restarts := 0, tongs := 1, rotation := 0, jseq := 0, counts := [(0, 9), (1, 3)], verdict := none, ended := none, rtuFirst := 0, lastLine := 0, key := 0, xcheck := false, check := none, faultAt := none, dataErr := false, taken := [] }, origDigest := some [0x0#8, 0x0#8, 0x0#8, 0x0#8, 0x0#8, 0x0#8, 0x0#8, 0x0#8, 0x0#8, 0x0#8, 0x0#8, 0x0#8, 0x0#8, 0x0#8, 0x0#8, 0x0#8], copyDigest := some [0x1#8, 0x2#8, 0x3#8, 0x4#8, 0x5#8, 0x6#8, 0x7#8, 0x8#8, 0x9#8, 0xa#8, 0xb#8, 0xc#8, 0xd#8, 0xe#8, 0xf#8, 0x10#8], copyTongs := 0, arb := none, arbTrace := none, arbEnded := false }, [0x0#8, 0x0#8, 0x0#8, 0x0#8, 0x0#8, 0x0#8, 0x0#8, 0x0#8, 0x0#8, 0x0#8, 0x0#8, 0x0#8, 0x0#8, 0x0#8, 0x0#8, 0x0#8], [0x1#8, 0x2#8, 0x3#8, 0x4#8, 0x5#8, 0x6#8, 0x7#8, 0x8#8, 0x9#8, 0xa#8, 0xb#8, 0xc#8, 0xd#8, 0xe#8, 0xf#8, 0x10#8], by decide +kernel⟩
  · exact ⟨(cs cks[0]! g).wr P.xck Reg.BLK_STAT_state 1, 0, by decide +kernel⟩
  · exact ⟨(cs cks[0]! g).wr P.xck Reg.BLK_STAT_state 1, by decide +kernel⟩
  · exact ⟨fe (tm 0 (tr (cs (mk (some d1) (some d2) none none false) g))), 0, { proto := { ctx := 2, kind := JobKind.box, tag := 5, phase := 0, box := some b1, desc := none, identity := [], base := 0, folded := false, fallback := false, restarts := 0, tongs := 1, rotation := 0, jseq := 0, counts := [(0, 9), (1, 3)], verdict := none, ended := none, rtuFirst := 0, lastLine := 0, key := 0, xcheck := false, check := none, faultAt := none, dataErr := false, taken := [] }, origDigest := some [0x1#8, 0x2#8, 0x3#8, 0x4#8, 0x5#8, 0x6#8, 0x7#8, 0x8#8, 0x9#8, 0xa#8, 0xb#8, 0xc#8, 0xd#8, 0xe#8, 0xf#8, 0x10#8], copyDigest := some [0x1#8, 0x2#8, 0x3#8, 0x4#8, 0x5#8, 0x6#8, 0x7#8, 0x8#8, 0x9#8, 0xa#8, 0xb#8, 0xc#8, 0xd#8, 0xe#8, 0xf#8, 0x11#8], copyTongs := 0, arb := none, arbTrace := none, arbEnded := false }, [0x1#8, 0x2#8, 0x3#8, 0x4#8, 0x5#8, 0x6#8, 0x7#8, 0x8#8, 0x9#8, 0xa#8, 0xb#8, 0xc#8, 0xd#8, 0xe#8, 0xf#8, 0x10#8], [0x1#8, 0x2#8, 0x3#8, 0x4#8, 0x5#8, 0x6#8, 0x7#8, 0x8#8, 0x9#8, 0xa#8, 0xb#8, 0xc#8, 0xd#8, 0xe#8, 0xf#8, 0x11#8], by decide +kernel⟩

end WitK

/-! #### Witnesses: lanes, cameras, triggers -/

namespace WitL

def z0 : Trig := { count := 44, time := 100, software := true, notSent := false }
def z1 : Trig := { z0 with time := 123456789000 }
def lk (n : Nat) (s : State) : State := s.wrb (P.lane n) Reg.CXP_LANE_STAT_lock true
def bd (n k : Nat) (s : State) : State := (s.wrb (P.lane n) Reg.CXP_LANE_STAT_bound true).wr (P.lane n) Reg.CXP_LANE_STAT_cam k
def cm (st : Nat) (s : State) : State := (((((s.wr (P.cfeC 1) Reg.CFE_CAM_STAT_state st).wr (P.cfeC 1) Reg.CFE_CAM_BIND_lanes 0x30).wr (P.cfeC 1) Reg.CFE_CAM_FMT_width 4).wr (P.cfeC 1) Reg.CFE_CAM_WIN_lat_max 20).wr (P.cfeC 1) Reg.CFE_CAM_FMT_stream_id 3).wr (P.cfeC 1) Reg.CFE_CAM_BIND_rate 4
def ls (f : Nat) (s : State) : State := s.setLane 4 {s.lane 4 with lost := true, failedRetrains := f}
def sc (f : Cam → Cam) (s : State) : State := s.setCam 1 (f (s.cam 1))
def bk (s : State) : State := {s with seq := {s.seq with power := .banked}}
def ih (s : State) : State := [4,5].foldl (fun s n => s.wr (P.lane n) Reg.BLK_STAT_state 1) (s.wr (P.cfeC 1) Reg.BLK_STAT_state 1)
def rg (s : State) : State := ((((((s.wr P.blw Reg.BLW_CLS_BUD0_budget 5 0).wr P.blw Reg.BLW_CLS_BUD1_budget 5 0).wr P.replay Reg.REPLAY_GEOM_slots 2000 1).wr P.replay Reg.REPLAY_SLOT_z 40 1).wr (P.cfeC 1) Reg.CFE_CAM_BLK_trig_src 1).wr (P.cfeC 1) Reg.CFE_CAM_BLK_h 1)
def pb (g d c l r : Nat) (s : State) : State := (((((s.wr (P.lane 4) Reg.CXP_PRBS_CFG_gen_en g).wr (P.lane 4) Reg.CXP_PRBS_CFG_gen_dst d).wr (P.lane 4) Reg.CXP_PRBS_CFG_chk_en c).wr (P.lane 4) Reg.CXP_PRBS_CFG_chk_lock l).wr (P.lane 4) Reg.CXP_PRBS_CFG_inj_rate r)
def an (l : List (Nat × Nat × Nat)) (s : State) : State := sc (fun c => {c with answers := l, wasLost := l.length = 0, nextLine := 7}) s
def ow (s : State) : State := (s.wr P.cfe0 Reg.CLAIM_CFE0_owner 4 1).wr P.cfe0 Reg.CLAIM_CFE0_unit 1 1
def lg (l : List Trig) (t : Option Nat) (src : Nat) (s : State) : State := sc (fun c => {c with log := l, lastTrig := t}) ((cm 2 (ow s)).wr (P.cfeC 1) Reg.CFE_CAM_BLK_trig_src src)

theorem witness_LanesLockLoseAndCountTheirPackets_1 :
  (∃ (s : State) (n : Fin 16),
    s.live ∧
    (s.lane n.val).lost = false) ∧
  (∃ (s : State) (n : Fin 16) (p : StreamPacket),
    let b : Nat := P.lane n.val
    let v : Nat := p.codeViolations.toNat
    let d : Nat := p.disparityErrors.toNat
    let clean : Prop := v = 0 ∧ d = 0
    s.atRest ∧
    s.clocked = true ∧
    s.rdb b Reg.CXP_LANE_STAT_lock = true ∧
    clean ∧
    p.crcOk = false) ∧
  (∃ (s : State) (n : Fin 16),
    let b : Nat := P.lane n.val
    let falls : Prop := (s.lane n.val).lost = false ∧ s.rdb b Reg.CXP_LANE_STAT_lock = true
    s.live ∧
    (¬falls)) ∧
  (∃ (s : State) (n : Fin 16) (ctle : BitVec 4) (dfe : BitVec 30) (eye : BitVec 10) (k : Fin 8),
    let b : Nat := P.lane n.val
    let t : State := after (exec (Instr.laneLocked n ctle dfe eye) s)
    let _m : Nat := (List.drop 0 (s.camLanes k.val)).head!
    s.live ∧
    s.works b = true ∧
    s.rdb b Reg.CXP_LANE_STAT_lock = false ∧
    s.laneUser n.val = some k.val ∧
    s.camState k.val = 1 ∧
    (s.camLanes k.val).length ≤ (s.cam k.val).answers.length ∧
    (∀ (m : Nat), m ∈ s.camLanes k.val → m = n.val ∨ s.rdb (P.lane m) Reg.CXP_LANE_STAT_lock = true) ∧
    t.camState k.val = 2) ∧
  (∃ (s : State) (n : Fin 16),
    s.live ∧
    (s.lane n.val).lost = true ∧
    2 ≤ (s.lane n.val).failedRetrains ∧
    s.isFenced (P.lane n.val) = false ∧
    s.rd (P.lane n.val) Reg.BLK_ERR_cause = 0 ∧
    s.laneCam n.val = none) ∧
  (∃ (s : State) (n : Fin 16),
    s.atRest ∧
    s.clocked = true ∧
    s.rdb (P.lane n.val) Reg.CXP_LANE_STAT_lock = false) ∧
  (∃ (s : State) (n : Fin 16),
    let b : Nat := P.lane n.val
    let binds : Prop := ∃ k, s.laneUser n.val = some k ∧ s.camState k = 1 ∧ (s.camLanes k).length ≤ (s.cam k).answers.length
    let k : Nat := (s.laneCam n.val).get!
    s.live ∧
    s.works b = true ∧
    s.rdb b Reg.CXP_LANE_STAT_lock = false ∧
    (¬binds) ∧
    s.laneCam n.val = some k) ∧
  (∃ (s : State) (n : Fin 16),
    s.live ∧
    (s.lane n.val).lost = true ∧
    (s.lane n.val).failedRetrains < 2) ∧
  (∃ (s : State) (k : Fin 8) (j : Nat),
    s.atRest ∧
    s.clocked = true ∧
    (s.cam k.val).tagsHeld ≠ [] ∧
    j ≠ k.val) := by
  refine ⟨?_, ?_, ?_, ?_, ?_, ?_, ?_, ?_, ?_⟩
  · exact ⟨lk 4 (lk 5 go2), 4, by decide +kernel⟩
  · exact ⟨lk 4 (lk 5 go2), 4, { streamId := 0x3#8, tag := 0x5#8, codeViolations := 0x0#16, disparityErrors := 0x0#16, chars := 0x64#16, crcOk := false }, by decide +kernel⟩
  · exact ⟨ih go2, 0, by decide +kernel⟩
  · exact ⟨sc (fun c => {c with answers := [(4,3,0),(5,3,1)], rmax := 100}) (rg (lk 5 (cm 1 go2))), 4, 0x0#4, 0x3ffffff#30, 0x3ff#10, 1, by decide +kernel⟩
  · exact ⟨ls 2 go2, 4, by decide +kernel⟩
  · exact ⟨ls 2 go2, 4, by decide +kernel⟩
  · exact ⟨ls 1 (cm 2 (bd 4 1 go2)), 4, by decide +kernel⟩
  · exact ⟨ls 1 (cm 2 (bd 4 1 go2)), 4, by decide +kernel⟩
  · exact ⟨sc (fun c => {c with lostLanes := [4,5], tagsHeld := [6,7], nextTag := 5}) (lk 5 (bd 4 1 (cm 2 go2))), 1, 0, by decide +kernel⟩

theorem witness_LanesLockLoseAndCountTheirPackets_2 :
  (∃ (s : State) (n : Fin 16) (m : Nat),
    s.atRest ∧
    s.clocked = true ∧
    s.rdb (P.lane n.val) Reg.CXP_LANE_STAT_lock = true ∧
    m ≠ n.val) ∧
  (∃ (s : State) (n : Fin 16),
    let b : Nat := P.lane n.val
    let falls : Prop := (s.lane n.val).lost = false ∧ s.rdb b Reg.CXP_LANE_STAT_lock = true
    let k : Nat := (s.laneCam n.val).get!
    s.live ∧
    falls ∧
    s.laneCam n.val = some k) ∧
  (∃ (s : State) (n : Fin 16) (ctle : BitVec 4) (dfe : BitVec 30) (eye : BitVec 10) (k : Fin 8),
    let b : Nat := P.lane n.val
    let t : State := after (exec (Instr.laneLocked n ctle dfe eye) s)
    let _m : Nat := (List.drop 0 (s.camLanes k.val)).head!
    s.live ∧
    s.works b = true ∧
    s.rdb b Reg.CXP_LANE_STAT_lock = false ∧
    s.laneUser n.val = some k.val ∧
    s.camState k.val = 1 ∧
    (s.camLanes k.val).length ≤ (s.cam k.val).answers.length ∧
    (∀ (m : Nat), m ∈ s.camLanes k.val → m = n.val ∨ s.rdb (P.lane m) Reg.CXP_LANE_STAT_lock = true) ∧
    s.rd (P.cfeC k.val) Reg.CFE_CAM_BLK_trig_src = 0 ∧
    (s.cam k.val).fastUplink = false ∧
    t.camState k.val ≠ 2) ∧
  (∃ (s : State) (n : Fin 16) (p : StreamPacket),
    let b : Nat := P.lane n.val
    let v : Nat := p.codeViolations.toNat
    let d : Nat := p.disparityErrors.toNat
    let clean : Prop := v = 0 ∧ d = 0
    let k : Nat := (s.laneCam n.val).get!
    let c : Cam := s.cam k
    s.atRest ∧
    s.clocked = true ∧
    s.rdb b Reg.CXP_LANE_STAT_lock = true ∧
    clean ∧
    p.crcOk = true ∧
    s.laneCam n.val = some k ∧
    p.streamId.toNat = s.rd (P.cfeC k) Reg.CFE_CAM_FMT_stream_id ∧
    p.tag.toNat ≠ c.nextTag ∧
    (p.tag.toNat + 256 - c.nextTag) % 256 < 128) ∧
  (∃ (s : State) (n : Fin 16) (p : StreamPacket),
    let b : Nat := P.lane n.val
    let v : Nat := p.codeViolations.toNat
    let d : Nat := p.disparityErrors.toNat
    let clean : Prop := v = 0 ∧ d = 0
    s.atRest ∧
    s.clocked = true ∧
    s.rdb b Reg.CXP_LANE_STAT_lock = true ∧
    v ≠ 0 ∧
    (¬clean)) ∧
  (∃ (s : State) (n : Fin 16) (p : StreamPacket),
    let b : Nat := P.lane n.val
    let v : Nat := p.codeViolations.toNat
    let d : Nat := p.disparityErrors.toNat
    let clean : Prop := v = 0 ∧ d = 0
    let k : Nat := (s.laneCam n.val).get!
    s.atRest ∧
    s.clocked = true ∧
    s.rdb b Reg.CXP_LANE_STAT_lock = true ∧
    clean ∧
    p.crcOk = true ∧
    s.laneCam n.val = some k ∧
    p.streamId.toNat ≠ s.rd (P.cfeC k) Reg.CFE_CAM_FMT_stream_id) ∧
  (∃ (s : State),
    s.atRest ∧
    s.clocked = false) ∧
  (∃ (s : State) (k : Fin 8),
    s.atRest ∧
    s.clocked = true ∧
    (s.cam k.val).tagsHeld = []) ∧
  (∃ (s : State) (n : Fin 16) (m : Nat),
    let b : Nat := P.lane n.val
    let falls : Prop := (s.lane n.val).lost = false ∧ s.rdb b Reg.CXP_LANE_STAT_lock = true
    s.live ∧
    falls ∧
    m ≠ n.val ∧
    s.laneCam n.val = none) := by
  refine ⟨?_, ?_, ?_, ?_, ?_, ?_, ?_, ?_, ?_⟩
  · exact ⟨lk 4 (lk 5 go2), 4, 0, by decide +kernel⟩
  · exact ⟨lk 4 (lk 5 (bd 4 1 (bd 5 1 (cm 2 go2)))), 4, by decide +kernel⟩
  · exact ⟨sc (fun c => {c with answers := [(4,3,0),(5,3,1)]}) (lk 5 (cm 1 go2)), 4, 0x0#4, 0x3ffffff#30, 0x3ff#10, 1, by decide +kernel⟩
  · exact ⟨lk 4 (lk 5 (bd 4 1 (bd 5 1 (cm 2 go2)))), 4, { streamId := 0x3#8, tag := 0x5#8, codeViolations := 0x0#16, disparityErrors := 0x0#16, chars := 0x64#16, crcOk := true }, by decide +kernel⟩
  · exact ⟨lk 4 (lk 5 go2), 4, { streamId := 0x3#8, tag := 0x5#8, codeViolations := 0x2#16, disparityErrors := 0x0#16, chars := 0x64#16, crcOk := true }, by decide +kernel⟩
  · exact ⟨lk 4 (lk 5 (bd 4 1 (bd 5 1 (cm 2 go2)))), 4, { streamId := 0x4#8, tag := 0x5#8, codeViolations := 0x0#16, disparityErrors := 0x0#16, chars := 0x64#16, crcOk := true }, by decide +kernel⟩
  · exact ⟨bk (lk 4 (lk 5 (bd 4 1 (bd 5 1 (cm 2 go2))))), by decide +kernel⟩
  · exact ⟨go2, 1, by decide +kernel⟩
  · exact ⟨lk 4 (lk 5 go2), 4, 0, by decide +kernel⟩

theorem witness_LanesLockLoseAndCountTheirPackets_3 :
  (∃ (s : State) (n : Fin 16),
    let k : Nat := (s.laneCam n.val).get!
    s.live ∧
    (s.lane n.val).lost = true ∧
    2 ≤ (s.lane n.val).failedRetrains ∧
    s.isFenced (P.lane n.val) = false ∧
    s.rd (P.lane n.val) Reg.BLK_ERR_cause = 0 ∧
    s.laneCam n.val = some k ∧
    s.camState k = 2) ∧
  (∃ (s : State) (n : Fin 16),
    let b : Nat := P.lane n.val
    s.live ∧
    (s.works b = false ∨ s.rdb b Reg.CXP_LANE_STAT_lock = true)) ∧
  (∃ (s : State) (n : Fin 16),
    let b : Nat := P.lane n.val
    s.atRest ∧
    s.clocked = true ∧
    s.rdb b Reg.CXP_LANE_STAT_lock = false) ∧
  (∃ (s : State) (n : Fin 16) (p : StreamPacket),
    let b : Nat := P.lane n.val
    let v : Nat := p.codeViolations.toNat
    let d : Nat := p.disparityErrors.toNat
    let clean : Prop := v = 0 ∧ d = 0
    s.atRest ∧
    s.clocked = true ∧
    s.rdb b Reg.CXP_LANE_STAT_lock = true ∧
    clean ∧
    p.crcOk = true ∧
    s.laneCam n.val = none) ∧
  (∃ (s : State) (n : Fin 16) (p : StreamPacket),
    let b : Nat := P.lane n.val
    let v : Nat := p.codeViolations.toNat
    let d : Nat := p.disparityErrors.toNat
    let clean : Prop := v = 0 ∧ d = 0
    s.atRest ∧
    s.clocked = true ∧
    s.rdb b Reg.CXP_LANE_STAT_lock = true ∧
    (¬clean) ∧
    d ≠ 0) ∧
  (∃ (s : State) (n : Fin 16) (p : StreamPacket),
    let b : Nat := P.lane n.val
    let v : Nat := p.codeViolations.toNat
    let d : Nat := p.disparityErrors.toNat
    let clean : Prop := v = 0 ∧ d = 0
    let k : Nat := (s.laneCam n.val).get!
    let c : Cam := s.cam k
    s.atRest ∧
    s.clocked = true ∧
    s.rdb b Reg.CXP_LANE_STAT_lock = true ∧
    clean ∧
    p.crcOk = true ∧
    s.laneCam n.val = some k ∧
    p.streamId.toNat = s.rd (P.cfeC k) Reg.CFE_CAM_FMT_stream_id ∧
    p.tag.toNat ≠ c.nextTag ∧
    128 ≤ (p.tag.toNat + 256 - c.nextTag) % 256) ∧
  (∃ (s : State) (n : Fin 16) (p : StreamPacket),
    let b : Nat := P.lane n.val
    let v : Nat := p.codeViolations.toNat
    let d : Nat := p.disparityErrors.toNat
    let clean : Prop := v = 0 ∧ d = 0
    let k : Nat := (s.laneCam n.val).get!
    let c : Cam := s.cam k
    s.atRest ∧
    s.clocked = true ∧
    s.rdb b Reg.CXP_LANE_STAT_lock = true ∧
    clean ∧
    p.crcOk = true ∧
    s.laneCam n.val = some k ∧
    p.streamId.toNat = s.rd (P.cfeC k) Reg.CFE_CAM_FMT_stream_id ∧
    p.tag.toNat = c.nextTag ∧
    c.tagsHeld = []) := by
  refine ⟨?_, ?_, ?_, ?_, ?_, ?_, ?_⟩
  · exact ⟨ls 2 (cm 2 (bd 4 1 go2)), 4, by decide +kernel⟩
  · exact ⟨ih go2, 4, by decide +kernel⟩
  · exact ⟨go2, 0, by decide +kernel⟩
  · exact ⟨lk 4 (lk 5 go2), 4, { streamId := 0x3#8, tag := 0x5#8, codeViolations := 0x0#16, disparityErrors := 0x0#16, chars := 0x64#16, crcOk := true }, by decide +kernel⟩
  · exact ⟨lk 4 (lk 5 go2), 4, { streamId := 0x3#8, tag := 0x5#8, codeViolations := 0x0#16, disparityErrors := 0x3#16, chars := 0x64#16, crcOk := false }, by decide +kernel⟩
  · exact ⟨lk 4 (lk 5 (bd 4 1 (bd 5 1 (cm 2 go2)))), 4, { streamId := 0x3#8, tag := 0xf0#8, codeViolations := 0x0#16, disparityErrors := 0x0#16, chars := 0x64#16, crcOk := true }, by decide +kernel⟩
  · exact ⟨sc (fun c => {c with tagsHeld := [], nextTag := 5}) (lk 5 (bd 5 1 (cm 2 go2))), 5, { streamId := 0x3#8, tag := 0x5#8, codeViolations := 0x0#16, disparityErrors := 0x0#16, chars := 0x64#16, crcOk := true }, by decide +kernel⟩

theorem witness_PrbsLocksCountsAndInjects :
  (∃ (s : State) (n : Fin 16),
    let b : Nat := P.lane n.val
    s.atRest ∧
    (s.clocked = false ∨ s.rdb b Reg.CXP_PRBS_CFG_chk_en = false ∨ s.rdb b Reg.CXP_PRBS_CFG_chk_lock = true)) ∧
  (∃ (s : State) (n : Fin 16),
    let b : Nat := P.lane n.val
    let off : Prop := s.rdb b Reg.CXP_PRBS_CFG_gen_en = false
    s.atRest ∧
    s.reaches (b + 80) ∧
    s.rdb b Reg.CXP_LANE_STAT_bound = false ∧
    (¬off)) ∧
  (∃ (s : State) (n : Fin 16),
    let b : Nat := P.lane n.val
    let off : Prop := s.rdb b Reg.CXP_PRBS_CFG_gen_en = false
    let r : Nat := s.rd b Reg.CXP_PRBS_CFG_inj_rate
    s.atRest ∧
    s.clocked = true ∧
    r ≠ 0 ∧
    (¬off)) ∧
  (∃ (s : State) (n : Fin 16),
    let b : Nat := P.lane n.val
    s.atRest ∧
    s.clocked = true ∧
    s.rdb b Reg.CXP_PRBS_CFG_chk_lock = true) ∧
  (∃ (s : State) (n : Fin 16),
    let b : Nat := P.lane n.val
    let off : Prop := s.rdb b Reg.CXP_PRBS_CFG_gen_en = false
    let r : Nat := s.rd b Reg.CXP_PRBS_CFG_inj_rate
    s.atRest ∧
    (s.clocked = false ∨ r = 0 ∨ off)) ∧
  (∃ (s : State) (n : Fin 16),
    let b : Nat := P.lane n.val
    s.atRest ∧
    (s.clocked = false ∨ s.rdb b Reg.CXP_PRBS_CFG_chk_lock = false)) ∧
  (∃ (s : State) (n : Fin 16),
    let b : Nat := P.lane n.val
    s.atRest ∧
    s.clocked = true ∧
    s.rdb b Reg.CXP_PRBS_CFG_chk_en = true ∧
    s.rdb b Reg.CXP_PRBS_CFG_chk_lock = false) ∧
  (∃ (s : State) (n : Fin 16),
    let b : Nat := P.lane n.val
    s.atRest ∧
    s.reaches (b + 80) ∧
    s.rdb b Reg.CXP_LANE_STAT_bound = true) ∧
  (∃ (s : State) (n : Fin 16),
    let b : Nat := P.lane n.val
    let off : Prop := s.rdb b Reg.CXP_PRBS_CFG_gen_en = false
    s.atRest ∧
    s.reaches (b + 80) ∧
    s.rdb b Reg.CXP_LANE_STAT_bound = false ∧
    off) := by
  refine ⟨?_, ?_, ?_, ?_, ?_, ?_, ?_, ?_, ?_⟩
  · exact ⟨pb 1 0 1 1 3 go2, 4, by decide +kernel⟩
  · exact ⟨pb 1 0 1 1 3 go2, 4, by decide +kernel⟩
  · exact ⟨pb 1 0 1 1 3 go2, 4, by decide +kernel⟩
  · exact ⟨pb 1 0 1 1 3 go2, 4, by decide +kernel⟩
  · exact ⟨pb 1 0 1 0 0 go2, 4, by decide +kernel⟩
  · exact ⟨pb 1 0 1 0 0 go2, 4, by decide +kernel⟩
  · exact ⟨pb 1 0 1 0 0 go2, 4, by decide +kernel⟩
  · exact ⟨bd 4 1 (pb 1 0 1 1 3 go2), 4, by decide +kernel⟩
  · exact ⟨go2, 0, by decide +kernel⟩

theorem witness_CamerasBindUnbindAndAreLost_1 :
  (∃ (s : State) (k : Fin 8) (v : Word),
    s.calm ∧
    s.reaches (P.cfeC k.val + 88) ∧
    bits v.toNat 16 16 = 27706 ∧
    bits v.toNat 0 2 = 2 ∧
    s.camState k.val ≠ 0 ∧
    s.camState k.val = 2) ∧
  (∃ (s : State) (k : Fin 8) (ph : BindPhase),
    let all : Prop := (s.camLanes k.val).length ≤ (s.cam k.val).answers.length
    let due : Prop := s.camState k.val = 1 ∧ (ph = BindPhase.discovery ∧ ¬all ∨ ph = BindPhase.speed ∧ all)
    s.live ∧
    due ∧
    (s.cam k.val).req = none) ∧
  (∃ (s : State) (n : BitVec 16) (device : BitVec 16) (m : Fin 16) (k : Fin 8) (conn : BitVec 3),
    let l : List (Nat × Nat × Nat) := (s.cam k.val).answers ++ [(m.val, device.toNat, conn.toNat)]
    let all : Prop := (s.camLanes k.val).length ≤ l.length
    let good : Prop := (∀ (c : Nat), c < (s.camLanes k.val).length → List.countP (fun a => decide (a.snd.snd = c)) l = 1) ∧ ∀ (a : Nat × Nat × Nat), a ∈ l → ∀ (b : Nat × Nat × Nat), b ∈ l → a.snd.fst = b.snd.fst
    n = BitVec.ofNat 16 m.val ∧
    s.live ∧
    s.laneUser m.val = some k.val ∧
    s.camState k.val = 1 ∧
    ((s.cam k.val).answers.any fun a => decide (a.fst = m.val)) = false ∧
    (¬all ∨ good) ∧
    all ∧
    good) ∧
  (∃ (s : State) (k : Fin 8) (n : Fin 16),
    s.live ∧
    n.val ∈ (s.cam k.val).lostLanes ∧
    s.camState k.val = 2) ∧
  (∃ (s : State) (k : Fin 8) (v : Word),
    let st : Nat := s.camState k.val
    let free : Prop := (st = 0 ∨ st = 3) ∧ s.inFault (P.cfeC k.val) = false
    let valid : Prop := alignedGroup (s.rd (P.cfeC k.val) Reg.CFE_CAM_BIND_lanes) = true ∧ (∀ (n : Nat), n ∈ s.camLanes k.val → s.laneUser n = none ∧ s.rdb (P.lane n) Reg.CXP_PRBS_CFG_gen_en = false ∧ s.rdb (P.lane n) Reg.CXP_PRBS_CFG_chk_en = false) ∧ s.rd (P.cfeC k.val) Reg.CFE_CAM_WIN_lat_min < s.rd (P.cfeC k.val) Reg.CFE_CAM_WIN_lat_max ∧ s.camFmt k.val ≠ 7 ∧ 1 ≤ s.camWidth k.val ∧ s.camWidth k.val ≤ 32768
    let p : Nat := (List.drop 0 (P.cfeC k.val :: List.map P.lane (s.camLanes k.val))).head!
    s.calm ∧
    s.reaches (P.cfeC k.val + 88) ∧
    bits v.toNat 16 16 = 27706 ∧
    bits v.toNat 0 2 = 1 ∧
    free ∧
    valid ∧
    s.rd p Reg.BLK_STAT_state = idleHeld) ∧
  (∃ (s : State) (k : Fin 8) (v : Word),
    let st : Nat := s.camState k.val
    let free : Prop := (st = 0 ∨ st = 3) ∧ s.inFault (P.cfeC k.val) = false
    let valid : Prop := alignedGroup (s.rd (P.cfeC k.val) Reg.CFE_CAM_BIND_lanes) = true ∧ (∀ (n : Nat), n ∈ s.camLanes k.val → s.laneUser n = none ∧ s.rdb (P.lane n) Reg.CXP_PRBS_CFG_gen_en = false ∧ s.rdb (P.lane n) Reg.CXP_PRBS_CFG_chk_en = false) ∧ s.rd (P.cfeC k.val) Reg.CFE_CAM_WIN_lat_min < s.rd (P.cfeC k.val) Reg.CFE_CAM_WIN_lat_max ∧ s.camFmt k.val ≠ 7 ∧ 1 ≤ s.camWidth k.val ∧ s.camWidth k.val ≤ 32768
    s.calm ∧
    s.reaches (P.cfeC k.val + 88) ∧
    bits v.toNat 16 16 = 27706 ∧
    bits v.toNat 0 2 = 1 ∧
    free ∧
    (¬valid) ∧
    (s.cam k.val).req = none) ∧
  (∃ (s : State) (k : Fin 8) (v : Word),
    s.calm ∧
    s.reaches (P.cfeC k.val + 88) ∧
    bits v.toNat 16 16 ≠ 27706) := by
  refine ⟨?_, ?_, ?_, ?_, ?_, ?_, ?_⟩
  · exact ⟨cm 2 (bd 4 1 (bd 5 1 go2)), 1, 0x6c3a0002#32, by decide +kernel⟩
  · exact ⟨cm 1 go2, 1, BindPhase.discovery, by decide +kernel⟩
  · exact ⟨an [(4,4,0)] (cm 1 go2), 0x5#16, 0x4#16, 5, 1, 0x1#3, by decide +kernel⟩
  · exact ⟨sc (fun c => {c with lostLanes := [4,5], log := [z0], declared := [3,4,5,6]}) (cm 2 (bd 4 1 (bd 5 1 go2))), 1, 4, by decide +kernel⟩
  · exact ⟨ih (cm 0 go2), 1, 0x6c3a0001#32, by decide +kernel⟩
  · exact ⟨cm 0 go2, 2, 0x6c3a0001#32, by decide +kernel⟩
  · exact ⟨cm 0 go2, 1, 0x6c3b0001#32, by decide +kernel⟩

theorem witness_CamerasBindUnbindAndAreLost_2 :
  (∃ (s : State) (k : Fin 8) (v : Word),
    let st : Nat := s.camState k.val
    let free : Prop := (st = 0 ∨ st = 3) ∧ s.inFault (P.cfeC k.val) = false
    s.calm ∧
    s.reaches (P.cfeC k.val + 88) ∧
    bits v.toNat 16 16 = 27706 ∧
    bits v.toNat 0 2 = 1 ∧
    (¬free)) ∧
  (∃ (s : State) (n : BitVec 16) (device : BitVec 16) (m : Fin 16) (k : Fin 8) (conn : BitVec 3),
    let l : List (Nat × Nat × Nat) := (s.cam k.val).answers ++ [(m.val, device.toNat, conn.toNat)]
    let all : Prop := (s.camLanes k.val).length ≤ l.length
    let good : Prop := (∀ (c : Nat), c < (s.camLanes k.val).length → List.countP (fun a => decide (a.snd.snd = c)) l = 1) ∧ ∀ (a : Nat × Nat × Nat), a ∈ l → ∀ (b : Nat × Nat × Nat), b ∈ l → a.snd.fst = b.snd.fst
    n = BitVec.ofNat 16 m.val ∧
    s.live ∧
    s.laneUser m.val = some k.val ∧
    s.camState k.val = 1 ∧
    ((s.cam k.val).answers.any fun a => decide (a.fst = m.val)) = false ∧
    all ∧
    (¬good)) ∧
  (∃ (s : State) (k : Fin 8) (n : Fin 16),
    s.live ∧
    (¬n.val ∈ (s.cam k.val).lostLanes ∨ s.camState k.val ≠ 2)) ∧
  (∃ (s : State) (k : Fin 8) (v : Word),
    s.calm ∧
    s.reaches (P.cfeC k.val + 88) ∧
    bits v.toNat 16 16 = 27706 ∧
    bits v.toNat 0 2 = 2 ∧
    s.camState k.val = 0) ∧
  (∃ (s : State) (k : Fin 8) (ph : BindPhase),
    let all : Prop := (s.camLanes k.val).length ≤ (s.cam k.val).answers.length
    let due : Prop := s.camState k.val = 1 ∧ (ph = BindPhase.discovery ∧ ¬all ∨ ph = BindPhase.speed ∧ all)
    s.live ∧
    (¬due)) ∧
  (∃ (s : State) (n : BitVec 16) (device : BitVec 16) (m : Fin 16) (k : Fin 8) (conn : BitVec 3),
    let l : List (Nat × Nat × Nat) := (s.cam k.val).answers ++ [(m.val, device.toNat, conn.toNat)]
    let all : Prop := (s.camLanes k.val).length ≤ l.length
    let good : Prop := (∀ (c : Nat), c < (s.camLanes k.val).length → List.countP (fun a => decide (a.snd.snd = c)) l = 1) ∧ ∀ (a : Nat × Nat × Nat), a ∈ l → ∀ (b : Nat × Nat × Nat), b ∈ l → a.snd.fst = b.snd.fst
    n = BitVec.ofNat 16 m.val ∧
    s.live ∧
    s.laneUser m.val = some k.val ∧
    s.camState k.val = 1 ∧
    ((s.cam k.val).answers.any fun a => decide (a.fst = m.val)) = false ∧
    (¬all ∨ good) ∧
    (¬all)) ∧
  (∃ (s : State),
    s.atRest ∧
    s.clocked = false) := by
  refine ⟨?_, ?_, ?_, ?_, ?_, ?_, ?_⟩
  · exact ⟨cm 1 go2, 1, 0x6c3a0001#32, by decide +kernel⟩
  · exact ⟨an [(4,4,0)] (cm 1 go2), 0x5#16, 0x4#16, 5, 1, 0x0#3, by decide +kernel⟩
  · exact ⟨cm 0 go2, 1, 0, by decide +kernel⟩
  · exact ⟨cm 0 go2, 1, 0x6c3a0002#32, by decide +kernel⟩
  · exact ⟨cm 0 go2, 1, BindPhase.speed, by decide +kernel⟩
  · exact ⟨cm 1 go2, 0x4#16, 0x4#16, 4, 1, 0x0#3, by decide +kernel⟩
  · exact ⟨bk (cm 1 go2), by decide +kernel⟩

theorem witness_TriggersAndLinesArePaired_1 :
  (∃ (s : State) (k : Fin 8),
    s.atRest ∧
    s.clocked = true ∧
    (s.camState k.val ≠ 2 ∨ s.oldestGone k.val = false)) ∧
  (∃ (s : State) (who : Requester) (k : Fin 8),
    let owns : Prop := s.rd P.cfe0 Reg.CLAIM_CFE0_owner k.val = 4 ∧ s.rd P.cfe0 Reg.CLAIM_CFE0_unit k.val = if who = Requester.driver then 0 else 1
    let acts : Prop := s.clocked = true ∧ s.works P.cfe0 = true ∧ s.camState k.val = 2 ∧ s.rd (P.cfeC k.val) Reg.CFE_CAM_BLK_trig_src < 2
    let late : Prop := Option.any (fun z => decide (z ≤ s.now) && decide (s.now < z + 1000)) (s.cam k.val).lastTrig = true
    s.calm ∧
    s.reaches (P.cfe0 + 96) ∧
    owns ∧
    acts ∧
    (s.cam k.val).log.length < 64 ∧
    late ∧
    (s.cam k.val).log = []) ∧
  (∃ (s : State) (k : Fin 8) (z : Trig),
    s.atRest ∧
    s.clocked = true ∧
    s.camState k.val = 2 ∧
    s.oldestGone k.val = true ∧
    (s.cam k.val).log = [z]) ∧
  (∃ (s : State) (k : Fin 8) (px : List (BitVec 16)),
    let c : Cam := s.cam k.val
    let broken : Prop := c.mismatch = true ∨ c.lineBroken = true ∨ px.length ≠ s.camWidth k.val * fmtChans (s.camFmt k.val)
    s.atRest ∧
    s.clocked = true ∧
    s.camState k.val = 2 ∧
    broken) ∧
  (∃ (s : State) (who : Requester) (k : Fin 8),
    let owns : Prop := s.rd P.cfe0 Reg.CLAIM_CFE0_owner k.val = 4 ∧ s.rd P.cfe0 Reg.CLAIM_CFE0_unit k.val = if who = Requester.driver then 0 else 1
    let acts : Prop := s.clocked = true ∧ s.works P.cfe0 = true ∧ s.camState k.val = 2 ∧ s.rd (P.cfeC k.val) Reg.CFE_CAM_BLK_trig_src < 2
    let late : Prop := Option.any (fun z => decide (z ≤ s.now) && decide (s.now < z + 1000)) (s.cam k.val).lastTrig = true
    s.calm ∧
    s.reaches (P.cfe0 + 96) ∧
    owns ∧
    acts ∧
    (s.cam k.val).log.length < 64 ∧
    (¬late)) ∧
  (∃ (s : State) (k : Fin 8) (px : List (BitVec 16)),
    let c : Cam := s.cam k.val
    let b : Nat := P.cfeC k.val
    let broken : Prop := c.mismatch = true ∨ c.lineBroken = true ∨ px.length ≠ s.camWidth k.val * fmtChans (s.camFmt k.val)
    let free : Prop := 2 ≤ s.rd b Reg.CFE_CAM_BLK_trig_src
    s.atRest ∧
    s.clocked = true ∧
    s.camState k.val = 2 ∧
    (¬broken) ∧
    free) ∧
  (∃ (s : State) (k : Fin 8) (px : List (BitVec 16)) (z : Trig),
    let c : Cam := s.cam k.val
    let b : Nat := P.cfeC k.val
    let broken : Prop := c.mismatch = true ∨ c.lineBroken = true ∨ px.length ≠ s.camWidth k.val * fmtChans (s.camFmt k.val)
    let free : Prop := 2 ≤ s.rd b Reg.CFE_CAM_BLK_trig_src
    s.atRest ∧
    s.clocked = true ∧
    s.camState k.val = 2 ∧
    (¬broken) ∧
    (¬free) ∧
    c.log = [z] ∧
    s.oldestGone k.val = false ∧
    z.time + 100 * s.rd b Reg.CFE_CAM_WIN_lat_min ≤ s.now) := by
  refine ⟨?_, ?_, ?_, ?_, ?_, ?_, ?_⟩
  · exact ⟨lg [] none 1 go2, 1, by decide +kernel⟩
  · exact ⟨lg [] (some 123456788500) 1 go2, Requester.firmware, 1, by decide +kernel⟩
  · exact ⟨lg [z0] none 1 go2, 1, { count := 44, time := 100, software := true, notSent := false }, by decide +kernel⟩
  · exact ⟨lg [] none 1 go2, 1, [0x1#16], by decide +kernel⟩
  · exact ⟨lg [] none 1 go2, Requester.firmware, 1, by decide +kernel⟩
  · exact ⟨lg [z1] none 2 go2, 1, [0x1#16, 0x2#16, 0x3#16, 0x1ff#16], by decide +kernel⟩
  · exact ⟨lg [z1] none 1 go2, 1, [0x1#16, 0x2#16, 0x3#16, 0x1ff#16], { count := 44, time := 123456789000, software := true, notSent := false }, by decide +kernel⟩

theorem witness_TriggersAndLinesArePaired_2 :
  (∃ (s : State) (who : Requester) (k : Fin 8),
    let owns : Prop := s.rd P.cfe0 Reg.CLAIM_CFE0_owner k.val = 4 ∧ s.rd P.cfe0 Reg.CLAIM_CFE0_unit k.val = if who = Requester.driver then 0 else 1
    s.calm ∧
    s.reaches (P.cfe0 + 96) ∧
    (¬owns)) ∧
  (∃ (s : State) (k : Fin 8) (px : List (BitVec 16)),
    let c : Cam := s.cam k.val
    let b : Nat := P.cfeC k.val
    let broken : Prop := c.mismatch = true ∨ c.lineBroken = true ∨ px.length ≠ s.camWidth k.val * fmtChans (s.camFmt k.val)
    let free : Prop := 2 ≤ s.rd b Reg.CFE_CAM_BLK_trig_src
    s.atRest ∧
    s.clocked = true ∧
    s.camState k.val = 2 ∧
    (¬broken) ∧
    (¬free) ∧
    c.log = []) ∧
  (∃ (s : State) (k : Fin 8) (px : List (BitVec 16)) (z : Trig),
    let c : Cam := s.cam k.val
    let b : Nat := P.cfeC k.val
    let broken : Prop := c.mismatch = true ∨ c.lineBroken = true ∨ px.length ≠ s.camWidth k.val * fmtChans (s.camFmt k.val)
    let free : Prop := 2 ≤ s.rd b Reg.CFE_CAM_BLK_trig_src
    s.atRest ∧
    s.clocked = true ∧
    s.camState k.val = 2 ∧
    (¬broken) ∧
    (¬free) ∧
    c.log = [z] ∧
    s.oldestGone k.val = false ∧
    s.now < z.time + 100 * s.rd b Reg.CFE_CAM_WIN_lat_min) ∧
  (∃ (s : State) (k : Fin 8),
    s.atRest ∧
    s.clocked = true ∧
    s.camState k.val ≠ 2) ∧
  (∃ (s : State) (who : Requester) (k : Fin 8),
    let owns : Prop := s.rd P.cfe0 Reg.CLAIM_CFE0_owner k.val = 4 ∧ s.rd P.cfe0 Reg.CLAIM_CFE0_unit k.val = if who = Requester.driver then 0 else 1
    let acts : Prop := s.clocked = true ∧ s.works P.cfe0 = true ∧ s.camState k.val = 2 ∧ s.rd (P.cfeC k.val) Reg.CFE_CAM_BLK_trig_src < 2
    s.calm ∧
    s.reaches (P.cfe0 + 96) ∧
    owns ∧
    (¬acts)) ∧
  (∃ (s : State),
    s.atRest ∧
    s.clocked = false) ∧
  (∃ (s : State) (who : Requester) (k : Fin 8),
    let owns : Prop := s.rd P.cfe0 Reg.CLAIM_CFE0_owner k.val = 4 ∧ s.rd P.cfe0 Reg.CLAIM_CFE0_unit k.val = if who = Requester.driver then 0 else 1
    let acts : Prop := s.clocked = true ∧ s.works P.cfe0 = true ∧ s.camState k.val = 2 ∧ s.rd (P.cfeC k.val) Reg.CFE_CAM_BLK_trig_src < 2
    s.calm ∧
    s.reaches (P.cfe0 + 96) ∧
    owns ∧
    acts ∧
    64 ≤ (s.cam k.val).log.length) := by
  refine ⟨?_, ?_, ?_, ?_, ?_, ?_, ?_⟩
  · exact ⟨go2, Requester.driver, 1, by decide +kernel⟩
  · exact ⟨lg [] none 1 go2, 1, [0x1#16, 0x2#16, 0x3#16, 0x1ff#16], by decide +kernel⟩
  · exact ⟨(lg [{z0 with time := 123456788000}] none 1 go2).wr (P.cfeC 1) Reg.CFE_CAM_WIN_lat_min 15, 1, [0x1#16, 0x2#16, 0x3#16, 0x1ff#16], { count := 44, time := 123456788000, software := true, notSent := false }, by decide +kernel⟩
  · exact ⟨go2, 1, by decide +kernel⟩
  · exact ⟨ow go2, Requester.firmware, 1, by decide +kernel⟩
  · exact ⟨bk (lg [z1] none 1 go2), by decide +kernel⟩
  · exact ⟨lg (List.replicate 64 z0) none 1 go2, Requester.firmware, 1, by decide +kernel⟩

end WitL

/-! #### Witnesses: line pipelines -/

namespace WitM

def ln (n : Nat) (o : Option OvfCause) : Line := { number := n, count := 1000 + n, dropped := false, time := 5, pixels := [1,200,3,255], ovf := o }
def cm (st : Nat) (s : State) : State := (((((s.wr (P.cfeC 1) Reg.CFE_CAM_STAT_state st).wr (P.cfeC 1) Reg.CFE_CAM_BIND_lanes 0x30).wr (P.cfeC 1) Reg.CFE_CAM_FMT_width 4).wr (P.cfeC 1) Reg.CFE_CAM_BLK_h 4).wr P.replay Reg.REPLAY_GEOM_slots 20 1).wr P.replay Reg.REPLAY_SLOT_z 1 1
def sc (f : Cam → Cam) (s : State) : State := s.setCam 1 (f (s.cam 1))
def pp (f : Pipe → Pipe) (s : State) : State := s.setPipe 1 (f (s.pipe 1))
def ib (l : List Line) (s : State) : State := sc (fun c => {c with inbox := l, fetched := l, staged := l}) (cm 2 s)
def md (v : Nat) (s : State) := (((s.wr (P.lplC 1) Reg.LPL_CAM_CFG_mode v).wr (P.lplC 1) Reg.LPL_TM_BASE_lo 0x20000000).wr P.bank Reg.BANK_CTL_owner 5 195).wr P.bank Reg.BANK_CTL_pwr 2 195
def pf (p n : Nat) (s : State) := s.wr p Reg.BLK_STAT_state n
def psn (w : Nat) (s : State) : State := {s with msys := {s.msys with poison := [w]}}
def stt : Stat := { (default : Stat) with first := 8, counted := 1, lines := 4, colSum := [(0, 10)] }
def sd (l : List Stat) (s : State) := pp (fun p => {p with statsDone := l}) (cm 2 s)
def img (bad : Nat) (s : State) : State := (({ s with mem := Memory.writeBytes s.mem 0x30000000 (le 2 (4 + bad) ++ [1, 8, 0, 0] ++ List.replicate 58 0)}).wr (P.lplC 1) Reg.LPL_PLOAD_SRC_lo 0x30000000)

theorem witness_LinesAreTakenStagedAndOverflow_1 :
  (∃ (s : State) (k : Fin 8) (ovf : Option OvfCause) (i : Nat),
    let c : Cam := s.cam k.val
    let b : Nat := P.lplC k.val
    let inst : Nat := P.lplI (s.rd b Reg.LPL_CAM_CFG_inst)
    let tm : Prop := s.rdb b Reg.LPL_CAM_CFG_mode = true
    let queue : List Line := if tm then c.fetched else c.inbox
    let l : Line := queue.head!
    let ls : List Line := queue.tail
    let cause : Option Nat := if s.inFault inst = true ∨ s.inFault b = true ∨ s.inFault P.replay = true then some 4 else Option.map ovfCode (if l.ovf.isSome = true then l.ovf else ovf)
    let rest : Nat := l.number / s.camH k.val * s.camH k.val + s.camH k.val - l.number
    let o : Nat := cause.get!
    s.calm ∧
    s.clocked = true ∧
    queue = l :: ls ∧
    (s.pipe k.val).dropTo ≤ l.number ∧
    cause = some o ∧
    i < rest) ∧
  (∃ (s : State) (k : Fin 8),
    let c : Cam := s.cam k.val
    let b : Nat := P.lplC k.val
    let tm : Prop := s.rdb b Reg.LPL_CAM_CFG_mode = true
    s.atRest ∧
    (¬tm ∨ c.inbox = [] ∨ s.clocked = false)) ∧
  (∃ (s : State) (i : Fin 4),
    s.atRest ∧
    (s.oldestStaged i.val = none ∨ s.clocked = false)) ∧
  (∃ (s : State) (i : Fin 4) (d : Nat),
    let k : Nat := (s.oldestStaged i.val).get!
    let l : Line := (s.cam k).staged.head!
    let ls : List Line := (s.cam k).staged.tail
    s.atRest ∧
    s.clocked = true ∧
    s.oldestStaged i.val = some k ∧
    (s.cam k).staged = l :: ls ∧
    l.ovf = none ∧
    d ≠ k) ∧
  (∃ (s : State) (k : Fin 8) (ovf : Option OvfCause) (i : Nat),
    let c : Cam := s.cam k.val
    let b : Nat := P.lplC k.val
    let inst : Nat := P.lplI (s.rd b Reg.LPL_CAM_CFG_inst)
    let tm : Prop := s.rdb b Reg.LPL_CAM_CFG_mode = true
    let queue : List Line := if tm then c.fetched else c.inbox
    let l : Line := queue.head!
    let ls : List Line := queue.tail
    let cause : Option Nat := if s.inFault inst = true ∨ s.inFault b = true ∨ s.inFault P.replay = true then some 4 else Option.map ovfCode (if l.ovf.isSome = true then l.ovf else ovf)
    let a : Nat := s.slotAddr k.val (l.number / s.camH k.val * s.camH k.val) + l.number % s.camH k.val * s.linePitch k.val
    s.calm ∧
    s.clocked = true ∧
    queue = l :: ls ∧
    (s.pipe k.val).dropTo ≤ l.number ∧
    cause = none ∧
    (s.pipe k.val).inForce = none ∧
    s.rd b Reg.LPL_PLOAD_STAT_state ≠ 2 ∧
    fmtDepth (s.camFmt k.val) = 8 ∧
    s.rdb b Reg.LPL_CAM_CFG_out16 = false ∧
    l.dropped = false ∧
    s.ringSlots k.val ≠ 0 ∧
    l.pixels.length = s.camWidth k.val * fmtChans (s.camFmt k.val) ∧
    (∀ (v : Nat), v ∈ l.pixels → v < 256) ∧
    i < l.pixels.length ∧
    inDram (a + i) = true ∧
    s.takes a i) ∧
  (∃ (s : State) (k : Fin 8) (i : Nat),
    let c : Cam := s.cam k.val
    let b : Nat := P.lplC k.val
    let tm : Prop := s.rdb b Reg.LPL_CAM_CFG_mode = true
    let l : Line := c.inbox.head!
    let ls : List Line := c.inbox.tail
    let full : Prop := s.tmDepth k.val ≤ (List.filter (fun x => x.ovf.isNone) c.staged).length
    let ours : Prop := s.serves 195 5 = true
    s.atRest ∧
    tm ∧ s.clocked = true ∧
    c.inbox = l :: ls ∧
    (¬full) ∧
    ours ∧
    inBytes (s.camFmt k.val) = 1 ∧
    i < l.pixels.length ∧
    s.takes (s.stageAddr k.val l.number) i) := by
  refine ⟨?_, ?_, ?_, ?_, ?_, ?_⟩
  · exact ⟨pf P.replay 3 (ib [ln 5 none] go2), 1, none, 0, by decide +kernel⟩
  · exact ⟨pf P.replay 3 (ib [ln 5 none] go2), 1, by decide +kernel⟩
  · exact ⟨pf P.replay 3 (ib [ln 5 none] go2), 1, by decide +kernel⟩
  · exact ⟨md 1 (ib [ln 4 none, ln 6 none] go2), 0, 0, by decide +kernel⟩
  · exact ⟨ib [ln 5 none] go2, 1, none, 0, by decide +kernel⟩
  · exact ⟨md 1 (ib [ln 4 none, ln 6 none] go2), 1, 0, by decide +kernel⟩

theorem witness_LinesAreTakenStagedAndOverflow_2 :
  (∃ (s : State) (k : Fin 8) (a : Nat),
    let c : Cam := s.cam k.val
    let b : Nat := P.lplC k.val
    let tm : Prop := s.rdb b Reg.LPL_CAM_CFG_mode = true
    let l : Line := c.inbox.head!
    let ls : List Line := c.inbox.tail
    let full : Prop := s.tmDepth k.val ≤ (List.filter (fun x => x.ovf.isNone) c.staged).length
    let ours : Prop := s.serves 195 5 = true
    s.atRest ∧
    tm ∧ s.clocked = true ∧
    c.inbox = l :: ls ∧
    (¬full) ∧
    ours ∧
    (a < s.stageAddr k.val l.number ∨ s.stageAddr k.val l.number + l.pixels.length * inBytes (s.camFmt k.val) ≤ a)) ∧
  (∃ (s : State) (i : Fin 4),
    let k : Nat := (s.oldestStaged i.val).get!
    let l : Line := (s.cam k).staged.head!
    let ls : List Line := (s.cam k).staged.tail
    s.atRest ∧
    s.clocked = true ∧
    s.oldestStaged i.val = some k ∧
    (s.cam k).staged = l :: ls ∧
    l.ovf ≠ none) ∧
  (∃ (s : State) (k : Fin 8),
    let c : Cam := s.cam k.val
    let b : Nat := P.lplC k.val
    let tm : Prop := s.rdb b Reg.LPL_CAM_CFG_mode = true
    let queue : List Line := if tm then c.fetched else c.inbox
    s.calm ∧
    (queue = [] ∨ s.clocked = false)) ∧
  (∃ (s : State) (k : Fin 8),
    let c : Cam := s.cam k.val
    let b : Nat := P.lplC k.val
    let tm : Prop := s.rdb b Reg.LPL_CAM_CFG_mode = true
    let queue : List Line := if tm then c.fetched else c.inbox
    let l : Line := queue.head!
    let ls : List Line := queue.tail
    s.calm ∧
    s.clocked = true ∧
    queue = l :: ls ∧
    l.number < (s.pipe k.val).dropTo) ∧
  (∃ (s : State) (k : Fin 8),
    let c : Cam := s.cam k.val
    let b : Nat := P.lplC k.val
    let tm : Prop := s.rdb b Reg.LPL_CAM_CFG_mode = true
    let l : Line := c.inbox.head!
    let ls : List Line := c.inbox.tail
    let full : Prop := s.tmDepth k.val ≤ (List.filter (fun x => x.ovf.isNone) c.staged).length
    let ours : Prop := s.serves 195 5 = true
    s.atRest ∧
    tm ∧ s.clocked = true ∧
    c.inbox = l :: ls ∧
    (full ∨ ¬ours)) := by
  refine ⟨?_, ?_, ?_, ?_, ?_⟩
  · exact ⟨md 1 (ib [ln 4 none, ln 6 none] go2), 1, 0, by decide +kernel⟩
  · exact ⟨md 1 (ib [ln 4 (some .refusedWrite), ln 6 none] go2), 0, by decide +kernel⟩
  · exact ⟨go2, 1, by decide +kernel⟩
  · exact ⟨pp (fun p => {p with dropTo := 8}) (ib [ln 7 none] go2), 1, by decide +kernel⟩
  · exact ⟨(md 1 (ib [ln 4 none, ln 6 none] go2)).wr P.bank Reg.BANK_CTL_owner 3 195, 1, by decide +kernel⟩

theorem witness_StatisticsAndParameterLoads_1 :
  (∃ (s : State) (k : Fin 8) (i : Nat),
    let p : Pipe := s.pipe k.val
    let b : Nat := P.lplC k.val
    let size : Nat := 2 ^ s.statLog k.val
    let nxt : Nat := (s.rd b Reg.LPL_STAT_RING_prod + 1) % size
    let full : Prop := nxt = s.rd b Reg.LPL_STAT_CONS_cons % size
    let x : Stat := p.statsDone.head!
    let xs : List Stat := p.statsDone.tail
    let bs : List Byte := statBytes x k.val (fmtChans (s.camFmt k.val)) (s.camWidth k.val) (s.statShift k.val) (s.statPoint k.val) fun i => Config.freeNat (s.draws + i)
    let a : Nat := s.rd2 b Reg.LPL_STAT_BASE_lo Reg.LPL_STAT_BASE_hi + s.rd b Reg.LPL_STAT_RING_prod % size * bs.length
    s.calm ∧
    s.clocked = true ∧
    p.statsDone = x :: xs ∧
    (¬full) ∧
    s.rdb b Reg.LPL_CAM_CFG_stat_evt = false ∧
    i < bs.length ∧
    s.takes a i) ∧
  (∃ (s : State) (k : Fin 8),
    let p : Pipe := s.pipe k.val
    s.calm ∧
    (p.statsDone = [] ∨ s.clocked = false)) ∧
  (∃ (s : State) (k : Fin 8) (ok : Bool),
    let b : Nat := P.lplC k.val
    let a : Nat := s.rd2 b Reg.LPL_PLOAD_SRC_lo Reg.LPL_PLOAD_SRC_hi
    let ch : Nat := fmtChans (s.camFmt k.val)
    let n : Nat := (imageLayout (s.camWidth k.val) ch (unle (s.load (a + 4) 2))).snd.snd.snd
    let r : State × Bool := s.fetch 4 a n
    let good : Prop := ok = true ∧ r.snd = false
    let loads : Prop := s.clocked = true ∧ s.rd b Reg.LPL_PLOAD_STAT_state = 1
    s.calm ∧
    loads ∧
    (¬good)) ∧
  (∃ (s : State) (k : Fin 8) (v : Word),
    let b : Nat := P.lplC k.val
    let st : Nat := s.rd b Reg.LPL_PLOAD_STAT_state
    let bound : Prop := s.camState k.val = 1 ∨ s.camState k.val = 2
    let keyed : Prop := bits v.toNat 16 16 = 31518
    let a : Nat := s.rd2 b Reg.LPL_PLOAD_SRC_lo Reg.LPL_PLOAD_SRC_hi
    let u : State := if keyed ∧ bit v.toNat 0 = true ∧ st = 0 ∧ bound then (s.fetch 4 a 64).fst else s
    let code : Nat := if (s.fetch 4 a 64).snd = true then 5 else u.imageCode k.val a
    s.calm ∧
    s.reaches (P.lplC k.val + 112) ∧
    keyed ∧
    bit v.toNat 0 = true ∧
    (st ≠ 0 ∨ ¬bound ∨ code ≠ 0)) ∧
  (∃ (s : State) (k : Fin 8) (v : Word),
    let b : Nat := P.lplC k.val
    let st : Nat := s.rd b Reg.LPL_PLOAD_STAT_state
    let bound : Prop := s.camState k.val = 1 ∨ s.camState k.val = 2
    let keyed : Prop := bits v.toNat 16 16 = 31518
    let a : Nat := s.rd2 b Reg.LPL_PLOAD_SRC_lo Reg.LPL_PLOAD_SRC_hi
    let u : State := if keyed ∧ bit v.toNat 0 = true ∧ st = 0 ∧ bound then (s.fetch 4 a 64).fst else s
    let code : Nat := if (s.fetch 4 a 64).snd = true then 5 else u.imageCode k.val a
    s.calm ∧
    s.reaches (P.lplC k.val + 112) ∧
    keyed ∧
    bit v.toNat 0 = true ∧
    st = 0 ∧
    bound ∧
    code = 0) ∧
  (∃ (s : State) (k : Fin 8),
    let p : Pipe := s.pipe k.val
    let b : Nat := P.lplC k.val
    let size : Nat := 2 ^ s.statLog k.val
    let nxt : Nat := (s.rd b Reg.LPL_STAT_RING_prod + 1) % size
    let full : Prop := nxt = s.rd b Reg.LPL_STAT_CONS_cons % size
    let x : Stat := p.statsDone.head!
    let xs : List Stat := p.statsDone.tail
    s.calm ∧
    s.clocked = true ∧
    p.statsDone = x :: xs ∧
    full) := by
  refine ⟨?_, ?_, ?_, ?_, ?_, ?_⟩
  · exact ⟨sd [stt] go2, 1, 0, by decide +kernel⟩
  · exact ⟨psn (0x30000000/8) (cm 2 ((img 0 go2).wr (P.lplC 1) Reg.LPL_PLOAD_STAT_state 1)), 1, by decide +kernel⟩
  · exact ⟨psn (0x30000000/8) (cm 2 ((img 0 go2).wr (P.lplC 1) Reg.LPL_PLOAD_STAT_state 1)), 1, true, by decide +kernel⟩
  · exact ⟨go2, 1, 0x7b1e0001#32, by decide +kernel⟩
  · exact ⟨cm 2 (img 0 go2), 1, 0x7b1e0001#32, by decide +kernel⟩
  · exact ⟨sd [stt] (go2.wr (P.lplC 1) Reg.LPL_STAT_CONS_cons 1), 1, by decide +kernel⟩

theorem witness_StatisticsAndParameterLoads_2 :
  (∃ (s : State) (k : Fin 8) (ok : Bool),
    let b : Nat := P.lplC k.val
    let a : Nat := s.rd2 b Reg.LPL_PLOAD_SRC_lo Reg.LPL_PLOAD_SRC_hi
    let ch : Nat := fmtChans (s.camFmt k.val)
    let n : Nat := (imageLayout (s.camWidth k.val) ch (unle (s.load (a + 4) 2))).snd.snd.snd
    let r : State × Bool := s.fetch 4 a n
    let good : Prop := ok = true ∧ r.snd = false
    let loads : Prop := s.clocked = true ∧ s.rd b Reg.LPL_PLOAD_STAT_state = 1
    s.calm ∧
    loads ∧
    good) ∧
  (∃ (s : State) (k : Fin 8) (v : Word),
    let keyed : Prop := bits v.toNat 16 16 = 31518
    s.calm ∧
    s.reaches (P.lplC k.val + 112) ∧
    (¬keyed)) ∧
  (∃ (s : State) (k : Fin 8),
    let b : Nat := P.lplC k.val
    let loads : Prop := s.clocked = true ∧ s.rd b Reg.LPL_PLOAD_STAT_state = 1
    s.calm ∧
    (¬loads)) ∧
  (∃ (s : State) (k : Fin 8) (v : Word),
    let keyed : Prop := bits v.toNat 16 16 = 31518
    s.calm ∧
    s.reaches (P.lplC k.val + 112) ∧
    keyed ∧
    bit v.toNat 0 = false) ∧
  (∃ (s : State) (k : Fin 8),
    let p : Pipe := s.pipe k.val
    let b : Nat := P.lplC k.val
    let size : Nat := 2 ^ s.statLog k.val
    let nxt : Nat := (s.rd b Reg.LPL_STAT_RING_prod + 1) % size
    let full : Prop := nxt = s.rd b Reg.LPL_STAT_CONS_cons % size
    let x : Stat := p.statsDone.head!
    let xs : List Stat := p.statsDone.tail
    s.calm ∧
    s.clocked = true ∧
    p.statsDone = x :: xs ∧
    (¬full) ∧
    s.rdb b Reg.LPL_CAM_CFG_stat_evt = true) := by
  refine ⟨?_, ?_, ?_, ?_, ?_⟩
  · exact ⟨cm 2 ((img 0 go2).wr (P.lplC 1) Reg.LPL_PLOAD_STAT_state 1), 1, true, by decide +kernel⟩
  · exact ⟨go2, 1, 0x1#32, by decide +kernel⟩
  · exact ⟨go2, 1, by decide +kernel⟩
  · exact ⟨go2, 1, 0x7b1e0000#32, by decide +kernel⟩
  · exact ⟨sd [{stt with counted := 0}, stt] (go2.wr (P.lplC 1) Reg.LPL_CAM_CFG_stat_evt 1), 1, by decide +kernel⟩

end WitM

/-! #### Witnesses: encoders, line triggers -/

namespace WitN

def ef (s : State) : State := ((((s.wr P.enc Reg.ENC_STAT_flt 1 1).wr P.enc Reg.ENC_STAT_cab 1 1).wr P.enc Reg.ENC_STAT_stopped 1 0).wr P.enc Reg.ENC_CFG_avg 0 1).wr P.enc Reg.ENC_STAT_stopped 0 1
def ab (s : State) : State := { s with encs := [(0, { (default : Enc) with a := true, b := true }),(3, { (default : Enc) with a := true, b := false, intervals := [3,4] })] }
def lw (s : State) : State := ((s.wr P.ltg Reg.LTG_STAT_state 1 1).wr P.ltg Reg.LTG_START_start 500 1).wr P.enc Reg.ENC_CNT_count 0xfffffff0 0
def st (b n : Nat) (s : State) : State := s.wr b Reg.BLK_STAT_state n
def ar (start src : Nat) (s : State) : State := (((((((s.wr P.ltg Reg.LTG_CFG_start start 1).wr P.ltg Reg.LTG_CFG_src src 1).wr P.ltg Reg.LTG_CFG_cams 6 1).wr P.ltg Reg.LTG_SPC_S_lo 0x34000 1).wr P.ltg Reg.LTG_START_start 500 1).wr P.ltg Reg.LTG_CFG_fo_en 1 1).wr P.ltg Reg.LTG_CFG_fo_ch 4 1).wr P.fio Reg.FIO_CH_CFG_dir 1 4
def own (s : State) : State := (((((s.wr P.cfe0 Reg.CLAIM_CFE0_owner 3 1).wr P.cfe0 Reg.CLAIM_CFE0_unit 1 1).wr P.fio Reg.CLAIM_FIO_owner 3 4).wr P.fio Reg.CLAIM_FIO_unit 1 4).wr P.enc Reg.CLAIM_ENC_owner 3 2).wr P.enc Reg.CLAIM_ENC_unit 1 2
def dm (s : State) : State := s.setChan 4 {s.chan 4 with demand := true}
def on_ (n : Nat) (s : State) : State := (s.wr P.ltg Reg.LTG_STAT_state n 1).wr P.ltg Reg.LTG_CMP_cmp_lo 0x10000 1
def ct (s : State) : State := s.wr P.enc Reg.ENC_CNT_count 600 0
def rn (s : State) : State := (s.wr P.enc Reg.TMR_CTL_run 1 2).wr P.enc Reg.TMR_CTL_evt 1 2

theorem witness_EncodersCountLatchAndFault_1 :
  (∃ (s : State) (e : Fin 4) (a : Bool) (b : Bool) (ill : BitVec 8) (d : Nat),
    let x : Enc := s.encOf e.val
    let both : Prop := x.a ≠ a ∧ x.b ≠ b
    let fault : Prop := max 1 (s.rd P.enc Reg.ENC_CFG_ill_lim e.val) ≤ ill.toNat ∧ s.rdb P.enc Reg.ENC_STAT_flt e.val = false
    s.calm ∧
    s.encActs = true ∧
    d ≠ e.val ∧
    both ∧
    fault) ∧
  (∃ (s : State),
    s.atRest ∧
    s.encActs = true) ∧
  (∃ (s : State) (e : Fin 4) (p : Fin 3),
    let none' : Prop := bit (s.rd P.enc Reg.ENC_STAT_cab e.val) p.val = true ∨ p = 2 ∧ s.zRouted e.val = false
    s.calm ∧
    s.encActs = true ∧
    (¬none') ∧
    s.rdb P.enc Reg.ENC_STAT_flt e.val = false) ∧
  (∃ (s : State) (e : Fin 4) (l : Nat),
    let waits : Nat → Prop := fun l => s.rd P.ltg Reg.LTG_STAT_state l = 1 ∧ s.rd P.ltg Reg.LTG_CFG_enc l = e.val ∧ s.ltgActs = true
    let hit : Nat → Prop := fun l => s.ltgTimeMode l = false ∧ s.rdb P.enc Reg.ENC_STAT_dir e.val = false ∧ (2 ^ 32 - s.rd P.ltg Reg.LTG_START_start l) % 2 ^ 32 < 2 ^ 31
    s.calm ∧
    s.encActs = true ∧
    s.zRouted e.val = true ∧
    (∀ (k : Nat), k ∈ List.range 8 → s.owner (pathRes k) ≠ 3) ∧
    l < 4 ∧
    waits l ∧
    hit l) ∧
  (∃ (s : State) (e : Fin 4) (a : Bool) (b : Bool),
    let x : Enc := s.encOf e.val
    let mode : Nat := s.rd P.enc Reg.ENC_CFG_mode e.val
    let onA : Prop := x.a ≠ a ∧ x.b = b
    let onB : Prop := x.a = a ∧ x.b ≠ b
    let counts : Prop := onA ∧ ¬(mode = 2 ∧ a = false) ∨ onB ∧ mode ≠ 1 ∧ mode ≠ 2
    s.calm ∧
    s.encActs = true ∧
    counts ∧
    s.rdb P.enc Reg.ENC_STAT_stopped e.val = true) ∧
  (∃ (s : State) (e : Fin 4),
    s.calm ∧
    s.encActs = true ∧
    s.zRouted e.val = false) ∧
  (∃ (s : State),
    s.atRest ∧
    s.reaches (P.enc + 192)) ∧
  (∃ (s : State) (e : Fin 4) (agrees : Bool) (ill : BitVec 8),
    let ok : Prop := s.rdb P.enc Reg.ENC_STAT_flt e.val = true ∧ agrees = false ∧ ill.toNat < max 1 (s.rd P.enc Reg.ENC_CFG_ill_lim e.val)
    s.calm ∧
    s.reaches (P.enc + 68 + 32 * e.val) ∧
    ok) ∧
  (∃ (s : State) (e : Fin 4) (l : Nat),
    let waits : Nat → Prop := fun l => s.rd P.ltg Reg.LTG_STAT_state l = 1 ∧ s.rd P.ltg Reg.LTG_CFG_enc l = e.val ∧ s.ltgActs = true
    let hit : Nat → Prop := fun l => s.ltgTimeMode l = false ∧ s.rdb P.enc Reg.ENC_STAT_dir e.val = false ∧ (2 ^ 32 - s.rd P.ltg Reg.LTG_START_start l) % 2 ^ 32 < 2 ^ 31
    s.calm ∧
    s.encActs = true ∧
    s.zRouted e.val = true ∧
    l < 4 ∧
    (¬waits l) ∧
    (∀ (l : Nat), l < 4 → waits l → ¬hit l) ∧
    (∀ (k : Nat), k ∈ List.range 8 → s.owner (pathRes k) ≠ 3)) ∧
  (∃ (s : State) (e : Fin 4),
    let used : Prop := (∃ l, l ∈ List.range 4 ∧ s.rd P.ltg Reg.LTG_STAT_state l ≠ 0 ∧ s.rd P.ltg Reg.LTG_CFG_enc l = e.val) ∨ ∃ g, g ∈ List.range 32 ∧ s.rd P.rtu Reg.RTU_GRP_CFG_armed g = 1 ∧ s.rd P.rtu Reg.RTU_GRP_CFG_enc g = e.val
    s.atRest ∧
    s.reaches (P.enc + 76 + 32 * e.val) ∧
    (¬used)) := by
  refine ⟨?_, ?_, ?_, ?_, ?_, ?_, ?_, ?_, ?_, ?_⟩
  · exact ⟨st P.ltg 3 (lw (ab go2)), 0, false, false, 0x1#8, 1, by decide +kernel⟩
  · exact ⟨st P.ltg 3 (lw (ab go2)), by decide +kernel⟩
  · exact ⟨(lw (ab go2)).wr P.ltg Reg.LTG_START_start 0 1, 0, 1, by decide +kernel⟩
  · exact ⟨(lw (ab go2)).wr P.ltg Reg.LTG_START_start 0 1, 0, 1, by decide +kernel⟩
  · exact ⟨st P.ltg 3 (lw (ab go2)), 3, true, true, by decide +kernel⟩
  · exact ⟨st P.ltg 3 (lw (ab go2)), 3, by decide +kernel⟩
  · exact ⟨go2, by decide +kernel⟩
  · exact ⟨ef (ab go2), 1, false, 0x0#8, by decide +kernel⟩
  · exact ⟨go2, 0, 0, by decide +kernel⟩
  · exact ⟨go2, 0, by decide +kernel⟩

theorem witness_EncodersCountLatchAndFault_2 :
  (∃ (s : State) (e : Fin 4),
    let used : Prop := (∃ l, l ∈ List.range 4 ∧ s.rd P.ltg Reg.LTG_STAT_state l ≠ 0 ∧ s.rd P.ltg Reg.LTG_CFG_enc l = e.val) ∨ ∃ g, g ∈ List.range 32 ∧ s.rd P.rtu Reg.RTU_GRP_CFG_armed g = 1 ∧ s.rd P.rtu Reg.RTU_GRP_CFG_enc g = e.val
    s.atRest ∧
    s.reaches (P.enc + 76 + 32 * e.val) ∧
    used) ∧
  (∃ (s : State) (e : Fin 4) (a : Bool) (b : Bool),
    let x : Enc := s.encOf e.val
    let mode : Nat := s.rd P.enc Reg.ENC_CFG_mode e.val
    let both : Prop := x.a ≠ a ∧ x.b ≠ b
    let onA : Prop := x.a ≠ a ∧ x.b = b
    let onB : Prop := x.a = a ∧ x.b ≠ b
    let counts : Prop := onA ∧ ¬(mode = 2 ∧ a = false) ∨ onB ∧ mode ≠ 1 ∧ mode ≠ 2
    s.calm ∧
    s.encActs = true ∧
    (¬counts) ∧
    (¬both)) ∧
  (∃ (s : State) (e : Fin 4) (p : Fin 3),
    let none' : Prop := bit (s.rd P.enc Reg.ENC_STAT_cab e.val) p.val = true ∨ p = 2 ∧ s.zRouted e.val = false
    s.calm ∧
    s.encActs = true ∧
    none') ∧
  (∃ (s : State) (e : Fin 4) (p : Fin 3),
    let none' : Prop := bit (s.rd P.enc Reg.ENC_STAT_cab e.val) p.val = true ∨ p = 2 ∧ s.zRouted e.val = false
    s.calm ∧
    s.encActs = true ∧
    (¬none') ∧
    s.rdb P.enc Reg.ENC_STAT_flt e.val = true) ∧
  (∃ (s : State) (e : Fin 4) (l : Nat),
    let waits : Nat → Prop := fun l => s.rd P.ltg Reg.LTG_STAT_state l = 1 ∧ s.rd P.ltg Reg.LTG_CFG_enc l = e.val ∧ s.ltgActs = true
    let hit : Nat → Prop := fun l => s.ltgTimeMode l = false ∧ s.rdb P.enc Reg.ENC_STAT_dir e.val = false ∧ (2 ^ 32 - s.rd P.ltg Reg.LTG_START_start l) % 2 ^ 32 < 2 ^ 31
    s.calm ∧
    s.encActs = true ∧
    s.zRouted e.val = true ∧
    (∀ (l : Nat), l < 4 → waits l → ¬hit l) ∧
    (∀ (k : Nat), k ∈ List.range 8 → s.owner (pathRes k) ≠ 3) ∧
    l < 4 ∧
    waits l ∧
    (¬hit l)) ∧
  (∃ (s : State) (e : Fin 4) (agrees : Bool) (ill : BitVec 8),
    let ok : Prop := s.rdb P.enc Reg.ENC_STAT_flt e.val = true ∧ agrees = false ∧ ill.toNat < max 1 (s.rd P.enc Reg.ENC_CFG_ill_lim e.val)
    s.calm ∧
    s.reaches (P.enc + 68 + 32 * e.val) ∧
    (¬ok)) ∧
  (∃ (s : State) (e : Fin 4) (a : Bool) (b : Bool) (ill : BitVec 8),
    let x : Enc := s.encOf e.val
    let both : Prop := x.a ≠ a ∧ x.b ≠ b
    let fault : Prop := max 1 (s.rd P.enc Reg.ENC_CFG_ill_lim e.val) ≤ ill.toNat ∧ s.rdb P.enc Reg.ENC_STAT_flt e.val = false
    s.calm ∧
    s.encActs = true ∧
    both ∧
    (¬fault)) ∧
  (∃ (s : State) (e : Fin 4) (a : Bool) (b : Bool),
    let x : Enc := s.encOf e.val
    let mode : Nat := s.rd P.enc Reg.ENC_CFG_mode e.val
    let onA : Prop := x.a ≠ a ∧ x.b = b
    let onB : Prop := x.a = a ∧ x.b ≠ b
    let counts : Prop := onA ∧ ¬(mode = 2 ∧ a = false) ∨ onB ∧ mode ≠ 1 ∧ mode ≠ 2
    s.calm ∧
    s.encActs = true ∧
    counts ∧
    s.rdb P.enc Reg.ENC_STAT_stopped e.val = false ∧
    s.rd P.enc Reg.ENC_CFG_avg e.val = 0) ∧
  (∃ (s : State),
    s.calm ∧
    s.encActs = false) := by
  refine ⟨?_, ?_, ?_, ?_, ?_, ?_, ?_, ?_, ?_⟩
  · exact ⟨lw (ef (ab go2)), 0, by decide +kernel⟩
  · exact ⟨st P.ltg 3 (lw (ab go2)), 0, true, true, by decide +kernel⟩
  · exact ⟨go2, 3, 2, by decide +kernel⟩
  · exact ⟨ef (ab go2), 1, 1, by decide +kernel⟩
  · exact ⟨lw (ef (ab go2)), 0, 1, by decide +kernel⟩
  · exact ⟨st P.enc 3 (ef go2), 0, true, 0x0#8, by decide +kernel⟩
  · exact ⟨go2, 0, true, true, 0x0#8, by decide +kernel⟩
  · exact ⟨ef (ab go2), 1, false, true, by decide +kernel⟩
  · exact ⟨st P.enc 3 (ef go2), by decide +kernel⟩

theorem witness_LineTriggersArmHitAndDisarm_1 :
  (∃ (s : State) (l : Fin 4),
    let stays : Prop := s.rd P.ltg Reg.LTG_STAT_state l.val ≠ 0 ∨ s.rd P.ltg Reg.BLK_STAT_state = 3
    s.calm ∧
    s.reaches (P.ltg + 84 + 64 * l.val) ∧
    stays) ∧
  (∃ (s : State) (l : Fin 4) (k : Nat),
    s.atRest ∧
    s.reaches (P.ltg + 84 + 64 * l.val) ∧
    s.rd P.ltg Reg.LTG_STAT_state l.val ≠ 0 ∧
    k < 8) ∧
  (∃ (s : State) (l : Fin 4) (n : Nat),
    s.atRest ∧
    s.reaches (P.ltg + 84 + 64 * l.val) ∧
    s.rd P.ltg Reg.LTG_STAT_state l.val ≠ 0 ∧
    n < 16 ∧
    s.ltgOwns l.val (chanRes n) = true) ∧
  (∃ (s : State) (l : Fin 4),
    let e : Nat := s.rd P.ltg Reg.LTG_CFG_enc l.val
    let due : Prop := (s.encCount e + 2 ^ 32 - (s.ltgCmp l.val + 65535) / 65536 % 2 ^ 32) % 2 ^ 32 < 2 ^ 31
    let hits : Prop := s.ltgActs = true ∧ s.rd P.ltg Reg.LTG_STAT_state l.val = 2 ∧ s.rdb P.ltg Reg.LTG_CFG_src l.val = false ∧ s.rdb P.enc Reg.ENC_STAT_dir e = false ∧ due
    let own : Prop := s.rdb P.ltg Reg.LTG_CFG_fo_en l.val = true ∧ s.ltgOwns l.val (chanRes (s.rd P.ltg Reg.LTG_CFG_fo_ch l.val)) = true
    let n : Nat := s.rd P.ltg Reg.LTG_CFG_fo_ch l.val
    s.atRest ∧
    hits ∧
    own ∧
    n < 16 ∧
    (s.chan n).demand = true) ∧
  (∃ (s : State) (k : Fin 8),
    let runs : Prop := s.encActs = true ∧ s.rdb P.enc Reg.TMR_CTL_run k.val = true
    s.calm ∧
    (¬runs)) ∧
  (∃ (s : State) (l : Fin 4),
    let st : Nat := s.rd P.ltg Reg.LTG_START_start l.val
    let cnt : Nat := s.encCount (s.rd P.ltg Reg.LTG_CFG_enc l.val)
    let how : Nat := s.rd P.ltg Reg.LTG_CFG_start l.val
    let timed : Prop := s.rdb P.ltg Reg.LTG_CFG_src l.val = true
    let range : Prop := s.ltgS l.val < 65536 ∨ 70368744177664 < s.ltgS l.val ∨ how = 1 ∧ (st = 0 ∨ 2 ^ 31 ≤ st) ∨ how = 2 ∧ 2 ^ 31 ≤ st
    let bad : Nat := if timed then 0 else if range then 3 else if how = 2 then if s.zRouted (s.rd P.ltg Reg.LTG_CFG_enc l.val) = false then 4 else 0 else if how = 1 then 0 else if (cnt + 2 ^ 32 - st % 2 ^ 32) % 2 ^ 32 < 2 ^ 31 then 2 else 0
    let free : Prop := ∀ (r : Res), r ∈ s.ltgRes l.val → s.permits r 3 = true ∧ s.owner r = 0
    let code : Nat := if bad ≠ 0 then bad else if free then 0 else 1
    let stays : Prop := s.rd P.ltg Reg.LTG_STAT_state l.val ≠ 0 ∨ s.rd P.ltg Reg.BLK_STAT_state = 3
    s.calm ∧
    s.reaches (P.ltg + 84 + 64 * l.val) ∧
    (¬stays) ∧
    code = 0 ∧
    (¬timed) ∧
    how ≠ 2) ∧
  (∃ (s : State) (l : Fin 4),
    s.atRest ∧
    s.reaches (P.ltg + 84 + 64 * l.val) ∧
    s.rd P.ltg Reg.LTG_STAT_state l.val = 0) ∧
  (∃ (s : State) (l : Fin 4),
    let e : Nat := s.rd P.ltg Reg.LTG_CFG_enc l.val
    let due : Prop := (s.encCount e + 2 ^ 32 - (s.ltgCmp l.val + 65535) / 65536 % 2 ^ 32) % 2 ^ 32 < 2 ^ 31
    let hits : Prop := s.ltgActs = true ∧ s.rd P.ltg Reg.LTG_STAT_state l.val = 2 ∧ s.rdb P.ltg Reg.LTG_CFG_src l.val = false ∧ s.rdb P.enc Reg.ENC_STAT_dir e = false ∧ due
    s.atRest ∧
    (¬hits)) := by
  refine ⟨?_, ?_, ?_, ?_, ?_, ?_, ?_, ?_⟩
  · exact ⟨dm (on_ 2 (own (ar 0 0 (ct go2)))), 1, by decide +kernel⟩
  · exact ⟨dm (on_ 2 (own (ar 0 0 (ct go2)))), 1, 4, by decide +kernel⟩
  · exact ⟨dm (on_ 2 (own (ar 0 0 (ct go2)))), 1, 4, by decide +kernel⟩
  · exact ⟨dm (on_ 2 (own (ar 0 0 (ct go2)))), 1, by decide +kernel⟩
  · exact ⟨dm (on_ 2 (own (ar 0 0 (ct go2)))), 1, by decide +kernel⟩
  · exact ⟨ar 0 0 go2, 1, by decide +kernel⟩
  · exact ⟨ar 0 0 go2, 1, by decide +kernel⟩
  · exact ⟨ar 0 0 go2, 1, by decide +kernel⟩

theorem witness_LineTriggersArmHitAndDisarm_2 :
  (∃ (s : State) (l : Fin 4),
    let st : Nat := s.rd P.ltg Reg.LTG_START_start l.val
    let cnt : Nat := s.encCount (s.rd P.ltg Reg.LTG_CFG_enc l.val)
    let how : Nat := s.rd P.ltg Reg.LTG_CFG_start l.val
    let timed : Prop := s.rdb P.ltg Reg.LTG_CFG_src l.val = true
    let range : Prop := s.ltgS l.val < 65536 ∨ 70368744177664 < s.ltgS l.val ∨ how = 1 ∧ (st = 0 ∨ 2 ^ 31 ≤ st) ∨ how = 2 ∧ 2 ^ 31 ≤ st
    let bad : Nat := if timed then 0 else if range then 3 else if how = 2 then if s.zRouted (s.rd P.ltg Reg.LTG_CFG_enc l.val) = false then 4 else 0 else if how = 1 then 0 else if (cnt + 2 ^ 32 - st % 2 ^ 32) % 2 ^ 32 < 2 ^ 31 then 2 else 0
    let free : Prop := ∀ (r : Res), r ∈ s.ltgRes l.val → s.permits r 3 = true ∧ s.owner r = 0
    let code : Nat := if bad ≠ 0 then bad else if free then 0 else 1
    let stays : Prop := s.rd P.ltg Reg.LTG_STAT_state l.val ≠ 0 ∨ s.rd P.ltg Reg.BLK_STAT_state = 3
    s.calm ∧
    s.reaches (P.ltg + 84 + 64 * l.val) ∧
    (¬stays) ∧
    code ≠ 0 ∧
    code ≠ 1) ∧
  (∃ (s : State) (l : Fin 4) (n : Nat),
    s.atRest ∧
    (s.ltgOwns l.val (chanRes n) = false ∨ 16 ≤ n)) ∧
  (∃ (s : State) (k : Fin 8),
    let o : Nat := s.rd P.enc Reg.CLAIM_ENC_owner k.val
    let runs : Prop := s.encActs = true ∧ s.rdb P.enc Reg.TMR_CTL_run k.val = true
    s.calm ∧
    runs ∧
    o ≠ 3 ∧
    s.rdb P.enc Reg.TMR_CTL_evt k.val = true) ∧
  (∃ (s : State) (k : Fin 8),
    let o : Nat := s.rd P.enc Reg.CLAIM_ENC_owner k.val
    let l : Nat := s.rd P.enc Reg.CLAIM_ENC_unit k.val
    let runs : Prop := s.encActs = true ∧ s.rdb P.enc Reg.TMR_CTL_run k.val = true
    s.calm ∧
    runs ∧
    o = 3 ∧
    l < 4 ∧
    s.ltgActs = true ∧
    s.rd P.ltg Reg.LTG_STAT_state l = 2 ∧
    s.rdb P.ltg Reg.LTG_CFG_src l = true) ∧
  (∃ (s : State) (l : Fin 4),
    let e : Nat := s.rd P.ltg Reg.LTG_CFG_enc l.val
    let due : Prop := (s.encCount e + 2 ^ 32 - (s.ltgCmp l.val + 65535) / 65536 % 2 ^ 32) % 2 ^ 32 < 2 ^ 31
    let hits : Prop := s.ltgActs = true ∧ s.rd P.ltg Reg.LTG_STAT_state l.val = 2 ∧ s.rdb P.ltg Reg.LTG_CFG_src l.val = false ∧ s.rdb P.enc Reg.ENC_STAT_dir e = false ∧ due
    s.atRest ∧
    hits ∧
    (∀ (k : Nat), k ∈ s.ltgCams l.val → s.ltgOwns l.val (pathRes k) = false)) ∧
  (∃ (s : State) (k : Fin 8),
    let o : Nat := s.rd P.enc Reg.CLAIM_ENC_owner k.val
    let l : Nat := s.rd P.enc Reg.CLAIM_ENC_unit k.val
    let runs : Prop := s.encActs = true ∧ s.rdb P.enc Reg.TMR_CTL_run k.val = true
    s.calm ∧
    runs ∧
    o = 3 ∧
    (s.ltgActs = false ∨ s.rd P.ltg Reg.LTG_STAT_state l ≠ 2 ∨ s.rdb P.ltg Reg.LTG_CFG_src l = false)) ∧
  (∃ (s : State) (k : Fin 8),
    let o : Nat := s.rd P.enc Reg.CLAIM_ENC_owner k.val
    let runs : Prop := s.encActs = true ∧ s.rdb P.enc Reg.TMR_CTL_run k.val = true
    s.calm ∧
    runs ∧
    o ≠ 3 ∧
    s.rdb P.enc Reg.TMR_CTL_evt k.val = false) := by
  refine ⟨?_, ?_, ?_, ?_, ?_, ?_, ?_⟩
  · exact ⟨go2, 0, by decide +kernel⟩
  · exact ⟨go2, 0, 0, by decide +kernel⟩
  · exact ⟨rn go2, 2, by decide +kernel⟩
  · exact ⟨rn (on_ 2 (own (ar 0 1 go2))), 2, by decide +kernel⟩
  · exact ⟨on_ 2 (ct (ar 1 0 go2)), 1, by decide +kernel⟩
  · exact ⟨rn (on_ 2 (own (ar 0 0 go2))), 2, by decide +kernel⟩
  · exact ⟨(rn go2).wr P.enc Reg.TMR_CTL_evt 0 2, 2, by decide +kernel⟩

end WitN

/-! #### Witnesses: the Reject Timing Unit -/

namespace WitU

def vd : Verdict := { (default : Verdict) with cls := 3, conf := 700, reject := true, digest := [1,2,3] }
def e0 : RtuEntry := { (default : RtuEntry) with target := 100, group := 3, state := 1, ctx := 2, job := some 5, actFirst := 41, actLast := 43, key := 7, lenCt := 10 }
def er : RtuEntry := { e0 with group := 4 }
def ents : List (Nat × RtuEntry) := [(0, e0), (1, { e0 with decision := some true, verdict := some vd, vflags := 6, staged := true }), (2, { e0 with nv := true, failPass := true, multi := true }),
  (3, {e0 with state := 2, staged := true, tentValid := true, verdict := some vd, vflags := 2}), (4, {e0 with state := 3, staged := true}), (5, {er with state := 1}), (6, {er with state := 2, launchAt := some 3000, actFirst := 42, actLast := 51}), (7, {er with state := 2, launchAt := some 3000, actFirst := 55, actLast := 56, committed := true}), (8, {e0 with state := 2, committed := true, confirmed := true, verdict := some vd, key := 9}), (9, {er with state := 4, committed := true, acted := true, key := 11}), (10, {e0 with state := 3}), (11, {er with state := 3, launchAt := some 4000, actFirst := 55, actLast := 56})]
def g : State := Id.run do
  let mut s : State := { go with rtu := { go.rtu with entries := ents, pulses := [(3,[500,600]),(4,[900]),(5, [700,300])], audits := [(9, { (default : Audit) with left := 1, admitted := true }),(7, { (default : Audit) with left := 3})], slotTimes := [(4,[(3000, 9),(4000,10)])], slotNext := [(4, 2)] } }
  for q in [3,4] do
    s := ((((s.wr P.rtu Reg.RTU_GRP_ACT_n_act 12 q).wr P.rtu Reg.RTU_GRP_CFG_enc 2 q).wr P.rtu Reg.RTU_GRP_ACT_act0 40 q).wr P.rtu Reg.RTU_GRP_CFG_ch0 3 q).wr P.rtu Reg.RTU_GRP_ADV_adv 2 q
  s := ((((((s.wr P.rtu Reg.RTU_GRP_CFG_kind 1 4).wr P.rtu Reg.RTU_GRP_REM_nslot 5 4).wr P.rtu Reg.RTU_GRP_REM_slot0 8 4).wr P.rtu Reg.RTU_GRP_REM_grid 10 4).wr P.rtu Reg.RTU_GRP_FRM_bmp_off 50 4).wr P.rtu Reg.RTU_GRP_CFG_port 1 4)
  for i in List.range 32 do
    s := (s.wr (P.eth 1) Reg.LSLOT_CFG_len 70 i).setSlotBuf 1 i (List.replicate 70 3)
  for i in List.range 16 do
    s := s.wr P.fio Reg.FIO_CH_CFG_dir 1 i
  s := (s.wr P.xck Reg.XCK_AUD_CFG_en 1).wr P.enc Reg.ENC_PER_per 1000 2
  s := (s.wr P.enc Reg.ENC_CNT_count 90 2).wr P.enc Reg.ENC_STAT_stopped 0 2
  pure s
def past (s : State) := s.wr P.enc Reg.ENC_CNT_count 150 2
def arm (s : State) : State := (s.wr P.rtu Reg.RTU_GRP_CFG_armed 1 3).wr P.rtu Reg.RTU_GRP_CFG_armed 1 4
def owns (s : State) : State := Id.run do
  let mut s := s
  for r in (List.range 5).map chanRes do s := s.setOwner r 2 3
  for r in [8,9,10].map (slotRes 1) do s := s.setOwner r 2 4
  pure s
def named (s : State) : State := ((s.wr (P.schC 2) Reg.SCH_CTX_STAT_state 4).wr (P.schC 2) Reg.SCH_CTX_ACT_GRP_valid 1 0).wr (P.schC 2) Reg.SCH_CTX_ACT_GRP_grp 3 0
def rel (s : State) : State := {s with rtu := {s.rtu with releasing := [4, 3]}}
def noent (s : State) : State := {s with rtu := {s.rtu with entries := [], pulses := [(1,[3])]}}

theorem witness_EntriesResolveCommitLaunchAndCompare_1 :
  (∃ (s : State) (n : Fin 4096),
    let e : RtuEntry := (s.entry n.val).get!
    let due : Prop := s.rtuAlive = true ∧ e.state = 1 ∧ s.predicts e.group = true
    s.atRest ∧
    s.entry n.val = some e ∧
    (¬due)) ∧
  (∃ (s : State) (n : Fin 4096),
    let e : RtuEntry := (s.entry n.val).get!
    let due : Prop := s.rtuAlive = true ∧ e.state = 1 ∧ s.predicts e.group = true
    let remote : Prop := s.rd P.rtu Reg.RTU_GRP_CFG_kind e.group = 1
    let l : List (Nat × Nat) := s.rtu.slotTimes.get e.group []
    s.atRest ∧
    s.entry n.val = some e ∧
    due ∧
    remote ∧
    (∀ (p : Nat × Nat), p ∈ l → p.fst ≠ s.launchTime e)) ∧
  (∃ (s : State) (n : Fin 4096),
    let e : RtuEntry := (s.entry n.val).get!
    let due : Prop := s.rtuAlive = true ∧ (s.groupCount e.group + 2 ^ 32 - e.target % 2 ^ 32) % 2 ^ 32 < 2 ^ 31
    s.calm ∧
    s.entry n.val = some e ∧
    (¬due)) ∧
  (∃ (s : State) (n : Fin 4096) (m : Nat),
    let e : RtuEntry := (s.entry n.val).get!
    let due : Prop := s.rtuAlive = true ∧ (e.state = 2 ∨ e.state = 3) ∧ e.committed = false ∧ s.predicts e.group = true
    s.atRest ∧
    s.entry n.val = some e ∧
    due ∧
    m < 4096 ∧
    m ≠ n.val ∧
    e.staged = true ∧
    e.launchAt = none) ∧
  (∃ (s : State) (n : Fin 4096) (m : Nat),
    let e : RtuEntry := (s.entry n.val).get!
    let remote : Prop := s.rd P.rtu Reg.RTU_GRP_CFG_kind e.group = 1
    let exact : Prop := ¬remote ∧ s.rd P.rtu Reg.RTU_GRP_ADV_adv e.group = 0
    let due : Prop := s.rtuAlive = true ∧ e.state = 2 ∧ if exact then (s.groupCount e.group + 2 ^ 32 - e.target % 2 ^ 32) % 2 ^ 32 < 2 ^ 31 else s.predicts e.group = true
    let a0 : Nat := s.groupAct0 e.group
    s.atRest ∧
    s.entry n.val = some e ∧
    due ∧
    m < 4096 ∧
    m ≠ n.val ∧
    (¬remote) ∧
    a0 ≤ e.actFirst) ∧
  (∃ (s : State) (n : Fin 4096) (c : Nat),
    let e : RtuEntry := (s.entry n.val).get!
    let remote : Prop := s.rd P.rtu Reg.RTU_GRP_CFG_kind e.group = 1
    let exact : Prop := ¬remote ∧ s.rd P.rtu Reg.RTU_GRP_ADV_adv e.group = 0
    let due : Prop := s.rtuAlive = true ∧ e.state = 2 ∧ if exact then (s.groupCount e.group + 2 ^ 32 - e.target % 2 ^ 32) % 2 ^ 32 < 2 ^ 31 else s.predicts e.group = true
    let a0 : Nat := s.groupAct0 e.group
    s.atRest ∧
    s.entry n.val = some e ∧
    due ∧
    (¬remote) ∧
    a0 ≤ e.actFirst ∧
    c < 32) ∧
  (∃ (s : State) (n : Fin 4096) (v : Nat),
    let e : RtuEntry := (s.entry n.val).get!
    let due : Prop := s.rtuAlive = true ∧ (e.state = 2 ∨ e.state = 3) ∧ e.committed = false ∧ s.predicts e.group = true
    let p : Nat := s.groupPort e.group
    let off : Nat := s.rd P.rtu Reg.RTU_GRP_FRM_bmp_off e.group
    let valves : Nat := 8 * ((s.groupAct0 e.group + s.groupNAct e.group + 7) / 8)
    let covered : Nat → Nat → Prop := fun at' v => ∃ x, x ∈ List.map Prod.snd s.rtu.entries ∧ (x.group = e.group ∧ x.launchAt = some at' ∧ (x.state = 2 ∨ x.state = 4)) ∧ x.actFirst ≤ v ∧ v ≤ x.actLast
    let at' : Nat := e.launchAt.get!
    let x : Nat × Nat := (List.find? (fun y => decide (y.fst = at')) (s.rtu.slotTimes.get e.group [])).get!
    s.atRest ∧
    s.entry n.val = some e ∧
    due ∧
    e.launchAt = some at' ∧
    List.find? (fun y => decide (y.fst = at')) (s.rtu.slotTimes.get e.group []) = some x ∧
    v < valves ∧
    off + v / 8 < (s.slotBuf p x.snd).length ∧
    (∃ v, v ∈ List.range valves ∧ covered at' v)) ∧
  (∃ (s : State) (n : Fin 4096) (i : Nat),
    let e : RtuEntry := (s.entry n.val).get!
    let due : Prop := s.rtuAlive = true ∧ (e.state = 2 ∨ e.state = 3) ∧ e.committed = false ∧ s.predicts e.group = true
    let p : Nat := s.groupPort e.group
    let off : Nat := s.rd P.rtu Reg.RTU_GRP_FRM_bmp_off e.group
    let valves : Nat := 8 * ((s.groupAct0 e.group + s.groupNAct e.group + 7) / 8)
    let at' : Nat := e.launchAt.get!
    let x : Nat × Nat := (List.find? (fun y => decide (y.fst = at')) (s.rtu.slotTimes.get e.group [])).get!
    s.atRest ∧
    s.entry n.val = some e ∧
    due ∧
    e.launchAt = some at' ∧
    List.find? (fun y => decide (y.fst = at')) (s.rtu.slotTimes.get e.group []) = some x ∧
    i < (s.slotBuf p x.snd).length ∧
    (i < off ∨ off + valves / 8 ≤ i)) := by
  refine ⟨?_, ?_, ?_, ?_, ?_, ?_, ?_, ?_⟩
  · exact ⟨past g, 6, by decide +kernel⟩
  · exact ⟨g, 5, by decide +kernel⟩
  · exact ⟨g, 5, by decide +kernel⟩
  · exact ⟨g, 3, 0, by decide +kernel⟩
  · exact ⟨g, 3, 0, by decide +kernel⟩
  · exact ⟨g, 3, 0, by decide +kernel⟩
  · exact ⟨g, 6, 0, by decide +kernel⟩
  · exact ⟨g, 6, 0, by decide +kernel⟩

theorem witness_EntriesResolveCommitLaunchAndCompare_2 :
  (∃ (s : State) (n : Fin 4096),
    let e : RtuEntry := (s.entry n.val).get!
    let remote : Prop := s.rd P.rtu Reg.RTU_GRP_CFG_kind e.group = 1
    let exact : Prop := ¬remote ∧ s.rd P.rtu Reg.RTU_GRP_ADV_adv e.group = 0
    let due : Prop := s.rtuAlive = true ∧ e.state = 2 ∧ if exact then (s.groupCount e.group + 2 ^ 32 - e.target % 2 ^ 32) % 2 ^ 32 < 2 ^ 31 else s.predicts e.group = true
    s.atRest ∧
    s.entry n.val = some e ∧
    due ∧
    remote ∧
    (e.committed = true ∨ e.staged = false ∧ e.launchAt = none)) ∧
  (∃ (s : State) (n : Fin 4096),
    let e : RtuEntry := (s.entry n.val).get!
    let due : Prop := s.rtuAlive = true ∧ (e.state = 2 ∨ e.state = 3) ∧ e.committed = false ∧ s.predicts e.group = true
    s.atRest ∧
    s.entry n.val = some e ∧
    due ∧
    e.launchAt = none ∧
    e.staged = false) ∧
  (∃ (s : State) (n : Fin 4096),
    let e : RtuEntry := (s.entry n.val).get!
    let due : Prop := s.rtuAlive = true ∧ (e.state = 2 ∨ e.state = 3) ∧ e.committed = false ∧ s.predicts e.group = true
    let valves : Nat := 8 * ((s.groupAct0 e.group + s.groupNAct e.group + 7) / 8)
    let covered : Nat → Nat → Prop := fun at' v => ∃ x, x ∈ List.map Prod.snd s.rtu.entries ∧ (x.group = e.group ∧ x.launchAt = some at' ∧ (x.state = 2 ∨ x.state = 4)) ∧ x.actFirst ≤ v ∧ v ≤ x.actLast
    let at' : Nat := e.launchAt.get!
    let x : Nat × Nat := (List.find? (fun y => decide (y.fst = at')) (s.rtu.slotTimes.get e.group [])).get!
    s.atRest ∧
    s.entry n.val = some e ∧
    due ∧
    e.launchAt = some at' ∧
    List.find? (fun y => decide (y.fst = at')) (s.rtu.slotTimes.get e.group []) = some x ∧
    (∀ (v : Nat), v < valves → ¬covered at' v)) ∧
  (∃ (s : State) (n : Fin 4096),
    s.atRest ∧
    s.entry n.val = none) ∧
  (∃ (s : State) (n : Fin 4096),
    let e : RtuEntry := (s.entry n.val).get!
    let due : Prop := s.rtuAlive = true ∧ (s.groupCount e.group + 2 ^ 32 - e.target % 2 ^ 32) % 2 ^ 32 < 2 ^ 31
    s.calm ∧
    s.entry n.val = some e ∧
    due ∧
    (e.state = 3 ∨ e.state = 4) ∧
    e.committed = true ∧
    s.rtu.audits.find? e.key = none) ∧
  (∃ (s : State) (n : Fin 4096) (m : Nat),
    let e : RtuEntry := (s.entry n.val).get!
    let due : Prop := s.rtuAlive = true ∧ (s.groupCount e.group + 2 ^ 32 - e.target % 2 ^ 32) % 2 ^ 32 < 2 ^ 31
    let nv : Prop := e.nv = true ∨ e.state = 1 ∧ e.decision = none
    let state : Nat := if e.state ≠ 1 then e.state else if if nv then e.failPass = false else e.decision = some true then 2 else 3
    s.calm ∧
    s.entry n.val = some e ∧
    due ∧
    m < 4096 ∧
    m ≠ n.val ∧
    state = 2 ∧
    (s.rd P.rtu Reg.RTU_GRP_CFG_kind e.group = 1 ∨ 1 ≤ s.groupAdv e.group)) ∧
  (∃ (s : State) (n : Fin 4096),
    let e : RtuEntry := (s.entry n.val).get!
    let due : Prop := s.rtuAlive = true ∧ e.state = 1 ∧ s.predicts e.group = true
    let remote : Prop := s.rd P.rtu Reg.RTU_GRP_CFG_kind e.group = 1
    let l : List (Nat × Nat) := s.rtu.slotTimes.get e.group []
    s.atRest ∧
    s.entry n.val = some e ∧
    due ∧
    remote ∧
    (∃ p, p ∈ l ∧ p.fst = s.launchTime e)) := by
  refine ⟨?_, ?_, ?_, ?_, ?_, ?_, ?_⟩
  · exact ⟨g, 7, by decide +kernel⟩
  · exact ⟨g, 10, by decide +kernel⟩
  · exact ⟨g, 11, by decide +kernel⟩
  · exact ⟨g, 4095, by decide +kernel⟩
  · exact ⟨past g, 9, by decide +kernel⟩
  · exact ⟨past g, 0, 1, by decide +kernel⟩
  · exact ⟨{g with rtu := {g.rtu with slotTimes := [(4,[(g.launchTime er, 9)])]}}, 5, by decide +kernel⟩

theorem witness_PulsesEndAndGroupsArmAndDisarm_1 :
  (∃ (s : State) (ch : Fin 16),
    let l : List Nat := s.rtu.pulses.get ch.val []
    let g : Nat := s.rd P.fio Reg.CLAIM_FIO_unit ch.val
    s.atRest ∧
    l ≠ [] ∧
    s.rdb P.rtu Reg.RTU_GRP_CFG_on_mode g = false) ∧
  (∃ (s : State) (g : Fin 32),
    let n : Nat := s.groupNAct g.val
    let remote : Prop := s.rd P.rtu Reg.RTU_GRP_CFG_kind g.val = 1
    let k : Nat := s.rd P.rtu Reg.RTU_GRP_REM_nslot g.val
    let s0 : Nat := s.rd P.rtu Reg.RTU_GRP_REM_slot0 g.val
    let grid : Nat := max 1 (s.rd P.rtu Reg.RTU_GRP_REM_grid g.val)
    let range : Prop := (1 ≤ n ∧ s.groupAct0 g.val + n ≤ 1024) ∧ (¬remote → s.rd P.rtu Reg.RTU_GRP_CFG_ch0 g.val + n ≤ 16) ∧ (remote → (1 ≤ k ∧ s0 + k ≤ 32) ∧ grid ≤ 1000 ∧ ∀ (i : Nat), i ∈ List.map (fun x => x + s0) (List.range k) → s.rd P.rtu Reg.RTU_GRP_FRM_bmp_off g.val + (s.groupAct0 g.val + n + 7) / 8 ≤ s.slotLen (s.groupPort g.val) i)
    let few : Prop := remote ∧ k < (40 + grid - 1) / grid + 1
    let free : Prop := ∀ (r : Res), r ∈ s.groupRes g.val → s.permits r 2 = true ∧ s.owner r = 0
    let code : Nat := if ¬range then 3 else if few then 2 else if free then 0 else 1
    s.calm ∧
    s.reaches (P.rtu + 256 + 32 * g.val) ∧
    s.rd P.rtu Reg.BLK_STAT_state = idleHeld ∧
    s.rdb P.rtu Reg.RTU_GRP_CFG_armed g.val = false ∧
    s.inFault P.rtu = false ∧
    code = 0 ∧
    (¬remote)) ∧
  (∃ (s : State) (g : Fin 32),
    let armed : Prop := s.rdb P.rtu Reg.RTU_GRP_CFG_armed g.val = true
    s.atRest ∧
    s.reaches (P.rtu + 256 + 32 * g.val) ∧
    (¬armed)) ∧
  (∃ (s : State) (g : Fin 32),
    let waits : Prop := g.val ∈ s.rtu.releasing
    s.atRest ∧
    (¬waits)) ∧
  (∃ (s : State) (g : Fin 32),
    let remote : Prop := s.rd P.rtu Reg.RTU_GRP_CFG_kind g.val = 1
    s.calm ∧
    s.reaches (P.rtu + 256 + 32 * g.val) ∧
    (¬remote) ∧
    (s.rdb P.rtu Reg.RTU_GRP_CFG_armed g.val = true ∨ s.inFault P.rtu = true)) ∧
  (∃ (s : State) (g : Fin 32),
    let armed : Prop := s.rdb P.rtu Reg.RTU_GRP_CFG_armed g.val = true
    let named : Prop := ∃ c, c ∈ List.range 8 ∧ s.ctxState c ∈ [ctxRunning, ctxStandby, ctxDraining] ∧ g.val ∈ List.map (fun m => m.snd.snd.fst) (s.actMap c)
    s.atRest ∧
    s.reaches (P.rtu + 256 + 32 * g.val) ∧
    armed ∧
    (¬named)) ∧
  (∃ (s : State) (rivals : List Arming) (g : Fin 32),
    let loses : Res → Prop := fun r => ∃ b, b ∈ rivals ∧ (b.cls < 2 ∨ b.cls = 2 ∧ b.unit < g.val) ∧ r ∈ b.res ∧ s.claimCode r b.cls = none
    let fails : Prop := ∃ r, r ∈ s.groupRes g.val ∧ (s.claimCode r 2 ≠ none ∨ loses r)
    s.rdb P.rtu Reg.RTU_GRP_CFG_armed g.val = false ∧
    s.inFault P.rtu = false ∧
    s.groupRange g.val = true ∧
    s.slotsEnough g.val = true ∧
    (¬fails)) ∧
  (∃ (s : State) (g : Fin 32),
    let waits : Prop := g.val ∈ s.rtu.releasing
    let _r : Res := (List.drop 0 (s.groupOwned g.val)).head!
    s.atRest ∧
    waits ∧
    (∀ (r : Res), r ∈ s.groupOwned g.val → s.pendingUse r = false)) ∧
  (∃ (s : State) (v : Word),
    let asks : Prop := v.toNat % 2 = 1
    let ok : Prop := v.toNat / 65536 = 20093 ∧ s.rd P.rtu Reg.RTU_STAT_used ≤ 3840
    let set : Prop := s.rdb P.rtu Reg.RTU_STAT_ovf = true
    s.calm ∧
    s.reaches (P.rtu + 64) ∧
    asks ∧
    ok ∧
    set) := by
  refine ⟨?_, ?_, ?_, ?_, ?_, ?_, ?_, ?_, ?_⟩
  · exact ⟨g.wr P.rtu Reg.BLK_STAT_state idleHeld, 3, by decide +kernel⟩
  · exact ⟨g.wr P.rtu Reg.BLK_STAT_state idleHeld, 3, by decide +kernel⟩
  · exact ⟨g.wr P.rtu Reg.BLK_STAT_state idleHeld, 3, by decide +kernel⟩
  · exact ⟨g.wr P.rtu Reg.BLK_STAT_state idleHeld, 3, by decide +kernel⟩
  · exact ⟨arm (owns g), 3, by decide +kernel⟩
  · exact ⟨arm (owns g), 3, by decide +kernel⟩
  · exact ⟨g.wr P.rtu Reg.BLK_STAT_state idleHeld, [], 0, by decide +kernel⟩
  · exact ⟨rel (noent (owns g)), 4, by decide +kernel⟩
  · exact ⟨(g.wr P.rtu Reg.RTU_STAT_ovf 1).wr P.rtu Reg.RTU_GRP_CFG_on_mode 1 0, 0x4e7d0001#32, by decide +kernel⟩

theorem witness_PulsesEndAndGroupsArmAndDisarm_2 :
  (∃ (s : State) (g : Fin 32),
    let armed : Prop := s.rdb P.rtu Reg.RTU_GRP_CFG_armed g.val = true
    let named : Prop := ∃ c, c ∈ List.range 8 ∧ s.ctxState c ∈ [ctxRunning, ctxStandby, ctxDraining] ∧ g.val ∈ List.map (fun m => m.snd.snd.fst) (s.actMap c)
    s.atRest ∧
    s.reaches (P.rtu + 256 + 32 * g.val) ∧
    armed ∧
    named) ∧
  (∃ (s : State) (v : Word),
    let asks : Prop := v.toNat % 2 = 1
    let ok : Prop := v.toNat / 65536 = 20093 ∧ s.rd P.rtu Reg.RTU_STAT_used ≤ 3840
    s.calm ∧
    s.reaches (P.rtu + 64) ∧
    asks ∧
    (¬ok)) ∧
  (∃ (s : State) (ch : Fin 16),
    let on : Prop := s.rtu.pulses.get ch.val [] ≠ []
    s.atRest ∧
    (¬on)) ∧
  (∃ (s : State) (rivals : List Arming) (g : Fin 32),
    let loses : Res → Prop := fun r => ∃ b, b ∈ rivals ∧ (b.cls < 2 ∨ b.cls = 2 ∧ b.unit < g.val) ∧ r ∈ b.res ∧ s.claimCode r b.cls = none
    let fails : Prop := ∃ r, r ∈ s.groupRes g.val ∧ (s.claimCode r 2 ≠ none ∨ loses r)
    s.rdb P.rtu Reg.RTU_GRP_CFG_armed g.val = false ∧
    s.inFault P.rtu = false ∧
    s.groupRange g.val = true ∧
    s.slotsEnough g.val = true ∧
    fails) ∧
  (∃ (s : State) (g : Fin 32),
    let n : Nat := s.groupNAct g.val
    let remote : Prop := s.rd P.rtu Reg.RTU_GRP_CFG_kind g.val = 1
    let k : Nat := s.rd P.rtu Reg.RTU_GRP_REM_nslot g.val
    let s0 : Nat := s.rd P.rtu Reg.RTU_GRP_REM_slot0 g.val
    let grid : Nat := max 1 (s.rd P.rtu Reg.RTU_GRP_REM_grid g.val)
    let range : Prop := (1 ≤ n ∧ s.groupAct0 g.val + n ≤ 1024) ∧ (¬remote → s.rd P.rtu Reg.RTU_GRP_CFG_ch0 g.val + n ≤ 16) ∧ (remote → (1 ≤ k ∧ s0 + k ≤ 32) ∧ grid ≤ 1000 ∧ ∀ (i : Nat), i ∈ List.map (fun x => x + s0) (List.range k) → s.rd P.rtu Reg.RTU_GRP_FRM_bmp_off g.val + (s.groupAct0 g.val + n + 7) / 8 ≤ s.slotLen (s.groupPort g.val) i)
    let few : Prop := remote ∧ k < (40 + grid - 1) / grid + 1
    let free : Prop := ∀ (r : Res), r ∈ s.groupRes g.val → s.permits r 2 = true ∧ s.owner r = 0
    let code : Nat := if ¬range then 3 else if few then 2 else if free then 0 else 1
    let i : Nat := (List.drop 0 (List.map (fun x => x + s0) (List.range k))).head!
    let b : List Byte := (s.slotCopy (s.groupPort g.val) i true).snd.get!
    s.calm ∧
    s.reaches (P.rtu + 256 + 32 * g.val) ∧
    s.rdb P.rtu Reg.RTU_GRP_CFG_armed g.val = false ∧
    s.inFault P.rtu = false ∧
    code = 0 ∧
    remote ∧
    (s.slotCopy (s.groupPort g.val) i true).snd = some b) ∧
  (∃ (s : State) (v : Word),
    let asks : Prop := v.toNat % 2 = 1
    let ok : Prop := v.toNat / 65536 = 20093 ∧ s.rd P.rtu Reg.RTU_STAT_used ≤ 3840
    let set : Prop := s.rdb P.rtu Reg.RTU_STAT_ovf = true
    s.calm ∧
    s.reaches (P.rtu + 64) ∧
    (¬asks ∨ ok ∧ ¬set)) ∧
  (∃ (s : State) (g : Fin 32),
    let n : Nat := s.groupNAct g.val
    let remote : Prop := s.rd P.rtu Reg.RTU_GRP_CFG_kind g.val = 1
    let k : Nat := s.rd P.rtu Reg.RTU_GRP_REM_nslot g.val
    let s0 : Nat := s.rd P.rtu Reg.RTU_GRP_REM_slot0 g.val
    let grid : Nat := max 1 (s.rd P.rtu Reg.RTU_GRP_REM_grid g.val)
    let range : Prop := (1 ≤ n ∧ s.groupAct0 g.val + n ≤ 1024) ∧ (¬remote → s.rd P.rtu Reg.RTU_GRP_CFG_ch0 g.val + n ≤ 16) ∧ (remote → (1 ≤ k ∧ s0 + k ≤ 32) ∧ grid ≤ 1000 ∧ ∀ (i : Nat), i ∈ List.map (fun x => x + s0) (List.range k) → s.rd P.rtu Reg.RTU_GRP_FRM_bmp_off g.val + (s.groupAct0 g.val + n + 7) / 8 ≤ s.slotLen (s.groupPort g.val) i)
    let few : Prop := remote ∧ k < (40 + grid - 1) / grid + 1
    let free : Prop := ∀ (r : Res), r ∈ s.groupRes g.val → s.permits r 2 = true ∧ s.owner r = 0
    let code : Nat := if ¬range then 3 else if few then 2 else if free then 0 else 1
    s.calm ∧
    s.reaches (P.rtu + 256 + 32 * g.val) ∧
    s.rdb P.rtu Reg.RTU_GRP_CFG_armed g.val = false ∧
    s.inFault P.rtu = false ∧
    (code = 2 ∨ code = 3)) ∧
  (∃ (s : State) (ch : Fin 16) (c : Nat),
    let on : Prop := s.rtu.pulses.get ch.val [] ≠ []
    s.atRest ∧
    on ∧
    c < 16 ∧
    c ≠ ch.val) ∧
  (∃ (s : State) (ch : Fin 16),
    let l : List Nat := s.rtu.pulses.get ch.val []
    let g : Nat := s.rd P.fio Reg.CLAIM_FIO_unit ch.val
    let x : Nat := l.head!
    s.atRest ∧
    s.rdb P.rtu Reg.RTU_GRP_CFG_on_mode g = true ∧
    l = [x]) := by
  refine ⟨?_, ?_, ?_, ?_, ?_, ?_, ?_, ?_, ?_⟩
  · exact ⟨named (arm g), 3, by decide +kernel⟩
  · exact ⟨g, 0x1#32, by decide +kernel⟩
  · exact ⟨g.wr P.rtu Reg.BLK_STAT_state idleHeld, 0, by decide +kernel⟩
  · exact ⟨g, [{ cls := 1, unit := 0, res := [{ kind := ResKind.chan, base := 9437184, idx := 5 }] }], 3, by decide +kernel⟩
  · exact ⟨g, 4, by decide +kernel⟩
  · exact ⟨g, 0x0#32, by decide +kernel⟩
  · exact ⟨g.wr P.rtu Reg.RTU_GRP_REM_grid 2 4, 4, by decide +kernel⟩
  · exact ⟨g.wr P.rtu Reg.BLK_STAT_state idleHeld, 3, 0, by decide +kernel⟩
  · exact ⟨(g.wr P.rtu Reg.RTU_STAT_ovf 1).wr P.rtu Reg.RTU_GRP_CFG_on_mode 1 0, 4, by decide +kernel⟩

end WitU

/-! #### Witnesses: field inputs and outputs -/

namespace WitF

def gx : State := (go2.wr P.fio Reg.FIO_GLB_path 0)
def out (s : State) : State := settle (Id.run do
  let mut s := s
  for i in [3,4,15] do
    s := ((s.wr P.fio Reg.FIO_CH_CFG_dir 1 i).wr P.fio Reg.CLAIM_FIO_owner 4 i).setChan i {s.chan i with demand := true}
  pure s)
def pth (n : Nat) (s : State) := s.wr P.fio Reg.FIO_GLB_path n
def fb (b : Bool) (s : State) := {s with field := {s.field with fallbackUp := b}, coll := {s.coll with lastUnit := some 96}}
def prot (s : State) := (((s.setChan 3 {s.chan 3 with prot := true}).wr P.fio Reg.FIO_CH_STAT_off_latched 1 3).wr P.fio Reg.FIO_CH_CFG_retry 1 3)
def th (s : State) := (s.wr P.fio Reg.FIO_CH_STAT_therm 1 3).wr P.fio Reg.FIO_CH_STAT_ovl 1 4
def gp (left : Nat) (w : List (Nat × Nat)) (s : State) := ({s with field := {s.field with gpLeft := left, gpWait := w, measPending := some (3,1)}}).wr P.blw Reg.BLW_FIELD_budget 3
def mir (s : State) := ((s.wr P.fio Reg.FIO_GLB_mirror_en 1).wr P.fio Reg.FIO_GLB_mirror_ch 3).setOwner (chanRes 3) 1 0
def inp (l : Nat) (s : State) := Id.run do
  let mut s := s
  for i in [0,5] do
    s := ((s.wr P.fio Reg.FIO_CH_CFG_evt 1 i).wr P.fio Reg.FIO_CH_IN_wb_en 1 i).wr P.fio Reg.FIO_CH_STAT_level l i
    s := s.wr P.fio Reg.FIO_CH_IN_filt_n 4 i
  s := ((s.wr P.fio Reg.FIO_EYE_en 1 2).wr P.fio Reg.FIO_EYE_ch 0 2).setDet 2 {s.det 2 with eyeOpen := if l = 1 then some (3, 44, false) else none}
  s := ((s.wr P.fio Reg.FIO_EYE_en 1 4).wr P.fio Reg.FIO_EYE_ch 0 4).wr P.fio Reg.FIO_EYE_pol 1 4
  pure (({ s with ptp := {s.ptp with ns := 100000}}).wr P.enc Reg.ENC_PER_per 1000 0)
def lr (a b : Nat) (s : State) := {s with field := {s.field with lowRun := a, highRun := b}}
def uv (s : State) := ((s.wr P.fio Reg.FIO_SUP_uv 1).wr P.fio Reg.FIO_LS_ovl 9).wr P.fio Reg.FIO_CH_STAT_wb 1 0

theorem witness_FieldPathsAndProtectionAct_1 :
  (∃ (s : State),
    s.atRest ∧
    s.rd P.fio Reg.FIO_GLB_path = 0) ∧
  (∃ (s : State),
    s.calm ∧
    s.rd P.fio Reg.FIO_GLB_path ≠ 1) ∧
  (∃ (s : State) (ch : Fin 16) (kind : DiagKind) (arose : Bool),
    let shown : Prop := s.rd P.fio Reg.FIO_GLB_path = 0 ∧ s.rd P.fio Reg.FIO_CH_CFG_dir ch.val = 1 ∧ s.rdb P.fio (diagFld kind) ch.val = !arose
    let off : Prop := kind = DiagKind.ovl ∨ kind = DiagKind.therm
    let f : Fld := (diagSeen kind).get!
    s.calm ∧
    shown ∧
    arose = true ∧
    diagSeen kind = some f ∧
    off) ∧
  (∃ (s : State),
    s.atRest ∧
    s.rd P.fio Reg.FIO_GLB_path ≠ 0) ∧
  (∃ (s : State),
    s.calm ∧
    s.rd P.fio Reg.FIO_GLB_path = 1 ∧
    s.isFenced P.fio = false) ∧
  (∃ (s : State) (linkGood : Bool),
    let ok : Prop := linkGood = true ∧ s.rd P.fio Reg.FIO_GLB_path ≠ 0 ∧ s.inFault P.fio = false
    s.calm ∧
    s.reaches (P.fio + 128) ∧
    ok ∧
    s.rd P.fio Reg.BLK_STAT_state = idleHeld) ∧
  (∃ (s : State),
    let main : Prop := s.rd P.fio Reg.FIO_GLB_path = 0
    s.calm ∧
    main ∧
    s.field.fallbackUp = false ∧
    s.isFenced P.fio = false) ∧
  (∃ (s : State) (ch : Fin 16) (kind : DiagKind) (arose : Bool),
    let shown : Prop := s.rd P.fio Reg.FIO_GLB_path = 0 ∧ s.rd P.fio Reg.FIO_CH_CFG_dir ch.val = 1 ∧ s.rdb P.fio (diagFld kind) ch.val = !arose
    s.calm ∧
    shown ∧
    arose = false) ∧
  (∃ (s : State) (ch : Fin 16),
    let ok : Prop := s.rdb P.fio Reg.FIO_CH_CFG_retry ch.val = true ∧ (s.chan ch.val).prot = true ∧ s.rdb P.fio Reg.FIO_CH_STAT_therm ch.val = false
    s.atRest ∧
    (¬ok)) ∧
  (∃ (s : State) (ch : Fin 16),
    let therm : Prop := s.rdb P.fio Reg.FIO_CH_STAT_therm ch.val = true
    s.atRest ∧
    s.reaches (P.fio + 276 + 32 * ch.val) ∧
    therm) := by
  refine ⟨?_, ?_, ?_, ?_, ?_, ?_, ?_, ?_, ?_, ?_⟩
  · exact ⟨prot (out gx), by decide +kernel⟩
  · exact ⟨prot (out gx), by decide +kernel⟩
  · exact ⟨prot (out gx), 3, DiagKind.ovl, true, by decide +kernel⟩
  · exact ⟨(pth 1 (out gx)).wr P.fio Reg.BLK_STAT_state 1, by decide +kernel⟩
  · exact ⟨(pth 1 (out gx)).wr P.fio Reg.BLK_STAT_state 1, by decide +kernel⟩
  · exact ⟨(pth 1 (out gx)).wr P.fio Reg.BLK_STAT_state 1, true, by decide +kernel⟩
  · exact ⟨gx, by decide +kernel⟩
  · exact ⟨th (prot (out gx)), 3, DiagKind.therm, false, by decide +kernel⟩
  · exact ⟨th (prot (out gx)), 3, by decide +kernel⟩
  · exact ⟨th (prot (out gx)), 3, by decide +kernel⟩

theorem witness_FieldPathsAndProtectionAct_2 :
  (∃ (s : State) (ch : Fin 16) (n : Nat),
    s.atRest ∧
    s.settled ∧
    n < 16 ∧
    n ≠ ch.val) ∧
  (∃ (s : State) (ch : Fin 16),
    let therm : Prop := s.rdb P.fio Reg.FIO_CH_STAT_therm ch.val = true
    let held : Prop := s.rdb P.fio Reg.FIO_CH_STAT_off_latched ch.val = true
    s.atRest ∧
    s.reaches (P.fio + 276 + 32 * ch.val) ∧
    (¬therm) ∧
    (¬held)) ∧
  (∃ (s : State) (linkGood : Bool),
    let ok : Prop := linkGood = true ∧ s.rd P.fio Reg.FIO_GLB_path ≠ 0 ∧ s.inFault P.fio = false
    s.calm ∧
    s.reaches (P.fio + 128) ∧
    (¬ok)) ∧
  (∃ (s : State) (ch : Fin 16) (n : Nat),
    let ok : Prop := s.rdb P.fio Reg.FIO_CH_CFG_retry ch.val = true ∧ (s.chan ch.val).prot = true ∧ s.rdb P.fio Reg.FIO_CH_STAT_therm ch.val = false
    s.atRest ∧
    ok ∧
    n < 16 ∧
    n ≠ ch.val) ∧
  (∃ (s : State) (ch : Fin 16) (n : Nat),
    let therm : Prop := s.rdb P.fio Reg.FIO_CH_STAT_therm ch.val = true
    let held : Prop := s.rdb P.fio Reg.FIO_CH_STAT_off_latched ch.val = true
    s.atRest ∧
    s.reaches (P.fio + 276 + 32 * ch.val) ∧
    (¬therm) ∧
    held ∧
    n < 16 ∧
    n ≠ ch.val) ∧
  (∃ (s : State),
    let main : Prop := s.rd P.fio Reg.FIO_GLB_path = 0
    s.calm ∧
    main ∧
    s.field.fallbackUp = true) ∧
  (∃ (s : State) (ch : Fin 16) (kind : DiagKind) (arose : Bool) (n : Nat),
    let shown : Prop := s.rd P.fio Reg.FIO_GLB_path = 0 ∧ s.rd P.fio Reg.FIO_CH_CFG_dir ch.val = 1 ∧ s.rdb P.fio (diagFld kind) ch.val = !arose
    let off : Prop := kind = DiagKind.ovl ∨ kind = DiagKind.therm
    s.calm ∧
    shown ∧
    arose = true ∧
    off ∧
    s.rdb P.fio Reg.FIO_CH_CFG_retry ch.val = false ∧
    n < 16 ∧
    n ≠ ch.val) ∧
  (∃ (s : State) (ch : Fin 16) (kind : DiagKind) (arose : Bool),
    let shown : Prop := s.rd P.fio Reg.FIO_GLB_path = 0 ∧ s.rd P.fio Reg.FIO_CH_CFG_dir ch.val = 1 ∧ s.rdb P.fio (diagFld kind) ch.val = !arose
    s.calm ∧
    (¬shown)) ∧
  (∃ (s : State),
    let main : Prop := s.rd P.fio Reg.FIO_GLB_path = 0
    s.calm ∧
    (¬main)) ∧
  (∃ (s : State) (ch : Fin 16) (kind : DiagKind) (arose : Bool),
    let shown : Prop := s.rd P.fio Reg.FIO_GLB_path = 0 ∧ s.rd P.fio Reg.FIO_CH_CFG_dir ch.val = 1 ∧ s.rdb P.fio (diagFld kind) ch.val = !arose
    let off : Prop := kind = DiagKind.ovl ∨ kind = DiagKind.therm
    s.calm ∧
    shown ∧
    arose = true ∧
    (¬off)) := by
  refine ⟨?_, ?_, ?_, ?_, ?_, ?_, ?_, ?_, ?_, ?_⟩
  · exact ⟨gx, 0, 1, by decide +kernel⟩
  · exact ⟨gx, 0, by decide +kernel⟩
  · exact ⟨gx, true, by decide +kernel⟩
  · exact ⟨prot (out gx), 3, 0, by decide +kernel⟩
  · exact ⟨prot (out gx), 3, 0, by decide +kernel⟩
  · exact ⟨fb true gx, by decide +kernel⟩
  · exact ⟨fb true (out gx), 3, DiagKind.ovl, true, 0, by decide +kernel⟩
  · exact ⟨gx, 0, DiagKind.ovl, true, by decide +kernel⟩
  · exact ⟨pth 2 (out gx), by decide +kernel⟩
  · exact ⟨prot (out gx), 3, DiagKind.openOn, true, by decide +kernel⟩

theorem witness_FieldCommandsEdgesAndSuppliesAct_1 :
  (∃ (s : State) (ch : Fin 16) (level : Bool) (k : Nat),
    let shown : Prop := s.rdb P.fio Reg.FIO_CH_CFG_dir ch.val = false ∧ s.noPath = false ∧ s.works P.fio = true ∧ s.rdb P.fio Reg.FIO_CH_STAT_level ch.val = !level ∧ ¬(level = true ∧ s.rdb P.fio Reg.FIO_CH_STAT_wb ch.val = true)
    let eye : Nat → Prop := fun k => s.rdb P.fio Reg.FIO_EYE_en k = true ∧ s.rd P.fio Reg.FIO_EYE_ch k = ch.val
    let lead : Nat → Prop := fun k => level = !s.rdb P.fio Reg.FIO_EYE_pol k
    s.calm ∧
    shown ∧
    s.rdb P.fio Reg.FIO_CH_CFG_evt ch.val = true ∧
    k < 8 ∧
    eye k ∧
    (¬lead k)) ∧
  (∃ (s : State) (ch : Fin 16),
    s.calm ∧
    s.rdb P.fio Reg.FIO_CH_STAT_wb ch.val = false) ∧
  (∃ (s : State) (ch : Fin 16) (level : Bool) (age : BitVec 32) (errored : BitVec 8) (k : Nat),
    let shown : Prop := s.rdb P.fio Reg.FIO_CH_CFG_dir ch.val = false ∧ s.noPath = false ∧ s.works P.fio = true ∧ s.rdb P.fio Reg.FIO_CH_STAT_level ch.val = !level ∧ ¬(level = true ∧ s.rdb P.fio Reg.FIO_CH_STAT_wb ch.val = true)
    let slots : Nat := if s.rd P.fio Reg.FIO_GLB_path = 0 then errored.toNat else 0
    let delay : Nat := age.toNat + 20 * slots + (max 1 (s.rd P.fio Reg.FIO_CH_IN_filt_n ch.val) - 1) * s.samplePeriod ch.val
    let interp : Prop := 20480 < delay
    let eye : Nat → Prop := fun k => s.rdb P.fio Reg.FIO_EYE_en k = true ∧ s.rd P.fio Reg.FIO_EYE_ch k = ch.val
    s.calm ∧
    shown ∧
    (¬interp) ∧
    s.rdb P.fio Reg.FIO_CH_CFG_evt ch.val = false ∧
    k < 8 ∧
    (¬eye k)) ∧
  (∃ (s : State) (ch : Fin 16),
    let shown : Prop := s.rd P.fio Reg.FIO_GLB_path = 0 ∧ s.rdb P.fio Reg.FIO_CH_CFG_dir ch.val = false ∧ s.rdb P.fio Reg.FIO_CH_IN_wb_en ch.val = true ∧ s.rdb P.fio Reg.FIO_CH_STAT_wb ch.val = false
    s.calm ∧
    (¬shown)) ∧
  (∃ (s : State) (v : Word),
    let n : Nat := v.toNat / 4096 % 16
    let was : Prop := s.rdb P.fio Reg.FIO_GLB_mirror_en = true
    let asks : Prop := bit v.toNat 8 = true
    let free : Prop := s.permits (chanRes n) 1 = true ∧ s.owner (chanRes n) = 0
    s.calm ∧
    s.reaches (P.fio + 128) ∧
    (¬was) ∧
    asks ∧
    (¬free)) ∧
  (∃ (s : State) (ch : Fin 16),
    s.calm ∧
    s.rdb P.fio Reg.FIO_CH_STAT_wb ch.val = true) ∧
  (∃ (s : State) (k : Fin 8) (j : Nat),
    let above : Prop := bit (s.rd P.fio Reg.FIO_LS_ovl) k.val = true
    s.calm ∧
    above ∧
    j < 8) ∧
  (∃ (s : State) (vin : BitVec 12) (iin : BitVec 12),
    let main : Prop := s.rd P.fio Reg.FIO_GLB_path = 0
    let lost : Prop := s.rd P.fio Reg.FIO_GLB_path = 2
    let low : Nat := if vin.toNat < 1800 then s.field.lowRun + 1 else 0
    let high : Nat := if 1900 ≤ vin.toNat then s.field.highRun + 1 else 0
    let uv : Prop := s.rdb P.fio Reg.FIO_SUP_uv = true
    let goes : Prop := ¬lost ∧ 3 ≤ low ∧ ¬uv
    let back : Prop := ¬lost ∧ 101 ≤ high ∧ uv ∧ ¬3 ≤ low
    s.calm ∧
    (¬lost) ∧
    main ∧
    iin.toNat ≤ 1050 ∧
    (¬goes) ∧
    (¬back)) ∧
  (∃ (s : State) (v : Word),
    let goes : Prop := bit v.toNat 8 = true ∧ s.rd P.fio Reg.FIO_GLB_path = 0
    s.atRest ∧
    s.reaches (P.fio + 140) ∧
    (¬goes)) := by
  refine ⟨?_, ?_, ?_, ?_, ?_, ?_, ?_, ?_, ?_⟩
  · exact ⟨inp 0 gx, 0, true, 4, by decide +kernel⟩
  · exact ⟨inp 0 gx, 0, by decide +kernel⟩
  · exact ⟨gx, 0, true, 0x0#32, 0x0#8, 0, by decide +kernel⟩
  · exact ⟨gx, 0, by decide +kernel⟩
  · exact ⟨gx, 0x100#32, by decide +kernel⟩
  · exact ⟨uv (inp 0 gx), 0, by decide +kernel⟩
  · exact ⟨uv (inp 0 gx), 0, 0, by decide +kernel⟩
  · exact ⟨gx, 0x0#12, 0x0#12, by decide +kernel⟩
  · exact ⟨mir (out gx), 0x0#32, by decide +kernel⟩

theorem witness_FieldCommandsEdgesAndSuppliesAct_2 :
  (∃ (s : State) (v : Word),
    let n : Nat := v.toNat / 4096 % 16
    let m : Nat := s.rd P.fio Reg.FIO_GLB_mirror_ch
    let was : Prop := s.rdb P.fio Reg.FIO_GLB_mirror_en = true
    let asks : Prop := bit v.toNat 8 = true
    s.calm ∧
    s.reaches (P.fio + 128) ∧
    was ∧
    n ≠ m ∧
    (¬asks)) ∧
  (∃ (s : State) (ch : Fin 16) (lvl : Bool) (who : Requester) (n : Nat),
    let mine : Prop := s.rd P.fio Reg.CLAIM_FIO_owner ch.val = 4 ∧ s.rd P.fio Reg.CLAIM_FIO_unit ch.val = if who = Requester.driver then 0 else 1
    let new : Prop := s.rdb P.fio Reg.FIO_CH_OUT_lvl ch.val = !lvl
    let waits : Prop := s.field.gpLeft = 0 ∨ s.field.gpWait ≠ []
    s.atRest ∧
    s.reaches (P.fio + 268 + 32 * ch.val) ∧
    mine ∧
    new ∧
    (¬waits) ∧
    n < 16 ∧
    n ≠ ch.val) ∧
  (∃ (s : State) (vin : BitVec 12),
    let lost : Prop := s.rd P.fio Reg.FIO_GLB_path = 2
    let low : Nat := if vin.toNat < 1800 then s.field.lowRun + 1 else 0
    let uv : Prop := s.rdb P.fio Reg.FIO_SUP_uv = true
    let goes : Prop := ¬lost ∧ 3 ≤ low ∧ ¬uv
    s.calm ∧
    goes) ∧
  (∃ (s : State) (ch : Fin 16),
    let asked : Prop := Option.map Prod.fst s.field.measPending = some ch.val
    s.atRest ∧
    asked) ∧
  (∃ (s : State) (vin : BitVec 12),
    let lost : Prop := s.rd P.fio Reg.FIO_GLB_path = 2
    let low : Nat := if vin.toNat < 1800 then s.field.lowRun + 1 else 0
    let high : Nat := if 1900 ≤ vin.toNat then s.field.highRun + 1 else 0
    let uv : Prop := s.rdb P.fio Reg.FIO_SUP_uv = true
    let back : Prop := ¬lost ∧ 101 ≤ high ∧ uv ∧ ¬3 ≤ low
    s.calm ∧
    back) ∧
  (∃ (s : State) (v : Word),
    let n : Nat := v.toNat / 4096 % 16
    let was : Prop := s.rdb P.fio Reg.FIO_GLB_mirror_en = true
    let asks : Prop := bit v.toNat 8 = true
    let free : Prop := s.permits (chanRes n) 1 = true ∧ s.owner (chanRes n) = 0
    s.calm ∧
    s.reaches (P.fio + 128) ∧
    (¬was) ∧
    asks ∧
    free) ∧
  (∃ (s : State),
    let lost : Prop := s.rd P.fio Reg.FIO_GLB_path = 2
    s.calm ∧
    lost) ∧
  (∃ (s : State) (ch : Fin 16) (who : Requester),
    let mine : Prop := s.rd P.fio Reg.CLAIM_FIO_owner ch.val = 4 ∧ s.rd P.fio Reg.CLAIM_FIO_unit ch.val = if who = Requester.driver then 0 else 1
    s.atRest ∧
    s.reaches (P.fio + 268 + 32 * ch.val) ∧
    (¬mine)) ∧
  (∃ (s : State) (v : Word),
    let goes : Prop := bit v.toNat 8 = true ∧ s.rd P.fio Reg.FIO_GLB_path = 0
    let waits : Prop := s.field.gpLeft = 0 ∨ s.field.gpWait ≠ []
    s.atRest ∧
    s.reaches (P.fio + 140) ∧
    goes ∧
    waits) := by
  refine ⟨?_, ?_, ?_, ?_, ?_, ?_, ?_, ?_, ?_⟩
  · exact ⟨mir (out gx), 0x0#32, by decide +kernel⟩
  · exact ⟨gp 2 [] (out gx), 3, true, Requester.driver, 0, by decide +kernel⟩
  · exact ⟨lr 2 100 ((out gx).wr P.fio Reg.FIO_SUP_uv 0), 0x0#12, by decide +kernel⟩
  · exact ⟨gp 2 [] (out gx), 3, by decide +kernel⟩
  · exact ⟨uv (lr 2 100 gx), 0x76c#12, by decide +kernel⟩
  · exact ⟨(out gx).wr P.fio Reg.CLAIM_FIO_owner 0 4, 0x4100#32, by decide +kernel⟩
  · exact ⟨pth 2 (inp 1 gx), by decide +kernel⟩
  · exact ⟨gx, 0, Requester.driver, by decide +kernel⟩
  · exact ⟨gp 0 [(3,0)] (out gx), 0x100#32, by decide +kernel⟩

theorem witness_FieldCommandsEdgesAndSuppliesAct_3 :
  (∃ (s : State) (ch : Fin 16) (level : Bool) (age : BitVec 32) (errored : BitVec 8),
    let shown : Prop := s.rdb P.fio Reg.FIO_CH_CFG_dir ch.val = false ∧ s.noPath = false ∧ s.works P.fio = true ∧ s.rdb P.fio Reg.FIO_CH_STAT_level ch.val = !level ∧ ¬(level = true ∧ s.rdb P.fio Reg.FIO_CH_STAT_wb ch.val = true)
    let slots : Nat := if s.rd P.fio Reg.FIO_GLB_path = 0 then errored.toNat else 0
    let delay : Nat := age.toNat + 20 * slots + (max 1 (s.rd P.fio Reg.FIO_CH_IN_filt_n ch.val) - 1) * s.samplePeriod ch.val
    let interp : Prop := 20480 < delay
    s.calm ∧
    shown ∧
    interp) ∧
  (∃ (s : State) (ch : Fin 16) (lvl : Bool) (who : Requester),
    let mine : Prop := s.rd P.fio Reg.CLAIM_FIO_owner ch.val = 4 ∧ s.rd P.fio Reg.CLAIM_FIO_unit ch.val = if who = Requester.driver then 0 else 1
    let new : Prop := s.rdb P.fio Reg.FIO_CH_OUT_lvl ch.val = !lvl
    let waits : Prop := s.field.gpLeft = 0 ∨ s.field.gpWait ≠ []
    s.atRest ∧
    s.reaches (P.fio + 268 + 32 * ch.val) ∧
    mine ∧
    new ∧
    waits) ∧
  (∃ (s : State) (ch : Fin 16) (level : Bool) (k : Nat),
    let shown : Prop := s.rdb P.fio Reg.FIO_CH_CFG_dir ch.val = false ∧ s.noPath = false ∧ s.works P.fio = true ∧ s.rdb P.fio Reg.FIO_CH_STAT_level ch.val = !level ∧ ¬(level = true ∧ s.rdb P.fio Reg.FIO_CH_STAT_wb ch.val = true)
    let eye : Nat → Prop := fun k => s.rdb P.fio Reg.FIO_EYE_en k = true ∧ s.rd P.fio Reg.FIO_EYE_ch k = ch.val
    let lead : Nat → Prop := fun k => level = !s.rdb P.fio Reg.FIO_EYE_pol k
    s.calm ∧
    shown ∧
    s.rdb P.fio Reg.FIO_CH_CFG_evt ch.val = true ∧
    k < 8 ∧
    eye k ∧
    lead k) ∧
  (∃ (s : State) (k : Fin 8) (j : Nat),
    let above : Prop := bit (s.rd P.fio Reg.FIO_LS_ovl) k.val = true
    s.calm ∧
    (¬above) ∧
    j < 8) ∧
  (∃ (s : State) (ch : Fin 16),
    let asked : Prop := Option.map Prod.fst s.field.measPending = some ch.val
    s.atRest ∧
    (¬asked)) ∧
  (∃ (s : State) (v : Word) (n : Nat),
    let goes : Prop := bit v.toNat 8 = true ∧ s.rd P.fio Reg.FIO_GLB_path = 0
    let waits : Prop := s.field.gpLeft = 0 ∨ s.field.gpWait ≠ []
    s.atRest ∧
    s.reaches (P.fio + 140) ∧
    goes ∧
    (¬waits) ∧
    n < 16) ∧
  (∃ (s : State) (v : Word),
    let was : Prop := s.rdb P.fio Reg.FIO_GLB_mirror_en = true
    let asks : Prop := bit v.toNat 8 = true
    s.calm ∧
    s.reaches (P.fio + 128) ∧
    (¬was) ∧
    (¬asks)) ∧
  (∃ (s : State) (v : Word),
    let n : Nat := v.toNat / 4096 % 16
    let m : Nat := s.rd P.fio Reg.FIO_GLB_mirror_ch
    let was : Prop := s.rdb P.fio Reg.FIO_GLB_mirror_en = true
    let asks : Prop := bit v.toNat 8 = true
    s.calm ∧
    s.reaches (P.fio + 128) ∧
    was ∧
    n ≠ m ∧
    asks) ∧
  (∃ (s : State) (ch : Fin 16) (lvl : Bool) (who : Requester),
    let mine : Prop := s.rd P.fio Reg.CLAIM_FIO_owner ch.val = 4 ∧ s.rd P.fio Reg.CLAIM_FIO_unit ch.val = if who = Requester.driver then 0 else 1
    let new : Prop := s.rdb P.fio Reg.FIO_CH_OUT_lvl ch.val = !lvl
    s.atRest ∧
    s.reaches (P.fio + 268 + 32 * ch.val) ∧
    mine ∧
    (¬new)) := by
  refine ⟨?_, ?_, ?_, ?_, ?_, ?_, ?_, ?_, ?_⟩
  · exact ⟨gx, 0, true, 0x7530#32, 0x0#8, by decide +kernel⟩
  · exact ⟨gp 0 [(3,0)] (out gx), 3, true, Requester.driver, by decide +kernel⟩
  · exact ⟨inp 0 gx, 0, true, 2, by decide +kernel⟩
  · exact ⟨gx, 0, 0, by decide +kernel⟩
  · exact ⟨gx, 0, by decide +kernel⟩
  · exact ⟨gx, 0x100#32, 0, by decide +kernel⟩
  · exact ⟨gx, 0x0#32, by decide +kernel⟩
  · exact ⟨mir (out gx), 0x100#32, by decide +kernel⟩
  · exact ⟨mir (out gx), 4, false, Requester.driver, by decide +kernel⟩

end WitF

/-! #### Witnesses: Ethernet and time -/

namespace WitT

def gx : State := (go2.wr (P.eth 1) Reg.ETH_PORT_CFG_en 1).wr (P.eth 1) Reg.ETH_PORT_STAT_link 1
def bry (bad : Nat) : List Byte := (gx.macOf 1) ++ [0,0,0,0,0,0, 8,0, 0x45,0,0,0, 0,0,0,0, 64,17,0,0, 1,2,3,4] ++ [192,168,0,5] ++ [0,0] ++ be16 (gx.rd P.bry Reg.BRY_UDP_port) ++ [0,43,0,0] ++ [0xde, 0xb7, BitVec.ofNat 8 (1 + bad), 1, 1,0, 2,0, 3,0, 0,0, 1,0,0,0, 1,0,0,0, 0,0,0,0, 3,0, 0,0,0,0,0,0] ++ [1,2, BitVec.ofNat 8 3] ++ (if bad = 1 then [1] else [])
def ip (s : State) := s.wr P.bry Reg.BRY_IP_addr 0xc0a80005
def bk (s : State) := {s with seq := {s.seq with power := .banked}}
def sf (a b : Nat) (s : State) := ((s.wr (P.eth 1) Reg.ETH_PORT_STAT_sfp_pwr a).wr (P.eth 1) Reg.ETH_PORT_STAT_ocp b).wr (P.eth 1) Reg.ETH_PORT_STAT_present 1
def adj (n : Nat) (s : State) := ((s.wr P.ptp Reg.PTP_ADJ_offset_lo n).wr P.rtu Reg.RTU_GRP_CFG_armed 1 3).wr P.rtu Reg.RTU_GRP_CFG_kind 1 3
def fl (n : Nat) (s : State) := (s.wr (P.eth 1) Reg.BLK_STAT_state n).wr P.ptp Reg.BLK_STAT_state n
def off (s : State) : State := {s with seq := {s.seq with phase := .warmHeld}}
def run (b : Bool) (s : State) : State := {(s.wr P.ptp Reg.BLK_CTRL_en (if b then 1 else 0)) with ptp := {s.ptp with running := b}}
def tq (n : Nat) (s : State) := s.setPort 1 {s.port 1 with tsq := List.replicate n { id := 3, isSlot := false, slot := 0, late := false, time := 8}, fetched := [3,4,31], buf := [(3, List.replicate 70 4), (4, List.replicate 65 5)]}
def slot (st ow : Nat) (f : Bool) (s : State) : State := Id.run do
  let mut s := s
  for i in [3,4] do
    s := ((s.setOwner (slotRes 1 i) ow 1).setSlot 1 i st)
    s := if f then s else s.putFetched 1 i false
    s := (s.wr2 (P.eth 1) Reg.LSLOT_TIME_time_lo Reg.LSLOT_TIME_time_hi (s.now + 100 * i) i).wr (P.eth 1) Reg.LSLOT_CFG_len 70 i
  s := (s.wr (P.eth 1) Reg.LSLOT_CFG_ts_en 1 4).wr (P.eth 1) Reg.LSLOT_CFG_time_en 1 4
  s := s.putFetched 1 31 false
  pure s
def late (s : State) := ((s.wr2 (P.eth 1) Reg.LSLOT_TIME_time_lo Reg.LSLOT_TIME_time_hi (s.now - 100) 3).wr2 (P.eth 1) Reg.LSLOT_TIME_time_lo Reg.LSLOT_TIME_time_hi (s.now - 200) 4).wr (P.eth 1) Reg.LSLOT_SRC_addr_lo 0x20000 3

theorem witness_FramesLinksAndTimeAreKept_1 :
  (∃ (s : State) (p : Fin 2),
    let b : Nat := P.eth p.val
    let on : Prop := s.rdb b Reg.ETH_PORT_STAT_sfp_pwr = true
    s.calm ∧
    on) ∧
  (∃ (s : State) (p : Fin 2) (up : Bool),
    let b : Nat := P.eth p.val
    let new : Prop := s.rdb b Reg.ETH_PORT_STAT_link = !up ∧ (up = true → s.rdb b Reg.ETH_PORT_CFG_en = true ∧ s.hostReach = true)
    s.calm ∧
    new ∧
    up = false) ∧
  (∃ (s : State),
    let was : Prop := s.rdb P.ptp Reg.PTP_CTL_valid = true
    s.calm ∧
    (¬was)) ∧
  (∃ (s : State),
    s.calm ∧
    s.hostReach = true) ∧
  (∃ (s : State),
    s.atRest ∧
    s.reaches (P.ptp + 80)) ∧
  (∃ (s : State) (v : Word),
    let d : Int := sext 64 (s.rd2 P.ptp Reg.PTP_ADJ_offset_lo Reg.PTP_ADJ_offset_hi)
    let steps : Prop := v.toNat % 2 = 1
    let armed : Prop := ∃ g, g ∈ List.range 32 ∧ s.rd P.rtu Reg.RTU_GRP_CFG_armed g = 1 ∧ s.rd P.rtu Reg.RTU_GRP_CFG_kind g = 1
    let held : Prop := s.rd P.ptp Reg.BLK_CTRL_en = 1 ∧ s.ptp.running = true ∧ s.works P.ptp = true
    let stored : Nat := bits v.toNat 8 24
    let changed : Prop := bits (s.readWord (P.ptp + 84)) 8 24 ≠ stored
    let refused : Prop := armed ∧ (if held then s.rd P.ptp Reg.PTP_CTL_step_lim else v.toNat / 65536) < d.natAbs
    let valid : Nat := v.toNat / 2 % 2
    let new : Prop := s.rd P.ptp Reg.PTP_CTL_valid ≠ valid
    s.calm ∧
    s.reaches (P.ptp + 84) ∧
    (¬held) ∧
    (¬held ∨ ¬changed) ∧
    (¬new) ∧
    steps ∧
    (¬refused)) ∧
  (∃ (s : State) (v : Word),
    let d : Int := sext 64 (s.rd2 P.ptp Reg.PTP_ADJ_offset_lo Reg.PTP_ADJ_offset_hi)
    let steps : Prop := v.toNat % 2 = 1
    let armed : Prop := ∃ g, g ∈ List.range 32 ∧ s.rd P.rtu Reg.RTU_GRP_CFG_armed g = 1 ∧ s.rd P.rtu Reg.RTU_GRP_CFG_kind g = 1
    let held : Prop := s.rd P.ptp Reg.BLK_CTRL_en = 1 ∧ s.ptp.running = true ∧ s.works P.ptp = true
    let refused : Prop := armed ∧ (if held then s.rd P.ptp Reg.PTP_CTL_step_lim else v.toNat / 65536) < d.natAbs
    let valid : Nat := v.toNat / 2 % 2
    let new : Prop := s.rd P.ptp Reg.PTP_CTL_valid ≠ valid
    s.calm ∧
    s.reaches (P.ptp + 84) ∧
    steps ∧
    refused ∧
    new ∧
    valid = 0) := by
  refine ⟨?_, ?_, ?_, ?_, ?_, ?_, ?_⟩
  · exact ⟨sf 1 0 gx, 1, by decide +kernel⟩
  · exact ⟨sf 1 0 gx, 1, false, by decide +kernel⟩
  · exact ⟨sf 1 0 gx, by decide +kernel⟩
  · exact ⟨sf 1 0 gx, by decide +kernel⟩
  · exact ⟨gx, by decide +kernel⟩
  · exact ⟨gx, 0x1#32, by decide +kernel⟩
  · exact ⟨(adj 30000 gx).wr P.ptp Reg.PTP_CTL_valid 1, 0x1#32, by decide +kernel⟩

theorem witness_FramesLinksAndTimeAreKept_2 :
  (∃ (s : State),
    let was : Prop := s.rdb P.ptp Reg.PTP_CTL_valid = true
    s.calm ∧
    was) ∧
  (∃ (s : State) (p : Fin 2),
    let b : Nat := P.eth p.val
    let on : Prop := s.rdb b Reg.ETH_PORT_STAT_sfp_pwr = true
    s.calm ∧
    (¬on)) ∧
  (∃ (s : State) (v : Word),
    let steps : Prop := v.toNat % 2 = 1
    let held : Prop := s.rd P.ptp Reg.BLK_CTRL_en = 1 ∧ s.ptp.running = true ∧ s.works P.ptp = true
    let stored : Nat := bits v.toNat 8 24
    let changed : Prop := bits (s.readWord (P.ptp + 84)) 8 24 ≠ stored
    let valid : Nat := v.toNat / 2 % 2
    let new : Prop := s.rd P.ptp Reg.PTP_CTL_valid ≠ valid
    s.calm ∧
    s.reaches (P.ptp + 84) ∧
    (¬steps) ∧
    new ∧
    held ∧
    changed) ∧
  (∃ (s : State) (p : Fin 2) (f : List Byte) (fcsOk : Bool) (q : Nat),
    let b : Nat := P.eth p.val
    let up : Prop := s.hostReach = true ∧ s.works b = true ∧ s.rdb b Reg.ETH_PORT_CFG_en = true ∧ s.rdb b Reg.ETH_PORT_STAT_link = true
    let mac : List Byte := le 4 (s.rd b Reg.ETH_MAC_addr_lo) ++ le 2 (s.rd b Reg.ETH_MAC_addr_hi)
    let mine : Prop := List.take 6 f = mac ∨ List.take 6 f = List.replicate 6 255 ∨ List.take 6 f ∈ ptpMacs
    let drop : Nat := if fcsOk = false then 2064 else if isPause f = true then 2080 else if mine then 0 else 2072
    let wakes : Prop := List.take 6 f = mac ∧ s.seq.power = ChipPower.banked
    let bry : Prop := s.isBrynade f = true
    s.atRest ∧
    up ∧
    drop = 0 ∧
    (¬wakes) ∧
    (¬bry) ∧
    q < 2 ∧
    q ≠ p.val) ∧
  (∃ (s : State) (p : Fin 2) (v : Word),
    let b : Nat := P.eth p.val
    let back : Prop := bit v.toNat 8 = true ∧ s.rdb b Reg.ETH_PORT_STAT_ocp = true
    s.atRest ∧
    s.reaches (P.eth p.val + 192) ∧
    back) ∧
  (∃ (s : State) (p : Fin 2) (up : Bool),
    let b : Nat := P.eth p.val
    let new : Prop := s.rdb b Reg.ETH_PORT_STAT_link = !up ∧ (up = true → s.rdb b Reg.ETH_PORT_CFG_en = true ∧ s.hostReach = true)
    s.calm ∧
    new ∧
    up = true) ∧
  (∃ (s : State) (p : Fin 2) (f : List Byte) (fcsOk : Bool),
    let b : Nat := P.eth p.val
    let up : Prop := s.hostReach = true ∧ s.works b = true ∧ s.rdb b Reg.ETH_PORT_CFG_en = true ∧ s.rdb b Reg.ETH_PORT_STAT_link = true
    let mac : List Byte := le 4 (s.rd b Reg.ETH_MAC_addr_lo) ++ le 2 (s.rd b Reg.ETH_MAC_addr_hi)
    let mine : Prop := List.take 6 f = mac ∨ List.take 6 f = List.replicate 6 255 ∨ List.take 6 f ∈ ptpMacs
    let drop : Nat := if fcsOk = false then 2064 else if isPause f = true then 2080 else if mine then 0 else 2072
    s.atRest ∧
    up ∧
    drop ≠ 0) := by
  refine ⟨?_, ?_, ?_, ?_, ?_, ?_, ?_⟩
  · exact ⟨(adj 30000 gx).wr P.ptp Reg.PTP_CTL_valid 1, by decide +kernel⟩
  · exact ⟨gx, 0, by decide +kernel⟩
  · exact ⟨run true gx, 0x2#32, by decide +kernel⟩
  · exact ⟨gx, 1, [0x1#8, 0x1b#8, 0x19#8, 0x0#8, 0x0#8, 0x0#8, 0x3#8, 0x4#8], true, 0, by decide +kernel⟩
  · exact ⟨sf 0 1 gx, 1, 0x103#32, by decide +kernel⟩
  · exact ⟨gx.wr (P.eth 1) Reg.ETH_PORT_STAT_link 0, 1, true, by decide +kernel⟩
  · exact ⟨gx, 1, [0x1#8, 0x1b#8, 0x19#8, 0x0#8, 0x0#8, 0x0#8, 0x3#8, 0x4#8], false, by decide +kernel⟩

theorem witness_FramesLinksAndTimeAreKept_3 :
  (∃ (s : State) (p : Fin 2) (f : List Byte) (fcsOk : Bool),
    let b : Nat := P.eth p.val
    let up : Prop := s.hostReach = true ∧ s.works b = true ∧ s.rdb b Reg.ETH_PORT_CFG_en = true ∧ s.rdb b Reg.ETH_PORT_STAT_link = true
    let mac : List Byte := le 4 (s.rd b Reg.ETH_MAC_addr_lo) ++ le 2 (s.rd b Reg.ETH_MAC_addr_hi)
    let mine : Prop := List.take 6 f = mac ∨ List.take 6 f = List.replicate 6 255 ∨ List.take 6 f ∈ ptpMacs
    let drop : Nat := if fcsOk = false then 2064 else if isPause f = true then 2080 else if mine then 0 else 2072
    let wakes : Prop := List.take 6 f = mac ∧ s.seq.power = ChipPower.banked
    let bry : Prop := s.isBrynade f = true
    let good : Prop := (bryParse f).snd.wellFormed = true
    s.atRest ∧
    up ∧
    drop = 0 ∧
    (¬wakes) ∧
    bry ∧
    good) ∧
  (∃ (s : State) (p : Fin 2) (f : List Byte) (fcsOk : Bool),
    let b : Nat := P.eth p.val
    let up : Prop := s.hostReach = true ∧ s.works b = true ∧ s.rdb b Reg.ETH_PORT_CFG_en = true ∧ s.rdb b Reg.ETH_PORT_STAT_link = true
    let mac : List Byte := le 4 (s.rd b Reg.ETH_MAC_addr_lo) ++ le 2 (s.rd b Reg.ETH_MAC_addr_hi)
    let mine : Prop := List.take 6 f = mac ∨ List.take 6 f = List.replicate 6 255 ∨ List.take 6 f ∈ ptpMacs
    let drop : Nat := if fcsOk = false then 2064 else if isPause f = true then 2080 else if mine then 0 else 2072
    let wakes : Prop := List.take 6 f = mac ∧ s.seq.power = ChipPower.banked
    let bry : Prop := s.isBrynade f = true
    let good : Prop := (bryParse f).snd.wellFormed = true
    s.atRest ∧
    up ∧
    drop = 0 ∧
    (¬wakes) ∧
    bry ∧
    (¬good)) ∧
  (∃ (s : State),
    s.calm ∧
    s.hostReach = false) ∧
  (∃ (s : State) (p : Fin 2) (v : Word),
    let b : Nat := P.eth p.val
    let later : Prop := s.heldBack (b + 192) = true
    let t : State := after (exec (Instr.sfpRst p v) s)
    s.atRest ∧
    s.reaches (P.eth p.val + 192) ∧
    later ∧
    t.rd b Reg.ETH_PORT_CFG_en = s.rd b Reg.ETH_PORT_CFG_en) ∧
  (∃ (s : State) (p : Fin 2) (v : Word),
    let b : Nat := P.eth p.val
    let later : Prop := s.heldBack (b + 192) = true
    s.atRest ∧
    s.reaches (P.eth p.val + 192) ∧
    (¬later) ∧
    bit v.toNat 0 = true ∧
    s.rd b Reg.BLK_STAT_state = idleHeld) ∧
  (∃ (s : State) (p : Fin 2),
    let b : Nat := P.eth p.val
    let up : Prop := s.hostReach = true ∧ s.works b = true ∧ s.rdb b Reg.ETH_PORT_CFG_en = true ∧ s.rdb b Reg.ETH_PORT_STAT_link = true
    s.atRest ∧
    (¬up)) ∧
  (∃ (s : State) (p : Fin 2) (f : List Byte) (fcsOk : Bool),
    let b : Nat := P.eth p.val
    let up : Prop := s.hostReach = true ∧ s.works b = true ∧ s.rdb b Reg.ETH_PORT_CFG_en = true ∧ s.rdb b Reg.ETH_PORT_STAT_link = true
    let mac : List Byte := le 4 (s.rd b Reg.ETH_MAC_addr_lo) ++ le 2 (s.rd b Reg.ETH_MAC_addr_hi)
    let mine : Prop := List.take 6 f = mac ∨ List.take 6 f = List.replicate 6 255 ∨ List.take 6 f ∈ ptpMacs
    let drop : Nat := if fcsOk = false then 2064 else if isPause f = true then 2080 else if mine then 0 else 2072
    let wakes : Prop := List.take 6 f = mac ∧ s.seq.power = ChipPower.banked
    s.atRest ∧
    up ∧
    drop = 0 ∧
    wakes) := by
  refine ⟨?_, ?_, ?_, ?_, ?_, ?_, ?_⟩
  · exact ⟨ip gx, 1, [0x0#8, 0x0#8, 0x0#8, 0x0#8, 0x0#8, 0x0#8, 0x0#8, 0x0#8, 0x0#8, 0x0#8, 0x0#8, 0x0#8, 0x8#8, 0x0#8, 0x45#8, 0x0#8, 0x0#8, 0x0#8, 0x0#8, 0x0#8, 0x0#8, 0x0#8, 0x40#8, 0x11#8, 0x0#8, 0x0#8, 0x1#8, 0x2#8, 0x3#8, 0x4#8, 0xc0#8, 0xa8#8, 0x0#8, 0x5#8, 0x0#8, 0x0#8, 0xb8#8, 0x60#8, 0x0#8, 0x2b#8, 0x0#8, 0x0#8, 0xde#8, 0xb7#8, 0x1#8, 0x1#8, 0x1#8, 0x0#8, 0x2#8, 0x0#8, 0x3#8, 0x0#8, 0x0#8, 0x0#8, 0x1#8, 0x0#8, 0x0#8, 0x0#8, 0x1#8, 0x0#8, 0x0#8, 0x0#8, 0x0#8, 0x0#8, 0x0#8, 0x0#8, 0x3#8, 0x0#8, 0x0#8, 0x0#8, 0x0#8, 0x0#8, 0x0#8, 0x0#8, 0x1#8, 0x2#8, 0x3#8], true, by decide +kernel⟩
  · exact ⟨ip gx, 1, [0x0#8, 0x0#8, 0x0#8, 0x0#8, 0x0#8, 0x0#8, 0x0#8, 0x0#8, 0x0#8, 0x0#8, 0x0#8, 0x0#8, 0x8#8, 0x0#8, 0x45#8, 0x0#8, 0x0#8, 0x0#8, 0x0#8, 0x0#8, 0x0#8, 0x0#8, 0x40#8, 0x11#8, 0x0#8, 0x0#8, 0x1#8, 0x2#8, 0x3#8, 0x4#8, 0xc0#8, 0xa8#8, 0x0#8, 0x5#8, 0x0#8, 0x0#8, 0xb8#8, 0x60#8, 0x0#8, 0x2b#8, 0x0#8, 0x0#8, 0xde#8, 0xb7#8, 0x2#8, 0x1#8, 0x1#8, 0x0#8, 0x2#8, 0x0#8, 0x3#8, 0x0#8, 0x0#8, 0x0#8, 0x1#8, 0x0#8, 0x0#8, 0x0#8, 0x1#8, 0x0#8, 0x0#8, 0x0#8, 0x0#8, 0x0#8, 0x0#8, 0x0#8, 0x3#8, 0x0#8, 0x0#8, 0x0#8, 0x0#8, 0x0#8, 0x0#8, 0x0#8, 0x1#8, 0x2#8, 0x3#8, 0x1#8], true, by decide +kernel⟩
  · exact ⟨off gx, by decide +kernel⟩
  · exact ⟨gx, 1, 0x0#32, by decide +kernel⟩
  · exact ⟨fl 1 gx, 1, 0x1#32, by decide +kernel⟩
  · exact ⟨gx, 0, by decide +kernel⟩
  · exact ⟨bk gx, 1, [0x0#8, 0x0#8, 0x0#8, 0x0#8, 0x0#8, 0x0#8, 0x0#8, 0x0#8, 0x0#8, 0x0#8, 0x0#8, 0x0#8, 0x8#8, 0x0#8, 0x45#8, 0x0#8, 0x0#8, 0x0#8, 0x0#8, 0x0#8, 0x0#8, 0x0#8, 0x40#8, 0x11#8, 0x0#8, 0x0#8, 0x1#8, 0x2#8, 0x3#8, 0x4#8, 0xc0#8, 0xa8#8, 0x0#8, 0x5#8, 0x0#8, 0x0#8, 0xb8#8, 0x60#8, 0x0#8, 0x2b#8, 0x0#8, 0x0#8, 0xde#8, 0xb7#8, 0x1#8, 0x1#8, 0x1#8, 0x0#8, 0x2#8, 0x0#8, 0x3#8, 0x0#8, 0x0#8, 0x0#8, 0x1#8, 0x0#8, 0x0#8, 0x0#8, 0x1#8, 0x0#8, 0x0#8, 0x0#8, 0x0#8, 0x0#8, 0x0#8, 0x0#8, 0x3#8, 0x0#8, 0x0#8, 0x0#8, 0x0#8, 0x0#8, 0x0#8, 0x0#8, 0x1#8, 0x2#8, 0x3#8], true, by decide +kernel⟩

theorem witness_SlotsLoadLaunchAndAreStamped_1 :
  (∃ (s : State) (p : Fin 2) (i : Fin 32),
    let loads : Prop := s.clocked = true ∧ s.slotState p.val i.val = 1
    s.calm ∧
    (¬loads)) ∧
  (∃ (s : State) (p : Fin 2),
    s.atRest ∧
    s.reaches (P.eth p.val + 236) ∧
    (s.port p.val).tsq = []) ∧
  (∃ (s : State) (p : Fin 2) (i : Fin 32) (v : Word) (who : Requester),
    let r : Res := slotRes p.val i.val
    let u : Nat := if who = Requester.driver then 0 else 1
    let mine : Prop := s.owner r = 4 ∧ s.ownerUnit r = u
    let other : Prop := ¬mine ∧ s.owner r ≠ 0
    let go : Prop := bit v.toNat 0 = true
    let cancel : Prop := bit v.toNat 1 = true
    let fetched : Prop := s.slotFetched p.val i.val = true
    let st : Nat := s.slotState p.val i.val
    let refused : Prop := mine ∧ fetched ∨ mine ∧ cancel ∧ st ≠ 2 ∨ s.owner r = 0 ∧ (go ∨ cancel) ∨ other
    s.calm ∧
    s.reaches (P.eth p.val + 524 + 32 * i.val) ∧
    (¬(other ∧ go)) ∧
    refused) ∧
  (∃ (s : State) (p : Fin 2) (i : Fin 32),
    let goes : Prop := s.slotFetched p.val i.val = true ∧ ∀ (j : Nat), j ∈ (s.port p.val).fetched → s.slotTime p.val i.val < s.slotTime p.val j ∨ s.slotTime p.val i.val = s.slotTime p.val j ∧ i.val ≤ j
    s.calm ∧
    (¬goes)) ∧
  (∃ (s : State) (p : Fin 2) (i : Fin 32) (v : Word) (who : Requester),
    let r : Res := slotRes p.val i.val
    let u : Nat := if who = Requester.driver then 0 else 1
    let mine : Prop := s.owner r = 4 ∧ s.ownerUnit r = u
    let other : Prop := ¬mine ∧ s.owner r ≠ 0
    let go : Prop := bit v.toNat 0 = true
    s.calm ∧
    s.reaches (P.eth p.val + 524 + 32 * i.val) ∧
    other ∧
    go) ∧
  (∃ (s : State) (p : Fin 2) (i : Fin 32),
    let b : Nat := P.eth p.val
    let goes : Prop := s.slotFetched p.val i.val = true ∧ ∀ (j : Nat), j ∈ (s.port p.val).fetched → s.slotTime p.val i.val < s.slotTime p.val j ∨ s.slotTime p.val i.val = s.slotTime p.val j ∧ i.val ≤ j
    let drops : Prop := s.txDisabled p.val = true ∨ s.rdb b Reg.ETH_PORT_STAT_link = false ∨ s.works b = false ∨ s.owner (slotRes p.val i.val) = 2 ∧ s.modState = 3
    s.calm ∧
    goes ∧
    drops) ∧
  (∃ (s : State) (p : Fin 2) (i : Fin 32) (readOk : Bool) (j : Nat),
    let src : Nat := s.rd2 (P.eth p.val) Reg.LSLOT_SRC_addr_lo Reg.LSLOT_SRC_addr_hi i.val
    let n : Nat := s.rd (P.eth p.val) Reg.LSLOT_CFG_len i.val
    let placed : Prop := 60 ≤ n ∧ n ≤ 1514 ∧ s.slotSource src n = true
    let ok : Prop := readOk = true ∧ placed ∧ (s.fetch 3 src n).snd = false
    let loads : Prop := s.clocked = true ∧ s.slotState p.val i.val = 1
    s.calm ∧
    loads ∧
    ok ∧
    j < 32 ∧
    j ≠ i.val) ∧
  (∃ (s : State) (p : Fin 2) (i : Fin 32) (readOk : Bool) (j : Nat),
    let src : Nat := s.rd2 (P.eth p.val) Reg.LSLOT_SRC_addr_lo Reg.LSLOT_SRC_addr_hi i.val
    let n : Nat := s.rd (P.eth p.val) Reg.LSLOT_CFG_len i.val
    let placed : Prop := 60 ≤ n ∧ n ≤ 1514 ∧ s.slotSource src n = true
    let ok : Prop := readOk = true ∧ placed ∧ (s.fetch 3 src n).snd = false
    let loads : Prop := s.clocked = true ∧ s.slotState p.val i.val = 1
    s.calm ∧
    loads ∧
    (¬ok) ∧
    j < 32 ∧
    placed) := by
  refine ⟨?_, ?_, ?_, ?_, ?_, ?_, ?_, ?_⟩
  · exact ⟨(tq 3 gx).wr (P.eth 1) Reg.ETH_TS_CORR_tx_ext 0x1ff, 1, 3, by decide +kernel⟩
  · exact ⟨gx, 0, by decide +kernel⟩
  · exact ⟨gx, 0, 0, 0x1#32, Requester.driver, by decide +kernel⟩
  · exact ⟨gx, 0, 0, by decide +kernel⟩
  · exact ⟨fl 1 (slot 2 4 true (tq 3 gx)), 1, 3, 0x1#32, Requester.driver, by decide +kernel⟩
  · exact ⟨fl 1 (slot 2 4 true (tq 3 gx)), 1, 3, by decide +kernel⟩
  · exact ⟨((slot 1 4 false gx).wr2 (P.eth 1) Reg.LSLOT_SRC_addr_lo Reg.LSLOT_SRC_addr_hi 0x1000000000 3), 1, 3, true, 0, by decide +kernel⟩
  · exact ⟨((slot 1 4 false gx).wr2 (P.eth 1) Reg.LSLOT_SRC_addr_lo Reg.LSLOT_SRC_addr_hi 0x1000000000 3), 1, 3, false, 0, by decide +kernel⟩

theorem witness_SlotsLoadLaunchAndAreStamped_2 :
  (∃ (s : State) (p : Fin 2) (f : List Byte) (want : Bool),
    let b : Nat := P.eth p.val
    let rate : Nat := if s.rdb b Reg.ETH_PORT_CFG_speed = true then 10 else 25
    let goes : Prop := s.portDead p.val = false ∧ ∀ (i : Nat), i ∈ (s.port p.val).fetched → ((onWire f).length + 20) * 8 ≤ (s.slotTime p.val i - s.now) * rate
    let full : Prop := 64 ≤ (s.port p.val).tsq.length
    s.calm ∧
    goes ∧
    (want = false ∨ ¬full) ∧
    want = true ∧
    (¬full)) ∧
  (∃ (s : State) (p : Fin 2) (i : Fin 32),
    let b : Nat := P.eth p.val
    let goes : Prop := s.slotFetched p.val i.val = true ∧ ∀ (j : Nat), j ∈ (s.port p.val).fetched → s.slotTime p.val i.val < s.slotTime p.val j ∨ s.slotTime p.val i.val = s.slotTime p.val j ∧ i.val ≤ j
    let drops : Prop := s.txDisabled p.val = true ∨ s.rdb b Reg.ETH_PORT_STAT_link = false ∨ s.works b = false ∨ s.owner (slotRes p.val i.val) = 2 ∧ s.modState = 3
    let late : Prop := s.slotTime p.val i.val + 50 < s.now
    let stamps : Prop := s.rdb b Reg.LSLOT_CFG_ts_en i.val = true
    let full : Prop := 64 ≤ (s.port p.val).tsq.length
    s.calm ∧
    goes ∧
    (¬drops) ∧
    late ∧
    (¬stamps ∨ full) ∧
    stamps ∧
    full) ∧
  (∃ (s : State) (j : Nat),
    s.atRest ∧
    j < 32) ∧
  (∃ (s : State) (p : Fin 2) (f : List Byte) (want : Bool),
    let b : Nat := P.eth p.val
    let rate : Nat := if s.rdb b Reg.ETH_PORT_CFG_speed = true then 10 else 25
    let goes : Prop := s.portDead p.val = false ∧ ∀ (i : Nat), i ∈ (s.port p.val).fetched → ((onWire f).length + 20) * 8 ≤ (s.slotTime p.val i - s.now) * rate
    let full : Prop := 64 ≤ (s.port p.val).tsq.length
    s.calm ∧
    goes ∧
    want = true ∧
    full) ∧
  (∃ (s : State) (p : Fin 2) (q : Nat),
    s.atRest ∧
    s.reaches (P.eth p.val + 236) ∧
    (s.port p.val).tsq ≠ [] ∧
    q < 2 ∧
    q ≠ p.val) ∧
  (∃ (s : State) (p : Fin 2) (i : Fin 32),
    let b : Nat := P.eth p.val
    let goes : Prop := s.slotFetched p.val i.val = true ∧ ∀ (j : Nat), j ∈ (s.port p.val).fetched → s.slotTime p.val i.val < s.slotTime p.val j ∨ s.slotTime p.val i.val = s.slotTime p.val j ∧ i.val ≤ j
    let drops : Prop := s.txDisabled p.val = true ∨ s.rdb b Reg.ETH_PORT_STAT_link = false ∨ s.works b = false ∨ s.owner (slotRes p.val i.val) = 2 ∧ s.modState = 3
    let late : Prop := s.slotTime p.val i.val + 50 < s.now
    let stamps : Prop := s.rdb b Reg.LSLOT_CFG_ts_en i.val = true
    let full : Prop := 64 ≤ (s.port p.val).tsq.length
    s.calm ∧
    goes ∧
    (¬drops) ∧
    late ∧
    stamps ∧
    (¬full)) ∧
  (∃ (s : State) (p : Fin 2) (f : List Byte) (want : Bool),
    let b : Nat := P.eth p.val
    let rate : Nat := if s.rdb b Reg.ETH_PORT_CFG_speed = true then 10 else 25
    let goes : Prop := s.portDead p.val = false ∧ ∀ (i : Nat), i ∈ (s.port p.val).fetched → ((onWire f).length + 20) * 8 ≤ (s.slotTime p.val i - s.now) * rate
    let full : Prop := 64 ≤ (s.port p.val).tsq.length
    s.calm ∧
    goes ∧
    (want = false ∨ full) ∧
    (want = false ∨ ¬full)) ∧
  (∃ (s : State) (p : Fin 2) (i : Fin 32) (readOk : Bool),
    let src : Nat := s.rd2 (P.eth p.val) Reg.LSLOT_SRC_addr_lo Reg.LSLOT_SRC_addr_hi i.val
    let n : Nat := s.rd (P.eth p.val) Reg.LSLOT_CFG_len i.val
    let placed : Prop := 60 ≤ n ∧ n ≤ 1514 ∧ s.slotSource src n = true
    let ok : Prop := readOk = true ∧ placed ∧ (s.fetch 3 src n).snd = false
    let loads : Prop := s.clocked = true ∧ s.slotState p.val i.val = 1
    s.calm ∧
    loads ∧
    (¬ok) ∧
    (¬placed)) := by
  refine ⟨?_, ?_, ?_, ?_, ?_, ?_, ?_, ?_⟩
  · exact ⟨gx, 1, [0x1#8, 0x1b#8, 0x19#8, 0x0#8, 0x0#8, 0x0#8, 0x3#8, 0x4#8], true, by decide +kernel⟩
  · exact ⟨late (slot 2 4 true (tq 64 gx)), 1, 4, by decide +kernel⟩
  · exact ⟨gx, 0, by decide +kernel⟩
  · exact ⟨{tq 64 gx with ports := [(1, {((tq 64 gx).port 1) with fetched := []})]}, 1, [0x1#8, 0x1b#8, 0x19#8, 0x0#8, 0x0#8, 0x0#8, 0x3#8, 0x4#8], true, by decide +kernel⟩
  · exact ⟨slot 2 4 true (tq 3 gx), 1, 0, by decide +kernel⟩
  · exact ⟨late (slot 2 4 true (tq 3 gx)), 1, 4, by decide +kernel⟩
  · exact ⟨gx, 1, [0x1#8, 0x1b#8, 0x19#8, 0x0#8, 0x0#8, 0x0#8, 0x3#8, 0x4#8], false, by decide +kernel⟩
  · exact ⟨((slot 1 4 false gx).wr2 (P.eth 1) Reg.LSLOT_SRC_addr_lo Reg.LSLOT_SRC_addr_hi 0x1000600000 3), 1, 3, true, by decide +kernel⟩

end WitT

/-! #### Witnesses: Brynade -/

namespace WitY

def pk : BryPacket := { src := 2, dst := 5, flow := 3, flags := 0, op := 0, pseq := 10, jseq := 7, offset := 4, payload := [1,2,3], wellFormed := true }
def bil : Billet := { (default : Billet) with windows := [(0x100000,0x10000)], waits := [(0, 2, 0x100000, 100, 10)] }
def fe (k ctx peer : Nat) : List Byte := le 1 k ++ le 1 1 ++ le 1 ctx ++ le 1 1 ++ le 2 peer ++ le 2 2 ++ [192,168,0,9] ++ [2,0,0,0,0,9] ++ [0, 2]
def req (f k n a : Nat) : List Byte := le 2 f ++ le 1 k ++ le 1 0 ++ le 4 n ++ le 5 a ++ le 3 0
def um (n : Nat) : BryPacket := {pk with pseq := BitVec.ofNat 32 n}
def g : State := Id.run do
  let mut s : State := { go2 with ctxs := [(2, { (default : Ctx) with billet := some bil, jseqNext := 7 })] }
  s := (s.wr (P.schC 2) Reg.SCH_CTX_STAT_state 4)
  s := (((s.wr P.bry Reg.BRY_FLOW_N_n 8).wr P.bry Reg.BRY_FLOW_BASE_addr_lo 0x40000).wr P.bry Reg.BRY_CFG_en 1).wr P.bry Reg.BRY_CFG_module_id 5
  s := ((s.store (0x40000 + 64 * 3) (fe 1 2 2)).store (0x40000 + 64 * 4) (fe 0 2 6)).store (0x40000 + 64*5) (fe 2 2 3)
  s := s.store (0x40000 + 64*6) (fe 0 1 3)
  s := (s.wr P.bry Reg.BRY_SQ_addr 0x80 2).wr P.bry Reg.BRY_SQ_en 1 2
  s := (s.store 0x1000000080 (le 4 5 ++ le 4 4)).store (0x1000000080 + 64 + 64) (req 4 0 3000 0x100000)
  s := s.setFlow 3 { (default : Flow) with rxPseq := 10, sinceAck := 1 }
  s := s.setFlow 4 { (default : Flow) with txPseq := 14, txJseq := 3, credit := some 13, unacked := [um 10, um 11], unsent := [um 12, um 13] }
  s := ((s.wr (P.eth 1) Reg.ETH_PORT_CFG_en 1).wr (P.eth 1) Reg.ETH_PORT_STAT_link 1)
  s := {s with board := {s.board with seated := true}}
  for k in [0,1,2] do
    s := (s.wr P.bry Reg.BRY_NBR_valid 1 k).wr P.bry Reg.BRY_NBR_port 1 k
  s := {s with bry := {s.bry with edgeRx := [(0,10),(1,10),(2,10)], edgePseq := [(0,4),(1,9)], edgeUnacked := [(1, [um 10, um 11, um 12])], colls := [(9, {(default : Coll) with joined := true, instance_ := 7}), (3, {(default : Coll) with instance_ := 7})]}}
  s := s.wr P.bry Reg.BRY_CFG_coll_reset_en 1
  pure s
def rq (r : List Byte) (s : State) := s.store (0x1000000080 + 64 + 64) r
def root (s : State) := ((s.wr P.bry Reg.BRY_NBR_valid 0 0).setColl 3 {s.coll1 3 with ups := [(1,7),(2,7)]}).wr P.chip Reg.CHIP_READY_ctx_req 0
def ups (s : State) := s.setColl 3 {s.coll1 3 with ups := [(1,7),(2,7)]}
def fl (f : Flow → Flow) (s : State) := (s.setFlow 3 (f (s.flow 3))).setFlow 4 (f (s.flow 4))
def tired (s : State) := let s := fl (fun x => {x with retries := 200}) s; {s with bry := {s.bry with edgeRetries := [(1,300)]}}

theorem witness_FlowsSendAcknowledgeAndResend_1 :
  (∃ (s : State) (p : BryPacket),
    let f : Nat := p.flow.toNat
    let x : Flow := s.flow f
    let u : State := s.flowTouch f
    let alive : Prop := s.flowsAlive = true
    let good : Prop := p.wellFormed = true
    let e : FlowEntry := (u.flowKind f 1).get!
    let d : Int := seqDiff x.rxPseq p.pseq.toNat
    let j : Int := seqDiff (s.expectJseq e.ctx) p.jseq.toNat
    let past : Prop := s.jseqOver e.ctx p.jseq.toNat = true
    let full : Prop := d = 0 ∧ ¬past ∧ 0 < j ∧ e.lb ≤ x.landing.length
    let takes : Prop := d = 0 ∧ ¬full
    let fits : Prop := u.landReach e p.offset.toNat p.payload.length = true
    let lands : Prop := takes ∧ ¬past ∧ j = 0 ∧ fits
    let y : Nat × Nat × Nat := (u.waitEntry e.ctx e.engine e.wait).get!
    let b : Nat := (List.drop 0 (List.range p.payload.length)).head!
    s.atRest ∧
    alive ∧ good ∧
    u.flowKind f 1 = some e ∧
    u.ctxResident e.ctx = true ∧
    lands ∧
    u.waitEntry e.ctx e.engine e.wait = some y ∧
    u.takes (y.fst + p.offset.toNat) b) ∧
  (∃ (s : State) (p : BryPacket),
    let edge : Prop := bit p.flags.toNat 3 = true
    let k : Nat := (s.nbrOf p.src.toNat).get!
    s.calm ∧
    s.bryAlive = true ∧
    p.wellFormed = true ∧
    edge ∧
    s.nbrOf p.src.toNat = some k) ∧
  (∃ (s : State) (p : BryPacket),
    let f : Nat := p.flow.toNat
    let u : State := s.flowTouch f
    let alive : Prop := s.flowsAlive = true
    let good : Prop := p.wellFormed = true
    s.atRest ∧
    alive ∧
    good ∧
    (∀ (e : FlowEntry), u.flowKind f 1 = some e → u.ctxResident e.ctx = false)) ∧
  (∃ (s : State) (p : BryPacket),
    let f : Nat := p.flow.toNat
    let x : Flow := s.flow f
    let u : State := s.flowTouch f
    let n : Nat := p.pseq.toNat
    let base : Nat := (Option.map (fun y => y.pseq.toNat) x.unacked.head?).getD ((Option.map (fun y => y.pseq.toNat) x.unsent.head?).getD x.txPseq)
    let old : Prop := x.faulted = true ∨ seqDiff base n < 0
    let edge : Prop := bit p.flags.toNat 3 = true
    let e : FlowEntry := (u.flowKind f 0).get!
    s.calm ∧
    s.bryAlive = true ∧
    p.wellFormed = true ∧
    (¬edge) ∧
    u.flowKind f 0 = some e ∧
    (¬old)) ∧
  (∃ (s : State) (p : BryPacket),
    let f : Nat := p.flow.toNat
    let x : Flow := s.flow f
    let u : State := s.flowTouch f
    let n : Nat := p.pseq.toNat
    let left : List BryPacket := List.filter (fun y => decide (0 ≤ seqDiff n y.pseq.toNat)) x.unacked
    let resends : Prop := s.maxRetry > x.retries ∧ left ≠ []
    let e : FlowEntry := (u.flowKind f 0).get!
    s.calm ∧
    s.bryAlive = true ∧
    p.wellFormed = true ∧
    u.flowKind f 0 = some e ∧
    x.faulted = false ∧
    resends ∧
    (left = [] ∨ resends)) ∧
  (∃ (s : State) (c : Fin 8),
    let a : Nat := s.sqBase c.val
    let n : Nat := s.sqSize c.val
    let prod : Nat := unle (s.load a 4) % n
    let cons : Nat := unle (s.load (a + 4) 4) % n
    let r : List Byte := s.load (a + 64 + 16 * cons) 16
    let has : Prop := s.flowsAlive = true ∧ s.rdb P.bry Reg.BRY_SQ_en c.val = true ∧ s.sqReach c.val = true ∧ prod ≠ cons
    let v : State := (s.dmaServed (a + 64 + 16 * cons) 16).dmaPut 3 (a + 4) (le 4 ((cons + 1) % n))
    let f : Nat := unle (List.take 2 r)
    let kind : Nat := unle (List.take 1 (List.drop 2 r))
    let len : Nat := unle (List.take 4 (List.drop 4 r))
    let src : Nat := unle (List.take 5 (List.drop 8 r))
    let u : State := v.flowTouch f
    let got : State × Bool := (u.dmaServed src len).fetch 3 src len
    let readable : Prop := u.dmaReach c.val src len = true ∧ got.snd = false
    let e : FlowEntry := (u.flowEntry f).get!
    s.atRest ∧
    has ∧
    u.flowEntry f = some e ∧
    e.ctx = c.val ∧
    kind = 0 ∧
    e.kind = 0 ∧
    (s.flow f).faulted = false ∧
    readable) ∧
  (∃ (s : State) (n : BitVec 13),
    let f : Nat := n.toNat
    let x : Flow := s.flow f
    let first : Nat := (Option.map (fun y => y.pseq.toNat) x.unacked.head?).getD 0
    let again : List BryPacket := List.filter (fun y => decide (0 ≤ seqDiff first y.pseq.toNat)) x.unacked
    let idle : Prop := s.bryAlive = false ∨ 4099 ≤ f ∨ f < 4096 ∧ (x.faulted = true ∨ again = [] ∨ s.flowKind f 0 = none)
    let e : FlowEntry := (s.flowKind f 0).get!
    s.calm ∧
    (¬idle ∧ f < 4096) ∧
    s.flowKind f 0 = some e ∧
    s.maxRetry ≤ x.retries) ∧
  (∃ (s : State) (p : BryPacket),
    let good : Prop := p.wellFormed = true
    s.atRest ∧
    s.bryAlive = true ∧
    (¬good)) ∧
  (∃ (s : State) (p : BryPacket),
    s.atRest ∧
    s.bryAlive = true ∧
    p.wellFormed = false) := by
  refine ⟨?_, ?_, ?_, ?_, ?_, ?_, ?_, ?_, ?_⟩
  · exact ⟨g, { src := 0x2#16, dst := 0x5#16, flow := 0x3#16, flags := 0x8#8, op := 0x0#8, pseq := 0xa#32, jseq := 0x7#32, offset := 0x4#32, payload := [0x1#8, 0x2#8, 0x3#8], wellFormed := true }, by decide +kernel⟩
  · exact ⟨g, { src := 0x2#16, dst := 0x5#16, flow := 0x3#16, flags := 0x8#8, op := 0x0#8, pseq := 0xa#32, jseq := 0x7#32, offset := 0x4#32, payload := [0x1#8, 0x2#8, 0x3#8], wellFormed := true }, by decide +kernel⟩
  · exact ⟨g, { src := 0x2#16, dst := 0x5#16, flow := 0x4#16, flags := 0x0#8, op := 0x0#8, pseq := 0xa#32, jseq := 0x7#32, offset := 0x4#32, payload := [0x1#8, 0x2#8, 0x3#8], wellFormed := true }, by decide +kernel⟩
  · exact ⟨g, { src := 0x2#16, dst := 0x5#16, flow := 0x4#16, flags := 0x0#8, op := 0x0#8, pseq := 0xa#32, jseq := 0x7#32, offset := 0x4#32, payload := [0x1#8, 0x2#8, 0x3#8], wellFormed := true }, by decide +kernel⟩
  · exact ⟨g, { src := 0x2#16, dst := 0x5#16, flow := 0x4#16, flags := 0x0#8, op := 0x0#8, pseq := 0xa#32, jseq := 0x7#32, offset := 0x4#32, payload := [0x1#8, 0x2#8, 0x3#8], wellFormed := true }, by decide +kernel⟩
  · exact ⟨g, 2, by decide +kernel⟩
  · exact ⟨tired g, 0x4#13, by decide +kernel⟩
  · exact ⟨g, { src := 0x2#16, dst := 0x5#16, flow := 0x3#16, flags := 0x0#8, op := 0x0#8, pseq := 0xa#32, jseq := 0x7#32, offset := 0x4#32, payload := [0x1#8, 0x2#8, 0x3#8], wellFormed := false }, by decide +kernel⟩
  · exact ⟨g, { src := 0x2#16, dst := 0x5#16, flow := 0x3#16, flags := 0x0#8, op := 0x0#8, pseq := 0xa#32, jseq := 0x7#32, offset := 0x4#32, payload := [0x1#8, 0x2#8, 0x3#8], wellFormed := false }, by decide +kernel⟩

theorem witness_FlowsSendAcknowledgeAndResend_2 :
  (∃ (s : State) (f : BitVec 12),
    let x : Flow := s.flow f.toNat
    let due : Prop := s.flowsAlive = true ∧ 0 < x.sinceAck
    let e : FlowEntry := (s.flowKind f.toNat 1).get!
    s.atRest ∧
    due ∧
    s.flowKind f.toNat 1 = some e) ∧
  (∃ (s : State) (n : BitVec 13),
    let f : Nat := n.toNat
    let x : Flow := s.flow f
    let first : Nat := (Option.map (fun y => y.pseq.toNat) x.unacked.head?).getD 0
    let again : List BryPacket := List.filter (fun y => decide (0 ≤ seqDiff first y.pseq.toNat)) x.unacked
    let idle : Prop := s.bryAlive = false ∨ 4099 ≤ f ∨ f < 4096 ∧ (x.faulted = true ∨ again = [] ∨ s.flowKind f 0 = none)
    let e : FlowEntry := (s.flowKind f 0).get!
    s.calm ∧
    (¬idle ∧ f < 4096) ∧
    s.flowKind f 0 = some e ∧
    x.retries < s.maxRetry) ∧
  (∃ (s : State) (p : BryPacket) (g : Nat),
    let f : Nat := p.flow.toNat
    let x : Flow := s.flow f
    let u : State := s.flowTouch f
    let alive : Prop := s.flowsAlive = true
    let good : Prop := p.wellFormed = true
    let e : FlowEntry := (u.flowKind f 1).get!
    let d : Int := seqDiff x.rxPseq p.pseq.toNat
    s.atRest ∧
    alive ∧ good ∧
    u.flowKind f 1 = some e ∧
    u.ctxResident e.ctx = true ∧
    g < 4096 ∧
    g ≠ f ∧
    d < 0) ∧
  (∃ (s : State) (p : BryPacket),
    let f : Nat := p.flow.toNat
    let u : State := s.flowTouch f
    let edge : Prop := bit p.flags.toNat 3 = true
    s.calm ∧
    s.bryAlive = true ∧
    p.wellFormed = true ∧
    (¬edge) ∧
    u.flowKind f 0 = none) ∧
  (∃ (s : State) (p : BryPacket),
    let f : Nat := p.flow.toNat
    let x : Flow := s.flow f
    let u : State := s.flowTouch f
    let n : Nat := p.pseq.toNat
    let base : Nat := (Option.map (fun y => y.pseq.toNat) x.unacked.head?).getD ((Option.map (fun y => y.pseq.toNat) x.unsent.head?).getD x.txPseq)
    let old : Prop := x.faulted = true ∨ seqDiff base n < 0
    let edge : Prop := bit p.flags.toNat 3 = true
    let e : FlowEntry := (u.flowKind f 0).get!
    s.calm ∧
    s.bryAlive = true ∧
    p.wellFormed = true ∧
    (¬edge) ∧
    u.flowKind f 0 = some e ∧
    old) ∧
  (∃ (s : State) (p : BryPacket),
    let f : Nat := p.flow.toNat
    let x : Flow := s.flow f
    let u : State := s.flowTouch f
    let e : FlowEntry := (u.flowKind f 0).get!
    s.calm ∧
    s.bryAlive = true ∧
    p.wellFormed = true ∧
    u.flowKind f 0 = some e ∧
    x.faulted = true) ∧
  (∃ (s : State) (n : BitVec 13),
    let f : Nat := n.toNat
    let k : Nat := f - 4096
    let held : List BryPacket := s.bry.edgeUnacked.get k []
    let r : Nat := s.bry.edgeRetries.get k 0
    let edge : Prop := s.bryAlive = true ∧ 4096 ≤ f ∧ f < 4099
    s.calm ∧
    edge ∧
    (¬k ∈ s.bry.edgeFaulted) ∧
    held ≠ [] ∧
    r < s.maxRetry) ∧
  (∃ (s : State) (n : BitVec 13),
    let f : Nat := n.toNat
    let k : Nat := f - 4096
    let held : List BryPacket := s.bry.edgeUnacked.get k []
    let r : Nat := s.bry.edgeRetries.get k 0
    let edge : Prop := s.bryAlive = true ∧ 4096 ≤ f ∧ f < 4099
    s.calm ∧
    edge ∧
    (¬k ∈ s.bry.edgeFaulted) ∧
    held ≠ [] ∧
    s.maxRetry ≤ r) ∧
  (∃ (s : State) (p : BryPacket),
    let alive : Prop := s.flowsAlive = true
    let good : Prop := p.wellFormed = true
    s.atRest ∧
    (s.bryAlive = false ∨ good ∧ ¬alive)) := by
  refine ⟨?_, ?_, ?_, ?_, ?_, ?_, ?_, ?_, ?_⟩
  · exact ⟨g, 0x3#12, by decide +kernel⟩
  · exact ⟨g, 0x4#13, by decide +kernel⟩
  · exact ⟨g, { src := 0x2#16, dst := 0x5#16, flow := 0x3#16, flags := 0x0#8, op := 0x0#8, pseq := 0x9#32, jseq := 0x7#32, offset := 0x4#32, payload := [0x1#8, 0x2#8, 0x3#8], wellFormed := true }, 0, by decide +kernel⟩
  · exact ⟨g, { src := 0x2#16, dst := 0x5#16, flow := 0x3#16, flags := 0x0#8, op := 0x0#8, pseq := 0x9#32, jseq := 0x7#32, offset := 0x4#32, payload := [0x1#8, 0x2#8, 0x3#8], wellFormed := true }, by decide +kernel⟩
  · exact ⟨fl (fun x => {x with faulted := true}) g, { src := 0x2#16, dst := 0x5#16, flow := 0x4#16, flags := 0x0#8, op := 0x0#8, pseq := 0xa#32, jseq := 0x7#32, offset := 0x4#32, payload := [0x1#8, 0x2#8, 0x3#8], wellFormed := true }, by decide +kernel⟩
  · exact ⟨fl (fun x => {x with faulted := true}) g, { src := 0x2#16, dst := 0x5#16, flow := 0x4#16, flags := 0x0#8, op := 0x0#8, pseq := 0xa#32, jseq := 0x7#32, offset := 0x4#32, payload := [0x1#8, 0x2#8, 0x3#8], wellFormed := true }, by decide +kernel⟩
  · exact ⟨g, 0x1001#13, by decide +kernel⟩
  · exact ⟨tired g, 0x1001#13, by decide +kernel⟩
  · exact ⟨g.wr P.bry Reg.BRY_CFG_en 0, { src := 0x2#16, dst := 0x5#16, flow := 0x3#16, flags := 0x0#8, op := 0x0#8, pseq := 0xa#32, jseq := 0x7#32, offset := 0x4#32, payload := [0x1#8, 0x2#8, 0x3#8], wellFormed := true }, by decide +kernel⟩

theorem witness_FlowsSendAcknowledgeAndResend_3 :
  (∃ (s : State),
    s.atRest ∧
    s.bryAlive = false) ∧
  (∃ (s : State) (c : Fin 8),
    let a : Nat := s.sqBase c.val
    let n : Nat := s.sqSize c.val
    let prod : Nat := unle (s.load a 4) % n
    let cons : Nat := unle (s.load (a + 4) 4) % n
    let r : List Byte := s.load (a + 64 + 16 * cons) 16
    let has : Prop := s.flowsAlive = true ∧ s.rdb P.bry Reg.BRY_SQ_en c.val = true ∧ s.sqReach c.val = true ∧ prod ≠ cons
    let v : State := (s.dmaServed (a + 64 + 16 * cons) 16).dmaPut 3 (a + 4) (le 4 ((cons + 1) % n))
    let f : Nat := unle (List.take 2 r)
    let u : State := v.flowTouch f
    s.atRest ∧
    has ∧
    u.flowEntry f = none) ∧
  (∃ (s : State) (c : Fin 8),
    let a : Nat := s.sqBase c.val
    let n : Nat := s.sqSize c.val
    let prod : Nat := unle (s.load a 4) % n
    let cons : Nat := unle (s.load (a + 4) 4) % n
    let r : List Byte := s.load (a + 64 + 16 * cons) 16
    let has : Prop := s.flowsAlive = true ∧ s.rdb P.bry Reg.BRY_SQ_en c.val = true ∧ s.sqReach c.val = true ∧ prod ≠ cons
    let v : State := (s.dmaServed (a + 64 + 16 * cons) 16).dmaPut 3 (a + 4) (le 4 ((cons + 1) % n))
    let f : Nat := unle (List.take 2 r)
    let kind : Nat := unle (List.take 1 (List.drop 2 r))
    let len : Nat := unle (List.take 4 (List.drop 4 r))
    let src : Nat := unle (List.take 5 (List.drop 8 r))
    let u : State := v.flowTouch f
    let got : State × Bool := (u.dmaServed src len).fetch 3 src len
    let readable : Prop := u.dmaReach c.val src len = true ∧ got.snd = false
    let e : FlowEntry := (u.flowEntry f).get!
    s.atRest ∧
    has ∧
    u.flowEntry f = some e ∧
    e.ctx = c.val ∧
    (¬readable) ∧
    (kind = 0 ∧ e.kind = 0 ∧ (s.flow f).faulted = false ∨ kind = 2 ∧ e.kind = 2 ∧ len ≤ 1408)) ∧
  (∃ (s : State) (c : Fin 8),
    let a : Nat := s.sqBase c.val
    let n : Nat := s.sqSize c.val
    let prod : Nat := unle (s.load a 4) % n
    let cons : Nat := unle (s.load (a + 4) 4) % n
    let r : List Byte := s.load (a + 64 + 16 * cons) 16
    let has : Prop := s.flowsAlive = true ∧ s.rdb P.bry Reg.BRY_SQ_en c.val = true ∧ s.sqReach c.val = true ∧ prod ≠ cons
    let v : State := (s.dmaServed (a + 64 + 16 * cons) 16).dmaPut 3 (a + 4) (le 4 ((cons + 1) % n))
    let f : Nat := unle (List.take 2 r)
    let kind : Nat := unle (List.take 1 (List.drop 2 r))
    let len : Nat := unle (List.take 4 (List.drop 4 r))
    let u : State := v.flowTouch f
    let e : FlowEntry := (u.flowEntry f).get!
    s.atRest ∧
    has ∧
    u.flowEntry f = some e ∧
    (e.ctx ≠ c.val ∨ kind = 0 ∧ e.kind ≠ 0 ∨ kind = 1 ∧ e.kind ≠ 2 ∨ kind = 2 ∧ (e.kind ≠ 2 ∨ 1408 < len) ∨ 3 ≤ kind)) ∧
  (∃ (s : State) (p : BryPacket),
    let edge : Prop := bit p.flags.toNat 3 = true
    s.calm ∧
    s.bryAlive = true ∧
    p.wellFormed = true ∧
    edge ∧
    s.nbrOf p.src.toNat = none) ∧
  (∃ (s : State) (p : BryPacket),
    let f : Nat := p.flow.toNat
    let x : Flow := s.flow f
    let u : State := s.flowTouch f
    let n : Nat := p.pseq.toNat
    let left : List BryPacket := List.filter (fun y => decide (0 ≤ seqDiff n y.pseq.toNat)) x.unacked
    let e : FlowEntry := (u.flowKind f 0).get!
    s.calm ∧
    s.bryAlive = true ∧
    p.wellFormed = true ∧
    u.flowKind f 0 = some e ∧
    x.faulted = false ∧
    left ≠ [] ∧
    s.maxRetry ≤ x.retries) ∧
  (∃ (s : State) (f : BitVec 12),
    let x : Flow := s.flow f.toNat
    let due : Prop := s.flowsAlive = true ∧ 0 < x.sinceAck
    s.atRest ∧
    (¬due ∨ s.flowKind f.toNat 1 = none)) ∧
  (∃ (s : State) (n : BitVec 13),
    let f : Nat := n.toNat
    let x : Flow := s.flow f
    let first : Nat := (Option.map (fun y => y.pseq.toNat) x.unacked.head?).getD 0
    let again : List BryPacket := List.filter (fun y => decide (0 ≤ seqDiff first y.pseq.toNat)) x.unacked
    let idle : Prop := s.bryAlive = false ∨ 4099 ≤ f ∨ f < 4096 ∧ (x.faulted = true ∨ again = [] ∨ s.flowKind f 0 = none)
    let k : Nat := f - 4096
    let held : List BryPacket := s.bry.edgeUnacked.get k []
    let edge : Prop := s.bryAlive = true ∧ 4096 ≤ f ∧ f < 4099
    s.calm ∧
    (idle ∨ edge ∧ (k ∈ s.bry.edgeFaulted ∨ held = []))) ∧
  (∃ (s : State) (c : Fin 8),
    let a : Nat := s.sqBase c.val
    let n : Nat := s.sqSize c.val
    let prod : Nat := unle (s.load a 4) % n
    let cons : Nat := unle (s.load (a + 4) 4) % n
    let r : List Byte := s.load (a + 64 + 16 * cons) 16
    let has : Prop := s.flowsAlive = true ∧ s.rdb P.bry Reg.BRY_SQ_en c.val = true ∧ s.sqReach c.val = true ∧ prod ≠ cons
    let v : State := (s.dmaServed (a + 64 + 16 * cons) 16).dmaPut 3 (a + 4) (le 4 ((cons + 1) % n))
    let f : Nat := unle (List.take 2 r)
    let kind : Nat := unle (List.take 1 (List.drop 2 r))
    let u : State := v.flowTouch f
    let e : FlowEntry := (u.flowEntry f).get!
    s.atRest ∧
    has ∧
    u.flowEntry f = some e ∧
    e.ctx = c.val ∧
    e.kind = 2 ∧
    kind = 1) := by
  refine ⟨?_, ?_, ?_, ?_, ?_, ?_, ?_, ?_, ?_⟩
  · exact ⟨g.wr P.bry Reg.BRY_CFG_en 0, by decide +kernel⟩
  · exact ⟨rq (req 9 0 10 0x100000) g, 2, by decide +kernel⟩
  · exact ⟨rq (req 4 0 10 0x900000) g, 2, by decide +kernel⟩
  · exact ⟨rq (req 4 3 10 0x100000) g, 2, by decide +kernel⟩
  · exact ⟨g, { src := 0x4d#16, dst := 0x5#16, flow := 0x3#16, flags := 0x8#8, op := 0x0#8, pseq := 0xa#32, jseq := 0x7#32, offset := 0x4#32, payload := [0x1#8, 0x2#8, 0x3#8], wellFormed := true }, by decide +kernel⟩
  · exact ⟨tired g, { src := 0x2#16, dst := 0x5#16, flow := 0x4#16, flags := 0x0#8, op := 0x0#8, pseq := 0xa#32, jseq := 0x7#32, offset := 0x4#32, payload := [0x1#8, 0x2#8, 0x3#8], wellFormed := true }, by decide +kernel⟩
  · exact ⟨g, 0x4#12, by decide +kernel⟩
  · exact ⟨g, 0x3#13, by decide +kernel⟩
  · exact ⟨rq (req 5 1 0 0) g, 2, by decide +kernel⟩

theorem witness_FlowsSendAcknowledgeAndResend_4 :
  (∃ (s : State) (c : Fin 8),
    let a : Nat := s.sqBase c.val
    let n : Nat := s.sqSize c.val
    let prod : Nat := unle (s.load a 4) % n
    let cons : Nat := unle (s.load (a + 4) 4) % n
    let has : Prop := s.flowsAlive = true ∧ s.rdb P.bry Reg.BRY_SQ_en c.val = true ∧ s.sqReach c.val = true ∧ prod ≠ cons
    s.atRest ∧
    (¬has)) ∧
  (∃ (s : State) (c : Fin 8),
    let a : Nat := s.sqBase c.val
    let n : Nat := s.sqSize c.val
    let prod : Nat := unle (s.load a 4) % n
    let cons : Nat := unle (s.load (a + 4) 4) % n
    let r : List Byte := s.load (a + 64 + 16 * cons) 16
    let has : Prop := s.flowsAlive = true ∧ s.rdb P.bry Reg.BRY_SQ_en c.val = true ∧ s.sqReach c.val = true ∧ prod ≠ cons
    let v : State := (s.dmaServed (a + 64 + 16 * cons) 16).dmaPut 3 (a + 4) (le 4 ((cons + 1) % n))
    let f : Nat := unle (List.take 2 r)
    let kind : Nat := unle (List.take 1 (List.drop 2 r))
    let len : Nat := unle (List.take 4 (List.drop 4 r))
    let src : Nat := unle (List.take 5 (List.drop 8 r))
    let u : State := v.flowTouch f
    let got : State × Bool := (u.dmaServed src len).fetch 3 src len
    let readable : Prop := u.dmaReach c.val src len = true ∧ got.snd = false
    let e : FlowEntry := (u.flowEntry f).get!
    s.atRest ∧
    has ∧
    u.flowEntry f = some e ∧
    e.ctx = c.val ∧
    e.kind = 2 ∧
    kind = 2 ∧
    readable ∧
    len ≤ 1408) ∧
  (∃ (s : State) (c : Fin 8),
    let a : Nat := s.sqBase c.val
    let n : Nat := s.sqSize c.val
    let prod : Nat := unle (s.load a 4) % n
    let cons : Nat := unle (s.load (a + 4) 4) % n
    let r : List Byte := s.load (a + 64 + 16 * cons) 16
    let has : Prop := s.flowsAlive = true ∧ s.rdb P.bry Reg.BRY_SQ_en c.val = true ∧ s.sqReach c.val = true ∧ prod ≠ cons
    let v : State := (s.dmaServed (a + 64 + 16 * cons) 16).dmaPut 3 (a + 4) (le 4 ((cons + 1) % n))
    let f : Nat := unle (List.take 2 r)
    let kind : Nat := unle (List.take 1 (List.drop 2 r))
    let u : State := v.flowTouch f
    let e : FlowEntry := (u.flowEntry f).get!
    s.atRest ∧
    has ∧
    u.flowEntry f = some e ∧
    e.ctx = c.val ∧
    kind = 0 ∧
    e.kind = 0 ∧
    (s.flow f).faulted = true) ∧
  (∃ (s : State) (q : Fin 2) (p : BryPacket),
    let f : Nat := p.flow.toNat
    let x : Flow := s.flow f
    let u : State := s.flowTouch f
    let alive : Prop := s.flowsAlive = true
    let good : Prop := p.wellFormed = true
    let _t : State := after (exec (Instr.brynadeData q p) s)
    let e : FlowEntry := (u.flowKind f 1).get!
    let d : Int := seqDiff x.rxPseq p.pseq.toNat
    let nak : Prop := 0 < d ∧ Option.all (fun t => decide (t + s.rtoNs ≤ s.now)) x.nakAt = true
    s.atRest ∧
    alive ∧ good ∧
    u.flowKind f 1 = some e ∧
    u.ctxResident e.ctx = true ∧
    nak) ∧
  (∃ (s : State) (p : BryPacket),
    let f : Nat := p.flow.toNat
    let x : Flow := s.flow f
    let u : State := s.flowTouch f
    let alive : Prop := s.flowsAlive = true
    let good : Prop := p.wellFormed = true
    let e : FlowEntry := (u.flowKind f 1).get!
    let d : Int := seqDiff x.rxPseq p.pseq.toNat
    let j : Int := seqDiff (s.expectJseq e.ctx) p.jseq.toNat
    let past : Prop := s.jseqOver e.ctx p.jseq.toNat = true
    let full : Prop := d = 0 ∧ ¬past ∧ 0 < j ∧ e.lb ≤ x.landing.length
    let takes : Prop := d = 0 ∧ ¬full
    s.atRest ∧
    alive ∧ good ∧
    u.flowKind f 1 = some e ∧
    u.ctxResident e.ctx = true ∧
    takes ∧
    past) ∧
  (∃ (s : State) (p : BryPacket),
    let f : Nat := p.flow.toNat
    let x : Flow := s.flow f
    let u : State := s.flowTouch f
    let alive : Prop := s.flowsAlive = true
    let good : Prop := p.wellFormed = true
    let e : FlowEntry := (u.flowKind f 1).get!
    let d : Int := seqDiff x.rxPseq p.pseq.toNat
    let j : Int := seqDiff (s.expectJseq e.ctx) p.jseq.toNat
    let past : Prop := s.jseqOver e.ctx p.jseq.toNat = true
    let full : Prop := d = 0 ∧ ¬past ∧ 0 < j ∧ e.lb ≤ x.landing.length
    let takes : Prop := d = 0 ∧ ¬full
    let fits : Prop := u.landReach e p.offset.toNat p.payload.length = true
    let waits : Prop := takes ∧ ¬past ∧ j ≠ 0 ∧ fits
    s.atRest ∧
    alive ∧ good ∧
    u.flowKind f 1 = some e ∧
    u.ctxResident e.ctx = true ∧
    waits) ∧
  (∃ (s : State) (p : BryPacket),
    let f : Nat := p.flow.toNat
    let x : Flow := s.flow f
    let u : State := s.flowTouch f
    let alive : Prop := s.flowsAlive = true
    let good : Prop := p.wellFormed = true
    let e : FlowEntry := (u.flowKind f 1).get!
    let d : Int := seqDiff x.rxPseq p.pseq.toNat
    let j : Int := seqDiff (s.expectJseq e.ctx) p.jseq.toNat
    let past : Prop := s.jseqOver e.ctx p.jseq.toNat = true
    let full : Prop := d = 0 ∧ ¬past ∧ 0 < j ∧ e.lb ≤ x.landing.length
    let takes : Prop := d = 0 ∧ ¬full
    let fits : Prop := u.landReach e p.offset.toNat p.payload.length = true
    s.atRest ∧
    alive ∧ good ∧
    u.flowKind f 1 = some e ∧
    u.ctxResident e.ctx = true ∧
    (full ∨ takes ∧ ¬past ∧ ¬fits)) := by
  refine ⟨?_, ?_, ?_, ?_, ?_, ?_, ?_⟩
  · exact ⟨g.wr P.bry Reg.BRY_CFG_en 0, 2, by decide +kernel⟩
  · exact ⟨rq (req 5 2 10 0x100000) g, 2, by decide +kernel⟩
  · exact ⟨fl (fun x => {x with faulted := true}) g, 2, by decide +kernel⟩
  · exact ⟨g, 1, { src := 0x2#16, dst := 0x5#16, flow := 0x3#16, flags := 0x0#8, op := 0x0#8, pseq := 0xc#32, jseq := 0x7#32, offset := 0x4#32, payload := [0x1#8, 0x2#8, 0x3#8], wellFormed := true }, by decide +kernel⟩
  · exact ⟨g, { src := 0x2#16, dst := 0x5#16, flow := 0x3#16, flags := 0x0#8, op := 0x0#8, pseq := 0xa#32, jseq := 0x6#32, offset := 0x4#32, payload := [0x1#8, 0x2#8, 0x3#8], wellFormed := true }, by decide +kernel⟩
  · exact ⟨g, { src := 0x2#16, dst := 0x5#16, flow := 0x3#16, flags := 0x0#8, op := 0x0#8, pseq := 0xa#32, jseq := 0x8#32, offset := 0x4#32, payload := [0x1#8, 0x2#8, 0x3#8], wellFormed := true }, by decide +kernel⟩
  · exact ⟨fl (fun x => {x with landing := [um 3]}) g, { src := 0x2#16, dst := 0x5#16, flow := 0x3#16, flags := 0x0#8, op := 0x0#8, pseq := 0xa#32, jseq := 0x8#32, offset := 0x4#32, payload := [0x1#8, 0x2#8, 0x3#8], wellFormed := true }, by decide +kernel⟩

theorem witness_CollectivesClimbTurnAndComplete_1 :
  (∃ (s : State) (id : BitVec 8),
    let i : Nat := id.toNat
    let x : Coll := s.coll1 i
    let alive : Prop := s.bryAlive = true
    let open_ : Prop := x.joined = true ∨ x.busy = true
    let up : Prop := x.upSent = false ∧ ∀ (k : Nat), k ∈ [1, 2] → s.nbr k = true → (k, x.instance_) ∈ x.ups
    s.calm ∧
    s.reaches (P.bry + 240) ∧
    alive ∧
    (¬open_) ∧
    up ∧
    s.nbr 0 = false) ∧
  (∃ (s : State) (id : BitVec 8) (arg : BitVec 16),
    let i : Nat := id.toNat
    let x : Coll := s.coll1 i
    let alive : Prop := s.bryAlive = true
    let open_ : Prop := x.joined = true ∨ x.busy = true
    let cmd : Nat := arg.toNat % 256
    let c : Nat := arg.toNat / 256
    let may : Prop := s.rdb P.bry Reg.BRY_CFG_coll_reset_en = true ∧ (cmd = 2 ∨ cmd = 4)
    let req : Nat := s.rd P.chip Reg.CHIP_READY_ctx_req
    let no : Prop := cmd = 4 ∧ (req ≠ 0 ∨ ∃ d, d ∈ List.range 8 ∧ s.primEn d = true ∧ s.ctxRuns d = true) ∨ cmd = 2 ∧ (bit req c = true ∨ s.primEn c = true ∧ s.ctxRuns c = true)
    s.calm ∧
    s.reaches (P.bry + 240) ∧
    alive ∧
    may ∧
    (¬open_) ∧
    s.nbr 0 = false ∧
    no) ∧
  (∃ (s : State) (p : BryPacket),
    let alive : Prop := s.bryAlive = true ∧ p.wellFormed = true
    let down : Prop := bit p.flags.toNat 2 = true
    let k : Nat := (s.nbrOf p.src.toNat).get!
    let n : Nat := s.bry.edgeRx.get k 0
    let d : Int := seqDiff n p.pseq.toNat
    s.calm ∧
    alive ∧
    s.nbrOf p.src.toNat = some k ∧
    d = 0 ∧
    down ∧
    k = 0 ∧
    p.op.toNat ≠ 3) ∧
  (∃ (s : State) (id : BitVec 8),
    let i : Nat := id.toNat
    let x : Coll := s.coll1 i
    let alive : Prop := s.bryAlive = true
    let open_ : Prop := x.joined = true ∨ x.busy = true
    let up : Prop := x.upSent = false ∧ ∀ (k : Nat), k ∈ [1, 2] → s.nbr k = true → (k, x.instance_) ∈ x.ups
    s.calm ∧
    s.reaches (P.bry + 240) ∧
    alive ∧
    (¬open_) ∧
    up ∧
    s.nbr 0 = true) ∧
  (∃ (s : State) (id : BitVec 8) (bs : List Byte),
    let i : Nat := id.toNat
    let x : Coll := s.coll1 i
    let alive : Prop := s.bryAlive = true
    let open_ : Prop := x.joined = true ∨ x.busy = true
    s.calm ∧
    bs.length ≤ 1408 ∧
    alive ∧
    (¬open_) ∧
    s.nbr 0 = true) ∧
  (∃ (s : State) (id : BitVec 8) (bs : List Byte),
    let i : Nat := id.toNat
    let x : Coll := s.coll1 i
    let alive : Prop := s.bryAlive = true
    let open_ : Prop := x.joined = true ∨ x.busy = true
    s.calm ∧
    bs.length ≤ 1408 ∧
    alive ∧
    (¬open_) ∧
    s.nbr 0 = false) ∧
  (∃ (s : State) (id : BitVec 8) (bs : List Byte),
    let i : Nat := id.toNat
    let x : Coll := s.coll1 i
    let alive : Prop := s.bryAlive = true
    let open_ : Prop := x.joined = true ∨ x.busy = true
    s.calm ∧
    bs.length ≤ 1408 ∧
    alive ∧
    open_) ∧
  (∃ (s : State) (id : BitVec 8) (arg : BitVec 16),
    let i : Nat := id.toNat
    let x : Coll := s.coll1 i
    let alive : Prop := s.bryAlive = true
    let open_ : Prop := x.joined = true ∨ x.busy = true
    let cmd : Nat := arg.toNat % 256
    let may : Prop := s.rdb P.bry Reg.BRY_CFG_coll_reset_en = true ∧ (cmd = 2 ∨ cmd = 4)
    s.calm ∧
    s.reaches (P.bry + 240) ∧
    alive ∧
    may ∧
    (¬open_) ∧
    s.nbr 0 = true) := by
  refine ⟨?_, ?_, ?_, ?_, ?_, ?_, ?_, ?_⟩
  · exact ⟨(root g).wr P.chip Reg.CHIP_READY_ctx_req 4, 0x3#8, by decide +kernel⟩
  · exact ⟨(root g).wr P.chip Reg.CHIP_READY_ctx_req 4, 0x3#8, 0x202#16, by decide +kernel⟩
  · exact ⟨g, { src := 0x2#16, dst := 0x5#16, flow := 0x3#16, flags := 0x4#8, op := 0x1#8, pseq := 0xa#32, jseq := 0x7#32, offset := 0x4#32, payload := [0x1#8, 0x2#8, 0x3#8], wellFormed := true }, by decide +kernel⟩
  · exact ⟨ups g, 0x3#8, by decide +kernel⟩
  · exact ⟨ups g, 0x3#8, [], by decide +kernel⟩
  · exact ⟨root g, 0x3#8, [], by decide +kernel⟩
  · exact ⟨g, 0x9#8, [], by decide +kernel⟩
  · exact ⟨g, 0x3#8, 0x202#16, by decide +kernel⟩

theorem witness_CollectivesClimbTurnAndComplete_2 :
  (∃ (s : State) (p : BryPacket),
    let alive : Prop := s.bryAlive = true ∧ p.wellFormed = true
    let k : Nat := (s.nbrOf p.src.toNat).get!
    let n : Nat := s.bry.edgeRx.get k 0
    let d : Int := seqDiff n p.pseq.toNat
    s.calm ∧
    alive ∧
    s.nbrOf p.src.toNat = some k ∧
    d < 0) ∧
  (∃ (s : State) (arg : BitVec 16),
    let alive : Prop := s.bryAlive = true
    let cmd : Nat := arg.toNat % 256
    let may : Prop := s.rdb P.bry Reg.BRY_CFG_coll_reset_en = true ∧ (cmd = 2 ∨ cmd = 4)
    s.calm ∧
    s.reaches (P.bry + 240) ∧
    alive ∧
    (¬may)) ∧
  (∃ (s : State) (id : BitVec 8) (arg : BitVec 16),
    let i : Nat := id.toNat
    let x : Coll := s.coll1 i
    let alive : Prop := s.bryAlive = true
    let open_ : Prop := x.joined = true ∨ x.busy = true
    let cmd : Nat := arg.toNat % 256
    let may : Prop := s.rdb P.bry Reg.BRY_CFG_coll_reset_en = true ∧ (cmd = 2 ∨ cmd = 4)
    s.calm ∧
    s.reaches (P.bry + 240) ∧
    alive ∧
    may ∧
    open_) ∧
  (∃ (s : State) (id : BitVec 8) (arg : BitVec 16),
    let i : Nat := id.toNat
    let x : Coll := s.coll1 i
    let alive : Prop := s.bryAlive = true
    let open_ : Prop := x.joined = true ∨ x.busy = true
    let cmd : Nat := arg.toNat % 256
    let c : Nat := arg.toNat / 256
    let may : Prop := s.rdb P.bry Reg.BRY_CFG_coll_reset_en = true ∧ (cmd = 2 ∨ cmd = 4)
    let req : Nat := s.rd P.chip Reg.CHIP_READY_ctx_req
    let no : Prop := cmd = 4 ∧ (req ≠ 0 ∨ ∃ d, d ∈ List.range 8 ∧ s.primEn d = true ∧ s.ctxRuns d = true) ∨ cmd = 2 ∧ (bit req c = true ∨ s.primEn c = true ∧ s.ctxRuns c = true)
    s.calm ∧
    s.reaches (P.bry + 240) ∧
    alive ∧
    may ∧
    (¬open_) ∧
    s.nbr 0 = false ∧
    (¬no) ∧
    cmd = 2 ∧
    c < 8 ∧
    s.ctxResident c = true) ∧
  (∃ (s : State) (id : BitVec 8) (arg : BitVec 16),
    let i : Nat := id.toNat
    let x : Coll := s.coll1 i
    let alive : Prop := s.bryAlive = true
    let open_ : Prop := x.joined = true ∨ x.busy = true
    let cmd : Nat := arg.toNat % 256
    let c : Nat := arg.toNat / 256
    let may : Prop := s.rdb P.bry Reg.BRY_CFG_coll_reset_en = true ∧ (cmd = 2 ∨ cmd = 4)
    let req : Nat := s.rd P.chip Reg.CHIP_READY_ctx_req
    let no : Prop := cmd = 4 ∧ (req ≠ 0 ∨ ∃ d, d ∈ List.range 8 ∧ s.primEn d = true ∧ s.ctxRuns d = true) ∨ cmd = 2 ∧ (bit req c = true ∨ s.primEn c = true ∧ s.ctxRuns c = true)
    s.calm ∧
    s.reaches (P.bry + 240) ∧
    alive ∧
    may ∧
    (¬open_) ∧
    s.nbr 0 = false ∧
    (¬no) ∧
    cmd = 4) ∧
  (∃ (s : State),
    let alive : Prop := s.bryAlive = true
    s.calm ∧
    s.reaches (P.bry + 240) ∧
    (¬alive)) ∧
  (∃ (s : State) (bs : List Byte),
    let alive : Prop := s.bryAlive = true
    s.calm ∧
    bs.length ≤ 1408 ∧
    (¬alive)) ∧
  (∃ (s : State) (p : BryPacket),
    let alive : Prop := s.bryAlive = true ∧ p.wellFormed = true
    let down : Prop := bit p.flags.toNat 2 = true
    let k : Nat := (s.nbrOf p.src.toNat).get!
    let n : Nat := s.bry.edgeRx.get k 0
    let d : Int := seqDiff n p.pseq.toNat
    s.calm ∧
    alive ∧
    s.nbrOf p.src.toNat = some k ∧
    d = 0 ∧
    (¬down) ∧
    k ≠ 0 ∧
    p.op.toNat ≠ 1 ∧
    s.nbr 0 = true) := by
  refine ⟨?_, ?_, ?_, ?_, ?_, ?_, ?_, ?_⟩
  · exact ⟨g, { src := 0x2#16, dst := 0x5#16, flow := 0x3#16, flags := 0x0#8, op := 0x0#8, pseq := 0x9#32, jseq := 0x7#32, offset := 0x4#32, payload := [0x1#8, 0x2#8, 0x3#8], wellFormed := true }, by decide +kernel⟩
  · exact ⟨g, 0x3#16, by decide +kernel⟩
  · exact ⟨g, 0x9#8, 0x202#16, by decide +kernel⟩
  · exact ⟨root g, 0x3#8, 0x202#16, by decide +kernel⟩
  · exact ⟨root g, 0x3#8, 0x4#16, by decide +kernel⟩
  · exact ⟨g.wr P.bry Reg.BRY_CFG_en 0, by decide +kernel⟩
  · exact ⟨g.wr P.bry Reg.BRY_CFG_en 0, [], by decide +kernel⟩
  · exact ⟨g, { src := 0xb#16, dst := 0x5#16, flow := 0x3#16, flags := 0x0#8, op := 0x3#8, pseq := 0xa#32, jseq := 0x7#32, offset := 0x4#32, payload := [0x4#8, 0x0#8], wellFormed := true }, by decide +kernel⟩

theorem witness_CollectivesClimbTurnAndComplete_3 :
  (∃ (s : State) (p : BryPacket),
    let alive : Prop := s.bryAlive = true ∧ p.wellFormed = true
    s.calm ∧
    alive ∧
    s.nbrOf p.src.toNat = none) ∧
  (∃ (s : State) (p : BryPacket),
    let alive : Prop := s.bryAlive = true ∧ p.wellFormed = true
    let down : Prop := bit p.flags.toNat 2 = true
    let k : Nat := (s.nbrOf p.src.toNat).get!
    let n : Nat := s.bry.edgeRx.get k 0
    let d : Int := seqDiff n p.pseq.toNat
    s.calm ∧
    alive ∧
    s.nbrOf p.src.toNat = some k ∧
    d = 0 ∧
    (down ∧ k ≠ 0 ∨ ¬down ∧ k = 0)) ∧
  (∃ (s : State) (p : BryPacket),
    s.calm ∧
    s.bryAlive = true ∧
    p.wellFormed = false) ∧
  (∃ (s : State) (p : BryPacket),
    let alive : Prop := s.bryAlive = true ∧ p.wellFormed = true
    let k : Nat := (s.nbrOf p.src.toNat).get!
    let n : Nat := s.bry.edgeRx.get k 0
    let d : Int := seqDiff n p.pseq.toNat
    s.calm ∧
    alive ∧
    s.nbrOf p.src.toNat = some k ∧
    0 < d) ∧
  (∃ (s : State) (p : BryPacket),
    let alive : Prop := s.bryAlive = true ∧ p.wellFormed = true
    let id : Nat := p.flow.toNat % 256
    let x : Coll := s.coll1 id
    let down : Prop := bit p.flags.toNat 2 = true
    let k : Nat := (s.nbrOf p.src.toNat).get!
    let n : Nat := s.bry.edgeRx.get k 0
    let d : Int := seqDiff n p.pseq.toNat
    s.calm ∧
    alive ∧
    s.nbrOf p.src.toNat = some k ∧
    d = 0 ∧
    (¬down) ∧
    k ≠ 0 ∧
    p.op.toNat = 1 ∧
    x.joined = false) ∧
  (∃ (s : State),
    s.calm ∧
    s.bryAlive = false) ∧
  (∃ (s : State) (id : BitVec 8) (bs : List Byte),
    let i : Nat := id.toNat
    let x : Coll := s.coll1 i
    let alive : Prop := s.bryAlive = true
    let open_ : Prop := x.joined = true ∨ x.busy = true
    let up : Prop := x.upSent = false ∧ ∀ (k : Nat), k ∈ [1, 2] → s.nbr k = true → (k, x.instance_) ∈ x.ups
    s.calm ∧
    s.reaches (P.bry + 240) ∧
    alive ∧
    (¬open_) ∧
    (¬up) ∧
    1408 < bs.length) := by
  refine ⟨?_, ?_, ?_, ?_, ?_, ?_, ?_⟩
  · exact ⟨g, { src := 0x4d#16, dst := 0x5#16, flow := 0x3#16, flags := 0x8#8, op := 0x0#8, pseq := 0xa#32, jseq := 0x7#32, offset := 0x4#32, payload := [0x1#8, 0x2#8, 0x3#8], wellFormed := true }, by decide +kernel⟩
  · exact ⟨g, { src := 0x2#16, dst := 0x5#16, flow := 0x3#16, flags := 0x0#8, op := 0x0#8, pseq := 0xa#32, jseq := 0x7#32, offset := 0x4#32, payload := [0x1#8, 0x2#8, 0x3#8], wellFormed := true }, by decide +kernel⟩
  · exact ⟨g, { src := 0x2#16, dst := 0x5#16, flow := 0x3#16, flags := 0x0#8, op := 0x0#8, pseq := 0xa#32, jseq := 0x7#32, offset := 0x4#32, payload := [0x1#8, 0x2#8, 0x3#8], wellFormed := false }, by decide +kernel⟩
  · exact ⟨g, { src := 0x2#16, dst := 0x5#16, flow := 0x3#16, flags := 0x0#8, op := 0x0#8, pseq := 0xc#32, jseq := 0x7#32, offset := 0x4#32, payload := [0x1#8, 0x2#8, 0x3#8], wellFormed := true }, by decide +kernel⟩
  · exact ⟨g, { src := 0xb#16, dst := 0x5#16, flow := 0x3#16, flags := 0x0#8, op := 0x1#8, pseq := 0xa#32, jseq := 0x7#32, offset := 0x4#32, payload := [0x1#8, 0x2#8, 0x3#8], wellFormed := true }, by decide +kernel⟩
  · exact ⟨g.wr P.bry Reg.BRY_CFG_en 0, by decide +kernel⟩
  · exact ⟨g, 0x3#8, [0x0#8, 0x0#8, 0x0#8, 0x0#8, 0x0#8, 0x0#8, 0x0#8, 0x0#8, 0x0#8, 0x0#8, 0x0#8, 0x0#8, 0x0#8, 0x0#8, 0x0#8, 0x0#8, 0x0#8, 0x0#8, 0x0#8, 0x0#8, 0x0#8, 0x0#8, 0x0#8, 0x0#8, 0x0#8, 0x0#8, 0x0#8, 0x0#8, 0x0#8, 0x0#8, 0x0#8, 0x0#8, 0x0#8, 0x0#8, 0x0#8, 0x0#8, 0x0#8, 0x0#8, 0x0#8, 0x0#8, 0x0#8, 0x0#8, 0x0#8, 0x0#8, 0x0#8, 0x0#8, 0x0#8, 0x0#8, 0x0#8, 0x0#8, 0x0#8, 0x0#8, 0x0#8, 0x0#8, 0x0#8, 0x0#8, 0x0#8, 0x0#8, 0x0#8, 0x0#8, 0x0#8, 0x0#8, 0x0#8, 0x0#8, 0x0#8, 0x0#8, 0x0#8, 0x0#8, 0x0#8, 0x0#8, 0x0#8, 0x0#8, 0x0#8, 0x0#8, 0x0#8, 0x0#8, 0x0#8, 0x0#8, 0x0#8, 0x0#8, 0x0#8, 0x0#8, 0x0#8, 0x0#8, 0x0#8, 0x0#8, 0x0#8, 0x0#8, 0x0#8, 0x0#8, 0x0#8, 0x0#8, 0x0#8, 0x0#8, 0x0#8, 0x0#8, 0x0#8, 0x0#8, 0x0#8, 0x0#8, 0x0#8, 0x0#8, 0x0#8, 0x0#8, 0x0#8, 0x0#8, 0x0#8, 0x0#8, 0x0#8, 0x0#8, 0x0#8, 0x0#8, 0x0#8, 0x0#8, 0x0#8, 0x0#8, 0x0#8, 0x0#8, 0x0#8, 0x0#8, 0x0#8, 0x0#8, 0x0#8, 0x0#8, 0x0#8, 0x0#8, 0x0#8, 0x0#8, 0x0#8, 0x0#8, 0x0#8, 0x0#8, 0x0#8, 0x0#8, 0x0#8, 0x0#8, 0x0#8, 0x0#8, 0x0#8, 0x0#8, 0x0#8, 0x0#8, 0x0#8, 0x0#8, 0x0#8, 0x0#8, 0x0#8, 0x0#8, 0x0#8, 0x0#8, 0x0#8, 0x0#8, 0x0#8, 0x0#8, 0x0#8, 0x0#8, 0x0#8, 0x0#8, 0x0#8, 0x0#8, 0x0#8, 0x0#8, 0x0#8, 0x0#8, 0x0#8, 0x0#8, 0x0#8, 0x0#8, 0x0#8, 0x0#8, 0x0#8, 0x0#8, 0x0#8, 0x0#8, 0x0#8, 0x0#8, 0x0#8, 0x0#8, 0x0#8, 0x0#8, 0x0#8, 0x0#8, 0x0#8, 0x0#8, 0x0#8, 0x0#8, 0x0#8, 0x0#8, 0x0#8, 0x0#8, 0x0#8, 0x0#8, 0x0#8, 0x0#8, 0x0#8, 0x0#8, 0x0#8, 0x0#8, 0x0#8, 0x0#8, 0x0#8, 0x0#8, 0x0#8, 0x0#8, 0x0#8, 0x0#8, 0x0#8, 0x0#8, 0x0#8, 0x0#8, 0x0#8, 0x0#8, 0x0#8, 0x0#8, 0x0#8, 0x0#8, 0x0#8, 0x0#8, 0x0#8, 0x0#8, 0x0#8, 0x0#8, 0x0#8, 0x0#8, 0x0#8, 0x0#8, 0x0#8, 0x0#8, 0x0#8, 0x0#8, 0x0#8, 0x0#8, 0x0#8, 0x0#8, 0x0#8, 0x0#8, 0x0#8, 0x0#8, 0x0#8, 0x0#8, 0x0#8, 0x0#8, 0x0#8, 0x0#8, 0x0#8, 0x0#8, 0x0#8, 0x0#8, 0x0#8, 0x0#8, 0x0#8, 0x0#8, 0x0#8, 0x0#8, 0x0#8, 0x0#8, 0x0#8, 0x0#8, 0x0#8, 0x0#8, 0x0#8, 0x0#8, 0x0#8, 0x0#8, 0x0#8, 0x0#8, 0x0#8, 0x0#8, 0x0#8, 0x0#8, 0x0#8, 0x0#8, 0x0#8, 0x0#8, 0x0#8, 0x0#8, 0x0#8, 0x0#8, 0x0#8, 0x0#8, 0x0#8, 0x0#8, 0x0#8, 0x0#8, 0x0#8, 0x0#8, 0x0#8, 0x0#8, 0x0#8, 0x0#8, 0x0#8, 0x0#8, 0x0#8, 0x0#8, 0x0#8, 0x0#8, 0x0#8, 0x0#8, 0x0#8, 0x0#8, 0x0#8, 0x0#8, 0x0#8, 0x0#8, 0x0#8, 0x0#8, 0x0#8, 0x0#8, 0x0#8, 0x0#8, 0x0#8, 0x0#8, 0x0#8, 0x0#8, 0x0#8, 0x0#8, 0x0#8, 0x0#8, 0x0#8, 0x0#8, 0x0#8, 0x0#8, 0x0#8, 0x0#8, 0x0#8, 0x0#8, 0x0#8, 0x0#8, 0x0#8, 0x0#8, 0x0#8, 0x0#8, 0x0#8, 0x0#8, 0x0#8, 0x0#8, 0x0#8, 0x0#8, 0x0#8, 0x0#8, 0x0#8, 0x0#8, 0x0#8, 0x0#8, 0x0#8, 0x0#8, 0x0#8, 0x0#8, 0x0#8, 0x0#8, 0x0#8, 0x0#8, 0x0#8, 0x0#8, 0x0#8, 0x0#8, 0x0#8, 0x0#8, 0x0#8, 0x0#8, 0x0#8, 0x0#8, 0x0#8, 0x0#8, 0x0#8, 0x0#8, 0x0#8, 0x0#8, 0x0#8, 0x0#8, 0x0#8, 0x0#8, 0x0#8, 0x0#8, 0x0#8, 0x0#8, 0x0#8, 0x0#8, 0x0#8, 0x0#8, 0x0#8, 0x0#8, 0x0#8, 0x0#8, 0x0#8, 0x0#8, 0x0#8, 0x0#8, 0x0#8, 0x0#8, 0x0#8, 0x0#8, 0x0#8, 0x0#8, 0x0#8, 0x0#8, 0x0#8, 0x0#8, 0x0#8, 0x0#8, 0x0#8, 0x0#8, 0x0#8, 0x0#8, 0x0#8, 0x0#8, 0x0#8, 0x0#8, 0x0#8, 0x0#8, 0x0#8, 0x0#8, 0x0#8, 0x0#8, 0x0#8, 0x0#8, 0x0#8, 0x0#8, 0x0#8, 0x0#8, 0x0#8, 0x0#8, 0x0#8, 0x0#8, 0x0#8, 0x0#8, 0x0#8, 0x0#8, 0x0#8, 0x0#8, 0x0#8, 0x0#8, 0x0#8, 0x0#8, 0x0#8, 0x0#8, 0x0#8, 0x0#8, 0x0#8, 0x0#8, 0x0#8, 0x0#8, 0x0#8, 0x0#8, 0x0#8, 0x0#8, 0x0#8, 0x0#8, 0x0#8, 0x0#8, 0x0#8, 0x0#8, 0x0#8, 0x0#8, 0x0#8, 0x0#8, 0x0#8, 0x0#8, 0x0#8, 0x0#8, 0x0#8, 0x0#8, 0x0#8, 0x0#8, 0x0#8, 0x0#8, 0x0#8, 0x0#8, 0x0#8, 0x0#8, 0x0#8, 0x0#8, 0x0#8, 0x0#8, 0x0#8, 0x0#8, 0x0#8, 0x0#8, 0x0#8, 0x0#8, 0x0#8, 0x0#8, 0x0#8, 0x0#8, 0x0#8, 0x0#8, 0x0#8, 0x0#8, 0x0#8, 0x0#8, 0x0#8, 0x0#8, 0x0#8, 0x0#8, 0x0#8, 0x0#8, 0x0#8, 0x0#8, 0x0#8, 0x0#8, 0x0#8, 0x0#8, 0x0#8, 0x0#8, 0x0#8, 0x0#8, 0x0#8, 0x0#8, 0x0#8, 0x0#8, 0x0#8, 0x0#8, 0x0#8, 0x0#8, 0x0#8, 0x0#8, 0x0#8, 0x0#8, 0x0#8, 0x0#8, 0x0#8, 0x0#8, 0x0#8, 0x0#8, 0x0#8, 0x0#8, 0x0#8, 0x0#8, 0x0#8, 0x0#8, 0x0#8, 0x0#8, 0x0#8, 0x0#8, 0x0#8, 0x0#8, 0x0#8, 0x0#8, 0x0#8, 0x0#8, 0x0#8, 0x0#8, 0x0#8, 0x0#8, 0x0#8, 0x0#8, 0x0#8, 0x0#8, 0x0#8, 0x0#8, 0x0#8, 0x0#8, 0x0#8, 0x0#8, 0x0#8, 0x0#8, 0x0#8, 0x0#8, 0x0#8, 0x0#8, 0x0#8, 0x0#8, 0x0#8, 0x0#8, 0x0#8, 0x0#8, 0x0#8, 0x0#8, 0x0#8, 0x0#8, 0x0#8, 0x0#8, 0x0#8, 0x0#8, 0x0#8, 0x0#8, 0x0#8, 0x0#8, 0x0#8, 0x0#8, 0x0#8, 0x0#8, 0x0#8, 0x0#8, 0x0#8, 0x0#8, 0x0#8, 0x0#8, 0x0#8, 0x0#8, 0x0#8, 0x0#8, 0x0#8, 0x0#8, 0x0#8, 0x0#8, 0x0#8, 0x0#8, 0x0#8, 0x0#8, 0x0#8, 0x0#8, 0x0#8, 0x0#8, 0x0#8, 0x0#8, 0x0#8, 0x0#8, 0x0#8, 0x0#8, 0x0#8, 0x0#8, 0x0#8, 0x0#8, 0x0#8, 0x0#8, 0x0#8, 0x0#8, 0x0#8, 0x0#8, 0x0#8, 0x0#8, 0x0#8, 0x0#8, 0x0#8, 0x0#8, 0x0#8, 0x0#8, 0x0#8, 0x0#8, 0x0#8, 0x0#8, 0x0#8, 0x0#8, 0x0#8, 0x0#8, 0x0#8, 0x0#8, 0x0#8, 0x0#8, 0x0#8, 0x0#8, 0x0#8, 0x0#8, 0x0#8, 0x0#8, 0x0#8, 0x0#8, 0x0#8, 0x0#8, 0x0#8, 0x0#8, 0x0#8, 0x0#8, 0x0#8, 0x0#8, 0x0#8, 0x0#8, 0x0#8, 0x0#8, 0x0#8, 0x0#8, 0x0#8, 0x0#8, 0x0#8, 0x0#8, 0x0#8, 0x0#8, 0x0#8, 0x0#8, 0x0#8, 0x0#8, 0x0#8, 0x0#8, 0x0#8, 0x0#8, 0x0#8, 0x0#8, 0x0#8, 0x0#8, 0x0#8, 0x0#8, 0x0#8, 0x0#8, 0x0#8, 0x0#8, 0x0#8, 0x0#8, 0x0#8, 0x0#8, 0x0#8, 0x0#8, 0x0#8, 0x0#8, 0x0#8, 0x0#8, 0x0#8, 0x0#8, 0x0#8, 0x0#8, 0x0#8, 0x0#8, 0x0#8, 0x0#8, 0x0#8, 0x0#8, 0x0#8, 0x0#8, 0x0#8, 0x0#8, 0x0#8, 0x0#8, 0x0#8, 0x0#8, 0x0#8, 0x0#8, 0x0#8, 0x0#8, 0x0#8, 0x0#8, 0x0#8, 0x0#8, 0x0#8, 0x0#8, 0x0#8, 0x0#8, 0x0#8, 0x0#8, 0x0#8, 0x0#8, 0x0#8, 0x0#8, 0x0#8, 0x0#8, 0x0#8, 0x0#8, 0x0#8, 0x0#8, 0x0#8, 0x0#8, 0x0#8, 0x0#8, 0x0#8, 0x0#8, 0x0#8, 0x0#8, 0x0#8, 0x0#8, 0x0#8, 0x0#8, 0x0#8, 0x0#8, 0x0#8, 0x0#8, 0x0#8, 0x0#8, 0x0#8, 0x0#8, 0x0#8, 0x0#8, 0x0#8, 0x0#8, 0x0#8, 0x0#8, 0x0#8, 0x0#8, 0x0#8, 0x0#8, 0x0#8, 0x0#8, 0x0#8, 0x0#8, 0x0#8, 0x0#8, 0x0#8, 0x0#8, 0x0#8, 0x0#8, 0x0#8, 0x0#8, 0x0#8, 0x0#8, 0x0#8, 0x0#8, 0x0#8, 0x0#8, 0x0#8, 0x0#8, 0x0#8, 0x0#8, 0x0#8, 0x0#8, 0x0#8, 0x0#8, 0x0#8, 0x0#8, 0x0#8, 0x0#8, 0x0#8, 0x0#8, 0x0#8, 0x0#8, 0x0#8, 0x0#8, 0x0#8, 0x0#8, 0x0#8, 0x0#8, 0x0#8, 0x0#8, 0x0#8, 0x0#8, 0x0#8, 0x0#8, 0x0#8, 0x0#8, 0x0#8, 0x0#8, 0x0#8, 0x0#8, 0x0#8, 0x0#8, 0x0#8, 0x0#8, 0x0#8, 0x0#8, 0x0#8, 0x0#8, 0x0#8, 0x0#8, 0x0#8, 0x0#8, 0x0#8, 0x0#8, 0x0#8, 0x0#8, 0x0#8, 0x0#8, 0x0#8, 0x0#8, 0x0#8, 0x0#8, 0x0#8, 0x0#8, 0x0#8, 0x0#8, 0x0#8, 0x0#8, 0x0#8, 0x0#8, 0x0#8, 0x0#8, 0x0#8, 0x0#8, 0x0#8, 0x0#8, 0x0#8, 0x0#8, 0x0#8, 0x0#8, 0x0#8, 0x0#8, 0x0#8, 0x0#8, 0x0#8, 0x0#8, 0x0#8, 0x0#8, 0x0#8, 0x0#8, 0x0#8, 0x0#8, 0x0#8, 0x0#8, 0x0#8, 0x0#8, 0x0#8, 0x0#8, 0x0#8, 0x0#8, 0x0#8, 0x0#8, 0x0#8, 0x0#8, 0x0#8, 0x0#8, 0x0#8, 0x0#8, 0x0#8, 0x0#8, 0x0#8, 0x0#8, 0x0#8, 0x0#8, 0x0#8, 0x0#8, 0x0#8, 0x0#8, 0x0#8, 0x0#8, 0x0#8, 0x0#8, 0x0#8, 0x0#8, 0x0#8, 0x0#8, 0x0#8, 0x0#8, 0x0#8, 0x0#8, 0x0#8, 0x0#8, 0x0#8, 0x0#8, 0x0#8, 0x0#8, 0x0#8, 0x0#8, 0x0#8, 0x0#8, 0x0#8, 0x0#8, 0x0#8, 0x0#8, 0x0#8, 0x0#8, 0x0#8, 0x0#8, 0x0#8, 0x0#8, 0x0#8, 0x0#8, 0x0#8, 0x0#8, 0x0#8, 0x0#8, 0x0#8, 0x0#8, 0x0#8, 0x0#8, 0x0#8, 0x0#8, 0x0#8, 0x0#8, 0x0#8, 0x0#8, 0x0#8, 0x0#8, 0x0#8, 0x0#8, 0x0#8, 0x0#8, 0x0#8, 0x0#8, 0x0#8, 0x0#8, 0x0#8, 0x0#8, 0x0#8, 0x0#8, 0x0#8, 0x0#8, 0x0#8, 0x0#8, 0x0#8, 0x0#8, 0x0#8, 0x0#8, 0x0#8, 0x0#8, 0x0#8, 0x0#8, 0x0#8, 0x0#8, 0x0#8, 0x0#8, 0x0#8, 0x0#8, 0x0#8, 0x0#8, 0x0#8, 0x0#8, 0x0#8, 0x0#8, 0x0#8, 0x0#8, 0x0#8, 0x0#8, 0x0#8, 0x0#8, 0x0#8, 0x0#8, 0x0#8, 0x0#8, 0x0#8, 0x0#8, 0x0#8, 0x0#8, 0x0#8, 0x0#8, 0x0#8, 0x0#8, 0x0#8, 0x0#8, 0x0#8, 0x0#8, 0x0#8, 0x0#8, 0x0#8, 0x0#8, 0x0#8, 0x0#8, 0x0#8, 0x0#8, 0x0#8, 0x0#8, 0x0#8, 0x0#8, 0x0#8, 0x0#8, 0x0#8, 0x0#8, 0x0#8, 0x0#8, 0x0#8, 0x0#8, 0x0#8, 0x0#8, 0x0#8, 0x0#8, 0x0#8, 0x0#8, 0x0#8, 0x0#8, 0x0#8, 0x0#8, 0x0#8, 0x0#8, 0x0#8, 0x0#8, 0x0#8, 0x0#8, 0x0#8, 0x0#8, 0x0#8, 0x0#8, 0x0#8, 0x0#8, 0x0#8, 0x0#8, 0x0#8, 0x0#8, 0x0#8, 0x0#8, 0x0#8, 0x0#8, 0x0#8, 0x0#8, 0x0#8, 0x0#8, 0x0#8, 0x0#8, 0x0#8, 0x0#8, 0x0#8, 0x0#8, 0x0#8, 0x0#8, 0x0#8, 0x0#8, 0x0#8, 0x0#8, 0x0#8, 0x0#8, 0x0#8, 0x0#8, 0x0#8, 0x0#8, 0x0#8, 0x0#8, 0x0#8, 0x0#8, 0x0#8, 0x0#8, 0x0#8, 0x0#8, 0x0#8, 0x0#8, 0x0#8, 0x0#8, 0x0#8, 0x0#8, 0x0#8, 0x0#8, 0x0#8, 0x0#8, 0x0#8, 0x0#8, 0x0#8, 0x0#8, 0x0#8, 0x0#8, 0x0#8, 0x0#8, 0x0#8, 0x0#8, 0x0#8, 0x0#8, 0x0#8, 0x0#8, 0x0#8, 0x0#8, 0x0#8, 0x0#8, 0x0#8, 0x0#8, 0x0#8, 0x0#8, 0x0#8, 0x0#8, 0x0#8, 0x0#8, 0x0#8, 0x0#8, 0x0#8, 0x0#8, 0x0#8, 0x0#8, 0x0#8, 0x0#8, 0x0#8, 0x0#8, 0x0#8, 0x0#8, 0x0#8, 0x0#8, 0x0#8, 0x0#8, 0x0#8, 0x0#8, 0x0#8, 0x0#8, 0x0#8, 0x0#8, 0x0#8, 0x0#8, 0x0#8, 0x0#8, 0x0#8, 0x0#8, 0x0#8, 0x0#8, 0x0#8, 0x0#8, 0x0#8, 0x0#8, 0x0#8, 0x0#8, 0x0#8, 0x0#8, 0x0#8, 0x0#8, 0x0#8, 0x0#8, 0x0#8, 0x0#8, 0x0#8, 0x0#8, 0x0#8, 0x0#8, 0x0#8, 0x0#8, 0x0#8, 0x0#8, 0x0#8, 0x0#8, 0x0#8, 0x0#8, 0x0#8, 0x0#8, 0x0#8, 0x0#8, 0x0#8, 0x0#8, 0x0#8, 0x0#8, 0x0#8, 0x0#8, 0x0#8, 0x0#8, 0x0#8, 0x0#8, 0x0#8, 0x0#8, 0x0#8, 0x0#8, 0x0#8, 0x0#8, 0x0#8, 0x0#8, 0x0#8, 0x0#8, 0x0#8, 0x0#8, 0x0#8, 0x0#8, 0x0#8, 0x0#8, 0x0#8, 0x0#8, 0x0#8, 0x0#8, 0x0#8, 0x0#8, 0x0#8, 0x0#8, 0x0#8, 0x0#8, 0x0#8, 0x0#8, 0x0#8, 0x0#8, 0x0#8, 0x0#8, 0x0#8, 0x0#8, 0x0#8, 0x0#8, 0x0#8, 0x0#8, 0x0#8, 0x0#8, 0x0#8, 0x0#8, 0x0#8, 0x0#8, 0x0#8, 0x0#8, 0x0#8, 0x0#8, 0x0#8, 0x0#8, 0x0#8, 0x0#8, 0x0#8, 0x0#8, 0x0#8, 0x0#8, 0x0#8, 0x0#8, 0x0#8, 0x0#8, 0x0#8, 0x0#8, 0x0#8, 0x0#8, 0x0#8, 0x0#8, 0x0#8, 0x0#8, 0x0#8, 0x0#8, 0x0#8, 0x0#8, 0x0#8, 0x0#8, 0x0#8, 0x0#8, 0x0#8, 0x0#8, 0x0#8, 0x0#8, 0x0#8, 0x0#8, 0x0#8, 0x0#8, 0x0#8, 0x0#8, 0x0#8, 0x0#8, 0x0#8, 0x0#8, 0x0#8, 0x0#8, 0x0#8, 0x0#8, 0x0#8, 0x0#8, 0x0#8, 0x0#8, 0x0#8, 0x0#8, 0x0#8, 0x0#8, 0x0#8, 0x0#8, 0x0#8, 0x0#8, 0x0#8, 0x0#8, 0x0#8, 0x0#8, 0x0#8, 0x0#8, 0x0#8, 0x0#8, 0x0#8, 0x0#8, 0x0#8, 0x0#8, 0x0#8, 0x0#8, 0x0#8, 0x0#8, 0x0#8, 0x0#8, 0x0#8, 0x0#8, 0x0#8, 0x0#8, 0x0#8, 0x0#8, 0x0#8, 0x0#8, 0x0#8, 0x0#8, 0x0#8, 0x0#8, 0x0#8, 0x0#8, 0x0#8, 0x0#8, 0x0#8, 0x0#8, 0x0#8, 0x0#8, 0x0#8, 0x0#8, 0x0#8, 0x0#8, 0x0#8, 0x0#8, 0x0#8, 0x0#8, 0x0#8, 0x0#8, 0x0#8, 0x0#8, 0x0#8, 0x0#8, 0x0#8, 0x0#8, 0x0#8, 0x0#8, 0x0#8, 0x0#8, 0x0#8, 0x0#8, 0x0#8, 0x0#8, 0x0#8, 0x0#8, 0x0#8, 0x0#8, 0x0#8, 0x0#8, 0x0#8, 0x0#8, 0x0#8, 0x0#8, 0x0#8, 0x0#8, 0x0#8, 0x0#8, 0x0#8, 0x0#8, 0x0#8, 0x0#8, 0x0#8, 0x0#8, 0x0#8, 0x0#8, 0x0#8, 0x0#8, 0x0#8, 0x0#8, 0x0#8, 0x0#8, 0x0#8, 0x0#8, 0x0#8, 0x0#8, 0x0#8, 0x0#8, 0x0#8, 0x0#8, 0x0#8, 0x0#8, 0x0#8, 0x0#8, 0x0#8, 0x0#8, 0x0#8, 0x0#8, 0x0#8, 0x0#8, 0x0#8, 0x0#8, 0x0#8], by decide +kernel⟩

end WitY

/-! #### Witnesses: the mailbox -/

namespace WitQ

def gm : State := let s := { go2 with mem := [(0x300000,3),(0x300001,4),(0x300004, 9)], flash := [(0x1fffff,1),(0x200003,5),(0x200300,6),(0x1000000,8)] }
  let s := {s with seq := {s.seq with ended := 2047, begun := 2047}}
  ((((s.wr P.erq Reg.MBX_CFG_en 1).wr P.erq Reg.MBX_STAT_prod 1).wr P.erq Reg.MBX_STAT_cons 0).wr P.erq Reg.MBX_CFG_size_log2 4)
def cs (a : Nat) (s : State) := s.wr (P.cfeC 1) Reg.CFE_CAM_STAT_state a

theorem witness_MailboxRequestsAreTakenAndAnswered_1 :
  (∃ (s : State),
    let can : Prop := s.mbxCanTake = true
    s.calm ∧
    can) ∧
  (∃ (s : State) (k : Fin 8),
    s.calm ∧
    s.mbxCanTake = true ∧
    (s.cam k.val).req = none ∧
    s.camState k.val = 0) ∧
  (∃ (s : State) (k : Fin 8) (a : DevAddr),
    let p : Nat := P.lplC k.val
    let busy : Prop := s.rd p Reg.LPL_PLOAD_STAT_state ≠ 0
    let bound : Prop := s.camState k.val = 1 ∨ s.camState k.val = 2
    let d : State × Bool := s.fetch 4 a.toNat 64
    let u : State := if busy ∨ ¬bound then s else d.fst
    let code : Nat := if busy then 1 else if ¬bound then 6 else if d.snd = true then 5 else u.imageCode k.val a.toNat
    s.calm ∧
    s.mbxCanTake = true ∧
    (¬busy) ∧
    code ≠ 0) ∧
  (∃ (s : State) (p : Fin 2) (cfg : Word) (macHi : Word),
    let b : Nat := P.eth p.val
    let reserved : Prop := bits cfg.toNat 4 4 ≠ 0 ∨ bits cfg.toNat 9 23 ≠ 0 ∨ bits macHi.toNat 16 16 ≠ 0
    let armed : Prop := ∃ g, g ∈ List.range 32 ∧ s.rd P.rtu Reg.RTU_GRP_CFG_armed g = 1 ∧ s.rd P.rtu Reg.RTU_GRP_CFG_kind g = 1 ∧ s.rd P.rtu Reg.RTU_GRP_CFG_port g = p.val
    let code : Nat := if reserved then 1 else if armed then 2 else 0
    s.calm ∧
    s.mbxCanTake = true ∧
    code = 0 ∧
    s.heldBack (b + 192) = false) ∧
  (∃ (s : State) (k : Fin 8) (regs : List Word),
    let st : Nat := s.camState k.val
    let free : Prop := st ≠ 2 ∧ st ≠ 1
    let words : List (Nat × Nat) := (bindAddrs k.val).zip (List.map BitVec.toNat regs)
    let s1 : State := List.foldl (fun s p => s.writeWord p.fst p.snd) s words
    let valid : Prop := s1.groupValid k.val = true
    let p : Nat × Nat := (List.drop 0 words).head!
    let q : PageInfo := (pageInfo (p.fst / 4096)).get!
    let x : Fld × Nat := (List.drop 0 (fieldsAt q.kind (p.fst % 4096))).head!
    s.calm ∧
    regs.length = 9 ∧
    s.mbxCanTake = true ∧
    free ∧
    pageInfo (p.fst / 4096) = some q ∧
    x.fst.acc = Acc.rw ∧
    valid) ∧
  (∃ (s : State) (a : DevAddr) (len : BitVec 32) (valid : Bool) (i : Nat),
    let n : Nat := len.toNat
    let placed : Prop := blobPlace a.toNat n = true
    let d : State × Bool := s.fetch 4 a.toNat n
    let code : Nat := if ¬placed then 2 else if valid = false ∨ d.snd = true ∨ 14680064 < n then 3 else 0
    s.calm ∧
    s.mbxCanTake = true ∧
    code = 0 ∧
    i < n) ∧
  (∃ (s : State) (a : DevAddr) (len : BitVec 32) (valid : Bool) (x : Nat),
    let n : Nat := len.toNat
    let placed : Prop := blobPlace a.toNat n = true
    let d : State × Bool := s.fetch 4 a.toNat n
    let code : Nat := if ¬placed then 2 else if valid = false ∨ d.snd = true ∨ 14680064 < n then 3 else 0
    s.calm ∧
    s.mbxCanTake = true ∧
    code = 0 ∧
    (x < 2097152 ∨ 16777216 ≤ x)) := by
  refine ⟨?_, ?_, ?_, ?_, ?_, ?_, ?_⟩
  · exact ⟨gm, by decide +kernel⟩
  · exact ⟨gm, 1, by decide +kernel⟩
  · exact ⟨gm, 1, 0x300000#40, by decide +kernel⟩
  · exact ⟨{cs 2 gm with msys := {gm.msys with poison := [0x300000/8]}}, 1, 0x103#32, 0x103#32, by decide +kernel⟩
  · exact ⟨{cs 2 gm with msys := {gm.msys with poison := [0x300000/8]}}, 2, [0x10030#32, 0x10100#32, 0x50020#32, 0x50003#32, 0x7#32, 0x0#32, 0x20000000#32, 0x100010#32, 0x100#32], by decide +kernel⟩
  · exact ⟨{cs 2 gm with msys := {gm.msys with poison := [0x300000/8]}}, 0x30000000#40, 0x103#32, true, 0, by decide +kernel⟩
  · exact ⟨{cs 2 gm with msys := {gm.msys with poison := [0x300000/8]}}, 0x30000000#40, 0x103#32, true, 0, by decide +kernel⟩

theorem witness_MailboxRequestsAreTakenAndAnswered_2 :
  (∃ (s : State) (k : Fin 8) (regs : List Word),
    let st : Nat := s.camState k.val
    let free : Prop := st ≠ 2 ∧ st ≠ 1
    let words : List (Nat × Nat) := (bindAddrs k.val).zip (List.map BitVec.toNat regs)
    let s1 : State := List.foldl (fun s p => s.writeWord p.fst p.snd) s words
    let valid : Prop := s1.groupValid k.val = true
    s.calm ∧
    regs.length = 9 ∧
    s.mbxCanTake = true ∧
    free ∧
    (¬valid)) ∧
  (∃ (s : State) (k : Fin 8) (regs : List Word) (d : Nat),
    let st : Nat := s.camState k.val
    let free : Prop := st ≠ 2 ∧ st ≠ 1
    s.calm ∧
    regs.length = 9 ∧
    s.mbxCanTake = true ∧
    (¬free) ∧
    d ≠ k.val) ∧
  (∃ (s : State) (regs : List Word),
    let can : Prop := s.mbxCanTake = true
    s.calm ∧
    (¬can) ∧
    regs.length ≠ 9) ∧
  (∃ (s : State) (k : Fin 8) (d : Nat),
    s.calm ∧
    s.mbxCanTake = true ∧
    (s.cam k.val).req = none ∧
    d ≠ k.val) ∧
  (∃ (s : State) (a : DevAddr) (len : BitVec 32) (valid : Bool) (i : Nat),
    let n : Nat := len.toNat
    let placed : Prop := blobPlace a.toNat n = true
    let d : State × Bool := s.fetch 4 a.toNat n
    let code : Nat := if ¬placed then 2 else if valid = false ∨ d.snd = true ∨ 14680064 < n then 3 else 0
    s.calm ∧
    s.mbxCanTake = true ∧
    code = 0 ∧
    i < 14680064 ∧
    n ≤ i) ∧
  (∃ (s : State) (k : Fin 8),
    let p : Nat := P.lplC k.val
    let busy : Prop := s.rd p Reg.LPL_PLOAD_STAT_state ≠ 0
    s.calm ∧
    s.mbxCanTake = true ∧
    busy) := by
  refine ⟨?_, ?_, ?_, ?_, ?_, ?_⟩
  · exact ⟨gm, 1, [0x0#32, 0x0#32, 0x0#32, 0x0#32, 0x0#32, 0x0#32, 0x0#32, 0x0#32, 0x0#32], by decide +kernel⟩
  · exact ⟨{cs 2 gm with msys := {gm.msys with poison := [0x300000/8]}}, 1, [0x10030#32, 0x10100#32, 0x50020#32, 0x50003#32, 0x7#32, 0x0#32, 0x20000000#32, 0x100010#32, 0x100#32], 0, by decide +kernel⟩
  · exact ⟨go2, [], by decide +kernel⟩
  · exact ⟨{cs 2 gm with msys := {gm.msys with poison := [0x300000/8]}}, 1, 0, by decide +kernel⟩
  · exact ⟨gm, 0x300000#40, 0x5#32, true, 5, by decide +kernel⟩
  · exact ⟨cs 2 (gm.wr (P.lplC 1) Reg.LPL_PLOAD_STAT_state 1), 1, by decide +kernel⟩

end WitQ

/-! #### Witnesses: Temper -/

namespace WitS

def rq : MbxReq := {tag := 5, reply := 0x9000}
def pubC : List Byte := le 32 0xca937dd16b417e99c88d211632a9fc692fbd3d5f4b6aba517c451a6d2cf69813
def pubO : List Byte := le 32 0x18f6e935c8ea02d78ec5136bf7ebfd91d9a12f60cd78fb645bc7a05a382417fd
def pubR : List Byte := le 32 0x2cd2461469ea1e42927bbebeae764795f9c52e137b50f5be0a529ce2636c4aea
def cert : List Byte := le 240 0xffffffffca937dd16b417e99c88d211632a9fc692fbd3d5f4b6aba517c451a6d2cf698130f66de7dda4eee6989e5a7790f5e0a736a1fe4944763caf53116ac7509e25d30d7d11ac845137da276cc96b690f9531bda5f8f49b2e6c869609632a590a306c92cd2461469ea1e42927bbebeae764795f9c52e137b50f5be0a529ce2636c4aea0dd5230fb04bb3ffb72efae84adb6c77a4270e680b5c79a63b52d9a6edcd52376ae4a20fc999de8708c6be11b9a11258cd8653238803a26825856ecffacf3bfd00000000ffffffff00000000000000000000000000000030000100044b317e3a
def image : List Byte := le 496 0x4000000000000000000010203040825fa2ee0e151e8188863bcf8e204de35c915b06e1472d75cd66e51267882114aa0ef28f66cc7139b7046dac0297aa469f3808e2d010da4aeed850419d9bb7bca937dd16b417e99c88d211632a9fc692fbd3d5f4b6aba517c451a6d2cf698134c289349d36463e369738cb2bfa99c39f33cb47817f6d34398394123490dcd1eded0d393f61a930b61a8a0bed31f15980e5cb31371b852d65a8c961d0f0888c200000000ffffffff00000000000000000000000300000040000100014b317e3a000000000000000000000000ffffffffca937dd16b417e99c88d211632a9fc692fbd3d5f4b6aba517c451a6d2cf698130f66de7dda4eee6989e5a7790f5e0a736a1fe4944763caf53116ac7509e25d30d7d11ac845137da276cc96b690f9531bda5f8f49b2e6c869609632a590a306c92cd2461469ea1e42927bbebeae764795f9c52e137b50f5be0a529ce2636c4aea0dd5230fb04bb3ffb72efae84adb6c77a4270e680b5c79a63b52d9a6edcd52376ae4a20fc999de8708c6be11b9a11258cd8653238803a26825856ecffacf3bfd00000000ffffffff00000000000000000000000000000030000100044b317e3a
def idb : List Byte := le 496 0xf363f3810795e072abdf3894d04f235a89156ff07fc7b4bdbd77e4510fb01ee300000000000012340908a4a80556327372298ad4c810fd972623363c8d2fb5340d442be75ec72bf0f9499e90b780701e7c19f39ce8cb460c237663bd695703c1e1e54caba0d8ddcaca937dd16b417e99c88d211632a9fc692fbd3d5f4b6aba517c451a6d2cf698135a76143b34f4e14ebfde78a6a032111573b68eafbf703f0a0e85ab5d103f6643a0475a886732ba83ce495996dfe4dac4c56366c6830fe4772619897b8f87379e00000000ffffffff00000000000012340000000000000040000100034b317e3a000000000000000000000000ffffffffca937dd16b417e99c88d211632a9fc692fbd3d5f4b6aba517c451a6d2cf698130f66de7dda4eee6989e5a7790f5e0a736a1fe4944763caf53116ac7509e25d30d7d11ac845137da276cc96b690f9531bda5f8f49b2e6c869609632a590a306c92cd2461469ea1e42927bbebeae764795f9c52e137b50f5be0a529ce2636c4aea0dd5230fb04bb3ffb72efae84adb6c77a4270e680b5c79a63b52d9a6edcd52376ae4a20fc999de8708c6be11b9a11258cd8653238803a26825856ecffacf3bfd00000000ffffffff00000000000000000000000000000030000100044b317e3a
def ow_1_5 : List Byte := le 240 0x600050001000000000000123406738413e9a004abe9ec073ae40eed3ddfbc50ae5d4920c1c6546e3409576fd67eaa32b6cff79c083f6df5d6dfe04097614ea815f60a32906ebd00f25880c2e218f6e935c8ea02d78ec5136bf7ebfd91d9a12f60cd78fb645bc7a05a382417fdffc1906dfccec02a879a1506a647ea4e37332789ee02a3c7c08221d138fed8f1802ae2feaf90a17c099c5813c157354b5a7998b5c3e3791b23847762af6c87f800000000ffffffff00000000000000000000000000000030000100084b317e3a
def ow_2_3 : List Byte := le 240 0x101010101010101010101010101010101010101010101010101010101010101000000060003000200000000000012340e7059a9984204c64012028cf17cdb37ec9b72331caefae0c3e0b583f31853cc31d10600f5e1049ca8722948b5417160bb772d95c9a300ae16bfd503ed07eb5818f6e935c8ea02d78ec5136bf7ebfd91d9a12f60cd78fb645bc7a05a382417fd7233a6ad52fa3e15c85222f5acc3557018db458d401bc2b1f9c8e8bcf06911864ec67c633852d09a22aea3225d80271f4bde9834c091a04d4d4be606a75ec24800000000ffffffff00000000000000000000000000000030000100084b317e3a
def ow_3_2 : List Byte := le 240 0x6000200030000000000001234071ce83f48712262d5a90a5345a09217bd4b4ff6ca4b03d4447dbbd6bfc66538455a83f4fc05fa51eb635fb018d9832740d70a71b51bc2e930a3377a03c0463f18f6e935c8ea02d78ec5136bf7ebfd91d9a12f60cd78fb645bc7a05a382417fdd86b44a000bd81f3b2dabf7cbb1e02e5c41c041733337e9070dbf7de7ee4d4354c779623748eeb9a88e0ac89f71caf6e84916fd568ed37e0c9e9fc75054d4c5000000000ffffffff00000000000000000000000000000030000100084b317e3a
def rt_1_1 : List Byte := le 240 0x6000100010000000000001234023b48c0707b41a7565f7e16995e311751acbf189607c838011f6811696f49a7269832ea46c0c3024c553b1a6417390853a1b7e4c5b205bf88bad7ba55cce9b72cd2461469ea1e42927bbebeae764795f9c52e137b50f5be0a529ce2636c4aea6691d6fbee4304126caa87414528ab648e259eb3e32eef43aed10ddf697a4ba2005c9314a51d98141a6845bc6c95ef71093f36de26bc63eec98851274185edce00000000ffffffff00000000000012340000000000000030000100074b317e3a
def rt_4_0 : List Byte := le 240 0x6000000040000000000001234085aba08fdaf0e485fa7424cea0047d9c5ff597ad5bc07490d168e5cb8e54461803591b62a66d744f0d601e836d2007759d07d9e0128b40ac9b3e46d713d8bf22cd2461469ea1e42927bbebeae764795f9c52e137b50f5be0a529ce2636c4aea80adc4087b6b176850159f66cbc5cefed2f7a75621185bd72da73ea6bd180116b9cc07697b4c731a21882dbdab3195ca902b5f7abda702b206f608fdc9166b4a00000000ffffffff00000000000012340000000000000030000100074b317e3a
def rt_5_3 : List Byte := le 240 0x6000300050000000000001234063b03c4bf494a1846fa37d6e98ebbe43811e33d0fb08a99f62c654a40289cf4d059137a401461a5dbf322927ad1e698ce19763982f0293504bf7a626b7686262cd2461469ea1e42927bbebeae764795f9c52e137b50f5be0a529ce2636c4aeac6c6fd7c8c4b54c2bddaeb30eb2a142f39307ee69f7265d0576568359b6dacc6bf84f335d1cbe537fb51d9b77295f18184deb9b306ab31e95ba75f578359412100000000ffffffff00000000000012340000000000000030000100074b317e3a
def gm : State :=
  let s : State := { go2 with hostMem := [], mem := [] }
  let s := {s with seq := {s.seq with ended := 2047, begun := 2047}}
  let s := ((((s.wr P.erq Reg.MBX_CFG_en 1).wr P.erq Reg.MBX_STAT_prod 1).wr P.erq Reg.MBX_STAT_cons 0).wr P.erq Reg.MBX_CFG_size_log2 4)
  let s := (s.wr2 P.tmp Reg.TMP_SERIAL_serial_lo Reg.TMP_SERIAL_serial_hi 0x1234).wr P.tmp Reg.TMP_AUTH_CTR_count 6
  let s := {s with temper := {s.temper with roots := [sha512 pubC, sha512 pubR, [], []], ownerKeys := [(0, pubO)], copyA := some ⟨[(0, pubO)], [], 6⟩, secret := List.replicate 32 4}}
  let s := s.slotsShow
  let s := s.wr P.tmp Reg.TMP_LC_floor 2
  s
def put (a : Nat) (bs : List Byte) (s : State) : State := {s with mem := Memory.writeBytes s.mem a bs}
def life (c : Nat) (s : State) := (s.wr P.tmp Reg.TMP_LC_count c).wr P.tmp Reg.TMP_LC_state (lcOf c)
def psn (a : Nat) (s : State) : State := {s with msys := {s.msys with poison := [a / 8]}}
def stt (b n : Nat) (s : State) : State := s.wr b Reg.BLK_STAT_state n
def md (f : Temper → Temper) (s : State) := {s with temper := f s.temper}
def tk (s : State) := {s with host := {s.host with mbxTaken := [(rq, 0x41)]}}
def ho (p w : Bool) (s : State) : State := tk (md (fun m => {m with handover := some rq, pauseRuns := p, swapped := w, running := [1,2], staged := [3], runSvn := 4, stagedSvn := 5, version := [1], stagedVersion := [2]}) (s.wr P.tmp Reg.TMP_STAT_staged 1))
def stg (s : State) := s.wr P.tmp Reg.TMP_STAT_staged 1
def flt (s : State) := s.wr P.tmp Reg.BLK_STAT_state 3
def gi : State := put 0x300000 image gm
def rc (s : State) := ((s.wr P.tmp Reg.TMP_STAT_recovery 1).wr P.tmp Reg.TMP_RCV_ADDR_addr_lo 0x300000).wr P.tmp Reg.TMP_RCV_LEN_len image.length
def one (b1 : List Byte) (s : State) := put 0x300000 b1 s
def full (s : State) := (md (fun m => {m with ownerKeys := [(0, pubO), (2, [1,2])]}) s).slotsShow
def bare (s : State) := (md (fun m => {m with ownerKeys := []}) s).slotsShow

/-- A read that meets no uncorrectable word gives the bytes that were written. -/
theorem fetch_load {s : State} {m : Memory} {bs : List Byte} {a b n k : Nat} (hm : s.mem = Memory.writeBytes m b bs)
    (hl : bs.length = k) (ha : a = b) (hn : n = k) (hb : s.badWords a n = []) : (s.fetch 4 a n).1.load a n = bs := by
  rw [fetch_clean_load 4 hb, State.load, hm, ha, hn]
  exact Memory.readBytes_writeBytes bs m b k hl

theorem put_mem (a : Nat) (bs : List Byte) (s : State) : (put a bs s).mem = Memory.writeBytes s.mem a bs := rfl

theorem stt_mem (b n : Nat) (s : State) : (stt b n s).mem = s.mem := rfl

theorem ho_mem (p w : Bool) (s : State) (v i : Nat) : ((ho p w s).wr P.bank Reg.BANK_CTL_pwr v i).mem = s.mem := rfl

theorem rc_mem (s : State) : (rc s).mem = s.mem := by simp only [rc, State.wr_mem]

theorem image_length : image.length = 0x1f0 := by decide +kernel

theorem handed_load : (((ho false false gi).wr P.bank Reg.BANK_CTL_pwr 0 193).fetch 4 (BitVec.toNat 0x300000#40) (BitVec.toNat 0x1f0#32)).1.load (BitVec.toNat 0x300000#40) (BitVec.toNat 0x1f0#32) = image :=
  fetch_load ((ho_mem _ _ _ _ _).trans (put_mem 0x300000 image (gm))) image_length (by decide) (by decide) (by decide +kernel)

theorem ow_1_5_length : ow_1_5.length = 0xf0 := by decide +kernel

theorem ow_1_5_load : ((one ow_1_5 gm).fetch 4 (BitVec.toNat 0x300000#40) (BitVec.toNat 0xf0#32)).1.load (BitVec.toNat 0x300000#40) (BitVec.toNat 0xf0#32) = ow_1_5 :=
  fetch_load (put_mem 0x300000 ow_1_5 (gm)) ow_1_5_length (by decide) (by decide) (by decide +kernel)

theorem idb_length : idb.length = 0x1f0 := by decide +kernel

theorem idb_load : ((one idb (life 1 gm)).fetch 4 (BitVec.toNat 0x300000#40) (BitVec.toNat 0x1f0#32)).1.load (BitVec.toNat 0x300000#40) (BitVec.toNat 0x1f0#32) = idb :=
  fetch_load (put_mem 0x300000 idb (life 1 gm)) idb_length (by decide) (by decide) (by decide +kernel)

theorem ow_2_3_length : ow_2_3.length = 0xf0 := by decide +kernel

theorem ow_2_3_load : ((one ow_2_3 gm).fetch 4 (BitVec.toNat 0x300000#40) (BitVec.toNat 0xf0#32)).1.load (BitVec.toNat 0x300000#40) (BitVec.toNat 0xf0#32) = ow_2_3 :=
  fetch_load (put_mem 0x300000 ow_2_3 (gm)) ow_2_3_length (by decide) (by decide) (by decide +kernel)

theorem rt_4_0_length : rt_4_0.length = 0xf0 := by decide +kernel

theorem rt_4_0_load : ((one rt_4_0 (life 4 gm)).fetch 4 (BitVec.toNat 0x300000#40) (BitVec.toNat 0xf0#32)).1.load (BitVec.toNat 0x300000#40) (BitVec.toNat 0xf0#32) = rt_4_0 :=
  fetch_load (put_mem 0x300000 rt_4_0 (life 4 gm)) rt_4_0_length (by decide) (by decide) (by decide +kernel)

theorem ow_3_2_length : ow_3_2.length = 0xf0 := by decide +kernel

theorem ow_3_2_load : ((one ow_3_2 (full gm)).fetch 4 (BitVec.toNat 0x300000#40) (BitVec.toNat 0xf0#32)).1.load (BitVec.toNat 0x300000#40) (BitVec.toNat 0xf0#32) = ow_3_2 :=
  fetch_load (put_mem 0x300000 ow_3_2 (full gm)) ow_3_2_length (by decide) (by decide) (by decide +kernel)

theorem rt_5_3_length : rt_5_3.length = 0xf0 := by decide +kernel

theorem rt_5_3_load : ((one rt_5_3 gm).fetch 4 (BitVec.toNat 0x300000#40) (BitVec.toNat 0xf0#32)).1.load (BitVec.toNat 0x300000#40) (BitVec.toNat 0xf0#32) = rt_5_3 :=
  fetch_load (put_mem 0x300000 rt_5_3 (gm)) rt_5_3_length (by decide) (by decide) (by decide +kernel)

theorem rt_1_1_length : rt_1_1.length = 0xf0 := by decide +kernel

theorem rt_1_1_load : ((one rt_1_1 (life 0 gm)).fetch 4 (BitVec.toNat 0x300000#40) (BitVec.toNat 0xf0#32)).1.load (BitVec.toNat 0x300000#40) (BitVec.toNat 0xf0#32) = rt_1_1 :=
  fetch_load (put_mem 0x300000 rt_1_1 (life 0 gm)) rt_1_1_length (by decide) (by decide) (by decide +kernel)

theorem dead_idb_load : ((stt (P.drc 1) 3 (one idb (life 1 gm))).fetch 4 (BitVec.toNat 0x300000#40) (BitVec.toNat 0x1f0#32)).1.load (BitVec.toNat 0x300000#40) (BitVec.toNat 0x1f0#32) = idb :=
  fetch_load ((stt_mem _ _ _).trans (put_mem 0x300000 idb (life 1 gm))) idb_length (by decide) (by decide) (by decide +kernel)

theorem idb_load_bound : (if (one idb (life 1 gm)).lcState = 1 then ((one idb (life 1 gm)).fetch 4 (BitVec.toNat 0x300000#40) (BitVec.toNat 0x1f0#32)).1 else one idb (life 1 gm)).load
    (BitVec.toNat 0x300000#40) (BitVec.toNat 0x1f0#32) = idb := by
  rw [if_pos (by decide +kernel)]
  exact idb_load

theorem dead_idb_load_bound : (if (stt (P.drc 1) 3 (one idb (life 1 gm))).lcState = 1 then ((stt (P.drc 1) 3 (one idb (life 1 gm))).fetch 4 (BitVec.toNat 0x300000#40) (BitVec.toNat 0x1f0#32)).1 else stt (P.drc 1) 3 (one idb (life 1 gm))).load
    (BitVec.toNat 0x300000#40) (BitVec.toNat 0x1f0#32) = idb := by
  rw [if_pos (by decide +kernel)]
  exact dead_idb_load

theorem recovery_load : ((rc gi).fetch 4 ((rc gi).rd2 P.tmp Reg.TMP_RCV_ADDR_addr_lo Reg.TMP_RCV_ADDR_addr_hi / 64 * 64)
    ((rc gi).rd P.tmp Reg.TMP_RCV_LEN_len)).1.load ((rc gi).rd2 P.tmp Reg.TMP_RCV_ADDR_addr_lo Reg.TMP_RCV_ADDR_addr_hi / 64 * 64)
    ((rc gi).rd P.tmp Reg.TMP_RCV_LEN_len) = image :=
  fetch_load ((rc_mem _).trans (put_mem 0x300000 image gm)) image_length (by decide +kernel) (by decide +kernel) (by decide +kernel)

theorem witness_ImagesAreStagedHandedOverAndCommitted_1 :
  (∃ (s : State),
    s.atRest ∧
    s.temper.handover = none) ∧
  (∃ (s : State),
    let waits : Prop := s.temper.pauseRuns = false ∧ s.hearthRuns = true
    s.calm ∧
    (¬waits ∨ s.temper.handover = none)) ∧
  (∃ (s : State) (x : Nat),
    let quiet : MbxReq → Prop := fun r => s.hearthRuns = true ∧ (∀ (q : MbxReq × Nat), q ∈ s.host.mbxTaken → q = (r, 65)) ∧ (∀ (c : Nat), c < 8 → s.ctxState c ≠ 1 ∧ s.ctxState c ≠ 7) ∧ ∀ (k : Nat), k < 8 → s.camState k ≠ 1 ∧ s.rd (P.lplC k) Reg.LPL_PLOAD_STAT_state ≠ 1
    let r : MbxReq := s.temper.handover.get!
    s.atRest ∧
    s.temper.handover = some r ∧
    quiet r ∧
    (x < bankBase 193 ∨ bankBase 193 + 64 ≤ x) ∧
    s.serves 193 2 = true) := by
  refine ⟨?_, ?_, ?_⟩
  · exact ⟨gi, by decide +kernel⟩
  · exact ⟨gi, by decide +kernel⟩
  · exact ⟨ho false false gi, 0, by decide +kernel⟩

theorem witness_ImagesAreStagedHandedOverAndCommitted_2 :
  (∃ (s : State),
    let waits : Prop := s.temper.pauseRuns = false ∧ s.hearthRuns = true
    let r : MbxReq := s.temper.handover.get!
    s.calm ∧
    waits ∧
    s.temper.handover = some r ∧
    (r, 65) ∈ s.host.mbxTaken) ∧
  (∃ (s : State),
    let due : Prop := s.temper.pauseRuns = true ∧ s.temper.swapped = true ∧ s.clocked = true
    let m : Temper := s.temper
    let r : MbxReq := m.handover.get!
    s.calm ∧
    due ∧
    m.handover = some r ∧
    (r, 65) ∈ s.host.mbxTaken) ∧
  (∃ (s : State),
    let quiet : MbxReq → Prop := fun r => s.hearthRuns = true ∧ (∀ (q : MbxReq × Nat), q ∈ s.host.mbxTaken → q = (r, 65)) ∧ (∀ (c : Nat), c < 8 → s.ctxState c ≠ 1 ∧ s.ctxState c ≠ 7) ∧ ∀ (k : Nat), k < 8 → s.camState k ≠ 1 ∧ s.rd (P.lplC k) Reg.LPL_PLOAD_STAT_state ≠ 1
    let r : MbxReq := s.temper.handover.get!
    s.atRest ∧
    s.temper.handover = some r ∧
    (¬quiet r)) := by
  refine ⟨?_, ?_, ?_⟩
  · exact ⟨ho false false gi, by decide +kernel⟩
  · exact ⟨ho true true gi, by decide +kernel⟩
  · exact ⟨ho true false gi, by decide +kernel⟩

theorem witness_ImagesAreStagedHandedOverAndCommitted_3 :
  (∃ (s : State),
    let due : Prop := s.temper.pauseRuns = true ∧ s.temper.swapped = false ∧ s.clocked = true
    let ok : Prop := s.works P.tmp = true ∧ s.rdb P.tmp Reg.TMP_STAT_staged = true ∧ s.poisoned (halfAt !s.runHalf) halfSize = false
    s.calm ∧
    due ∧
    ok) ∧
  (∃ (s : State) (who : Requester),
    let due : Prop := s.temper.pauseRuns = true ∧ s.temper.swapped = true ∧ s.coll.hearthHalted = false
    let m : Temper := s.temper
    let r : MbxReq := m.handover.get!
    s.calm ∧
    s.reaches (P.tmp + 104) ∧
    who = Requester.firmware ∧ due ∧
    m.handover = some r ∧
    (r, 65) ∈ s.host.mbxTaken) ∧
  (∃ (s : State),
    let due : Prop := s.temper.pauseRuns = true ∧ s.temper.swapped = false ∧ s.clocked = true
    let ok : Prop := s.works P.tmp = true ∧ s.rdb P.tmp Reg.TMP_STAT_staged = true ∧ s.poisoned (halfAt !s.runHalf) halfSize = false
    let r : MbxReq := s.temper.handover.get!
    s.calm ∧
    (due ∧ ¬ok) ∧
    s.temper.handover = some r ∧
    (r, 65) ∈ s.host.mbxTaken) := by
  refine ⟨?_, ?_, ?_⟩
  · exact ⟨ho true false gi, by decide +kernel⟩
  · exact ⟨ho true true gi, Requester.firmware, by decide +kernel⟩
  · exact ⟨flt (ho true false gi), by decide +kernel⟩

theorem witness_ImagesAreStagedHandedOverAndCommitted_4 :
  (∃ (s : State) (v : Word),
    let open_ : Prop := s.rdb P.tmp Reg.TMP_STAT_recovery = true ∧ v.toNat / 65536 = 16017
    s.calm ∧
    s.reaches (P.tmp + 100) ∧
    (¬open_)) ∧
  (∃ (s : State) (timeout : BitVec 32),
    let ok : Prop := s.rdb P.tmp Reg.TMP_STAT_staged = true ∧ s.temper.handover = none
    s.calm ∧
    s.mbxCanTake = true ∧
    s.works P.tmp = true ∧
    1 ≤ timeout.toNat ∧
    timeout.toNat ≤ 10000 ∧
    (¬ok)) ∧
  (∃ (s : State) (timeout : BitVec 32),
    let ok : Prop := s.rdb P.tmp Reg.TMP_STAT_staged = true ∧ s.temper.handover = none
    s.calm ∧
    s.mbxCanTake = true ∧
    s.works P.tmp = true ∧
    1 ≤ timeout.toNat ∧
    timeout.toNat ≤ 10000 ∧
    ok) := by
  refine ⟨?_, ?_, ?_⟩
  · exact ⟨gi, 0x0#32, by decide +kernel⟩
  · exact ⟨gi, 0x1f0#32, by decide +kernel⟩
  · exact ⟨stg gi, 0x1f0#32, by decide +kernel⟩

theorem witness_ImagesAreStagedHandedOverAndCommitted_5 :
  (∃ (s : State) (a : DevAddr) (len : BitVec 32),
    let n : Nat := len.toNat
    let d : State × Bool := s.fetch 4 a.toNat n
    let u : State := d.fst
    let h : Nat := halfAt !s.runHalf
    let room : Prop := n ≤ halfSize ∧ u.stackDead h = false
    s.calm ∧
    s.mbxCanTake = true ∧
    s.works P.tmp = true ∧
    blobPlace a.toNat len.toNat = true ∧
    (¬room)) ∧
  (∃ (s : State) (who : Requester),
    s.calm ∧
    s.reaches (P.tmp + 104) ∧
    who = Requester.driver) ∧
  (∃ (s : State) (i : Nat),
    s.calm ∧
    s.mbxCanTake = true ∧
    s.works P.tmp = true ∧
    i < halfSize) := by
  refine ⟨?_, ?_, ?_⟩
  · exact ⟨stt (P.drc 0) 3 gi, 0x300000#40, 0x0#32, by decide +kernel⟩
  · exact ⟨gi, Requester.driver, by decide +kernel⟩
  · exact ⟨psn 0x300000 gi, 0, by decide +kernel⟩

theorem witness_ImagesAreStagedHandedOverAndCommitted_6 :
  (∃ (s : State) (x : Nat),
    s.calm ∧
    s.mbxCanTake = true ∧
    s.works P.tmp = true ∧
    (x < 16777216 ∨ 16777216 + halfSize ≤ x)) ∧
  (∃ (s : State) (a : DevAddr) (len : BitVec 32) (x : Nat),
    let n : Nat := len.toNat
    let d : State × Bool := s.fetch 4 a.toNat n
    let u : State := d.fst
    let b : SignedBlob := SignedBlob.parse (u.load a.toNat n)
    let code : Nat := s.objCode b [1] (!d.snd) n halfSize
    let h : Nat := halfAt !s.runHalf
    let room : Prop := n ≤ halfSize ∧ u.stackDead h = false
    s.calm ∧
    s.mbxCanTake = true ∧
    s.works P.tmp = true ∧
    blobPlace a.toNat len.toNat = true ∧
    room ∧
    (x < h ∨ h + n ≤ x) ∧
    code = 0) ∧
  (∃ (s : State) (a : DevAddr) (len : BitVec 32) (i : Nat),
    let n : Nat := len.toNat
    let d : State × Bool := s.fetch 4 a.toNat n
    let u : State := d.fst
    let h : Nat := halfAt !s.runHalf
    let room : Prop := n ≤ halfSize ∧ u.stackDead h = false
    s.calm ∧
    s.mbxCanTake = true ∧
    s.works P.tmp = true ∧
    blobPlace a.toNat len.toNat = true ∧
    room ∧
    i < n) := by
  refine ⟨?_, ?_, ?_⟩
  · exact ⟨psn 0x300000 gi, 0, by decide +kernel⟩
  · exact ⟨(ho false false gi).wr P.bank Reg.BANK_CTL_pwr 0 193, 0x300000#40, 0x1f0#32, 0, by simp -implicitDefEqProofs +zeta +zetaHave only [handed_load, -BitVec.reduceToNat]; decide +kernel⟩
  · exact ⟨(ho false false gi).wr P.bank Reg.BANK_CTL_pwr 0 193, 0x300000#40, 0x1f0#32, 0, by decide +kernel⟩

theorem witness_ImagesAreStagedHandedOverAndCommitted_7 :
  (∃ (s : State) (who : Requester),
    let due : Prop := s.temper.pauseRuns = true ∧ s.temper.swapped = true ∧ s.coll.hearthHalted = false
    s.calm ∧
    s.reaches (P.tmp + 104) ∧
    who = Requester.firmware ∧
    (¬due)) ∧
  (∃ (s : State),
    let quiet : MbxReq → Prop := fun r => s.hearthRuns = true ∧ (∀ (q : MbxReq × Nat), q ∈ s.host.mbxTaken → q = (r, 65)) ∧ (∀ (c : Nat), c < 8 → s.ctxState c ≠ 1 ∧ s.ctxState c ≠ 7) ∧ ∀ (k : Nat), k < 8 → s.camState k ≠ 1 ∧ s.rd (P.lplC k) Reg.LPL_PLOAD_STAT_state ≠ 1
    let r : MbxReq := s.temper.handover.get!
    s.atRest ∧
    s.temper.handover = some r ∧
    quiet r ∧
    s.serves 193 2 = false) ∧
  (∃ (s : State) (timeout : BitVec 32),
    let ok : Prop := s.rdb P.tmp Reg.TMP_STAT_staged = true ∧ s.temper.handover = none
    s.calm ∧
    s.mbxCanTake = true ∧
    s.works P.tmp = true ∧
    1 ≤ timeout.toNat ∧
    timeout.toNat ≤ 10000 ∧
    (¬ok)) := by
  refine ⟨?_, ?_, ?_⟩
  · exact ⟨gi, Requester.firmware, by decide +kernel⟩
  · exact ⟨(ho false false gi).wr P.bank Reg.BANK_CTL_pwr 0 193, by decide +kernel⟩
  · exact ⟨gi, 0x1#32, by decide +kernel⟩

theorem witness_ImagesAreStagedHandedOverAndCommitted_8 :
  (∃ (s : State) (v : Word),
    let open_ : Prop := s.rdb P.tmp Reg.TMP_STAT_recovery = true ∧ v.toNat / 65536 = 16017
    let go : Prop := v.toNat % 2 = 1
    let fault : Prop := s.works P.tmp = false
    let a : Nat := s.rd2 P.tmp Reg.TMP_RCV_ADDR_addr_lo Reg.TMP_RCV_ADDR_addr_hi / 64 * 64
    let n : Nat := s.rd P.tmp Reg.TMP_RCV_LEN_len
    let d : State × Bool := s.fetch 4 a n
    let u : State := d.fst
    let b : SignedBlob := SignedBlob.parse (u.load a n)
    let code : Nat := s.objCode b (if s.lcState = 5 ∨ blobPlace a n = false then [] else [1]) (!d.snd) n halfSize
    s.calm ∧
    s.reaches (P.tmp + 100) ∧
    open_ ∧
    go ∧
    (¬fault) ∧
    code ≠ 0) ∧
  (∃ (s : State) (v : Word) (i : Nat),
    let open_ : Prop := s.rdb P.tmp Reg.TMP_STAT_recovery = true ∧ v.toNat / 65536 = 16017
    let go : Prop := v.toNat % 2 = 1
    let fault : Prop := s.works P.tmp = false
    let a : Nat := s.rd2 P.tmp Reg.TMP_RCV_ADDR_addr_lo Reg.TMP_RCV_ADDR_addr_hi / 64 * 64
    let n : Nat := s.rd P.tmp Reg.TMP_RCV_LEN_len
    let d : State × Bool := s.fetch 4 a n
    let u : State := d.fst
    let b : SignedBlob := SignedBlob.parse (u.load a n)
    let code : Nat := s.objCode b (if s.lcState = 5 ∨ blobPlace a n = false then [] else [1]) (!d.snd) n halfSize
    s.calm ∧
    s.reaches (P.tmp + 100) ∧
    open_ ∧
    go ∧
    (¬fault) ∧
    code = 0 ∧
    i < n) ∧
  (∃ (s : State) (v : Word),
    let open_ : Prop := s.rdb P.tmp Reg.TMP_STAT_recovery = true ∧ v.toNat / 65536 = 16017
    s.calm ∧
    s.reaches (P.tmp + 100) ∧
    (¬open_)) := by
  refine ⟨?_, ?_, ?_⟩
  · exact ⟨rc gm, 0x3e910001#32, by decide +kernel⟩
  · exact ⟨rc gi, 0x3e910001#32, 0, by simp -implicitDefEqProofs +zeta +zetaHave only [recovery_load]; decide +kernel⟩
  · exact ⟨gi, 0x3e910001#32, by decide +kernel⟩

theorem witness_ImagesAreStagedHandedOverAndCommitted_9 :
  (∃ (s : State) (v : Word),
    let open_ : Prop := s.rdb P.tmp Reg.TMP_STAT_recovery = true ∧ v.toNat / 65536 = 16017
    let go : Prop := v.toNat % 2 = 1
    let fault : Prop := s.works P.tmp = false
    s.calm ∧
    s.reaches (P.tmp + 100) ∧
    open_ ∧
    go ∧
    fault) ∧
  (∃ (s : State) (i : Nat),
    s.calm ∧
    s.mbxCanTake = true ∧
    s.works P.tmp = true ∧
    i < halfSize) ∧
  (∃ (s : State) (x : Nat),
    s.calm ∧
    s.mbxCanTake = true ∧
    s.works P.tmp = true ∧
    (x < 16777216 ∨ 16777216 + halfSize ≤ x)) := by
  refine ⟨?_, ?_, ?_⟩
  · exact ⟨flt (rc gi), 0x3e910001#32, by decide +kernel⟩
  · exact ⟨gi, 0, by decide +kernel⟩
  · exact ⟨gi, 0, by decide +kernel⟩

theorem witness_ImagesAreStagedHandedOverAndCommitted_10 :
  (∃ (s : State) (v : Word),
    let open_ : Prop := s.rdb P.tmp Reg.TMP_STAT_recovery = true ∧ v.toNat / 65536 = 16017
    let go : Prop := v.toNat % 2 = 1
    s.calm ∧
    s.reaches (P.tmp + 100) ∧
    open_ ∧
    (¬go)) :=
  ⟨rc gi, 0x3e910000#32, by decide +kernel⟩

theorem witness_AuthorisationsBurnOneBitAndAct_1 :
  (∃ (s : State) (a : DevAddr) (len : BitVec 32),
    let n : Nat := len.toNat
    let d : State × Bool := s.fetch 4 a.toNat n
    let u : State := d.fst
    let o : SignedObj := (SignedBlob.parse (u.load a.toNat n)).obj
    let ver : Nat → Nat := fun kind => s.objCode (SignedBlob.parse (u.load a.toNat n)) [kind] (!d.snd) n (2 ^ 32)
    let count : Nat := s.rd P.tmp Reg.TMP_AUTH_CTR_count
    let mine : Prop := numAt o.body 0 8 = s.serial
    let fits : Nat → Prop := fun act => numAt o.body 8 2 = act ∧ numAt o.body 12 4 = count ∧ count < 4096
    let tgt : Nat := numAt o.body 10 2
    let act : Nat := numAt o.body 8 2
    let valid : Nat := s.rd P.tmp Reg.TMP_STAT_slots
    let ok1 : Nat := if ver 8 ≠ 0 then ver 8 else if act = 3 ∧ s.lcState = 3 ∧ valid = 2 ^ tgt then 10 else if act = 3 ∧ s.ownerSlot o.key = some tgt then 5 else if ¬mine then 7 else if ¬(fits 2 ∨ fits 3) ∨ 4 ≤ tgt then 11 else if act = 2 ∧ (s.temper.ownerKeys.find? tgt ≠ none ∨ tgt ∈ s.temper.revokedSlots) then 13 else if act = 3 ∧ bit valid tgt = false then 13 else 0
    s.calm ∧
    s.mbxCanTake = true ∧
    s.works P.tmp = true ∧
    len ≠ 0 ∧
    blobPlace a.toNat len.toNat = true ∧
    ok1 ≠ 0) ∧
  (∃ (s : State) (a : DevAddr) (len : BitVec 32),
    let n : Nat := len.toNat
    let d : State × Bool := s.fetch 4 a.toNat n
    let u : State := d.fst
    let o : SignedObj := (SignedBlob.parse (u.load a.toNat n)).obj
    let ver : Nat → Nat := fun kind => s.objCode (SignedBlob.parse (u.load a.toNat n)) [kind] (!d.snd) n (2 ^ 32)
    let count : Nat := s.rd P.tmp Reg.TMP_AUTH_CTR_count
    let mine : Prop := numAt o.body 0 8 = s.serial
    let fits : Nat → Prop := fun act => numAt o.body 8 2 = act ∧ numAt o.body 12 4 = count ∧ count < 4096
    let tgt : Nat := numAt o.body 10 2
    let gone : Nat := s.rd P.tmp Reg.TMP_LC_roots_revoked
    let ok3 : Nat := if ver 7 ≠ 0 then ver 7 else if tgt < 4 ∧ setBit gone tgt = 15 then 10 else if s.rootSlot o.key = some tgt then 5 else if ¬mine then 7 else if ¬fits 5 ∨ 4 ≤ tgt then 11 else if bit gone tgt = true then 13 else 0
    s.calm ∧
    s.mbxCanTake = true ∧
    s.works P.tmp = true ∧
    len ≠ 0 ∧
    blobPlace a.toNat len.toNat = true ∧
    ok3 ≠ 0) ∧
  (∃ (s : State) (a : DevAddr) (len : BitVec 32),
    let n : Nat := len.toNat
    let d : State × Bool := s.fetch 4 a.toNat n
    let u : State := d.fst
    let o : SignedObj := (SignedBlob.parse (u.load a.toNat n)).obj
    let ver : Nat → Nat := fun kind => s.objCode (SignedBlob.parse (u.load a.toNat n)) [kind] (!d.snd) n (2 ^ 32)
    let count : Nat := s.rd P.tmp Reg.TMP_AUTH_CTR_count
    let mine : Prop := numAt o.body 0 8 = s.serial
    let fits : Nat → Prop := fun act => numAt o.body 8 2 = act ∧ numAt o.body 12 4 = count ∧ count < 4096
    let ok2 : Nat := if ver 7 ≠ 0 then ver 7 else if ¬(mine ∧ o.bind = s.serial) then 7 else if ¬fits 4 then 11 else 0
    s.calm ∧
    s.mbxCanTake = true ∧
    s.works P.tmp = true ∧
    len ≠ 0 ∧
    blobPlace a.toNat len.toNat = true ∧
    s.lcState = 4 ∧
    ok2 ≠ 0) := by
  refine ⟨?_, ?_, ?_⟩
  · exact ⟨life 4 gm, 0x300000#40, 0xf0#32, by decide +kernel⟩
  · exact ⟨life 4 gm, 0x300000#40, 0xf0#32, by decide +kernel⟩
  · exact ⟨life 4 gm, 0x300000#40, 0xf0#32, by decide +kernel⟩

theorem witness_AuthorisationsBurnOneBitAndAct_2 :
  (∃ (s : State) (a : DevAddr) (a2 : DevAddr) (len : BitVec 32) (len2 : BitVec 32) (i : Nat),
    let st : Nat := s.lcState
    let pair : Prop := len2 ≠ 0
    let d : State × Bool := s.fetch 4 a.toNat len.toNat
    let blob : SignedBlob := SignedBlob.parse (d.fst.load a.toNat len.toNat)
    let k : Nat := if ¬pair ∧ (st = 2 ∨ st = 3) then 8 else 7
    let v1 : Nat := s.objCode blob [k] (!d.snd) len.toNat (2 ^ 32)
    let d2 : State × Bool := (d.fst.verified blob.obj v1).fetch 4 a2.toNat len2.toNat
    let u : State := if pair ∧ v1 = 0 then d2.fst else d.fst
    let blob2 : SignedBlob := SignedBlob.parse (u.load a2.toNat len2.toNat)
    let v2 : Nat := s.objCode blob2 [8] (!d2.snd) len2.toNat (2 ^ 32)
    let os : List SignedObj := if pair then [blob.obj, blob2.obj] else [blob.obj]
    let dest : Nat := numAt blob.obj.body 10 2
    let count : Nat := s.rd P.tmp Reg.TMP_AUTH_CTR_count
    let fuses : Nat := s.rd P.tmp Reg.TMP_LC_count
    let first : Prop := st = 0 ∧ dest = 1
    let bound : Prop := ∀ (o : SignedObj), o ∈ os → (numAt o.body 0 8 = s.serial ∨ first ∧ numAt o.body 0 8 = 0) ∧ (o.kind = 7 → first ∨ o.bind = s.serial)
    let permitted : Prop := lcKinds st dest = some (List.map SignedObj.kind os) ∧ ¬(st = 1 ∧ dest = 2 ∧ s.temper.cert = []) ∧ ¬(st = 2 ∧ dest = 3 ∧ s.rd P.tmp Reg.TMP_STAT_slots = 0) ∧ ¬(st = 4 ∧ dest = 2 ∧ ¬(fuses = 4 ∨ fuses = 7))
    let fits : Prop := ∀ (o : SignedObj), o ∈ os → numAt o.body 8 2 = 1 ∧ numAt o.body 12 4 = count ∧ count < 4096 ∧ numAt o.body 10 2 = dest
    let runs : Prop := ∃ c, c ∈ List.range 8 ∧ s.primEn c = true ∧ s.ctxRuns c = true
    let code : Nat := if v1 ≠ 0 then v1 else if pair ∧ v2 ≠ 0 then v2 else if ¬bound then 7 else if ¬permitted then 10 else if ¬fits then 11 else if runs then 13 else 0
    s.calm ∧
    s.mbxCanTake = true ∧
    s.works P.tmp = true ∧
    blobPlace a.toNat len.toNat = true ∧
    blobPlace a2.toNat len2.toNat = true ∧
    code = 0 ∧
    4 ≤ dest ∧
    (dest = 4 ∨ dest = 5) ∧
    i < 14680064 ∧
    dest = 5 ∧
    i < halfSize) ∧
  (∃ (s : State) (nonce : List Byte) (a : DevAddr),
    s.calm ∧
    s.mbxCanTake = true ∧
    s.works P.tmp = true ∧
    nonce.length = 32 ∧
    a.toNat % 64 = 0 ∧
    blobPlace a.toNat 1088 = true ∧
    s.stackDead a.toNat = false) ∧
  (∃ (s : State) (r : MbxReq) (n : BitVec 32) (nonce : List Byte),
    let x : Host.Outcome State Fault Refusal × Nat × Bool := (exec (Instr.fwHandover r n) s, 65, decide (1 ≤ n.toNat ∧ n.toNat ≤ 10000))
    s.calm ∧
    nonce.length = 32 ∧
    s.mbxCanTake = true ∧
    s.works P.tmp = true ∧
    x.snd.snd = false) := by
  refine ⟨?_, ?_, ?_⟩
  · exact ⟨one ow_1_5 gm, 0x300000#40, 0x300000#40, 0xf0#32, 0x0#32, 0, by simp -implicitDefEqProofs +zeta +zetaHave only [ow_1_5_load, -BitVec.reduceToNat]; decide +kernel⟩
  · exact ⟨gm, [0x9#8, 0x9#8, 0x9#8, 0x9#8, 0x9#8, 0x9#8, 0x9#8, 0x9#8, 0x9#8, 0x9#8, 0x9#8, 0x9#8, 0x9#8, 0x9#8, 0x9#8, 0x9#8, 0x9#8, 0x9#8, 0x9#8, 0x9#8, 0x9#8, 0x9#8, 0x9#8, 0x9#8, 0x9#8, 0x9#8, 0x9#8, 0x9#8, 0x9#8, 0x9#8, 0x9#8, 0x9#8], 0x300000#40, by decide +kernel⟩
  · exact ⟨gm, rq, 0x0#32, [0x9#8, 0x9#8, 0x9#8, 0x9#8, 0x9#8, 0x9#8, 0x9#8, 0x9#8, 0x9#8, 0x9#8, 0x9#8, 0x9#8, 0x9#8, 0x9#8, 0x9#8, 0x9#8, 0x9#8, 0x9#8, 0x9#8, 0x9#8, 0x9#8, 0x9#8, 0x9#8, 0x9#8, 0x9#8, 0x9#8, 0x9#8, 0x9#8, 0x9#8, 0x9#8, 0x9#8, 0x9#8], by decide +kernel⟩

theorem witness_AuthorisationsBurnOneBitAndAct_3 :
  (∃ (s : State) (a : DevAddr) (a2 : DevAddr) (len : BitVec 32) (len2 : BitVec 32),
    let st : Nat := s.lcState
    let pair : Prop := len2 ≠ 0
    let d : State × Bool := s.fetch 4 a.toNat len.toNat
    let blob : SignedBlob := SignedBlob.parse (d.fst.load a.toNat len.toNat)
    let k : Nat := if ¬pair ∧ (st = 2 ∨ st = 3) then 8 else 7
    let v1 : Nat := s.objCode blob [k] (!d.snd) len.toNat (2 ^ 32)
    let d2 : State × Bool := (d.fst.verified blob.obj v1).fetch 4 a2.toNat len2.toNat
    let u : State := if pair ∧ v1 = 0 then d2.fst else d.fst
    let blob2 : SignedBlob := SignedBlob.parse (u.load a2.toNat len2.toNat)
    let v2 : Nat := s.objCode blob2 [8] (!d2.snd) len2.toNat (2 ^ 32)
    let os : List SignedObj := if pair then [blob.obj, blob2.obj] else [blob.obj]
    let dest : Nat := numAt blob.obj.body 10 2
    let count : Nat := s.rd P.tmp Reg.TMP_AUTH_CTR_count
    let fuses : Nat := s.rd P.tmp Reg.TMP_LC_count
    let first : Prop := st = 0 ∧ dest = 1
    let bound : Prop := ∀ (o : SignedObj), o ∈ os → (numAt o.body 0 8 = s.serial ∨ first ∧ numAt o.body 0 8 = 0) ∧ (o.kind = 7 → first ∨ o.bind = s.serial)
    let permitted : Prop := lcKinds st dest = some (List.map SignedObj.kind os) ∧ ¬(st = 1 ∧ dest = 2 ∧ s.temper.cert = []) ∧ ¬(st = 2 ∧ dest = 3 ∧ s.rd P.tmp Reg.TMP_STAT_slots = 0) ∧ ¬(st = 4 ∧ dest = 2 ∧ ¬(fuses = 4 ∨ fuses = 7))
    let fits : Prop := ∀ (o : SignedObj), o ∈ os → numAt o.body 8 2 = 1 ∧ numAt o.body 12 4 = count ∧ count < 4096 ∧ numAt o.body 10 2 = dest
    let runs : Prop := ∃ c, c ∈ List.range 8 ∧ s.primEn c = true ∧ s.ctxRuns c = true
    let code : Nat := if v1 ≠ 0 then v1 else if pair ∧ v2 ≠ 0 then v2 else if ¬bound then 7 else if ¬permitted then 10 else if ¬fits then 11 else if runs then 13 else 0
    s.calm ∧
    s.mbxCanTake = true ∧
    s.works P.tmp = true ∧
    blobPlace a.toNat len.toNat = true ∧
    blobPlace a2.toNat len2.toNat = true ∧
    code ≠ 0) ∧
  (∃ (s : State) (a : DevAddr) (cert : Option (DevAddr × BitVec 32)),
    let p : DevAddr × BitVec 32 := cert.get!
    let n : Nat := p.snd.toNat
    let d : State × Bool := s.fetch 4 p.fst.toNat n
    let u : State := if s.lcState = 1 then d.fst else s
    let b : SignedBlob := SignedBlob.parse (u.load p.fst.toNat n)
    let c : Nat := s.objCode b [3] (!d.snd) n 65536
    let own : Prop := b.obj.bind = s.serial ∧ numAt b.obj.body 0 8 = s.serial ∧ List.take 32 (List.drop 8 b.obj.body) = s.dikKey
    let code : Nat := if s.lcState ≠ 1 then 13 else if c = 0 ∧ ¬own then 7 else c
    s.calm ∧
    s.mbxCanTake = true ∧
    s.works P.tmp = true ∧
    blobPlace a.toNat 65568 = true ∧
    cert = some p ∧
    blobPlace p.fst.toNat p.snd.toNat = true ∧
    s.lcState = 1 ∧
    code = 0 ∧
    u.stackDead a.toNat = false) ∧
  (∃ (s : State) (a : DevAddr) (cert : Option (DevAddr × BitVec 32)),
    s.calm ∧
    s.mbxCanTake = true ∧
    s.works P.tmp = true ∧
    blobPlace a.toNat 65568 = true ∧
    cert = none ∧
    s.temper.cert.length ≤ 65536 ∧
    s.stackDead a.toNat = false) := by
  refine ⟨?_, ?_, ?_⟩
  · exact ⟨gm, 0x300000#40, 0x300000#40, 0x0#32, 0x0#32, by decide +kernel⟩
  · exact ⟨one idb (life 1 gm), 0x300000#40, some (0x300000#40, 0x1f0#32), by simp -implicitDefEqProofs +zeta +zetaHave only [Option.get!_some, idb_load_bound, -BitVec.reduceToNat]; decide +kernel⟩
  · exact ⟨gm, 0x300000#40, none, by decide +kernel⟩

theorem witness_AuthorisationsBurnOneBitAndAct_4 :
  (∃ (s : State) (a : DevAddr) (len : BitVec 32),
    let n : Nat := len.toNat
    let d : State × Bool := s.fetch 4 a.toNat n
    let u : State := d.fst
    let o : SignedObj := (SignedBlob.parse (u.load a.toNat n)).obj
    let ver : Nat → Nat := fun kind => s.objCode (SignedBlob.parse (u.load a.toNat n)) [kind] (!d.snd) n (2 ^ 32)
    let count : Nat := s.rd P.tmp Reg.TMP_AUTH_CTR_count
    let mine : Prop := numAt o.body 0 8 = s.serial
    let fits : Nat → Prop := fun act => numAt o.body 8 2 = act ∧ numAt o.body 12 4 = count ∧ count < 4096
    let tgt : Nat := numAt o.body 10 2
    let act : Nat := numAt o.body 8 2
    let valid : Nat := s.rd P.tmp Reg.TMP_STAT_slots
    let ok1 : Nat := if ver 8 ≠ 0 then ver 8 else if act = 3 ∧ s.lcState = 3 ∧ valid = 2 ^ tgt then 10 else if act = 3 ∧ s.ownerSlot o.key = some tgt then 5 else if ¬mine then 7 else if ¬(fits 2 ∨ fits 3) ∨ 4 ≤ tgt then 11 else if act = 2 ∧ (s.temper.ownerKeys.find? tgt ≠ none ∨ tgt ∈ s.temper.revokedSlots) then 13 else if act = 3 ∧ bit valid tgt = false then 13 else 0
    s.calm ∧
    s.mbxCanTake = true ∧
    s.works P.tmp = true ∧
    len ≠ 0 ∧
    blobPlace a.toNat len.toNat = true ∧
    ok1 = 0 ∧
    act = 2) ∧
  (∃ (s : State) (a : DevAddr) (len : BitVec 32),
    s.calm ∧
    s.mbxCanTake = true ∧
    s.works P.tmp = true ∧
    len ≠ 0 ∧
    blobPlace a.toNat len.toNat = true ∧
    s.lcState ≠ 4) ∧
  (∃ (s : State) (a : DevAddr) (key : List Byte),
    let empty : Bool := (List.range 4).all fun i => (s.temper.ownerKeys.find? i).isNone && !s.temper.revokedSlots.contains i
    let ok : Prop := s.lcState = 2 ∧ empty = true ∧ s.rdb P.tmp Reg.TMP_STAT_rec_bad = false
    s.calm ∧
    s.mbxCanTake = true ∧
    s.works P.tmp = true ∧
    key.length = 32 ∧
    blobPlace a.toNat 0 = true ∧
    (¬ok)) := by
  refine ⟨?_, ?_, ?_⟩
  · exact ⟨one ow_2_3 gm, 0x300000#40, 0xf0#32, by simp -implicitDefEqProofs +zeta +zetaHave only [ow_2_3_load, -BitVec.reduceToNat]; decide +kernel⟩
  · exact ⟨one ow_2_3 gm, 0x300000#40, 0xf0#32, by decide +kernel⟩
  · exact ⟨gm, 0x300000#40, [0x9#8, 0x9#8, 0x9#8, 0x9#8, 0x9#8, 0x9#8, 0x9#8, 0x9#8, 0x9#8, 0x9#8, 0x9#8, 0x9#8, 0x9#8, 0x9#8, 0x9#8, 0x9#8, 0x9#8, 0x9#8, 0x9#8, 0x9#8, 0x9#8, 0x9#8, 0x9#8, 0x9#8, 0x9#8, 0x9#8, 0x9#8, 0x9#8, 0x9#8, 0x9#8, 0x9#8, 0x9#8], by decide +kernel⟩

theorem witness_AuthorisationsBurnOneBitAndAct_5 :
  (∃ (s : State) (a : DevAddr) (slot : Fin 4) (key : List Byte) (i : Nat),
    let empty : Bool := (List.range 4).all fun i => (s.temper.ownerKeys.find? i).isNone && !s.temper.revokedSlots.contains i
    let ok : Prop := s.lcState = 2 ∧ empty = true ∧ s.rdb P.tmp Reg.TMP_STAT_rec_bad = false
    s.calm ∧
    s.mbxCanTake = true ∧
    s.works P.tmp = true ∧
    key.length = 32 ∧
    blobPlace a.toNat 0 = true ∧
    ok ∧
    i < 4 ∧
    i ≠ slot.val) ∧
  (∃ (s : State) (a : DevAddr) (len : BitVec 32),
    let n : Nat := len.toNat
    let d : State × Bool := s.fetch 4 a.toNat n
    let u : State := d.fst
    let o : SignedObj := (SignedBlob.parse (u.load a.toNat n)).obj
    let ver : Nat → Nat := fun kind => s.objCode (SignedBlob.parse (u.load a.toNat n)) [kind] (!d.snd) n (2 ^ 32)
    let count : Nat := s.rd P.tmp Reg.TMP_AUTH_CTR_count
    let mine : Prop := numAt o.body 0 8 = s.serial
    let fits : Nat → Prop := fun act => numAt o.body 8 2 = act ∧ numAt o.body 12 4 = count ∧ count < 4096
    let ok2 : Nat := if ver 7 ≠ 0 then ver 7 else if ¬(mine ∧ o.bind = s.serial) then 7 else if ¬fits 4 then 11 else 0
    s.calm ∧
    s.mbxCanTake = true ∧
    s.works P.tmp = true ∧
    len ≠ 0 ∧
    blobPlace a.toNat len.toNat = true ∧
    s.lcState = 4 ∧
    ok2 = 0) ∧
  (∃ (s : State) (a : DevAddr) (cert : Option (DevAddr × BitVec 32)),
    let p : DevAddr × BitVec 32 := cert.get!
    let n : Nat := p.snd.toNat
    let d : State × Bool := s.fetch 4 p.fst.toNat n
    let u : State := if s.lcState = 1 then d.fst else s
    let b : SignedBlob := SignedBlob.parse (u.load p.fst.toNat n)
    let c : Nat := s.objCode b [3] (!d.snd) n 65536
    let own : Prop := b.obj.bind = s.serial ∧ numAt b.obj.body 0 8 = s.serial ∧ List.take 32 (List.drop 8 b.obj.body) = s.dikKey
    let code : Nat := if s.lcState ≠ 1 then 13 else if c = 0 ∧ ¬own then 7 else c
    s.calm ∧
    s.mbxCanTake = true ∧
    s.works P.tmp = true ∧
    blobPlace a.toNat 65568 = true ∧
    cert = some p ∧
    blobPlace p.fst.toNat p.snd.toNat = true ∧
    code ≠ 0) := by
  refine ⟨?_, ?_, ?_⟩
  · exact ⟨(life 2 (bare gm)), 0x300000#40, 1, [0x9#8, 0x9#8, 0x9#8, 0x9#8, 0x9#8, 0x9#8, 0x9#8, 0x9#8, 0x9#8, 0x9#8, 0x9#8, 0x9#8, 0x9#8, 0x9#8, 0x9#8, 0x9#8, 0x9#8, 0x9#8, 0x9#8, 0x9#8, 0x9#8, 0x9#8, 0x9#8, 0x9#8, 0x9#8, 0x9#8, 0x9#8, 0x9#8, 0x9#8, 0x9#8, 0x9#8, 0x9#8], 0, by decide +kernel⟩
  · exact ⟨one rt_4_0 (life 4 gm), 0x300000#40, 0xf0#32, by simp -implicitDefEqProofs +zeta +zetaHave only [rt_4_0_load, -BitVec.reduceToNat]; decide +kernel⟩
  · exact ⟨gm, 0x300000#40, some (0x300000#40, 0x1f0#32), by decide +kernel⟩

theorem witness_AuthorisationsBurnOneBitAndAct_6 :
  (∃ (s : State) (nonce : List Byte),
    s.calm ∧
    nonce.length = 32 ∧
    s.mbxCanTake = true ∧
    s.works P.tmp = false) ∧
  (∃ (s : State) (a : DevAddr) (len : BitVec 32),
    let n : Nat := len.toNat
    let d : State × Bool := s.fetch 4 a.toNat n
    let u : State := d.fst
    let o : SignedObj := (SignedBlob.parse (u.load a.toNat n)).obj
    let ver : Nat → Nat := fun kind => s.objCode (SignedBlob.parse (u.load a.toNat n)) [kind] (!d.snd) n (2 ^ 32)
    let count : Nat := s.rd P.tmp Reg.TMP_AUTH_CTR_count
    let mine : Prop := numAt o.body 0 8 = s.serial
    let fits : Nat → Prop := fun act => numAt o.body 8 2 = act ∧ numAt o.body 12 4 = count ∧ count < 4096
    let tgt : Nat := numAt o.body 10 2
    let act : Nat := numAt o.body 8 2
    let valid : Nat := s.rd P.tmp Reg.TMP_STAT_slots
    let ok1 : Nat := if ver 8 ≠ 0 then ver 8 else if act = 3 ∧ s.lcState = 3 ∧ valid = 2 ^ tgt then 10 else if act = 3 ∧ s.ownerSlot o.key = some tgt then 5 else if ¬mine then 7 else if ¬(fits 2 ∨ fits 3) ∨ 4 ≤ tgt then 11 else if act = 2 ∧ (s.temper.ownerKeys.find? tgt ≠ none ∨ tgt ∈ s.temper.revokedSlots) then 13 else if act = 3 ∧ bit valid tgt = false then 13 else 0
    s.calm ∧
    s.mbxCanTake = true ∧
    s.works P.tmp = true ∧
    len ≠ 0 ∧
    blobPlace a.toNat len.toNat = true ∧
    ok1 = 0 ∧
    act = 3) ∧
  (∃ (len : BitVec 32) (bs : List Byte),
    bs.length ≠ 32 ∧
    len = 0) := by
  refine ⟨?_, ?_, ?_⟩
  · exact ⟨flt gm, [0x9#8, 0x9#8, 0x9#8, 0x9#8, 0x9#8, 0x9#8, 0x9#8, 0x9#8, 0x9#8, 0x9#8, 0x9#8, 0x9#8, 0x9#8, 0x9#8, 0x9#8, 0x9#8, 0x9#8, 0x9#8, 0x9#8, 0x9#8, 0x9#8, 0x9#8, 0x9#8, 0x9#8, 0x9#8, 0x9#8, 0x9#8, 0x9#8, 0x9#8, 0x9#8, 0x9#8, 0x9#8], by decide +kernel⟩
  · exact ⟨one ow_3_2 (full gm), 0x300000#40, 0xf0#32, by simp -implicitDefEqProofs +zeta +zetaHave only [ow_3_2_load, -BitVec.reduceToNat]; decide +kernel⟩
  · exact ⟨0x0#32, [], by decide +kernel⟩

theorem witness_AuthorisationsBurnOneBitAndAct_7 :
  (∃ (s : State) (a : DevAddr) (len : BitVec 32),
    let n : Nat := len.toNat
    let d : State × Bool := s.fetch 4 a.toNat n
    let u : State := d.fst
    let o : SignedObj := (SignedBlob.parse (u.load a.toNat n)).obj
    let ver : Nat → Nat := fun kind => s.objCode (SignedBlob.parse (u.load a.toNat n)) [kind] (!d.snd) n (2 ^ 32)
    let count : Nat := s.rd P.tmp Reg.TMP_AUTH_CTR_count
    let mine : Prop := numAt o.body 0 8 = s.serial
    let fits : Nat → Prop := fun act => numAt o.body 8 2 = act ∧ numAt o.body 12 4 = count ∧ count < 4096
    let tgt : Nat := numAt o.body 10 2
    let gone : Nat := s.rd P.tmp Reg.TMP_LC_roots_revoked
    let ok3 : Nat := if ver 7 ≠ 0 then ver 7 else if tgt < 4 ∧ setBit gone tgt = 15 then 10 else if s.rootSlot o.key = some tgt then 5 else if ¬mine then 7 else if ¬fits 5 ∨ 4 ≤ tgt then 11 else if bit gone tgt = true then 13 else 0
    s.calm ∧
    s.mbxCanTake = true ∧
    s.works P.tmp = true ∧
    len ≠ 0 ∧
    blobPlace a.toNat len.toNat = true ∧
    ok3 = 0) ∧
  (∃ (s : State) (a : DevAddr) (cert : Option (DevAddr × BitVec 32)),
    s.calm ∧
    s.mbxCanTake = true ∧
    s.works P.tmp = true ∧
    blobPlace a.toNat 65568 = true ∧
    cert = none ∧
    s.stackDead a.toNat = true) ∧
  (∃ (s : State) (a : DevAddr) (a2 : DevAddr) (len : BitVec 32) (len2 : BitVec 32),
    let st : Nat := s.lcState
    let pair : Prop := len2 ≠ 0
    let d : State × Bool := s.fetch 4 a.toNat len.toNat
    let blob : SignedBlob := SignedBlob.parse (d.fst.load a.toNat len.toNat)
    let k : Nat := if ¬pair ∧ (st = 2 ∨ st = 3) then 8 else 7
    let v1 : Nat := s.objCode blob [k] (!d.snd) len.toNat (2 ^ 32)
    let d2 : State × Bool := (d.fst.verified blob.obj v1).fetch 4 a2.toNat len2.toNat
    let u : State := if pair ∧ v1 = 0 then d2.fst else d.fst
    let blob2 : SignedBlob := SignedBlob.parse (u.load a2.toNat len2.toNat)
    let v2 : Nat := s.objCode blob2 [8] (!d2.snd) len2.toNat (2 ^ 32)
    let os : List SignedObj := if pair then [blob.obj, blob2.obj] else [blob.obj]
    let dest : Nat := numAt blob.obj.body 10 2
    let count : Nat := s.rd P.tmp Reg.TMP_AUTH_CTR_count
    let fuses : Nat := s.rd P.tmp Reg.TMP_LC_count
    let first : Prop := st = 0 ∧ dest = 1
    let bound : Prop := ∀ (o : SignedObj), o ∈ os → (numAt o.body 0 8 = s.serial ∨ first ∧ numAt o.body 0 8 = 0) ∧ (o.kind = 7 → first ∨ o.bind = s.serial)
    let permitted : Prop := lcKinds st dest = some (List.map SignedObj.kind os) ∧ ¬(st = 1 ∧ dest = 2 ∧ s.temper.cert = []) ∧ ¬(st = 2 ∧ dest = 3 ∧ s.rd P.tmp Reg.TMP_STAT_slots = 0) ∧ ¬(st = 4 ∧ dest = 2 ∧ ¬(fuses = 4 ∨ fuses = 7))
    let fits : Prop := ∀ (o : SignedObj), o ∈ os → numAt o.body 8 2 = 1 ∧ numAt o.body 12 4 = count ∧ count < 4096 ∧ numAt o.body 10 2 = dest
    let runs : Prop := ∃ c, c ∈ List.range 8 ∧ s.primEn c = true ∧ s.ctxRuns c = true
    let code : Nat := if v1 ≠ 0 then v1 else if pair ∧ v2 ≠ 0 then v2 else if ¬bound then 7 else if ¬permitted then 10 else if ¬fits then 11 else if runs then 13 else 0
    s.calm ∧
    s.mbxCanTake = true ∧
    s.works P.tmp = true ∧
    blobPlace a.toNat len.toNat = true ∧
    blobPlace a2.toNat len2.toNat = true ∧
    code = 0 ∧
    dest < 4) := by
  refine ⟨?_, ?_, ?_⟩
  · exact ⟨one rt_5_3 gm, 0x300000#40, 0xf0#32, by simp -implicitDefEqProofs +zeta +zetaHave only [rt_5_3_load, -BitVec.reduceToNat]; decide +kernel⟩
  · exact ⟨stt (P.drc 0) 3 (life 1 gm), 0x300000#40, none, by decide +kernel⟩
  · exact ⟨one rt_1_1 (life 0 gm), 0x300000#40, 0x300000#40, 0xf0#32, 0x0#32, by simp -implicitDefEqProofs +zeta +zetaHave only [rt_1_1_load, -BitVec.reduceToNat]; decide +kernel⟩

theorem witness_AuthorisationsBurnOneBitAndAct_8 :
  (∃ (s : State) (a : DevAddr) (cert : Option (DevAddr × BitVec 32)),
    let p : DevAddr × BitVec 32 := cert.get!
    let n : Nat := p.snd.toNat
    let d : State × Bool := s.fetch 4 p.fst.toNat n
    let u : State := if s.lcState = 1 then d.fst else s
    let b : SignedBlob := SignedBlob.parse (u.load p.fst.toNat n)
    let c : Nat := s.objCode b [3] (!d.snd) n 65536
    let own : Prop := b.obj.bind = s.serial ∧ numAt b.obj.body 0 8 = s.serial ∧ List.take 32 (List.drop 8 b.obj.body) = s.dikKey
    let code : Nat := if s.lcState ≠ 1 then 13 else if c = 0 ∧ ¬own then 7 else c
    s.calm ∧
    s.mbxCanTake = true ∧
    s.works P.tmp = true ∧
    blobPlace a.toNat 65568 = true ∧
    cert = some p ∧
    blobPlace p.fst.toNat p.snd.toNat = true ∧
    s.lcState = 1 ∧
    code = 0 ∧
    u.stackDead a.toNat = true) ∧
  (∃ (s : State) (nonce : List Byte) (a : DevAddr),
    s.calm ∧
    s.mbxCanTake = true ∧
    s.works P.tmp = true ∧
    nonce.length = 32 ∧
    a.toNat % 64 = 0 ∧
    blobPlace a.toNat 1088 = true ∧
    s.stackDead a.toNat = true) ∧
  (∃ (s : State) (nonce : List Byte),
    s.calm ∧
    nonce.length = 32 ∧
    s.mbxCanTake = false) := by
  refine ⟨?_, ?_, ?_⟩
  · exact ⟨stt (P.drc 1) 3 (one idb (life 1 gm)), 0x400001000#40, some (0x300000#40, 0x1f0#32), by simp -implicitDefEqProofs +zeta +zetaHave only [Option.get!_some, dead_idb_load_bound, -BitVec.reduceToNat]; decide +kernel⟩
  · exact ⟨stt (P.drc 0) 3 (life 1 gm), [0x9#8, 0x9#8, 0x9#8, 0x9#8, 0x9#8, 0x9#8, 0x9#8, 0x9#8, 0x9#8, 0x9#8, 0x9#8, 0x9#8, 0x9#8, 0x9#8, 0x9#8, 0x9#8, 0x9#8, 0x9#8, 0x9#8, 0x9#8, 0x9#8, 0x9#8, 0x9#8, 0x9#8, 0x9#8, 0x9#8, 0x9#8, 0x9#8, 0x9#8, 0x9#8, 0x9#8, 0x9#8], 0x300000#40, by decide +kernel⟩
  · exact ⟨go2, [0x9#8, 0x9#8, 0x9#8, 0x9#8, 0x9#8, 0x9#8, 0x9#8, 0x9#8, 0x9#8, 0x9#8, 0x9#8, 0x9#8, 0x9#8, 0x9#8, 0x9#8, 0x9#8, 0x9#8, 0x9#8, 0x9#8, 0x9#8, 0x9#8, 0x9#8, 0x9#8, 0x9#8, 0x9#8, 0x9#8, 0x9#8, 0x9#8, 0x9#8, 0x9#8, 0x9#8, 0x9#8], by decide +kernel⟩

end WitS

/-! #### Witnesses: the archive decoder -/

namespace WitV

def p := P.arcS 3
def cfg (s : State) : State := Id.run do
  let mut s := (s.wr p Reg.ARC_SCFG_ctx 2).wr p Reg.ARC_SCFG_b_m1 1
  s := ((s.wr p Reg.ARC_DS_N_n 10).wr p Reg.ARC_GEOM_wmax 5).wr p Reg.ARC_GEOM_hmax 4
  s := ((s.wr p Reg.ARC_DS_BASE_addr_lo 0x10000).wr p Reg.ARC_OUT_BASE_addr_lo 0x20000).wr p Reg.ARC_MAN_BASE_addr_lo 0x40000
  s := (s.wr (P.schC 2) Reg.SCH_CTX_STAT_state 4).wr (P.schC 2) Reg.SCH_CTX_CFG_prim_en 0
  s := s.wr (P.schC 2) Reg.SCH_CTX_HQ_BASE_lo 0x50000
  s := s.wr (P.schC 2) Reg.SCH_CTX_HQ_size_log2 5
  s := s.store (0x10000 + 32 * 7) (le 8 0x60000 ++ le 4 50 ++ [0, 1])
  s := s.store (0x10000 + 32 * 6) (le 8 0x60000 ++ le 4 50 ++ [0, 0] ++ le 2 0 ++ le 2 0 ++ le 2 2 ++ le 2 0 ++ le 2 2)
  s := s.store (0x10000 + 32 * 5) (le 8 0x60000 ++ le 4 50 ++ [9, 0])
  pure s
def st (n : Nat) (s : State) := s.wr p Reg.ARC_SSTAT_state n
def go3 := cfg go2
def strm (f : Stream → Stream) (s : State) := s.setStream 3 (f (s.stream 3))
def base (s : State) := strm (fun x => {x with order := List.range 12, first := 0, next := 5, epochs := 2, total := 7}) (st 2 s)
def qq : Position := { sample := 5, cause := 0, width := 2, height := 2, comps := 1, prec := 8 }
def cache (s : State) := {(s.wr P.arcG Reg.ARC_CACHE_SIZE_size 1) with cache := [(s.cacheKey 3 5, qq), (s.cacheKey 3 9, {qq with cause := 4})]}
def wk (l : List (Nat × Position)) (s : State) := strm (fun x => {x with walked := l}) (base s)
def full := wk [(3, qq), (4, {qq with cause := 2}), (5, qq)]
def blk (b n : Nat) (s : State) : State := s.wr b Reg.BLK_STAT_state n
def psn (a : Nat) (s : State) : State := {s with msys := {s.msys with poison := [a / 8]}}

theorem witness_StreamsStartStopAndOrderTheirSamples_1 :
  (∃ (s : State) (i : Fin 64) (v : Word),
    let p : Nat := P.arcS i.val
    let key : Prop := v.toNat / 65536 = 42183
    let op : Nat := v.toNat % 4
    let st : Nat := s.rd p Reg.ARC_SSTAT_state
    s.calm ∧
    s.reaches (P.arcS i.val + 124) ∧
    key ∧
    (op = 2 ∨ op = 3) ∧
    op = 3 ∧
    st ≠ 0 ∧
    st ≠ 4) ∧
  (∃ (s : State) (i : Fin 64) (v : Word) (j : Nat),
    let p : Nat := P.arcS i.val
    let key : Prop := v.toNat / 65536 = 42183
    let op : Nat := v.toNat % 4
    let st : Nat := s.rd p Reg.ARC_SSTAT_state
    let c : Nat := s.rd p Reg.ARC_SCFG_ctx
    let n : Nat := s.rd p Reg.ARC_DS_N_n
    let w : Nat := s.rd p Reg.ARC_GEOM_wmax
    let slots : Nat := s.rd p Reg.ARC_SCFG_b_m1 + 1
    let aligned : Prop := s.rd2 p Reg.ARC_DS_BASE_addr_lo Reg.ARC_DS_BASE_addr_hi % 64 = 0 ∧ s.rd2 p Reg.ARC_OUT_BASE_addr_lo Reg.ARC_OUT_BASE_addr_hi % 4096 = 0 ∧ s.rd2 p Reg.ARC_MAN_BASE_addr_lo Reg.ARC_MAN_BASE_addr_hi % 4096 = 0 ∧ s.rd2 p Reg.ARC_RES_BASE_addr_lo Reg.ARC_RES_BASE_addr_hi % 64 = 0
    let code : Nat := if st ≠ 0 then 4 else if s.inFault P.arcG = true then 7 else if s.ctxState c ≠ 4 ∧ s.ctxState c ≠ 3 ∨ s.primEn c = true then 1 else if n = 0 ∨ 16777216 < n ∨ w = 0 ∨ 32768 < w ∨ s.rd p Reg.ARC_GEOM_hmax = 0 then 2 else if ¬aligned ∨ 2 ^ s.manLog i.val ≤ slots + 1 ∨ 2 ^ s.hqLog c ≤ slots then 3 else 0
    s.calm ∧
    s.reaches (P.arcS i.val + 124) ∧
    key ∧
    op = 1 ∧
    code = 0 ∧
    j < 64 ∧
    j ≠ i.val) ∧
  (∃ (s : State) (i : Fin 64),
    let p : Nat := P.arcS i.val
    let due : Prop := s.rd p Reg.ARC_SSTAT_state = 1 ∧ s.hearthRuns = true
    s.calm ∧
    (¬due)) ∧
  (∃ (s : State) (i : Fin 64) (v : Word),
    let p : Nat := P.arcS i.val
    let key : Prop := v.toNat / 65536 = 42183
    let op : Nat := v.toNat % 4
    let st : Nat := s.rd p Reg.ARC_SSTAT_state
    s.calm ∧
    s.reaches (P.arcS i.val + 124) ∧
    key ∧
    op = 2 ∧
    st ≠ 0 ∧
    st ≠ 4) ∧
  (∃ (s : State) (i : Fin 64),
    let p : Nat := P.arcS i.val
    let due : Prop := s.rd p Reg.ARC_SSTAT_state = 1 ∧ s.hearthRuns = true
    let x : Machine.Stream := s.stream i.val
    let n : Nat := s.rd p Reg.ARC_DS_N_n
    let k : Nat := max 1 (s.rd P.bry Reg.BRY_FARM_n)
    let sz : Nat := (n + k - 1) / k
    let shard : Prop := s.rdb p Reg.ARC_SCFG_shard = true
    let a : Nat := if shard then min n (s.moduleId * sz) else 0
    let b : Nat := if shard then min n ((s.moduleId + 1) * sz) else n
    let ends : Prop := x.stopAsked = true ∨ x.epochs = 0
    s.calm ∧
    due ∧
    b ≤ a ∧
    (¬ends)) ∧
  (∃ (s : State) (i : Fin 64) (v : Word),
    let p : Nat := P.arcS i.val
    let key : Prop := v.toNat / 65536 = 42183
    let op : Nat := v.toNat % 4
    let st : Nat := s.rd p Reg.ARC_SSTAT_state
    s.calm ∧
    s.reaches (P.arcS i.val + 124) ∧
    key ∧
    (op = 2 ∨ op = 3) ∧
    st = 4) := by
  refine ⟨?_, ?_, ?_, ?_, ?_, ?_⟩
  · exact ⟨st 1 (base go3), 3, 0xa4c70003#32, by decide +kernel⟩
  · exact ⟨blk P.arcG 1 go3, 3, 0xa4c70001#32, 0, by decide +kernel⟩
  · exact ⟨blk P.arcG 1 go3, 3, by decide +kernel⟩
  · exact ⟨(((st 1 (base go3)).wr p Reg.ARC_SCFG_shard 1).wr P.bry Reg.BRY_FARM_n 3).wr P.bry Reg.BRY_CFG_module_id 9, 3, 0xa4c70002#32, by decide +kernel⟩
  · exact ⟨(((st 1 (base go3)).wr p Reg.ARC_SCFG_shard 1).wr P.bry Reg.BRY_FARM_n 3).wr P.bry Reg.BRY_CFG_module_id 9, 3, by decide +kernel⟩
  · exact ⟨st 4 (base go3), 3, 0xa4c70002#32, by decide +kernel⟩

theorem witness_StreamsStartStopAndOrderTheirSamples_2 :
  (∃ (s : State) (i : Fin 64) (v : Word),
    let p : Nat := P.arcS i.val
    let key : Prop := v.toNat / 65536 = 42183
    let op : Nat := v.toNat % 4
    let st : Nat := s.rd p Reg.ARC_SSTAT_state
    let c : Nat := s.rd p Reg.ARC_SCFG_ctx
    let n : Nat := s.rd p Reg.ARC_DS_N_n
    let w : Nat := s.rd p Reg.ARC_GEOM_wmax
    let slots : Nat := s.rd p Reg.ARC_SCFG_b_m1 + 1
    let aligned : Prop := s.rd2 p Reg.ARC_DS_BASE_addr_lo Reg.ARC_DS_BASE_addr_hi % 64 = 0 ∧ s.rd2 p Reg.ARC_OUT_BASE_addr_lo Reg.ARC_OUT_BASE_addr_hi % 4096 = 0 ∧ s.rd2 p Reg.ARC_MAN_BASE_addr_lo Reg.ARC_MAN_BASE_addr_hi % 4096 = 0 ∧ s.rd2 p Reg.ARC_RES_BASE_addr_lo Reg.ARC_RES_BASE_addr_hi % 64 = 0
    let code : Nat := if st ≠ 0 then 4 else if s.inFault P.arcG = true then 7 else if s.ctxState c ≠ 4 ∧ s.ctxState c ≠ 3 ∨ s.primEn c = true then 1 else if n = 0 ∨ 16777216 < n ∨ w = 0 ∨ 32768 < w ∨ s.rd p Reg.ARC_GEOM_hmax = 0 then 2 else if ¬aligned ∨ 2 ^ s.manLog i.val ≤ slots + 1 ∨ 2 ^ s.hqLog c ≤ slots then 3 else 0
    s.calm ∧
    s.reaches (P.arcS i.val + 124) ∧
    key ∧
    op = 1 ∧
    code ≠ 0) ∧
  (∃ (s : State) (i : Fin 64),
    let p : Nat := P.arcS i.val
    let due : Prop := s.rd p Reg.ARC_SSTAT_state = 1 ∧ s.hearthRuns = true
    let x : Machine.Stream := s.stream i.val
    let n : Nat := s.rd p Reg.ARC_DS_N_n
    let k : Nat := max 1 (s.rd P.bry Reg.BRY_FARM_n)
    let sz : Nat := (n + k - 1) / k
    let shard : Prop := s.rdb p Reg.ARC_SCFG_shard = true
    let a : Nat := if shard then min n (s.moduleId * sz) else 0
    let b : Nat := if shard then min n ((s.moduleId + 1) * sz) else n
    let ends : Prop := x.stopAsked = true ∨ x.epochs = 0
    s.calm ∧
    due ∧
    b ≤ a ∧
    ends) ∧
  (∃ (s : State) (i : Fin 64) (v : Word),
    let p : Nat := P.arcS i.val
    let key : Prop := v.toNat / 65536 = 42183
    let op : Nat := v.toNat % 4
    let st : Nat := s.rd p Reg.ARC_SSTAT_state
    s.calm ∧
    s.reaches (P.arcS i.val + 124) ∧
    key ∧
    (op = 2 ∨ op = 3) ∧
    st = 0) ∧
  (∃ (s : State) (i : Fin 64) (v : Word),
    let key : Prop := v.toNat / 65536 = 42183
    s.calm ∧
    s.reaches (P.arcS i.val + 124) ∧
    (¬key)) ∧
  (∃ (s : State) (i : Fin 64) (v : Word),
    let key : Prop := v.toNat / 65536 = 42183
    let op : Nat := v.toNat % 4
    s.calm ∧
    s.reaches (P.arcS i.val + 124) ∧
    key ∧
    op = 0) ∧
  (∃ (s : State) (i : Fin 64),
    let p : Nat := P.arcS i.val
    let due : Prop := s.rd p Reg.ARC_SSTAT_state = 1 ∧ s.hearthRuns = true
    let n : Nat := s.rd p Reg.ARC_DS_N_n
    let k : Nat := max 1 (s.rd P.bry Reg.BRY_FARM_n)
    let sz : Nat := (n + k - 1) / k
    let shard : Prop := s.rdb p Reg.ARC_SCFG_shard = true
    let a : Nat := if shard then min n (s.moduleId * sz) else 0
    let b : Nat := if shard then min n ((s.moduleId + 1) * sz) else n
    s.calm ∧
    due ∧
    a < b ∧
    s.rdb p Reg.ARC_SCFG_shuffle = false) := by
  refine ⟨?_, ?_, ?_, ?_, ?_, ?_⟩
  · exact ⟨(((st 1 (strm (fun x => {x with stopAsked := true}) (base go3))).wr p Reg.ARC_SCFG_shard 1).wr P.bry Reg.BRY_FARM_n 3).wr P.bry Reg.BRY_CFG_module_id 9, 3, 0xa4c70001#32, by decide +kernel⟩
  · exact ⟨(((st 1 (strm (fun x => {x with stopAsked := true}) (base go3))).wr p Reg.ARC_SCFG_shard 1).wr P.bry Reg.BRY_FARM_n 3).wr P.bry Reg.BRY_CFG_module_id 9, 3, by decide +kernel⟩
  · exact ⟨go2, 3, 0xa4c70002#32, by decide +kernel⟩
  · exact ⟨go2, 3, 0x1#32, by decide +kernel⟩
  · exact ⟨(st 1 (base go3)).wr p Reg.ARC_SCFG_shuffle 0, 3, 0xa4c70000#32, by decide +kernel⟩
  · exact ⟨(st 1 (base go3)).wr p Reg.ARC_SCFG_shuffle 0, 3, by decide +kernel⟩

theorem witness_SamplesAreWalkedAndBatchesClose_1 :
  (∃ (s : State) (i : Fin 64),
    let p : Nat := P.arcS i.val
    let x : Machine.Stream := s.stream i.val
    let c : Nat := s.rd p Reg.ARC_SCFG_ctx
    let done : Prop := x.order.length ≤ x.next
    let due : Prop := s.arcRuns i.val = true ∧ (s.arcSlots i.val ≤ x.good ∨ done ∧ x.walked ≠ []) ∧ s.arcFree i.val = true
    let m : Nat := 1 + x.walked.length + (s.arcSlots i.val - x.good)
    let room : Prop := m ≤ s.manFree i.val
    let jobs : Prop := x.good ≤ s.hqFree c
    s.calm ∧
    due ∧
    room ∧
    jobs ∧
    (¬done) ∧
    x.stopAsked = false ∧
    x.resolved.find? x.next = none) ∧
  (∃ (s : State) (i : Fin 64) (pos : BitVec 25) (h : SampleHeader) (j : Nat),
    let p : Nat := P.arcS i.val
    let x : Machine.Stream := s.stream i.val
    let k : Nat := pos.toNat - x.first
    let runs : Prop := s.arcRuns i.val = true
    let takes : Prop := runs ∧ x.first ≤ pos.toNat ∧ x.next ≤ k ∧ k < x.next + 64 ∧ k < x.order.length ∧ x.resolved.find? k = none
    let n : Nat := x.order.getD k 0
    let entry : State × Bool := s.fetch 6 (s.dsAddr i.val n) 32
    let e : DsEntry := entry.fst.dsEntry i.val n
    let d : State × Bool := if entry.snd = true ∨ e.bad = true then (entry.fst, false) else entry.fst.fetch 6 e.addr e.len
    let w : Nat := h.width.toNat
    let l : Nat := h.height.toNat
    let cause : Nat := if entry.snd = true then 6 else if e.bad = true then 1 else if h.readOk = false ∨ d.snd = true then 6 else if h.syntaxOk = false then 1 else if inLimits e.fmt h = false then 2 else if overfull e.fmt h = true then 3 else if s.rd p Reg.ARC_GEOM_wmax < w ∨ s.rd p Reg.ARC_GEOM_hmax < l ∨ fitsFmt (s.arcC i.val) (s.arcB i.val) e.fmt h = false then 4 else if h.dataOk = false then if e.fmt = 2 then 7 else 5 else if e.whole = false ∧ (e.c1 < e.c0 ∨ e.l1 < e.l0 ∨ w ≤ e.c1 ∨ l ≤ e.l1) then 8 else 0
    let hit : Option (Nat × Position) := if s.rd P.arcG Reg.ARC_CACHE_SIZE_size = 0 then none else List.find? (fun c => decide (c.fst = s.cacheKey i.val n)) s.cache
    let q : Position := match hit with
    | some c => c.snd
    | none => { sample := n, cause := cause, width := w, height := l, comps := h.comps.toNat, prec := h.precision.toNat }
    let now : Prop := k = x.next ∧ x.resolved = [] ∧ x.good < s.arcSlots i.val
    s.atRest ∧
    takes ∧
    j < 64 ∧
    j ≠ i.val ∧
    now ∧
    q.cause ≠ 0 ∧
    (now ∧ (q.cause ≠ 0 ∨ s.arcFree i.val = false) ∨ k ≠ x.next ∧ x.resolved.find? x.next = none)) ∧
  (∃ (s : State) (i : Fin 64),
    let x : Machine.Stream := s.stream i.val
    let done : Prop := x.order.length ≤ x.next
    let due : Prop := s.arcRuns i.val = true ∧ (s.arcSlots i.val ≤ x.good ∨ done ∧ x.walked ≠ []) ∧ s.arcFree i.val = true
    s.calm ∧
    (¬due)) ∧
  (∃ (s : State) (i : Fin 64),
    let x : Machine.Stream := s.stream i.val
    s.atRest ∧
    s.reaches (P.arcS i.val + 120) ∧
    (x.resolved.find? x.next = none ∨ s.arcSlots i.val ≤ x.good) ∧
    s.arcRuns i.val = false) ∧
  (∃ (s : State) (i : Fin 64),
    let p : Nat := P.arcS i.val
    s.atRest ∧
    s.reaches (P.arcS i.val + 116) ∧
    s.blkBit p 9 = false) ∧
  (∃ (s : State) (i : Fin 64),
    let x : Machine.Stream := s.stream i.val
    let done : Prop := x.order.length ≤ x.next
    let due : Prop := s.arcRuns i.val = true ∧ (s.arcSlots i.val ≤ x.good ∨ done ∧ x.walked ≠ []) ∧ s.arcFree i.val = true
    let m : Nat := 1 + x.walked.length + (s.arcSlots i.val - x.good)
    let room : Prop := m ≤ s.manFree i.val
    s.calm ∧
    due ∧
    (¬room)) ∧
  (∃ (s : State) (i : Fin 64),
    let p : Nat := P.arcS i.val
    s.atRest ∧
    s.reaches (P.arcS i.val + 116) ∧
    s.blkBit p 9 = true) ∧
  (∃ (s : State) (i : Fin 64) (pos : BitVec 25) (h : SampleHeader),
    let p : Nat := P.arcS i.val
    let x : Machine.Stream := s.stream i.val
    let k : Nat := pos.toNat - x.first
    let runs : Prop := s.arcRuns i.val = true
    let takes : Prop := runs ∧ x.first ≤ pos.toNat ∧ x.next ≤ k ∧ k < x.next + 64 ∧ k < x.order.length ∧ x.resolved.find? k = none
    let n : Nat := x.order.getD k 0
    let entry : State × Bool := s.fetch 6 (s.dsAddr i.val n) 32
    let e : DsEntry := entry.fst.dsEntry i.val n
    let d : State × Bool := if entry.snd = true ∨ e.bad = true then (entry.fst, false) else entry.fst.fetch 6 e.addr e.len
    let w : Nat := h.width.toNat
    let l : Nat := h.height.toNat
    let cause : Nat := if entry.snd = true then 6 else if e.bad = true then 1 else if h.readOk = false ∨ d.snd = true then 6 else if h.syntaxOk = false then 1 else if inLimits e.fmt h = false then 2 else if overfull e.fmt h = true then 3 else if s.rd p Reg.ARC_GEOM_wmax < w ∨ s.rd p Reg.ARC_GEOM_hmax < l ∨ fitsFmt (s.arcC i.val) (s.arcB i.val) e.fmt h = false then 4 else if h.dataOk = false then if e.fmt = 2 then 7 else 5 else if e.whole = false ∧ (e.c1 < e.c0 ∨ e.l1 < e.l0 ∨ w ≤ e.c1 ∨ l ≤ e.l1) then 8 else 0
    let hit : Option (Nat × Position) := if s.rd P.arcG Reg.ARC_CACHE_SIZE_size = 0 then none else List.find? (fun c => decide (c.fst = s.cacheKey i.val n)) s.cache
    let q : Position := match hit with
    | some c => c.snd
    | none => { sample := n, cause := cause, width := w, height := l, comps := h.comps.toNat, prec := h.precision.toNat }
    let now : Prop := k = x.next ∧ x.resolved = [] ∧ x.good < s.arcSlots i.val
    s.atRest ∧
    takes ∧
    now ∧
    q.cause = 0 ∧
    s.arcFree i.val = true) := by
  refine ⟨?_, ?_, ?_, ?_, ?_, ?_, ?_, ?_⟩
  · exact ⟨full go3, 3, by decide +kernel⟩
  · exact ⟨psn (0x10000+32*5) (base go3), 3, 0x5#25, { width := 0x4#17, height := 0x3#17, precision := 0x8#5, comps := 0x1#3, content := 0x4#48, dataBytes := 0x32#32, syntaxOk := true, supported := true, dataOk := true, readOk := true }, 0, by decide +kernel⟩
  · exact ⟨psn (0x10000+32*5) (base go3), 3, by decide +kernel⟩
  · exact ⟨blk P.arcG 1 (base go3), 3, by decide +kernel⟩
  · exact ⟨blk P.arcG 1 (base go3), 3, by decide +kernel⟩
  · exact ⟨(((full go3).wr p Reg.ARC_MAN_CONS_cons 2).setBlk p 9), 3, by decide +kernel⟩
  · exact ⟨(((full go3).wr p Reg.ARC_MAN_CONS_cons 2).setBlk p 9), 3, by decide +kernel⟩
  · exact ⟨cache (base go3), 3, 0x5#25, { width := 0x4#17, height := 0x3#17, precision := 0x8#5, comps := 0x1#3, content := 0x4#48, dataBytes := 0x32#32, syntaxOk := true, supported := true, dataOk := true, readOk := true }, by decide +kernel⟩

theorem witness_SamplesAreWalkedAndBatchesClose_2 :
  (∃ (s : State) (i : Fin 64) (pos : BitVec 25),
    let x : Machine.Stream := s.stream i.val
    let k : Nat := pos.toNat - x.first
    let runs : Prop := s.arcRuns i.val = true
    let takes : Prop := runs ∧ x.first ≤ pos.toNat ∧ x.next ≤ k ∧ k < x.next + 64 ∧ k < x.order.length ∧ x.resolved.find? k = none
    s.atRest ∧
    takes ∧
    k ≠ x.next ∧ x.resolved.find? x.next = none) ∧
  (∃ (s : State) (i : Fin 64) (pos : BitVec 25) (h : SampleHeader),
    let p : Nat := P.arcS i.val
    let x : Machine.Stream := s.stream i.val
    let k : Nat := pos.toNat - x.first
    let runs : Prop := s.arcRuns i.val = true
    let takes : Prop := runs ∧ x.first ≤ pos.toNat ∧ x.next ≤ k ∧ k < x.next + 64 ∧ k < x.order.length ∧ x.resolved.find? k = none
    let n : Nat := x.order.getD k 0
    let entry : State × Bool := s.fetch 6 (s.dsAddr i.val n) 32
    let e : DsEntry := entry.fst.dsEntry i.val n
    let d : State × Bool := if entry.snd = true ∨ e.bad = true then (entry.fst, false) else entry.fst.fetch 6 e.addr e.len
    let w : Nat := h.width.toNat
    let l : Nat := h.height.toNat
    let cause : Nat := if entry.snd = true then 6 else if e.bad = true then 1 else if h.readOk = false ∨ d.snd = true then 6 else if h.syntaxOk = false then 1 else if inLimits e.fmt h = false then 2 else if overfull e.fmt h = true then 3 else if s.rd p Reg.ARC_GEOM_wmax < w ∨ s.rd p Reg.ARC_GEOM_hmax < l ∨ fitsFmt (s.arcC i.val) (s.arcB i.val) e.fmt h = false then 4 else if h.dataOk = false then if e.fmt = 2 then 7 else 5 else if e.whole = false ∧ (e.c1 < e.c0 ∨ e.l1 < e.l0 ∨ w ≤ e.c1 ∨ l ≤ e.l1) then 8 else 0
    let hit : Option (Nat × Position) := if s.rd P.arcG Reg.ARC_CACHE_SIZE_size = 0 then none else List.find? (fun c => decide (c.fst = s.cacheKey i.val n)) s.cache
    let q : Position := match hit with
    | some c => c.snd
    | none => { sample := n, cause := cause, width := w, height := l, comps := h.comps.toNat, prec := h.precision.toNat }
    let now : Prop := k = x.next ∧ x.resolved = [] ∧ x.good < s.arcSlots i.val
    s.atRest ∧
    takes ∧
    now ∧
    q.cause = 0 ∧
    s.arcFree i.val = false) ∧
  (∃ (s : State) (i : Fin 64),
    let p : Nat := P.arcS i.val
    let x : Machine.Stream := s.stream i.val
    let c : Nat := s.rd p Reg.ARC_SCFG_ctx
    let done : Prop := x.order.length ≤ x.next
    let due : Prop := s.arcRuns i.val = true ∧ (s.arcSlots i.val ≤ x.good ∨ done ∧ x.walked ≠ []) ∧ s.arcFree i.val = true
    let m : Nat := 1 + x.walked.length + (s.arcSlots i.val - x.good)
    let room : Prop := m ≤ s.manFree i.val
    let jobs : Prop := x.good ≤ s.hqFree c
    s.calm ∧
    due ∧
    room ∧
    jobs ∧
    done) ∧
  (∃ (s : State) (i : Fin 64),
    let p : Nat := P.arcS i.val
    let x : Machine.Stream := s.stream i.val
    let c : Nat := s.rd p Reg.ARC_SCFG_ctx
    let done : Prop := x.order.length ≤ x.next
    let due : Prop := s.arcRuns i.val = true ∧ (s.arcSlots i.val ≤ x.good ∨ done ∧ x.walked ≠ []) ∧ s.arcFree i.val = true
    let m : Nat := 1 + x.walked.length + (s.arcSlots i.val - x.good)
    let room : Prop := m ≤ s.manFree i.val
    let jobs : Prop := x.good ≤ s.hqFree c
    s.calm ∧
    due ∧
    room ∧
    jobs ∧
    (¬done) ∧
    x.stopAsked = true) ∧
  (∃ (s : State) (i : Fin 64) (j : Nat),
    let x : Machine.Stream := s.stream i.val
    s.atRest ∧
    s.reaches (P.arcS i.val + 120) ∧
    (x.resolved.find? x.next = none ∨ s.arcSlots i.val ≤ x.good) ∧
    j < 64 ∧
    j ≠ i.val) ∧
  (∃ (s : State) (i : Fin 64),
    let p : Nat := P.arcS i.val
    let x : Machine.Stream := s.stream i.val
    let c : Nat := s.rd p Reg.ARC_SCFG_ctx
    let done : Prop := x.order.length ≤ x.next
    let due : Prop := s.arcRuns i.val = true ∧ (s.arcSlots i.val ≤ x.good ∨ done ∧ x.walked ≠ []) ∧ s.arcFree i.val = true
    let m : Nat := 1 + x.walked.length + (s.arcSlots i.val - x.good)
    let room : Prop := m ≤ s.manFree i.val
    let jobs : Prop := x.good ≤ s.hqFree c
    s.calm ∧
    due ∧
    room ∧
    (¬jobs)) ∧
  (∃ (s : State) (i : Fin 64) (v : Word),
    let x : Machine.Stream := s.stream i.val
    let y : Machine.Stream := { order := x.order, first := x.first, next := x.next, resolved := x.resolved, walked := x.walked, corrupt := x.corrupt, total := x.total, closed := List.filter (fun b => decide (v.toNat ≤ b.fst % 2 ^ 32)) x.closed, stopAsked := x.stopAsked, epochs := x.epochs }
    let q : Position := (x.resolved.find? x.next).get!
    s.atRest ∧
    s.reaches (P.arcS i.val + 120) ∧
    (s.arcRuns i.val = true ∧ x.good < s.arcSlots i.val ∧ ∀ (b : Nat × Nat), b ∈ y.closed → b.snd ≠ s.arcPos i.val) ∧
    x.resolved.find? x.next = some q) ∧
  (∃ (s : State) (i : Fin 64) (pos : BitVec 25),
    let x : Machine.Stream := s.stream i.val
    let k : Nat := pos.toNat - x.first
    let runs : Prop := s.arcRuns i.val = true
    let takes : Prop := runs ∧ x.first ≤ pos.toNat ∧ x.next ≤ k ∧ k < x.next + 64 ∧ k < x.order.length ∧ x.resolved.find? k = none
    s.atRest ∧
    (¬takes)) := by
  refine ⟨?_, ?_, ?_, ?_, ?_, ?_, ?_, ?_⟩
  · exact ⟨psn (0x60000+8) (base go3), 3, 0x6#25, by decide +kernel⟩
  · exact ⟨strm (fun x => {x with next := 6, closed := [(2, 1),(3,0)]}) (base go3), 3, 0x6#25, { width := 0x4#17, height := 0x3#17, precision := 0x8#5, comps := 0x1#3, content := 0x4#48, dataBytes := 0x32#32, syntaxOk := true, supported := true, dataOk := true, readOk := true }, by decide +kernel⟩
  · exact ⟨strm (fun x => {x with order := [1,2,3]}) (full go3), 3, by decide +kernel⟩
  · exact ⟨strm (fun x => {x with stopAsked := true}) (full go3), 3, by decide +kernel⟩
  · exact ⟨psn (0x10000+32*5) (base go3), 3, 0, by decide +kernel⟩
  · exact ⟨(full go3).setCtx 2 {(go3.ctx 2) with hostProd := 31}, 3, by decide +kernel⟩
  · exact ⟨strm (fun x => {x with resolved := [(5, qq),(6,qq)]}) (base go3), 3, 0xa4c70001#32, by decide +kernel⟩
  · exact ⟨psn (0x60000+8) (base go3), 3, 0x0#25, by decide +kernel⟩

end WitV

namespace WitHand

theorem witness_StepRunsTheFrontCommand :
  (∃ s : State, s.pending = [] ∧ s.atRest ∧ (s.ptp.running = false ∨ s.seq.clkLost.contains .eth = true)) ∧
  (∃ s : State, s.pending = [] ∧ s.atRest ∧ s.ptp.running = true ∧ s.seq.clkLost.contains .eth = false) := by
  refine ⟨?_, ?_⟩
  · exact ⟨State.reset, by decide +kernel⟩
  · exact ⟨go2, by decide +kernel⟩

theorem witness_PtpClockKeepsItsNominalRate :
  (∃ (s : State) (k : Nat), s.pending = [] ∧ s.atRest ∧ s.ptp.running = true ∧ s.seq.clkLost.contains .eth = false ∧
    s.rd P.ptp Reg.PTP_RATE_rate = 0 ∧ s.ptp.cycle < 25 ∧ s.ptp.frac < 2 ^ 32 ∧ s.ptp.ns + 128 < 2 ^ 64 ∧ k ≤ 25 ∧ k = 25) ∧
  (∃ s : State, s.atRest ∧ s.board.thermShutdown = false ∧ s.board.smbHold = false ∧ s.seq.phase = .coldSteps ∧
    bit s.seq.begun 1 = true ∧ bit s.seq.ended 1 = false) ∧
  (∃ s : State, s.atRest ∧ s.board.thermShutdown = false ∧ s.board.smbHold = false ∧ s.seq.phase = .warmSteps ∧
    bit s.seq.begun 1 = true ∧ bit s.seq.ended 1 = false) := by
  refine ⟨?_, ?_, ?_⟩
  · exact ⟨go2, 25, by decide +kernel⟩
  · exact ⟨{ State.reset with seq := { State.reset.seq with begun := 2 } }, by decide +kernel⟩
  · exact ⟨{ State.reset with seq := { State.reset.seq with phase := .warmSteps, begun := 2 } }, by decide +kernel⟩

/-- What `RowQueues` says of a row, one conjunct a field. -/
theorem witness_RowQueues :
  (∃ s : State, s.calm ∧ s.mayTake 0 2 5 = none) ∧
  (∃ (s : State) (x : Job), s.calm ∧ s.mayTake 0 2 5 = some x ∧ (s.taken 0 2 x).engWorks 0 = false) ∧
  (∃ (s : State) (x : Job), s.calm ∧ s.mayTake 0 2 5 = some x ∧ (s.taken 0 2 x).engWorks 0 = true ∧
    ((s.taken 0 2 x).prog 0 2).cmds[((s.taken 0 2 x).prog 0 2).pos]? ≠ some (WitE.W 3 0 0 0)) ∧
  (∃ (s : State) (x : Job), s.calm ∧ s.nextIs 0 2 5 (WitE.W 0x1500 0 0 0) x ∧
    ∀ q ∈ ((s.staged 0 2 5 (WitE.W 0x1500 0 0 0) x 0).eng 0).queued, (s.staged 0 2 5 (WitE.W 0x1500 0 0 0) x 0).canRun 0 q = false) ∧
  (∃ (s : State) (x : Job), s.calm ∧ s.nextIs 0 2 5 (WitE.W 0 0 0 0) x) := by
  refine ⟨?_, ?_, ?_, ?_, ?_⟩
  · exact ⟨go, by decide +kernel⟩
  · exact ⟨WitE.poisonAt 0x1040 (WitE.isMem 0), WitE.jx, by decide +kernel⟩
  · exact ⟨WitE.st 0 (WitE.W 0 0 0 0), WitE.jx, by decide +kernel⟩
  · exact ⟨WitE.st 0 (WitE.W 0x1500 0 0 0), WitE.jx, by decide +kernel⟩
  · exact ⟨WitE.st 0 (WitE.W 0 0 0 0), WitE.jx, by decide +kernel⟩

/-- What `Queued` says of a command whose step the buffer holds, and of one whose step is fetched. -/
theorem witness_Queued :
  (∃ (s : State) (x : Job), s.calm ∧ s.nextIs 0 2 5 (WitE.W 0 0 0 0) x ∧ (s.jobProg 0 x).cmds ≠ []) ∧
  (∃ (s : State) (x : Job), s.calm ∧ s.nextIs 0 2 5 (WitE.W 0 0 0 0) x ∧ (s.jobProg 0 x).cmds = []) := by
  refine ⟨?_, ?_⟩
  · exact ⟨WitE.st 0 (WitE.W 0 0 0 0), WitE.jx, by decide +kernel⟩
  · exact ⟨WitE.isMem 0, WitE.jx, by decide +kernel⟩

theorem witness_EveryStepSettlesPermitAndOutputs : ∃ s t : State, step s = .next t :=
  ⟨State.reset, after (step State.reset), rfl⟩

theorem witness_EveryStepKeepsTheMemoriesCanonical : ∃ s t : State, s.memOk ∧ step s = .next t :=
  ⟨State.reset, after (step State.reset), by decide +kernel, rfl⟩

theorem witness_WellFormedCommandsAnswerAndNoOthers : (∃ c : Instr, c.wf = true) ∧ (∃ c : Instr, c.wf = false) :=
  ⟨⟨.quietPoint, rfl⟩, ⟨.claim 0x48 0, rfl⟩⟩

end WitHand

end
end

section
/-! SUPPORT. Register accesses at rest: what storing parity, a count, a latch and the end of a command leave; and the obligations
O3 (accesses of no effect, reads of counters) and O5 (the access codes of a register write). -/

namespace Sys2Proof.Machine

/-! ### The operations of an access, each with its frame -/

/-- Nothing mismatches and nothing is injected: a configuration write stores good parity over good parity. -/
theorem storeParity_atRest {s : State} (h : s.atRest) (a : Nat) : s.storeParity a = s := by
  obtain ⟨-, hp, hi⟩ := h
  cases s
  simp_all [State.storeParity]

theorem onWrite_atRest {s : State} {a : Nat} (h : s.atRest) (hr : s.reaches a) (k : State → State) : s.onWrite a k = k s := by
  rw [onWrite_reaches hr, storeParity_atRest h]

/-- A page under test, or a locked configuration region, ignores a write and counts it (R94, R577). -/
theorem onWrite_ignored {s : State} {a : Nat} (hh : s.hostReach = true) (hp : s.pageStopped a = false)
    (hi : s.underTest (a / 4096 * 4096) = true ∨ (inConfig a && s.rdb (a / 4096 * 4096) Reg.BLK_CTRL_cfg_lock) = true)
    (k : State → State) : s.onWrite a k = s.note (a / 4096 * 4096) .ignoredWrite := by
  unfold State.onWrite
  cases ht : s.underTest (a / 4096 * 4096)
  · have hc := hi.resolve_left (by simp [ht])
    simp [hh, hp, ht, hc]
  · simp [hh, hp, ht]

theorem frame_openCtrs (s : State) (m : SMap Nat) : Frame s { s with openCtrs := m } [] [] [.openCtrs] :=
  frame_part .openCtrs rfl rfl (fun q hq => by
    cases q <;> first | exact rfl | exact ⟨rfl, rfl⟩ | exact ⟨rfl, fun _ => ⟨rfl, rfl, rfl⟩⟩ | exact absurd rfl hq)

theorem frame_deferred (s : State) (l : List (Nat × Nat)) : Frame s { s with deferred := l } [] [] [.deferred] :=
  frame_part .deferred rfl rfl (fun q hq => by
    cases q <;> first | exact rfl | exact ⟨rfl, rfl⟩ | exact ⟨rfl, fun _ => ⟨rfl, rfl, rfl⟩⟩ | exact absurd rfl hq)

/-- A count in a page adds one to its own reason, and to the page's counter of writes ignored or put off where it has one. -/
theorem counted_note (s : State) (b : Nat) (w : Why) : counted (b / 4096) w s (s.note b w) := by
  unfold counted State.note
  dsimp only
  repeat' split
  all_goals rfl

theorem frame_note (s : State) (b : Nat) (w : Why) (n : Nat) :
    Frame s (s.note b w n) [] (if w = .ignoredWrite ∨ w = .deferredWrite then (ignoredCtr b).toList else []) [.openCtrs] := by
  unfold State.note
  dsimp only
  split
  · split
    · next a ha => exact ((frame_openCtrs s _).mono (by simp) (by simp) (by simp)).bump a n (by simp [ha])
    · exact (frame_openCtrs s _).mono (by simp) (by simp) (by simp)
  · exact frame_openCtrs s _

theorem frame_latch (s : State) (i : Nat) : Frame s (s.latch i) [Reg.CHIP_WAKE_latch.key P.chip 0] [] [] :=
  frame_wr s _ _ _ _

theorem bit_setBit_self (v i : Nat) : bit (setBit v i) i = true := by
  unfold setBit
  split
  · next h => exact h
  · next h =>
    simp only [bit, decide_eq_true_eq] at h ⊢
    rw [Nat.add_div_right _ (Nat.two_pow_pos i)]
    omega

theorem bit_mod_two_pow {v i w : Nat} (h : i < w) : bit (v % 2 ^ w) i = bit v i := by
  have := Nat.testBit_mod_two_pow v w i
  simp only [Nat.testBit_eq_decide_div_mod_eq, h, decide_true, Bool.true_and] at this
  exact this

/-- A latch set shows in CHIP_WAKE.latch (R72, R85). -/
theorem latch_bit (s : State) {i : Nat} (h : i < 10) : bit ((s.latch i).rd P.chip Reg.CHIP_WAKE_latch) i = true := by
  have hw : i < Reg.CHIP_WAKE_latch.width := h
  rw [State.latch, State.rd_wr_self, bit_mod_two_pow hw, bit_setBit_self]

theorem frame_voidAccess (s : State) (isRead : Bool) (n : Nat) :
    Frame s (s.voidAccess isRead n) [] [] (if isRead then [.host] else []) := by
  cases isRead
  · exact .refl ..
  · exact frame_host s _

theorem frame_regRead (s : State) (a : Nat) : Frame s (s.regRead a) [] [] [.host] := frame_host s _

/-- A frame keeps a state free of what the end of a command would take up, where it lists neither the stored writes nor the
parity record. -/
theorem Frame.quiet {s t : State} {R C : List Nat} {P : List Part} (h : Frame s t R C P) (hs : s.atRest) (hd : Part.deferred ∉ P)
    (hp : Part.parity ∉ P) : t.deferred = [] ∧ t.parityBad = [] := by
  have hdef : t.deferred = s.deferred := h.parts _ hd
  have hpar : t.parityBad = s.parityBad ∧ t.injectArmed = s.injectArmed := h.parts _ hp
  exact ⟨hdef.trans hs.1, hpar.1.trans hs.2.1⟩

/-- The frame of an operation is that of the command that ends with it. -/
theorem Frame.fin {s t : State} {R C : List Nat} {P : List Part} (h : Frame s t R C P) (hs : s.atRest) (hd : Part.deferred ∉ P)
    (hp : Part.parity ∉ P) : Frame s (Machine.settle t) R C P := by
  obtain ⟨h1, h2⟩ := h.quiet hs hd hp
  exact h.settle h1 h2

theorem counted_settle {n : Nat} {w : Why} {s t : State} (hd : t.deferred = []) (hp : t.parityBad = [])
    (h : counted n w s t) : counted n w s (settle t) := by
  unfold counted
  rw [settle_openCtrs hd hp]
  exact h

/-! ### Reads -/

theorem latches_iff (a : Nat) : latches a = true ↔ (0x800 ≤ a % 4096 ∧ a % 4096 < 0xc00 ∧ a % 8 = 0) ∨ a = P.ptp + 0x40 := by
  simp [latches, and_assoc]

theorem counterLowRead_reached {s : State} {a : Nat} (hh : s.hostReach = true) (hp : s.pageStopped a = false) :
    s.counterLowRead a = s.regRead (a / 4 * 4) := by
  simp [State.counterLowRead, hh, hp]

/-- The words of a live counter are its lower and its upper half (R107, R108). -/
theorem readWord_counter {s : State} {a : Nat} (hpg : (pageInfo (a / 4096)).isSome = true) (h8 : 0x800 ≤ a % 4096)
    (hc : a % 4096 < 0xc00) :
    s.readWord a = if a % 4096 % 8 = 0 then s.ctr a % 2 ^ 32 else s.ctr (a - 4) / 2 ^ 32 := by
  obtain ⟨p, hp⟩ := Option.isSome_iff_exists.mp hpg
  have h0 : a % 4096 ≠ 0 := by omega
  have h4 : a % 4096 ≠ 4 := by omega
  simp [State.readWord, hp, h0, h4, h8, hc]

theorem readValue_eq (s : State) (a : Nat) :
    s.readValue a = ((SMap.find? s.host.upperLatch (a / 4096)).map (fun x => if x.1 = a then x.2 else s.readWord a)).getD
      (s.readWord a) := by
  unfold State.readValue
  cases SMap.find? s.host.upperLatch (a / 4096) <;> rfl

theorem readValue_other {s : State} {a : Nat}
    (h : (SMap.find? s.host.upperLatch (a / 4096)).all (fun x => x.1 ≠ a) = true) : s.readValue a = s.readWord a := by
  unfold State.readValue
  cases hl : SMap.find? s.host.upperLatch (a / 4096) with
  | none => rfl
  | some l => simp_all

/-- The read of a live counter's lower word latches its upper word (R108). -/
theorem regRead_low {s : State} {a : Nat} (h8 : 0x800 ≤ a % 4096) (hc : a % 4096 < 0xc00) (hz : a % 4096 % 8 = 0)
    (hpg : (pageInfo (a / 4096)).isSome = true) (hl : (SMap.find? s.host.upperLatch (a / 4096)).all (fun x => x.1 ≠ a) = true) :
    (s.regRead a).host.readData = le 4 (s.ctr a % 2 ^ 32) ∧
      SMap.find? (s.regRead a).host.upperLatch (a / 4096) = some (a + 4, s.ctr a / 2 ^ 32) := by
  have hlat : latches a = true := (latches_iff a).mpr (.inl ⟨h8, hc, by omega⟩)
  have hpage : (a + 4) / 4096 = a / 4096 := by omega
  have hlow : s.readWord a = s.ctr a % 2 ^ 32 := by rw [readWord_counter hpg h8 hc, if_pos hz]
  have hup : s.readWord (a + 4) = s.ctr a / 2 ^ 32 := by
    rw [readWord_counter (by rwa [hpage]) (by omega) (by omega), if_neg (by omega), Nat.add_sub_cancel]
  refine ⟨?_, ?_⟩
  · show le 4 (s.readValue a) = _
    rw [readValue_other hl, hlow]
  · simp only [State.regRead, hlat, if_true, hup, SMap.find?_insert_self]

/-- Any other read ends its page's latch (R108). -/
theorem regRead_ends_latch {s : State} {a : Nat} (hl : latches a = false) :
    SMap.find? (s.regRead a).host.upperLatch (a / 4096) = none := by
  simp only [State.regRead, hl, Bool.false_eq_true, if_false, SMap.find?_erase_self]

/-! ### O3 -/

theorem counterLowRead_answers {s : State} {a : Bar0Addr} (hh : s.hostReach = true) (hp : s.pageStopped a.toNat = false)
    (hs : s.atRest) :
    ∃ t, exec (.counterLowRead a) s = .next t ∧ t.host = (s.regRead (a.toNat / 4 * 4)).host ∧ Frame s t [] [] [.host] := by
  have hf := frame_regRead s (a.toNat / 4 * 4)
  obtain ⟨hd, hb⟩ := hf.quiet hs (by simp) (by simp)
  refine ⟨settle (s.regRead (a.toNat / 4 * 4)), ?_, settle_host hd hb, hf.fin hs (by simp) (by simp)⟩
  rw [← counterLowRead_reached hh hp]
  rfl

/-- An access to no register of a module that is reached: a count in the page, or in the chip page where no page stands. -/
theorem registerAccessInvalid_eq {s : State} {a : Bar0Addr} (hh : s.hostReach = true) (hp : s.pageStopped a.toNat = false)
    (isRead : Bool) : ∃ b w, ((pageInfo (a.toNat / 4096)).isSome = true → b / 4096 = a.toNat / 4096 ∧ w = .invalidAccess) ∧
      w ≠ .ignoredWrite ∧ w ≠ .deferredWrite ∧
      exec (.registerAccessInvalid a isRead) s = fin ((s.note b w).voidAccess isRead 4) := by
  cases hi : pageInfo (a.toNat / 4096) with
  | none =>
    refine ⟨P.chip, .reservedAccess, by simp, by decide, by decide, ?_⟩
    simp [exec, execRegisterAccessInvalid, hh, hp, hi]
  | some p =>
    refine ⟨a.toNat / 4096 * 4096, .invalidAccess, fun _ => ⟨by omega, rfl⟩, by decide, by decide, ?_⟩
    simp [exec, execRegisterAccessInvalid, hh, hp, hi]

theorem registerAccessInvalid_counts {s : State} {a : Bar0Addr} (hh : s.hostReach = true) (hp : s.pageStopped a.toNat = false)
    (hs : s.atRest) (isRead : Bool) :
    ∃ t, exec (.registerAccessInvalid a isRead) s = .next t ∧ t.host = (s.voidAccess isRead 4).host ∧
      ((pageInfo (a.toNat / 4096)).isSome = true → counted (a.toNat / 4096) .invalidAccess s t) ∧
      Frame s t [] [] ((if isRead then [.host] else []) ++ [.openCtrs]) := by
  obtain ⟨b, w, hbw, hni, hnd, he⟩ := registerAccessInvalid_eq hh hp isRead
  have hn : Frame s (s.note b w) [] [] [.openCtrs] := by simpa [hni, hnd] using frame_note s b w 1
  have hf : Frame s ((s.note b w).voidAccess isRead 4) [] [] ((if isRead then [.host] else []) ++ [.openCtrs]) :=
    (hn.trans (frame_voidAccess _ isRead 4)).mono (by simp) (by simp) (by simp)
  obtain ⟨hd, hpar⟩ := hf.quiet hs (by cases isRead <;> simp) (by cases isRead <;> simp)
  have hhost : (s.note b w).host = s.host := hn.parts .host (by simp)
  refine ⟨_, he, ?_, fun hsome => ?_, hf.settle hd hpar⟩
  · rw [settle_host hd hpar]
    cases isRead
    · exact hhost
    · simp [State.voidAccess, hhost]
  · obtain ⟨hb, rfl⟩ := hbw hsome
    refine counted_settle hd hpar ?_
    have hc := counted_note s b .invalidAccess
    rw [hb] at hc
    cases isRead <;> exact hc

theorem stoppedPageAccess_latches {s : State} {a : Bar0Addr} (hp : s.pageStopped a.toNat = true) (hs : s.atRest)
    (isRead : Bool) :
    ∃ t, exec (.stoppedPageAccess a isRead) s = .next t ∧ bit (t.rd P.chip Reg.CHIP_WAKE_latch) 2 = true ∧
      t.host = (s.voidAccess isRead 4).host ∧
      Frame s t [Reg.CHIP_WAKE_latch.key P.chip 0] [] [.host] := by
  have hv : Frame (s.latch 2) ((s.latch 2).voidAccess isRead 4) [] [] [.host] :=
    (frame_voidAccess _ isRead 4).mono (by simp) (by simp) (by cases isRead <;> simp)
  have hf : Frame s ((s.latch 2).voidAccess isRead 4) [Reg.CHIP_WAKE_latch.key P.chip 0] [] [.host] :=
    ((frame_latch s 2).trans hv).mono (by simp) (by simp) (by simp)
  obtain ⟨hd, hpar⟩ := hf.quiet hs (by simp) (by simp)
  refine ⟨settle ((s.latch 2).voidAccess isRead 4), ?_, ?_, ?_, hf.settle hd hpar⟩
  · simp [exec, execStoppedPageAccess, hp, fin]
  · rw [settle_rd hd hpar, hv.regs _ _ _ (by simp)]
    exact latch_bit s (by decide)
  · rw [settle_host hd hpar]
    cases isRead <;> rfl

/-- A claim register is the register of a resource (R123, R124). -/
theorem resAt_isSome_of_isClaimAddr {a : Nat} (h : isClaimAddr a = true) : (resAt a).isSome = true := by
  simp only [isClaimAddr, Bool.and_eq_true, Bool.or_eq_true, decide_eq_true_eq] at h
  simp only [resAt, P.fio, P.eth, P.cfe0, P.enc]
  repeat' split
  · omega
  · rfl
  · rfl
  · rfl
  · rfl
  · omega

/-- A register write, a claim and a release go through the one rule of `State.onWrite`. -/
theorem exec_write_onWrite {a : Bar0Addr} {v : Word} {c : Instr}
    (hc : c = .registerWrite a v .driver ∨ c = .registerWrite a v .firmware ∨
      (isClaimAddr a.toNat = true ∧ (c = .claim a v ∨ c = .release a v))) (s : State) :
    ∃ k, exec c s = fin (s.onWrite a.toNat k) := by
  obtain rfl | rfl | ⟨hcl, hc⟩ := hc
  · exact ⟨_, rfl⟩
  · exact ⟨_, rfl⟩
  · obtain ⟨r, hr⟩ := Option.isSome_iff_exists.mp (resAt_isSome_of_isClaimAddr hcl)
    obtain rfl | rfl := hc
    · exact ⟨fun s => s.claimWrite r v.toNat, by simp [exec, execClaim, hr]⟩
    · exact ⟨fun s => s.claimWrite r v.toNat, by simp [exec, execRelease, hr]⟩

/-- Settles O3: each access is one operation of the access layer, and the end of a command at rest leaves what it did. -/
theorem accessesAnswerOrChangeNothing : Obligations.AccessesAnswerOrChangeNothing := by
  unfold Obligations.AccessesAnswerOrChangeNothing
  refine ⟨⟨?read, ?void, ?lost, ?stopped⟩, ?write⟩
  case read =>
    intro s a hh hp hs o low l
    obtain ⟨t, he, hhost, hf⟩ := counterLowRead_answers (a := a) hh hp hs
    have hal : o % 4 = 0 → a.toNat / 4 * 4 = a.toNat := by simp only [o]; omega
    refine ⟨t, he, by rw [hhost]; rfl, by rw [hhost]; rfl, ?_, ?_, hf⟩
    · rintro ⟨h8, hc, hz⟩ hpg hl
      rw [hhost, hal (by omega)]
      exact regRead_low h8 hc hz hpg hl
    · intro hlow h4 hptp
      have hlat : latches a.toNat = false := by
        rw [← Bool.not_eq_true, latches_iff]
        omega
      rw [hhost, hal h4]
      exact ⟨congrArg (le 4) (readValue_eq s a.toNat), regRead_ends_latch hlat⟩
  case void =>
    intro s a hh hp hs
    obtain ⟨t, he, hhost, hcount, hf⟩ := registerAccessInvalid_counts (a := a) hh hp hs true
    exact ⟨t, he, by rw [hhost]; rfl, by rw [hhost]; rfl, hcount, hf⟩
  case lost =>
    intro s a hh hp hs
    obtain ⟨t, he, -, hcount, hf⟩ := registerAccessInvalid_counts (a := a) hh hp hs false
    exact ⟨t, he, hcount, hf⟩
  case stopped =>
    intro s a isRead hp hs
    obtain ⟨t, he, hbit, hhost, hf⟩ := stoppedPageAccess_latches hp hs isRead
    refine ⟨t, he, hbit, ?_, ?_, ?_, hf⟩
    · rintro rfl; rw [hhost]; rfl
    · rintro rfl; rw [hhost]; rfl
    · rw [hhost]; cases isRead <;> rfl
  case write =>
    intro s a v c hs hc base
    obtain ⟨k, hk⟩ := exec_write_onWrite hc s
    refine ⟨_, hk, fun hh => ?_, fun hh hp => ?_, fun hh hp hi => ?_⟩
    · rw [onWrite_unreached hh]
      exact frame_settle hs.1 hs.2.1
    · have hf := frame_latch s 2
      obtain ⟨hd, hpar⟩ := hf.quiet hs (by simp) (by simp)
      rw [onWrite_stopped hh hp, settle_rd hd hpar]
      exact ⟨latch_bit s (by decide), hf.settle hd hpar⟩
    · have hf := frame_note s base .ignoredWrite 1
      obtain ⟨hd, hpar⟩ := hf.quiet hs (by simp) (by simp)
      have hcount := counted_note s base .ignoredWrite
      rw [Nat.mul_div_cancel _ (by decide)] at hcount
      rw [onWrite_ignored hh hp hi]
      exact ⟨counted_settle hd hpar hcount, hf.settle hd hpar⟩

/-! ### The fields of a register -/

/-- A field with index i stands in the register at page offset o where its own offset and stride lead there. -/
theorem mem_fieldsAt {k : PKind} {o : Nat} {f : Fld} {i : Nat} : (f, i) ∈ fieldsAt k o ↔
    f ∈ Reg.fields_hdr ++ Reg.fieldsOf k ∧ f.off + f.stride * i = o ∧ if f.stride = 0 then i = 0 else i < f.count := by
  unfold fieldsAt
  rw [List.mem_filterMap]
  constructor
  · rintro ⟨g, hg, h⟩
    by_cases hlt : o < g.off
    · rw [if_pos hlt] at h
      cases h
    rw [if_neg hlt] at h
    by_cases hz : g.stride = 0
    · rw [if_pos hz] at h
      split at h
      · next ho =>
        cases h
        exact ⟨hg, by rw [hz, ho, Nat.zero_mul, Nat.add_zero], by rw [if_pos hz]⟩
      · cases h
    · rw [if_neg hz] at h
      split at h
      · next hrow =>
        obtain ⟨hmod, hcount⟩ := hrow
        have hdiv := Nat.div_add_mod (o - g.off) g.stride
        cases h
        exact ⟨hg, by omega, by rw [if_neg hz]; exact hcount⟩
      · cases h
  · rintro ⟨hf, ho, hi⟩
    refine ⟨f, hf, ?_⟩
    rw [if_neg (by omega)]
    by_cases hz : f.stride = 0
    · rw [if_pos hz] at hi
      rw [hz, hi, Nat.zero_mul, Nat.add_zero] at ho
      rw [if_pos hz, if_pos ho.symm, hi]
    · have hsub : o - f.off = f.stride * i := by omega
      have hpos : 0 < f.stride := Nat.pos_of_ne_zero hz
      rw [if_neg hz] at hi
      rw [if_neg hz, hsub, Nat.mul_div_cancel_left _ hpos, Nat.mul_mod_right, if_pos ⟨rfl, hi⟩]

/-- Beyond the header a register holds fields of its page alone (R90). -/
theorem fieldsAt_own {k : PKind} {o : Nat} (ho : 0x40 ≤ o) {fi : Fld × Nat} (h : fi ∈ fieldsAt k o) : fi.1 ∈ Reg.fieldsOf k := by
  obtain ⟨f, i⟩ := fi
  obtain ⟨hf, hoff, -⟩ := mem_fieldsAt.mp h
  refine (List.mem_append.mp hf).resolve_left (fun hh => ?_)
  have hdr : ∀ f ∈ Reg.fields_hdr, f.stride = 0 ∧ f.off < 0x40 := by decide
  obtain ⟨hs, hlt⟩ := hdr f hh
  rw [hs] at hoff
  omega

/-- The fields of a page lie apart: all have one stride (0 where the page has each of them once), and two that share a register
differ in their least bit. -/
abbrev LaidApart (l : List Fld) : Prop :=
  ∀ f ∈ l, ∀ g ∈ l, f.stride = g.stride ∧ (f.off % f.stride = g.off % f.stride → f.lo = g.lo → f = g)

/-- Then no two fields of a register share a key. -/
theorem fieldsAt_key_inj {k : PKind} {o : Nat} (ho : 0x40 ≤ o) (hl : LaidApart (Reg.fieldsOf k)) {base : Nat} {fi fj : Fld × Nat}
    (hi : fi ∈ fieldsAt k o) (hj : fj ∈ fieldsAt k o) (hk : fi.1.key base fi.2 = fj.1.key base fj.2) : fi = fj := by
  obtain ⟨hstride, hsame⟩ := hl _ (fieldsAt_own ho hi) _ (fieldsAt_own ho hj)
  obtain ⟨f, i⟩ := fi
  obtain ⟨g, j⟩ := fj
  obtain ⟨-, hfo, hfi⟩ := mem_fieldsAt.mp hi
  obtain ⟨-, hgo, hgj⟩ := mem_fieldsAt.mp hj
  dsimp only at hstride hsame hk
  have hlo : f.lo = g.lo := by
    unfold Fld.key at hk
    omega
  have hfg : f = g := hsame (by
    have h1 : (f.off + f.stride * i) % f.stride = (g.off + f.stride * j) % f.stride := by rw [hfo, hstride, hgo]
    simpa using h1) hlo
  subst hfg
  by_cases hz : f.stride = 0
  · rw [if_pos hz] at hfi hgj
    rw [hfi, hgj]
  · have : f.stride * i = f.stride * j := by omega
    rw [Nat.eq_of_mul_eq_mul_left (Nat.pos_of_ne_zero hz) this]

/-! ### Writing the fields of a register -/

/-- A write may change the field: it is stored, or cleared by ones (R10). -/
def Fld.stored (f : Fld) : Bool := f.acc = .rw || f.acc = .rws || f.acc = .w1c

theorem frame_writeField (s : State) (base : Nat) (c : Bool) (v : Nat) (fi : Fld × Nat) :
    Frame s (s.writeField base c v fi) (if fi.1.stored then [fi.1.key base fi.2] else []) [] [] := by
  cases hacc : fi.1.acc <;> simp only [State.writeField, Fld.stored, hacc]
  case rw => exact frame_wr ..
  case rws => exact frame_wr ..
  case w1c =>
    split
    · exact .refl ..
    · exact frame_wr ..
  all_goals exact .refl ..

/-- The keys of the fields of a list that a write may change. -/
def storedKeys (base : Nat) (l : List (Fld × Nat)) : List Nat := (l.filter (fun fi => fi.1.stored)).map (fun fi => fi.1.key base fi.2)

theorem frame_writeFields (base : Nat) (c : Bool) (v : Nat) (l : List (Fld × Nat)) (s : State) :
    Frame s (l.foldl (fun s fi => s.writeField base c v fi) s) (storedKeys base l) [] [] := by
  induction l generalizing s with
  | nil => exact .refl ..
  | cons fi l ih =>
    refine ((frame_writeField s base c v fi).trans (ih _)).mono ?_ (by simp) (by simp)
    unfold storedKeys
    cases h : fi.1.stored <;> simp [h]

theorem bits_lt (v lo w : Nat) : bits v lo w < 2 ^ w := Nat.mod_lt _ (Nat.two_pow_pos w)

theorem rd_writeField_rw (s : State) (base : Nat) (c : Bool) (v : Nat) {fi : Fld × Nat} (h : fi.1.acc = .rw) :
    (s.writeField base c v fi).rd base fi.1 fi.2 = bits v fi.1.lo fi.1.width := by
  simp only [State.writeField, h]
  rw [State.rd_wr_self, Nat.mod_eq_of_lt (bits_lt ..)]

/-- A field written with others of other keys holds its bits (R10). -/
theorem rd_writeFields_rw (base : Nat) (c : Bool) (v : Nat) {fi : Fld × Nat} (hrw : fi.1.acc = .rw) (l : List (Fld × Nat))
    (hm : fi ∈ l) (hinj : ∀ fj ∈ l, fi.1.key base fi.2 = fj.1.key base fj.2 → fi = fj) (s : State) :
    (l.foldl (fun s fi => s.writeField base c v fi) s).rd base fi.1 fi.2 = bits v fi.1.lo fi.1.width := by
  induction l generalizing s with
  | nil => cases hm
  | cons fj l ih =>
    rw [List.foldl_cons]
    by_cases hl : fi ∈ l
    · exact ih hl (fun g hg => hinj g (List.mem_cons_of_mem _ hg)) _
    · obtain rfl : fi = fj := (List.mem_cons.mp hm).resolve_right hl
      rw [(frame_writeFields base c v l _).regs, rd_writeField_rw s base c v hrw]
      simp only [storedKeys, List.mem_map, List.mem_filter, not_exists, not_and, and_imp]
      intro g hg _ hk
      exact hl (hinj g (List.mem_cons_of_mem _ hg) hk.symm ▸ hg)

section Word

variable {s : State} {a : Nat} {p : PageInfo} (hp : pageInfo (a / 4096) = some p)
include hp

theorem writeWord_eq (v : Nat) : s.writeWord a v =
    (fieldsAt p.kind (a % 4096)).foldl (fun s fi => s.writeField (a / 4096 * 4096) p.classL v fi) s := by
  simp only [State.writeWord, hp]

theorem frame_writeWord (v : Nat) : Frame s (s.writeWord a v) (storedKeys (a / 4096 * 4096) (fieldsAt p.kind (a % 4096))) [] [] := by
  rw [writeWord_eq hp]
  exact frame_writeFields ..

theorem heldBack_eq_any : s.heldBack a = (fieldsAt p.kind (a % 4096)).any (s.heldField (a / 4096 * 4096) p.kind) := by
  simp only [State.heldBack, hp]

theorem heldField_of_not_heldBack (hb : s.heldBack a = false) {fi : Fld × Nat} (hm : fi ∈ fieldsAt p.kind (a % 4096)) :
    s.heldField (a / 4096 * 4096) p.kind fi = false := by
  rw [heldBack_eq_any hp, List.any_eq_false] at hb
  simpa using hb fi hm

end Word

/-! ### Writes that R106 holds back -/

/-- R106 holds the field back while its block is active: a stored field of the configuration region that no rule lets change then. -/
def holdable (k : PKind) (f : Fld) : Bool := (f.acc = .rw || f.acc = .rws) && decide (0x40 ≤ f.off) && !freeWhileActive k f

theorem heldField_eq (s : State) (base : Nat) (k : PKind) (fi : Fld × Nat) :
    s.heldField base k fi = (holdable k fi.1 && s.active base k fi.1 fi.2) :=
  Bool.and_right_comm _ _ _

/-- The register belongs to one part of its page, i, and R106 holds all of it back or nothing. -/
structure OnePart (k : PKind) (o i : Nat) : Prop where
  inst : ∀ fi ∈ fieldsAt k o, fi.2 = i
  hold : ∀ fi ∈ fieldsAt k o, holdable k fi.1 = true
  part : ∀ (s : State) (base : Nat) (f g : Fld), s.acts base k f i = s.acts base k g i

theorem OnePart.heldField_eq_heldBack {s : State} {a i : Nat} {p : PageInfo} (hp : pageInfo (a / 4096) = some p)
    (hw : OnePart p.kind (a % 4096) i) {fi : Fld × Nat} (hm : fi ∈ fieldsAt p.kind (a % 4096)) :
    s.heldField (a / 4096 * 4096) p.kind fi = s.heldBack a := by
  have hsame : ∀ fj ∈ fieldsAt p.kind (a % 4096),
      s.heldField (a / 4096 * 4096) p.kind fj = s.heldField (a / 4096 * 4096) p.kind fi := by
    intro fj hj
    simp only [heldField_eq, State.active, hw.hold _ hj, hw.hold _ hm, hw.inst _ hj, hw.inst _ hm, hw.part s _ fj.1 fi.1]
  rw [heldBack_eq_any hp, Bool.eq_iff_iff, List.any_eq_true]
  constructor
  · exact fun h => ⟨fi, hm, h⟩
  · rintro ⟨fj, hj, h⟩
    exact hsame fj hj ▸ h

/-- Which parts act is a function of the register fields, the engines, the RTU's entries and the PTP clock. -/
theorem acts_congr {s t : State} (hrd : ∀ b f i, t.rd b f i = s.rd b f i) (he : t.engines = s.engines) (hrtu : t.rtu = s.rtu)
    (hptp : t.ptp = s.ptp) : t.acts = s.acts := by
  have hrdb : ∀ b f i, t.rdb b f i = s.rdb b f i := by intros; simp [State.rdb, hrd]
  have heng : t.eng = s.eng := by funext e; simp [State.eng, he]
  have hst : t.ctxState = s.ctxState := by funext c; simp [State.ctxState, hrd]
  have hruns : t.ctxRuns = s.ctxRuns := by funext c; simp [State.ctxRuns, hst]
  have hany : t.anyCtxRuns = s.anyCtxRuns := by simp [State.anyCtxRuns, hruns]
  have hcam : t.camUsed = s.camUsed := by funext c; simp [State.camUsed, hrd]
  have henc : t.encUsed = s.encUsed := by funext c; simp [State.encUsed, hrd, hrdb]
  funext base k f i
  cases k <;> simp [State.acts, hrd, hrdb, heng, hruns, hany, hcam, henc, hrtu, hptp]

/-- What changes none of these leaves R106 hold back the same fields. -/
theorem Frame.heldField {s t : State} {C : List Nat} {P : List Part} (h : Frame s t [] C P)
    (hP : Part.engines ∉ P ∧ Part.rtu ∉ P ∧ Part.ptp ∉ P) : t.heldField = s.heldField := by
  have hrd : ∀ b f i, t.rd b f i = s.rd b f i := fun b f i => h.regs b f i (by simp)
  obtain ⟨he, hr, hp⟩ := hP
  have hacts := acts_congr hrd (h.parts _ he) (h.parts _ hr) (h.parts _ hp)
  funext base k fi
  simp [heldField_eq, State.active, State.works, hrd, hacts]

theorem heldBack_congr {s t : State} (h : t.heldField = s.heldField) (a : Nat) : t.heldBack a = s.heldBack a := by
  simp only [State.heldBack, h]

theorem primChanged_self (s : State) : s.primChanged s = s := by
  unfold State.primChanged
  generalize List.range 8 = l
  induction l with
  | nil => rfl
  | cons c l ih => rwa [List.foldl_cons, if_pos rfl]

/-- Stored writes that R106 still holds back stay stored (R106). -/
theorem flushDeferred_held {s : State} (h : ∀ q ∈ s.deferred, s.heldBack q.1 = true) : s.flushDeferred = s := by
  have hkeep : s.deferred.filter (fun q => s.heldBack q.1) = s.deferred := List.filter_eq_self.mpr h
  have hgo : s.deferred.filter (fun q => !s.heldBack q.1) = [] := List.filter_eq_nil_iff.mpr (by simpa using h)
  unfold State.flushDeferred
  split
  · rfl
  · rw [hkeep, hgo]
    exact primChanged_self s

theorem settle_drive_held {s : State} (h : ∀ q ∈ s.deferred, s.heldBack q.1 = true) (hp : s.parityBad = []) :
    DriveSame s (settle s) := by
  have hu : s.useCheck = s := by simp [State.useCheck, hp]
  have he : settle s = s.settlePermit.driveAll := by rw [settle, hu, flushDeferred_held h]
  rw [he]
  exact (settlePermit_driveSame s).trans (driveList_driveSame _ (fun n hn => List.mem_range.mp hn) _)

/-- The permit and the outputs are nothing that a frame compares. -/
theorem DriveSame.frame_settle {s : State} (h : DriveSame s (settle s)) : Frame s (settle s) [] [] [] where
  regs b f i _ := by simp only [State.rd, h.regs]
  ctrs a _ ha := h.ctrs a ha
  parts q _ := by
    cases q
    case parity => exact ⟨settle_parityBad s, settle_injectArmed s⟩
    case snaps => exact ⟨settle_snaps s, settle_snapWait s⟩
    case openCtrs => exact h.openCtrs
    case deferred => exact h.deferred
    case host => exact h.host
    case engines => exact h.engines
    case streams => exact h.streams
    case seq => exact h.seq
    case field => exact ⟨h.field, h.demand⟩
    all_goals simp [Part.same]

/-- A register that R106 does not hold back takes the write at once (R10, R106). -/
theorem storePlain_written {s : State} {a v : Nat} {p : PageInfo} (hs : s.atRest) (hp : pageInfo (a / 4096) = some p)
    (ho : 0x40 ≤ a % 4096) (hl : LaidApart (Reg.fieldsOf p.kind)) (hb : s.heldBack a = false) :
    (∀ fi ∈ fieldsAt p.kind (a % 4096), fi.1.acc = .rw →
      (settle (s.storePlain a v)).rd (a / 4096 * 4096) fi.1 fi.2 = bits v fi.1.lo fi.1.width) ∧
    Frame s (settle (s.storePlain a v)) (storedKeys (a / 4096 * 4096) (fieldsAt p.kind (a % 4096))) [] [] := by
  have hst : s.storePlain a v = s.writeWord a v := by simp [State.storePlain, hb]
  have hf := frame_writeWord (s := s) hp v
  obtain ⟨hd, hpar⟩ := hf.quiet hs (by simp) (by simp)
  rw [hst]
  refine ⟨fun fi hm hrw => ?_, hf.settle hd hpar⟩
  rw [settle_rd hd hpar, writeWord_eq hp]
  exact rd_writeFields_rw _ _ _ hrw _ hm (fun fj hj => fieldsAt_key_inj ho hl hm hj) s

/-- A register that R106 holds back waits: the write is stored and counted, and a read shows it (R10, R106). -/
theorem storePlain_held {s : State} {a v i : Nat} {p : PageInfo} (hs : s.atRest) (hp : pageInfo (a / 4096) = some p)
    (hw : OnePart p.kind (a % 4096) i) (hb : s.heldBack a = true) :
    (∀ fi ∈ fieldsAt p.kind (a % 4096), s.heldField (a / 4096 * 4096) p.kind fi = true ∧
      (settle (s.storePlain a v)).shown a p.kind fi = bits v fi.1.lo fi.1.width) ∧
    (settle (s.storePlain a v)).deferred = [(a, v)] ∧
    counted (a / 4096) .deferredWrite s (settle (s.storePlain a v)) ∧
    Frame s (settle (s.storePlain a v)) [] (ignoredCtr (a / 4096 * 4096)).toList [.deferred, .openCtrs] := by
  have hpart : s.writePart false a v = s := by
    have hnone : (fieldsAt p.kind (a % 4096)).filter (fun fi => holdable p.kind fi.1 = false) = [] :=
      List.filter_eq_nil_iff.mpr (fun fi hm => by simp [hw.hold fi hm])
    simp only [State.writePart, hp]
    exact congrArg (List.foldl _ s) hnone
  have hst : s.storePlain a v = { s.note (a / 4096 * 4096) .deferredWrite with deferred := [(a, v)] } := by
    have hdef : (s.note (a / 4096 * 4096) .deferredWrite).deferred = [] :=
      ((frame_note s _ .deferredWrite 1).parts .deferred (by simp)).trans hs.1
    simp [State.storePlain, hb, hpart, hdef]
  have hn := frame_note s (a / 4096 * 4096) .deferredWrite 1
  have hc := counted_note s (a / 4096 * 4096) .deferredWrite
  rw [Nat.mul_div_cancel _ (by decide)] at hc
  rw [hst]
  generalize hu : ({ s.note (a / 4096 * 4096) .deferredWrite with deferred := [(a, v)] } : State) = u
  have hfu : Frame s u [] (ignoredCtr (a / 4096 * 4096)).toList [.deferred, .openCtrs] := by
    rw [← hu]
    exact (hn.trans (frame_deferred _ _)).mono (by simp) (by simp) (by simp)
  have hdu : u.deferred = [(a, v)] := by rw [← hu]
  have hpu : u.parityBad = [] := (hfu.parts .parity (by simp)).1.trans hs.2.1
  have hheld : ∀ q ∈ u.deferred, u.heldBack q.1 = true := by
    intro q hq
    rw [hdu, List.mem_singleton] at hq
    rw [hq, heldBack_congr (hfu.heldField (by simp))]
    exact hb
  have hdrive := settle_drive_held hheld hpu
  have hf := (hfu.trans hdrive.frame_settle).mono (R' := []) (C' := (ignoredCtr (a / 4096 * 4096)).toList)
    (P' := [.deferred, .openCtrs]) (by simp) (by simp) (by simp)
  have hdt : (settle u).deferred = [(a, v)] := hdrive.deferred.trans hdu
  refine ⟨fun fi hm => ?_, hdt, ?_, hf⟩
  · have hfi : s.heldField (a / 4096 * 4096) p.kind fi = true := by rw [hw.heldField_eq_heldBack hp hm, hb]
    refine ⟨hfi, ?_⟩
    simp [State.shown, hdt, hf.heldField (by simp), hfi]
  · rw [counted, hdrive.openCtrs, ← hu]
    exact hc

/-! ### Pages without a rule of their own -/

/-- The pages whose own registers have no rule beside the access codes and R106. -/
def plainKinds : List PKind := [.clk, .pwr, .anv2, .drc, .noc, .replay, .lplI, .pcie, .rtuE, .schJ, .qch]

theorem pageWrite_plain {k : PKind} (hk : k ∈ plainKinds) (s : State) (base o v : Nat) (who : Requester) :
    s.pageWrite k base o v who = s.storePlain (base + o) v := by
  simp only [plainKinds, List.mem_cons, List.not_mem_nil, or_false] at hk
  rcases hk with rfl | rfl | rfl | rfl | rfl | rfl | rfl | rfl | rfl | rfl | rfl <;> rfl

theorem laidApart_plain : ∀ k ∈ PKind.ltg :: plainKinds, LaidApart (Reg.fieldsOf k) := by decide

/-- None of their fields is RWS: what a write stores there is RW or W1C. -/
theorem stored_plain : ∀ k ∈ plainKinds, ∀ f ∈ Reg.fieldsOf k, f.stored = (f.acc = .rw || f.acc = .w1c) := by decide

/-- The replay page is the only one of them with fields that R106 holds back, and it holds back all of a channel's. -/
theorem holdable_plain : ∀ k ∈ plainKinds, k = .replay ∨ ∀ f ∈ Reg.fieldsOf k, holdable k f = false := by decide

theorem onePart_replay {o : Nat} (ho : 0x40 ≤ o) : OnePart .replay o ((o - 0x40) / 16) where
  inst fi hm := by
    have hrow : ∀ f ∈ Reg.fieldsOf .replay, f.stride = 16 ∧ 0x40 ≤ f.off ∧ f.off < 0x50 := by decide
    obtain ⟨hs, hlo, hhi⟩ := hrow _ (fieldsAt_own ho hm)
    obtain ⟨-, hoff, -⟩ := mem_fieldsAt.mp hm
    rw [hs] at hoff
    omega
  hold fi hm := by
    have hrow : ∀ f ∈ Reg.fieldsOf .replay, holdable .replay f = true := by decide
    exact hrow _ (fieldsAt_own ho hm)
  part _ _ _ _ := rfl

theorem onePart_of_heldBack {s : State} {a : Nat} {p : PageInfo} (hp : pageInfo (a / 4096) = some p) (hk : p.kind ∈ plainKinds)
    (ho : 0x40 ≤ a % 4096) (hb : s.heldBack a = true) : OnePart p.kind (a % 4096) ((a % 4096 - 0x40) / 16) := by
  obtain hrep | hfree := holdable_plain _ hk
  · rw [hrep]
    exact onePart_replay ho
  · rw [heldBack_eq_any hp, List.any_eq_true] at hb
    obtain ⟨fi, hm, hheld⟩ := hb
    rw [heldField_eq, hfree _ (fieldsAt_own ho hm)] at hheld
    cases hheld

/-- Kinds that one page has, with its number (R114), whose selects R310, R426 and R584 give. -/
def solePages : List (PKind × Nat) := [(.schJ, 0x509), (.rtuE, 0x803), (.qch, 0xe01)]

theorem pageInfo_ne_kind {k : PKind} {m n : Nat} (hk : (k, m) ∈ solePages) (hn : n ≠ m) :
    (pageInfo n).all (fun p => p.kind ≠ k) = true := by
  simp only [solePages, List.mem_cons, Prod.mk.injEq, List.not_mem_nil, or_false] at hk
  unfold pageInfo
  obtain ⟨rfl, rfl⟩ | ⟨rfl, rfl⟩ | ⟨rfl, rfl⟩ := hk
  all_goals
    simp only [apply_ite (Option.all _), Option.all_some, Option.all_none, ne_eq, reduceCtorEq, not_false_eq_true,
      decide_true, hn, if_false, ite_self]
    repeat' split
    all_goals rfl

theorem page_of_kind {k : PKind} {m n : Nat} {p : PageInfo} (hk : (k, m) ∈ solePages) (hp : pageInfo n = some p) (h : p.kind = k) :
    n = m := by
  by_cases hn : n = m
  · exact hn
  · have := pageInfo_ne_kind hk hn
    simp [hp, h] at this

theorem ne_of_acc {f g : Fld} (hf : f.acc = .rw) (hg : g.acc ≠ .rw) : f ≠ g := fun h => hg (h ▸ hf)

/-- A stored field reads as stored on a page whose computed levels are fields of their own (R10). -/
theorem view_of_rw {k : PKind} (hk : k ∈ [PKind.ltg, .clk, .pwr, .anv2, .drc, .noc, .replay, .lplI, .pcie]) {f : Fld}
    (hrw : f.acc = .rw) (s : State) (base i : Nat) : s.view base k f i = s.rd base f i := by
  have hst : f ≠ Reg.BLK_STAT_state := ne_of_acc hrw (by decide)
  have hbusy : f ≠ Reg.BLK_STAT_snap_busy := ne_of_acc hrw (by decide)
  have herr : f ≠ Reg.BLK_PARITY_err := ne_of_acc hrw (by decide)
  have hfly : f ≠ Reg.ANV_DMA_STAT_inflight := ne_of_acc hrw (by decide)
  simp only [List.mem_cons, List.not_mem_nil, or_false] at hk
  rcases hk with rfl | rfl | rfl | rfl | rfl | rfl | rfl | rfl | rfl <;> simp [State.view, hrw, hst, hbusy, herr, hfly]

/-- The stored fields of a page of selects are the selects, which read as stored (R310, R426, R584). -/
theorem view_select {k : PKind} {m : Nat} (hk : (k, m) ∈ solePages) {f : Fld} (hf : f ∈ Reg.fieldsOf k) (hrw : f.acc = .rw)
    (s : State) : f.stride = 0 ∧ s.view (m * 4096) k f 0 = s.rd (m * 4096) f 0 := by
  have hjob : ∀ f ∈ Reg.fieldsOf .schJ, f.acc = .rw → f = Reg.SCH_JOB_SEL_slot ∨ f = Reg.SCH_TENT_SEL_entry := by decide
  have hentry : ∀ f ∈ Reg.fieldsOf .rtuE, f.acc = .rw → f = Reg.RTU_ESEL_entry := by decide
  have hunit : ∀ f ∈ Reg.fieldsOf .qch, f.acc = .rw → f = Reg.QCH_SEL_entry := by decide
  simp only [solePages, List.mem_cons, Prod.mk.injEq, List.not_mem_nil, or_false] at hk
  obtain ⟨rfl, rfl⟩ | ⟨rfl, rfl⟩ | ⟨rfl, rfl⟩ := hk
  · obtain rfl | rfl := hjob f hf hrw <;> exact ⟨rfl, rfl⟩
  · obtain rfl := hentry f hf hrw
    exact ⟨rfl, rfl⟩
  · obtain rfl := hunit f hf hrw
    exact ⟨rfl, rfl⟩

theorem view_plain {n : Nat} {p : PageInfo} (hp : pageInfo n = some p) (hk : p.kind ∈ plainKinds) {o : Nat} (ho : 0x40 ≤ o)
    {fi : Fld × Nat} (hm : fi ∈ fieldsAt p.kind o) (hrw : fi.1.acc = .rw) (s : State) :
    s.view (n * 4096) p.kind fi.1 fi.2 = s.rd (n * 4096) fi.1 fi.2 := by
  have hsplit : ∀ k ∈ plainKinds, k ∈ [PKind.ltg, .clk, .pwr, .anv2, .drc, .noc, .replay, .lplI, .pcie] ∨
      k ∈ solePages.map Prod.fst := by decide
  obtain hplain | hsole := hsplit _ hk
  · exact view_of_rw hplain hrw s _ _
  · obtain ⟨⟨k, m⟩, hkm, hfst⟩ := List.mem_map.mp hsole
    obtain rfl : k = p.kind := hfst
    obtain rfl := page_of_kind hkm hp rfl
    obtain ⟨hstride, hview⟩ := view_select hkm (fieldsAt_own ho hm) hrw s
    obtain ⟨-, -, hi⟩ := mem_fieldsAt.mp hm
    rw [if_pos hstride] at hi
    rw [hi]
    exact hview

/-- Claim registers stand in the pages of four kinds (R123). -/
theorem resAt_none {a : Nat} {p : PageInfo} (hp : pageInfo (a / 4096) = some p) (hk : p.kind ∉ [PKind.fio, .eth, .cfe0, .enc]) :
    resAt a = none := by
  have hpage : ∀ n, a / 4096 * 4096 = n * 4096 → (pageInfo n).all (fun q => [PKind.fio, .eth, .cfe0, .enc].contains q.kind) = true →
      False := by
    intro n hn hall
    obtain rfl : a / 4096 = n := by omega
    rw [hp] at hall
    exact hk (by simpa using hall)
  have hfio : a / 4096 * 4096 ≠ P.fio := fun h => hpage 0x900 h (by decide)
  have heth : ¬ (a / 4096 * 4096 = P.eth 0 ∨ a / 4096 * 4096 = P.eth 1) := fun h =>
    h.elim (fun h => hpage 0xa00 h (by decide)) (fun h => hpage 0xa01 h (by decide))
  have hcfe : a / 4096 * 4096 ≠ P.cfe0 := fun h => hpage 0x610 h (by decide)
  have henc : a / 4096 * 4096 ≠ P.enc := fun h => hpage 0x800 h (by decide)
  simp only [resAt, hfio, heth, hcfe, henc, false_and, if_false, ite_self]

/-! ### O5 -/

/-- REGISTER_WRITE that reaches its register, at rest: the write, then the end of every command. -/
theorem exec_registerWrite {s : State} {a : Bar0Addr} (hs : s.atRest) (hr : s.reaches a.toNat) (v : Word) (who : Requester) :
    exec (.registerWrite a v who) s = .next (settle (s.regWrite a.toNat v.toNat who)) := by
  show fin (s.onWrite a.toNat _) = _
  rw [onWrite_atRest hs hr]
  rfl

/-- A write of a page's own register goes by the page's rule. -/
theorem regWrite_page {a : Nat} {p : PageInfo} (hp : pageInfo (a / 4096) = some p)
    (hk : p.kind ∉ [PKind.fio, .eth, .cfe0, .enc]) (hl : fieldsAt p.kind (a % 4096) ≠ []) (ho : 0x40 ≤ a % 4096) (s : State) (v : Nat)
    (who : Requester) : s.regWrite a v who = s.pageWrite p.kind (a / 4096 * 4096) (a % 4096) v who := by
  have h1 : ¬ a % 4096 < 0x3c := by omega
  have h2 : a % 4096 ≠ 0x3c := by omega
  simp [State.regWrite, hp, resAt_none hp hk, hl, h1, h2]

theorem shown_of_none_deferred {s : State} (h : s.deferred = []) (a : Nat) (k : PKind) (fi : Fld × Nat) :
    s.shown a k fi = s.view (a / 4096 * 4096) k fi.1 fi.2 := by
  simp [State.shown, h]

/-- A write of a register whose page has no rule of its own (R10, R106). -/
theorem registerWrite_plain {s : State} {a : Nat} {v : Nat} {p : PageInfo} (hs : s.atRest) (hp : pageInfo (a / 4096) = some p)
    (hk : p.kind ∈ plainKinds) (ho : 0x40 ≤ a % 4096) :
    (∀ fi ∈ fieldsAt p.kind (a % 4096), fi.1.acc = .rw →
      (settle (s.storePlain a v)).shown a p.kind fi = bits v fi.1.lo fi.1.width ∧
      (settle (s.storePlain a v)).rd (a / 4096 * 4096) fi.1 fi.2 =
        if s.heldField (a / 4096 * 4096) p.kind fi then s.rd (a / 4096 * 4096) fi.1 fi.2 else bits v fi.1.lo fi.1.width) ∧
    (s.heldBack a = true → (settle (s.storePlain a v)).deferred = [(a, v)] ∧
      counted (a / 4096) .deferredWrite s (settle (s.storePlain a v))) ∧
    (s.heldBack a = false → (settle (s.storePlain a v)).deferred = [] ∧ (settle (s.storePlain a v)).openCtrs = s.openCtrs) ∧
    Frame s (settle (s.storePlain a v)) (storedKeys (a / 4096 * 4096) (fieldsAt p.kind (a % 4096)))
      (ignoredCtr (a / 4096 * 4096)).toList [.deferred, .openCtrs] := by
  cases hb : s.heldBack a with
  | false =>
    obtain ⟨hrd, hf⟩ := storePlain_written (v := v) hs hp ho (laidApart_plain _ (List.mem_cons_of_mem _ hk)) hb
    have hd : (settle (s.storePlain a v)).deferred = [] := (hf.parts .deferred (by simp)).trans hs.1
    refine ⟨fun fi hm hrw => ⟨?_, ?_⟩, by simp, fun _ => ⟨hd, hf.parts .openCtrs (by simp)⟩, hf.mono (by simp) (by simp) (by simp)⟩
    · rw [shown_of_none_deferred hd, view_plain hp hk ho hm hrw]
      exact hrd fi hm hrw
    · rw [heldField_of_not_heldBack hp hb hm]
      exact hrd fi hm hrw
  | true =>
    obtain ⟨hfields, hd, hc, hf⟩ := storePlain_held (v := v) hs hp (onePart_of_heldBack hp hk ho hb) hb
    refine ⟨fun fi hm _ => ?_, fun _ => ⟨hd, hc⟩, by simp, hf.mono (by simp) (by simp) (by simp)⟩
    obtain ⟨hheld, hshown⟩ := hfields fi hm
    refine ⟨hshown, ?_⟩
    rw [hheld, if_pos rfl]
    exact hf.regs _ _ _ (by simp)

theorem storedKeys_plain {k : PKind} (hk : k ∈ plainKinds) {o : Nat} (ho : 0x40 ≤ o) (base : Nat) :
    storedKeys base (fieldsAt k o) =
      ((fieldsAt k o).filter (fun fi => fi.1.acc = .rw || fi.1.acc = .w1c)).map (fun fi => fi.1.key base fi.2) := by
  rw [storedKeys, List.filter_congr (fun fi hm => stored_plain k hk fi.1 (fieldsAt_own ho hm))]

theorem regWrite_plain {a : Nat} {p : PageInfo} (hp : pageInfo (a / 4096) = some p) (hk : p.kind ∈ plainKinds)
    (hl : fieldsAt p.kind (a % 4096) ≠ []) (ho : 0x40 ≤ a % 4096) (s : State) (v : Nat) (who : Requester) :
    s.regWrite a v who = s.storePlain a v := by
  have hclaim : ∀ k ∈ plainKinds, k ∉ [PKind.fio, .eth, .cfe0, .enc] := by decide
  rw [regWrite_page hp (hclaim _ hk) hl ho, pageWrite_plain hk, Nat.div_add_mod']

/-! ### The chip page -/

/-- R106 holds nothing of the chip page back. -/
theorem heldBack_chip (s : State) {a : Nat} (h : a / 4096 = 0) : s.heldBack a = false := by
  have hp : pageInfo (a / 4096) = some ⟨.chip, 0, 0, 0, false⟩ := by rw [h]; rfl
  rw [heldBack_eq_any hp, List.any_eq_false]
  intro fi _
  simp [heldField_eq, holdable, freeWhileActive]

/-- A register of the chip page but CHIP_PWR, CHIP_RST and CHIP_READY is written field by field (R10). -/
theorem regWrite_chip {a : Nat} (ha : a < 4096) (ho : 0x40 ≤ a) (hne : a ≠ 0x40 ∧ a ≠ 0x44 ∧ a ≠ 0x50) (hl : fieldsAt .chip a ≠ [])
    (s : State) (v : Nat) (who : Requester) : s.regWrite a v who = s.writeWord a v := by
  have hdiv : a / 4096 = 0 := by omega
  have hmod : a % 4096 = a := by omega
  have hp : pageInfo (a / 4096) = some ⟨.chip, 0, 0, 0, false⟩ := by rw [hdiv]; rfl
  rw [regWrite_page hp (by decide) (by rwa [hmod]) (by omega), hmod]
  simp [State.pageWrite, State.chipWrite, hne, State.storePlain, heldBack_chip s hdiv]

/-- Taking away the bits that two numbers share leaves those of the first alone. -/
theorem bit_sub_and (a b i : Nat) : bit (a - (a &&& b)) i = (bit a i && !bit b i) := by
  have hbit : ∀ v j, bit v j = v.testBit j := fun v j => (Nat.testBit_eq_decide_div_mod_eq ..).symm
  simp only [hbit]
  induction i generalizing a b with
  | zero =>
    have hle : a &&& b ≤ a := Nat.and_le_left
    have hodd := Nat.and_mod_two_eq_one (a := a) (b := b)
    rw [Bool.eq_iff_iff]
    simp only [Nat.testBit_zero, Bool.and_eq_true, Bool.not_eq_true', decide_eq_true_eq, decide_eq_false_iff_not]
    omega
  | succ i ih =>
    have hle : a &&& b ≤ a := Nat.and_le_left
    have hodd := Nat.and_mod_two_eq_one (a := a) (b := b)
    have hhalf : (a - (a &&& b)) / 2 = a / 2 - (a / 2 &&& b / 2) := by
      rw [← Nat.and_div_two]
      omega
    rw [Nat.testBit_succ, Nat.testBit_succ, Nat.testBit_succ, hhalf]
    exact ih _ _

theorem writeWord_wake (s : State) (v : Nat) : s.writeWord 0x60 v =
    (s.wr P.chip Reg.CHIP_WAKE_latch (s.rd P.chip Reg.CHIP_WAKE_latch - (s.rd P.chip Reg.CHIP_WAKE_latch &&& bits v 0 10))).wr
      P.chip Reg.CHIP_WAKE_en (bits v 16 10) := rfl

theorem wakeEn_written (s : State) (v : Nat) :
    (s.writeWord 0x60 v).rd P.chip Reg.CHIP_WAKE_en = v / 2 ^ 16 % 2 ^ 10 := by
  rw [writeWord_wake, State.rd_wr_self]
  exact Nat.mod_mod _ _

/-- The latches that the word names clear, the others stay (R85). -/
theorem wakeLatch_written (s : State) (v : Nat) {i : Nat} (hi : i < 10) :
    bit ((s.writeWord 0x60 v).rd P.chip Reg.CHIP_WAKE_latch) i = (bit (s.rd P.chip Reg.CHIP_WAKE_latch) i && !bit v i) := by
  have hkey : Reg.CHIP_WAKE_latch.key P.chip 0 ≠ Reg.CHIP_WAKE_en.key P.chip 0 := by
    simp [Fld.key, Reg.CHIP_WAKE_latch, Reg.CHIP_WAKE_en]
  have hw : i < Reg.CHIP_WAKE_latch.width := hi
  have hv : bit (bits v 0 10) i = bit v i := by rw [bits, Nat.pow_zero, Nat.div_one, bit_mod_two_pow hi]
  rw [writeWord_wake, State.rd_wr_ne _ _ hkey, State.rd_wr_self, bit_mod_two_pow hw, bit_sub_and, hv]

theorem frame_writeWord_wake (s : State) (v : Nat) :
    Frame s (s.writeWord 0x60 v) [Reg.CHIP_WAKE_en.key P.chip 0, Reg.CHIP_WAKE_latch.key P.chip 0] [] [] := by
  rw [writeWord_wake]
  exact ((Frame.refl ..).wr _ _ _ _ (by simp)).wr _ _ _ _ (by simp)

/-- CHIP_RST_CAUSE is read-only (R83). -/
theorem writeWord_rstCause (s : State) (v : Nat) : s.writeWord 0x48 v = s := rfl

/-! ### The line trigger generators -/

theorem onePart_ltgCfg (l : Nat) : OnePart .ltg (0x40 + 64 * l) l where
  inst fi hm := by
    have hrow : ∀ f ∈ Reg.fieldsOf .ltg, f.stride = 64 ∧ 0x40 ≤ f.off ∧ f.off < 0x80 := by decide
    obtain ⟨hs, hlo, hhi⟩ := hrow _ (fieldsAt_own (by omega) hm)
    obtain ⟨-, hoff, -⟩ := mem_fieldsAt.mp hm
    rw [hs] at hoff
    omega
  hold fi hm := by
    have hrow : ∀ f ∈ Reg.fieldsOf .ltg, f.stride = 64 ∧ 0x40 ≤ f.off ∧ f.off < 0x80 ∧ (f.off = 0x40 → holdable .ltg f = true) := by
      decide
    obtain ⟨hs, hlo, hhi, hhold⟩ := hrow _ (fieldsAt_own (by omega) hm)
    obtain ⟨-, hoff, -⟩ := mem_fieldsAt.mp hm
    rw [hs] at hoff
    exact hhold (by omega)
  part _ _ _ _ := rfl

section LtgCfg

variable {l a : Nat} (hl : l < 4) (ha : a = P.ltg + 0x40 + 64 * l)
include hl ha

theorem ltgCfg_page : a / 4096 = 0x801 ∧ a % 4096 = 0x40 + 64 * l := by
  simp only [P.ltg] at ha
  omega

theorem ltgCfg_enc_mem : (Reg.LTG_CFG_enc, l) ∈ fieldsAt .ltg (a % 4096) := by
  rw [(ltgCfg_page hl ha).2, mem_fieldsAt]
  exact ⟨by decide, rfl, hl⟩

/-- LTG_CFG has no rule beside R106: arming is LTG_CTRL's (R402). -/
theorem regWrite_ltgCfg (s : State) (v : Nat) (who : Requester) : s.regWrite a v who = s.storePlain a v := by
  obtain ⟨hpage, hoff⟩ := ltgCfg_page hl ha
  have hp : pageInfo (a / 4096) = some ⟨.ltg, 0x800, 1, 3, false⟩ := by rw [hpage]; rfl
  have hne : fieldsAt .ltg (a % 4096) ≠ [] := List.ne_nil_of_mem (ltgCfg_enc_mem hl ha)
  have hctrl : a ≠ ltgCtrl ((a % 4096 - 0x40) / 64) := by
    simp only [ltgCtrl, P.ltg] at ha ⊢
    omega
  have haddr : P.ltg + a % 4096 = a := by
    simp only [P.ltg]
    omega
  rw [regWrite_page hp (by decide) hne (by omega)]
  simp only [State.pageWrite, State.ltgWrite, haddr, if_neg hctrl]

/-- R106 holds LTG_CFG back while its LTG acts (R402, R106). -/
theorem heldBack_ltgCfg (s : State) : s.heldBack a = (s.works P.ltg && decide (s.rd P.ltg Reg.LTG_STAT_state l ≠ 0)) := by
  obtain ⟨hpage, hoff⟩ := ltgCfg_page hl ha
  have hp : pageInfo (a / 4096) = some ⟨.ltg, 0x800, 1, 3, false⟩ := by rw [hpage]; rfl
  have hw : OnePart .ltg (a % 4096) l := hoff ▸ onePart_ltgCfg l
  have hm := ltgCfg_enc_mem hl ha
  rw [← hw.heldField_eq_heldBack hp hm, heldField_eq, hw.hold _ hm, hpage]
  rfl

/-- A write of LTG_CFG.enc takes effect at once, or waits for its LTG (R10, R106, R402). -/
theorem ltgCfg_written {s : State} (hs : s.atRest) (v : Nat) :
    (settle (s.storePlain a v)).shown a .ltg (Reg.LTG_CFG_enc, l) = v % 4 ∧
    (s.rd P.ltg Reg.LTG_STAT_state l = 0 ∨ s.works P.ltg = false →
      (settle (s.storePlain a v)).rd P.ltg Reg.LTG_CFG_enc l = v % 4) ∧
    (s.rd P.ltg Reg.LTG_STAT_state l ≠ 0 → s.works P.ltg = true →
      (settle (s.storePlain a v)).rd P.ltg Reg.LTG_CFG_enc l = s.rd P.ltg Reg.LTG_CFG_enc l ∧
      (settle (s.storePlain a v)).deferred = [(a, v)] ∧ counted 0x801 .deferredWrite s (settle (s.storePlain a v))) := by
  obtain ⟨hpage, hoff⟩ := ltgCfg_page hl ha
  have hp : pageInfo (a / 4096) = some ⟨.ltg, 0x800, 1, 3, false⟩ := by rw [hpage]; rfl
  have hm := ltgCfg_enc_mem hl ha
  have hbits : bits v Reg.LTG_CFG_enc.lo Reg.LTG_CFG_enc.width = v % 4 := by simp [bits, Reg.LTG_CFG_enc]
  have hact := heldBack_ltgCfg hl ha s
  cases hb : s.heldBack a with
  | false =>
    obtain ⟨hrd, hf⟩ := storePlain_written (v := v) hs hp (by omega) (laidApart_plain _ (List.mem_cons_self ..)) hb
    have hval := (hrd _ hm rfl).trans hbits
    rw [hpage] at hval
    have hd : (settle (s.storePlain a v)).deferred = [] := (hf.parts .deferred (by simp)).trans hs.1
    refine ⟨?_, fun _ => hval, fun hst hworks => ?_⟩
    · rw [shown_of_none_deferred hd, hpage, view_of_rw (by decide) rfl]
      exact hval
    · simp [hb, hst, hworks] at hact
  | true =>
    obtain ⟨hfields, hd, hc, hf⟩ := storePlain_held (v := v) hs hp (hoff ▸ onePart_ltgCfg l) hb
    rw [hpage] at hc
    refine ⟨(hfields _ hm).2.trans hbits, fun hidle => ?_, fun _ _ => ⟨hf.regs _ _ _ (by simp), hd, hc⟩⟩
    rw [hb] at hact
    obtain hidle | hidle := hidle <;> simp [hidle] at hact

end LtgCfg

/-- Settles O5: a write that reaches its page is the page's rule and the end of a command; each of the five clauses is one rule. -/
theorem registerWriteFollowsTheAccessCodes : Obligations.RegisterWriteFollowsTheAccessCodes := by
  unfold Obligations.RegisterWriteFollowsTheAccessCodes
  intro s v who hs
  refine ⟨?plain, ?wake, ?readOnly, ?noPage, ?ltg⟩
  case plain =>
    intro a hr ho _ p hp hkind base l hl
    have hk : p.kind ∈ plainKinds := by simpa [plainKinds] using hkind
    obtain ⟨hfields, hheld, hfree, hf⟩ := registerWrite_plain (v := v.toNat) hs hp hk ho
    refine ⟨_, exec_registerWrite hs hr v who, ?_⟩
    rw [regWrite_plain hp hk hl ho]
    exact ⟨hfields, hheld, hfree, storedKeys_plain hk ho base ▸ hf⟩
  case wake =>
    intro hr
    have hf := frame_writeWord_wake s v.toNat
    obtain ⟨hd, hpar⟩ := hf.quiet hs (by simp) (by simp)
    have hw : s.regWrite (0x60 : Bar0Addr).toNat v.toNat who = s.writeWord 0x60 v.toNat :=
      regWrite_chip (by decide) (by decide) (by decide) (by decide) s _ who
    refine ⟨_, exec_registerWrite (a := 0x60) hs hr v who, ?_⟩
    rw [hw, settle_rd hd hpar, settle_rd hd hpar]
    exact ⟨wakeEn_written s _, fun _ i hi => wakeLatch_written s _ hi, hf.settle hd hpar⟩
  case readOnly =>
    intro hr
    have hw : s.regWrite (0x48 : Bar0Addr).toNat v.toNat who = s :=
      (regWrite_chip (by decide) (by decide) (by decide) (by decide) s _ who).trans (writeWord_rstCause s _)
    refine ⟨_, exec_registerWrite (a := 0x48) hs hr v who, ?_⟩
    rw [hw]
    exact frame_settle hs.1 hs.2.1
  case noPage =>
    intro a hr hp
    have hf := frame_note s P.chip .reservedAccess 1
    obtain ⟨hd, hpar⟩ := hf.quiet hs (by simp) (by simp)
    refine ⟨_, exec_registerWrite hs hr v who, ?_⟩
    have hnote : s.regWrite a.toNat v.toNat who = s.note P.chip .reservedAccess := by simp only [State.regWrite, hp]
    rw [hnote]
    exact ⟨counted_settle hd hpar (counted_note s P.chip _), hf.settle hd hpar⟩
  case ltg =>
    intro l hr
    have ha : (BitVec.ofNat 26 (P.ltg + 0x40 + 64 * l)).toNat = P.ltg + 0x40 + 64 * l := by
      simp only [BitVec.toNat_ofNat, P.ltg]
      omega
    refine ⟨_, exec_registerWrite hs (by rwa [ha]) v who, ?_⟩
    rw [ha, regWrite_ltgCfg l.isLt rfl]
    exact ltgCfg_written l.isLt rfl hs v.toNat

end Sys2Proof.Machine
end

section
/-! SUPPORT. Jobs, triggers and RTU entries: O33, O37 and O42 fail, each at one concrete state. -/

namespace Sys2Proof.Machine

/-! ### A counter through a command that answers -/

/-- The counters of switchings lie in the field page (R450). -/
theorem switchCtr_page {a : Nat} (h : isSwitchCtr a) : a / 4096 = P.fio / 4096 := by
  obtain ⟨n, hn, rfl⟩ := h
  simp only [P.fio]
  omega

/-- A counter of another page than the field page is, after a command, what the command's meaning left, where nothing is left over
for its end. -/
theorem ctr_of_fin_eq {u t : State} {a : Nat} (he : fin u = .next t) (hd : u.deferred = []) (hp : u.parityBad = [])
    (ha : a / 4096 ≠ P.fio / 4096) : t.ctr a = u.ctr a := by
  have ht : settle u = t := Host.Outcome.next.inj he
  rw [← ht, settle_ctr hd hp (mt switchCtr_page ha)]

/-! ### O33 -/

/-- Context 0 is RUNNING with one host job announced and a slot and a Tongs engine for it; the first word of its descriptor is
uncorrectable, and software masks that cause in the stack's page (R97, R244). -/
def maskedBadDescriptor : State :=
  let s := (((State.reset.wr (P.schC 0) Reg.SCH_CTX_STAT_state ctxRunning).wr (P.schC 0) Reg.SCH_CTX_CFG_quota 1).wr
    (P.tng 0 0) Reg.TNG_CFG_ctx_en 1).wr (P.drc 0) Reg.BLK_ERR_MASK_blk 1
  { s.setCtx 0 { (default : Ctx) with hostQ := [.ring] } with msys := { s.msys with poison := [0] } }

/-- The read of the descriptor meets the masked cause, which the collector counts (R98, R583). -/
theorem jobAdmit_maskedBadDescriptor : (maskedBadDescriptor.jobAdmit 0).ctr (P.flt + 0x808) = 1 := by decide +kernel

/-- Refutes O33: JOB_ADMIT of a descriptor with an uncorrectable word whose cause is masked counts in the collector's page
(R98, R583), which the statement's page frame leaves out. -/
theorem not_jobsAreAdmittedJudgedAndCompleted : ¬ Obligations.JobsAreAdmittedJudgedAndCompleted := by
  unfold Obligations.JobsAreAdmittedJudgedAndCompleted
  rintro ⟨⟨-, -, -, -, -, hadmit⟩, -⟩
  obtain ⟨t, he, -, -, hplain⟩ := hadmit maskedBadDescriptor 0 (by decide +kernel)
  obtain ⟨-, hring⟩ := hplain (by decide +kernel) rfl 0 0 (by decide +kernel) (by decide +kernel)
  obtain ⟨-, -, hrefused⟩ := hring [] (.inr (by decide +kernel)) rfl
  obtain ⟨-, -, hframe⟩ := hrefused (by decide +kernel)
  have hpage : (P.flt + 0x808) / 4096 ≠ P.fio / 4096 := by decide
  have hkept : t.ctr (P.flt + 0x808) = maskedBadDescriptor.ctr (P.flt + 0x808) :=
    hframe.ctrs _ (by decide) (mt switchCtr_page hpage)
  have hcounted : t.ctr (P.flt + 0x808) = 1 :=
    (ctr_of_fin_eq he (by decide +kernel) (by decide +kernel) hpage).trans jobAdmit_maskedBadDescriptor
  rw [hcounted] at hkept
  exact absurd hkept (by decide +kernel)

/-! ### O37 -/

/-- A header that agrees with its camera counts nothing (R351). -/
theorem imageHeader_agreeing_ctr {s t : State} {k : Fin 8} {xsize : BitVec 24} {fmt : BitVec 3} (hs : s.atRest)
    (hx : xsize.toNat = s.camWidth k) (hf : fmt.toNat = s.camFmt k) (he : exec (.imageHeader k xsize fmt) s = .next t) {a : Nat}
    (ha : a / 4096 ≠ P.fio / 4096) : t.ctr a = s.ctr a := by
  obtain ⟨hd, hp, -⟩ := hs
  have hexec : exec (.imageHeader k xsize fmt) s =
      if !s.clocked || decide (s.camState k ≠ camBound) then fin s
      else fin ((s.setCam k { s.cam k with mismatch := false }).clrBlk (P.cfeC k) 10) := by
    simp [exec, execImageHeader, State.putBlk, hx, hf]
  rw [hexec] at he
  split at he
  · exact ctr_of_fin_eq he hd hp ha
  · rw [ctr_of_fin_eq he hd hp ha, State.clrBlk, State.wr_ctr, State.setCam_ctr]

/-- Camera 0 is BOUND with lines of 1,024 pixels, and its counter of mismatching headers stands at 2^64, where no count leaves it
(R107). -/
def wideMismatchCount : State :=
  { (State.reset.wr (P.cfeC 0) Reg.CFE_CAM_STAT_state camBound).wr (P.cfeC 0) Reg.CFE_CAM_FMT_width 0x400 with
    ctrs := [(P.cfeC 0 + 0x820, 2 ^ 64)] }

/-- Refutes O37: the clause on IMAGE_HEADER takes a counter modulo 2^64 also where the header agrees and leaves it alone, and no
hypothesis keeps it below 2^64. -/
theorem not_triggersAndLinesArePaired : ¬ Obligations.TriggersAndLinesArePaired := by
  unfold Obligations.TriggersAndLinesArePaired
  rintro ⟨-, -, hheader, -, -⟩
  have hrest : wideMismatchCount.atRest := by decide +kernel
  have hx : (0x400#24).toNat = wideMismatchCount.camWidth (0 : Fin 8) := by decide +kernel
  have hf : (0#3).toNat = wideMismatchCount.camFmt (0 : Fin 8) := by decide +kernel
  obtain ⟨t, he, -, hbound⟩ := hheader wideMismatchCount 0 0x400#24 0#3 hrest (by decide +kernel)
  obtain ⟨-, -, hcount, -⟩ := hbound (by decide +kernel)
  have hkept := imageHeader_agreeing_ctr hrest hx hf he (a := P.cfeC (0 : Fin 8) + 0x820) (by decide)
  rw [if_neg (fun hbad => hbad.elim (absurd hx) (absurd hf)), hkept] at hcount
  exact absurd hcount (by decide +kernel)

/-! ### O42 -/

/-- Entry 0, of a local group without advance, is resolved to reject with its compare satisfied and no pulse on its channel; the
counter of merged pulses stands at 2^64, where no count leaves it (R107). -/
def wideMergeCount : State :=
  { State.reset with rtu := { State.reset.rtu with entries := [(0, { (default : RtuEntry) with state := 2 })] }
                     ctrs := [(P.rtu + 0x830, 2 ^ 64)] }

/-- Its launch merges no pulse and counts none (R415). -/
theorem launch_wideMergeCount : (wideMergeCount.launch 0).ctr (P.rtu + 0x830) = 2 ^ 64 := by decide +kernel

/-- Refutes O42: the clause on LAUNCH takes the counter of merged pulses modulo 2^64 also where no pulse merges and the launch leaves
it alone, and no hypothesis keeps it below 2^64. -/
theorem not_entriesResolveCommitLaunchAndCompare : ¬ Obligations.EntriesResolveCommitLaunchAndCompare := by
  unfold Obligations.EntriesResolveCommitLaunchAndCompare
  rintro ⟨-, -, hlaunch, -, -⟩
  obtain ⟨t, he, -, -, -, hpulses, -, -⟩ :=
    hlaunch wideMergeCount 0 { (default : RtuEntry) with state := 2 } (by decide +kernel) (by decide +kernel)
  obtain ⟨-, hcount⟩ := hpulses (by decide +kernel) (by decide +kernel) (by decide +kernel)
  have hkept : t.ctr (P.rtu + 0x830) = 2 ^ 64 :=
    (ctr_of_fin_eq he (by decide +kernel) (by decide +kernel) (by decide)).trans launch_wideMergeCount
  rw [hkept] at hcount
  exact absurd hcount (by decide +kernel)

end Sys2Proof.Machine
end
